-- ==== Sys2Proof/Word.lean ====
section
/-!
DEFINITION. The word types of the HX24 model and their plainest arithmetic.
-/

namespace Sys2Proof

/-- One byte. -/
abbrev Byte := BitVec 8

/-- A 64-bit word: registers, module time, virtual and module addresses while they are fields. -/
abbrev Word := BitVec 64

/-- A sparse array: pairs of an index and an entry, indices strictly rising, an unlisted index holding the
entry that the array's reset contents give it. -/
abbrev Sparse (α : Type) := List (Nat × α)

end Sys2Proof
end

