-- ==== Sys2Proof/Syntax.lean ====
section
/-!
DEFINITION. The commands of the HX24: one constructor of `Instr` per row of the command table, with the row's
operands, and the packets, messages and environment values that the operands are made of.
-/

namespace Sys2Proof

/-- R50: a submission ring by its port and its index on that port. -/
structure RingId where
  port : Fin 2
  idx : Fin 64
  deriving DecidableEq, Repr

/-- R90: a command packet without its OPCODE, which the command fixes; reserved fields are kept so that a packet
that breaks R5 can be told. `payload` holds the PAYLOAD_LEN bytes that follow the header. -/
structure Packet where
  flags : BitVec 16
  tag : BitVec 32
  payloadLen : BitVec 32
  session : BitVec 16
  rsv0 : BitVec 16
  ringSeq : BitVec 32
  rsv1 : BitVec 32
  handle : Word
  p0 : BitVec 32
  p1 : BitVec 32
  p2 : BitVec 32
  p3 : BitVec 32
  p4 : BitVec 32
  p5 : BitVec 32
  p6 : BitVec 32
  hdrCrc : BitVec 32
  payload : List Byte
  deriving DecidableEq, Repr

/-- R408: a fabric message. -/
structure Message where
  dest : BitVec 12
  hops : BitVec 4
  src : BitVec 12
  cls : BitVec 2
  escape : Bool
  kind : BitVec 8
  srcEpoch : BitVec 32
  dstEpoch : BitVec 32
  flow : BitVec 16
  seq : BitVec 16
  step : BitVec 32
  opIndex : BitVec 16
  srcRank : BitVec 12
  payload : List Byte
  deriving DecidableEq, Repr

/-- Where REGISTER_WRITE writes: BAR0 (R49) or the port's configuration space (R45, R46, R67, R69, R72). -/
inductive RegSpace where
  | bar0 | config
  deriving DecidableEq, Repr

/-- R490: the operating point that the replica measurement of an island allows; `none` when no frequency does. -/
structure IslandPlan where
  island : Nat
  point : Option (Nat × Nat)
  deriving DecidableEq, Repr

/-- What a boot or a wake meets that the module does not decide: the straps as sampled (R550), whether the PUF
reconstructs and the other die joins, the positions that fail training (R520), the cause 2 or 3 of R477 when a save set
or a reference copy fails on a wake, what the boot re-plan measures (R490), and what the NOR no longer gives back (R520). -/
structure BootInputs where
  bootMode : BitVec 2
  twinSide : BitVec 1
  cascPos : BitVec 4
  pufOk : Bool
  die1Joins : Bool
  badPositions : List Nat
  wakeFault : Option Nat
  islands : List IslandPlan
  /-- R520: records in the NOR whose signature no longer verifies: bit 0 the owner record, bits 1 and 2 configuration copies A and B -/
  norBad : BitVec 3
  /-- R520, R525: the stored image is damaged: the order of the first check that it fails -/
  imageBad : Option Nat
  deriving DecidableEq, Repr

/-- Detections met by the reads of an operator or of a commit (R443–R447): charged units, bad sectors by module
address / 64, sectors that a reread gave, retried bursts, and the second read of CHECK when it differs (R259). -/
structure ReadFaults where
  units : List (BitVec 32)
  badSectors : List Nat
  rereads : Nat
  /-- bursts that failed the link CRC and were retried (R445) -/
  linkRetries : Nat
  /-- a far-tier read failed (R77) -/
  farFail : Bool
  /-- R259: XOR of the first RESULT of a segment of CHECK (its number), of a frame's header (twice its number) or of its original bytes
  (twice its number and 1) against the check of what memory holds; none when the bytes arrive as they stand -/
  flips : List (Nat × Word)
  /-- XOR of the second read of the CHECK procedure (R259) against the first RESULT, 0 when it reads stably -/
  secondRead : Word
  deriving DecidableEq, Repr

/-- R491: what the 10-minute sample reads on an island: its margin now, the margin at each higher voltage in 5 mV
steps, its projected days and its ageing shift. -/
structure IslandSample where
  island : Nat
  marginPs : Int
  higher : List Int
  lowered : List Int
  shiftPpm : Int
  deriving DecidableEq, Repr

/-- R491: eyes below their guard bands: GDDR7 positions, fabric lanes (port × 8 + lane), CXL lanes (port). -/
structure EyeSamples where
  positions : List Nat
  fabricLanes : List Nat
  cxlPorts : List Nat
  deriving DecidableEq, Repr

/-- R402: how a port's training ends: what the far end presented and which lanes failed, or no signal. -/
inductive PeerOutcome where
  | noSignal
  | exchanged (fabricId : BitVec 16) (moduleId : BitVec 12) (peerPort : Nat) (epoch : BitVec 32) (laneFail : BitVec 8)
  deriving DecidableEq, Repr

set_option maxRecDepth 4000 in
/-- The commands: one constructor per row of the command table. -/
inductive Instr where
  /-- DEV_INFO (R106): Command that returns the 256-byte device identity record -/
  | devInfo (r : RingId) (p : Packet)
  /-- DEV_STATUS (R107): Command that returns the 64-byte device status record -/
  | devStatus (r : RingId) (p : Packet)
  /-- SESSION_OPEN (R108): Admin command that opens a session, binds rings, reserves translation slices and returns the session number -/
  | sessionOpen (r : RingId) (p : Packet)
  /-- ADMIN_SETUP (R78): SESSION_OPEN with ADMIN_SETUP set, which installs the admin ring's completion ring and opens no session -/
  | adminSetup (r : RingId) (p : Packet)
  /-- SESSION_CLOSE (R109): Cancels a session's plans and outstanding commands and then frees all of its resources -/
  | sessionClose (r : RingId) (p : Packet)
  /-- MEM_MAP (R110): Maps near-tier or far-tier pages into the session's job domain, all pages or none -/
  | memMap (r : RingId) (p : Packet)
  /-- MEM_UNMAP (R111): Unmaps pages of the session, or fails and unmaps nothing -/
  | memUnmap (r : RingId) (p : Packet)
  /-- DATA_PUT (R112): Writes a chained payload to session memory or to a plan's staging region -/
  | dataPut (r : RingId) (p : Packet)
  /-- DATA_GET (R113): Reads session memory and returns it in completions -/
  | dataGet (r : RingId) (p : Packet)
  /-- PLAN_LOAD (R151): Validates and places a plan binary, then returns a plan handle -/
  | planLoad (r : RingId) (p : Packet)
  /-- PLAN_RUN (R157): Checks and starts a run of a loaded plan -/
  | planRun (r : RingId) (p : Packet)
  /-- PLAN_CANCEL (R159): Ends a running or suspended plan, discarding its open step -/
  | planCancel (r : RingId) (p : Packet)
  /-- PLAN_RESUME (R158): Adds EMIT budget or output space and continues a suspended run from the point where it suspended -/
  | planResume (r : RingId) (p : Packet)
  /-- PLAN_FREE (R156): Frees a loaded plan and its reservations -/
  | planFree (r : RingId) (p : Packet)
  /-- TABLE_CREATE (R302): Creates an embedding table from a descriptor and returns its handle -/
  | tableCreate (r : RingId) (p : Packet)
  /-- TABLE_PUBLISH (R311): Atomically makes a version slot the table's CURRENT version -/
  | tablePublish (r : RingId) (p : Packet)
  /-- TABLE_RETIRE (R312): Moves a LOADED version slot to RETIRING -/
  | tableRetire (r : RingId) (p : Packet)
  /-- TABLE_MIGRATE_POLICY (R328): Sets the hot-block migration policy of a table -/
  | tableMigratePolicy (r : RingId) (p : Packet)
  /-- TABLE_MIGRATE_POLICY_QUERY (R328): Returns a table's migration policy and migration counters -/
  | tableMigratePolicyQuery (r : RingId) (p : Packet)
  /-- BASIN_LOAD_WRITE (R383): Stages Basin entry records and applies them at the governing step boundary -/
  | basinLoadWrite (r : RingId) (p : Packet)
  /-- BASIN_LOAD_CLEAR (R381): Sets a Basin segment's width and invalidates all of its entries -/
  | basinLoadClear (r : RingId) (p : Packet)
  /-- BASIN_LOAD_RELEASE (R381): Invalidates all entries of a Basin segment and frees the segment -/
  | basinLoadRelease (r : RingId) (p : Packet)
  /-- BASIN_SEARCH (R390): Searches the module's own Basins outside any plan -/
  | basinSearch (r : RingId) (p : Packet)
  /-- TAP_ATTACH (R255): Attaches a check tap to a stream window, or detaches it -/
  | tapAttach (r : RingId) (p : Packet)
  /-- TAP_READ (R256): Returns a tap's running value, result and byte count, taken between beats -/
  | tapRead (r : RingId) (p : Packet)
  /-- TAP_WRITE (R257): Restores a tap's RUNNING value and BYTE_COUNT and clears SEQ_FAULT -/
  | tapWrite (r : RingId) (p : Packet)
  /-- CODEC_CTX_SPILL (R244): Writes a suspended decode context's state block to memory and frees its slot -/
  | codecCtxSpill (r : RingId) (p : Packet)
  /-- CODEC_CTX_FREE (R244): Discards a suspended decode context -/
  | codecCtxFree (r : RingId) (p : Packet)
  /-- POWER_SET_ACTIVE (R475): Leaves SIMMER for ACTIVE -/
  | powerSetActive (r : RingId) (p : Packet)
  /-- POWER_SET_SIMMER (R470): Enters SIMMER by sending sleep requests to the block groups in order, rolling back on a refusal -/
  | powerSetSimmer (r : RingId) (p : Packet)
  /-- POWER_SET_DORMANT (R472): Enters DORMANT: stops the groups, saves state, isolates domains and drops the main rails -/
  | powerSetDormant (r : RingId) (p : Packet)
  /-- POWER_SET_COLD (R479): Enters COLD, writing the clean-shutdown marker and turning off every internal rail -/
  | powerSetCold (r : RingId) (p : Packet)
  /-- POWER_SET_PARK (R481): POWER_SET with PARK_ONLY, which sets the parked crater set and re-places plans -/
  | powerSetPark (r : RingId) (p : Packet)
  /-- POWER_QUERY (R482): Returns the power state record -/
  | powerQuery (r : RingId) (p : Packet)
  /-- SNAP_ARM (R503): Arms the Tremor trigger unit with an arming record, or fires it at once under IMMEDIATE -/
  | snapArm (r : RingId) (p : Packet)
  /-- SNAP_READ (R504): Returns the snapshot summary or one island's record and marks that island read -/
  | snapRead (r : RingId) (p : Packet)
  /-- TWIN_PAIR (R429): OP PAIR, which runs hello, epoch, copy and start of mirroring with the twin -/
  | twinPair (r : RingId) (p : Packet)
  /-- RESYNC (R438): TWIN_PAIR OP RESYNC, which brings a fenced, detached or unpaired module back into its pair -/
  | resync (r : RingId) (p : Packet)
  /-- HANDBACK (R439): TWIN_PAIR OP HANDBACK, which gives the twin's windows back at the next step boundary -/
  | handback (r : RingId) (p : Packet)
  /-- TWIN_RELEASE (R440): Drains the mirror, hands over to the twin and enters DORMANT or COLD -/
  | twinRelease (r : RingId) (p : Packet)
  /-- TWIN_STATUS (R442): Returns the pair status and the last mirrored commit record of each plan -/
  | twinStatus (r : RingId) (p : Packet)
  /-- FABRIC_CONFIG (R405): Sets the module ID, fabric ID, epoch, port enables and route table -/
  | fabricConfig (r : RingId) (p : Packet)
  /-- FABRIC_CONFIG_QUERY (R407): Returns the fabric header and the six port records -/
  | fabricConfigQuery (r : RingId) (p : Packet)
  /-- OWNER_TABLE_SET (R415): Writes owner, rank and minimum-epoch entries, at once or at a governing flip -/
  | ownerTableSet (r : RingId) (p : Packet)
  /-- FW_STAGE (R526): Receives and checks a firmware image in a reserved near-tier area, or in recovery programs it into NOR -/
  | fwStage (r : RingId) (p : Packet)
  /-- FW_COMMIT (R527): Erases the NOR image area, programs the staged image and verifies it -/
  | fwCommit (r : RingId) (p : Packet)
  /-- ATTEST (R533): Signs and returns an attestation report over a host nonce -/
  | attest (r : RingId) (p : Packet)
  /-- CONFIG_PUT (R531): KIND CONFIG, which verifies and stores a signed configuration record -/
  | configPut (r : RingId) (p : Packet)
  /-- ENROLL (R532): CONFIG_PUT KIND ENROLL, which enrols an owner public key -/
  | enroll (r : RingId) (p : Packet)
  /-- CONFIG_PUT_RELEASE (R532): CONFIG_PUT KIND RELEASE, which erases the owner record under a vendor release token -/
  | configPutRelease (r : RingId) (p : Packet)
  /-- DEBUG_TOKEN (R516): Verifies a debug token and sets the debug level -/
  | debugToken (r : RingId) (p : Packet)
  /-- DEBUG_TOKEN_QUERY (R516): Returns the debug level, cap, serial and boot nonce -/
  | debugTokenQuery (r : RingId) (p : Packet)
  /-- MARGIN_REPORT (R495): Returns the operating point and margin record of every island -/
  | marginReport (r : RingId) (p : Packet)
  /-- TEST_RUN_QUICK (R461): Runs the QUICK in-service test of a unit -/
  | testRunQuick (r : RingId) (p : Packet)
  /-- TEST_RUN_FULL (R461): Runs the FULL in-service test of a unit -/
  | testRunFull (r : RingId) (p : Packet)
  /-- UNIT_RETIRE (R463): OP RETIRE, which retires a unit with reason COMMAND -/
  | unitRetire (r : RingId) (p : Packet)
  /-- RESTORE (R463): UNIT_RETIRE OP RESTORE, which returns a tested unit to service -/
  | restore (r : RingId) (p : Packet)
  /-- UNIT_RETIRE_QUERY (R463): UNIT_RETIRE OP QUERY, which returns the retirement list -/
  | unitRetireQuery (r : RingId) (p : Packet)
  /-- UNKNOWN_OPCODE (R92): A packet whose opcode is reserved or is EVENT, which completes UNSUPPORTED -/
  | unknownOpcode (r : RingId) (opcode : BitVec 16) (p : Packet)
  /-- RESET_CTL_WARM (R62): RESET_CTL ACTION WARM, which runs the warm reset sequence -/
  | resetCtlWarm (port : Fin 2) (value : Word) (b : BootInputs)
  /-- RESET_CTL_RECOVERY (R63): RESET_CTL ACTION RECOVERY, which reboots into RECOVERY_WAIT -/
  | resetCtlRecovery (port : Fin 2) (value : Word) (b : BootInputs)
  /-- TREMOR_FIRE (R56): Register write that fires the Tremor trigger -/
  | tremorFire (port : Fin 2) (value : Word)
  /-- RING_DB (R57): Doorbell write that sets a ring's TAIL so that packets can be consumed -/
  | ringDb (r : RingId) (value : Word)
  /-- HOST_EVENT_MASK (R67): Write of the event mask, which fires the device vector for newly enabled pending events -/
  | hostEventMask (port : Fin 2) (value : Word)
  /-- MSIX_UNMASK (R67): Unmasking or enabling an MSI-X vector, which sends the messages held in the pending bit array -/
  | msixUnmask (port : Fin 2) (vector : Option (Fin 65))
  /-- BAR0_BAD_ACCESS (R48): A BAR0 access that is not naturally aligned or not 64 bits wide, which reads zero or is ignored -/
  | bar0BadAccess (port : Fin 2) (offset : BitVec 16) (write : Bool)
  /-- REGISTER_WRITE (R6): A write to a register that has no row of its own, applied per its access code -/
  | registerWrite (port : Fin 2) (space : RegSpace) (offset : BitVec 16) (value : Word)
  /-- BAR2_WRITE (R65): A write to a ring window, stored when the ring is enabled and dropped otherwise -/
  | bar2Write (port : Fin 2) (offset : Nat) (data : List Byte)
  /-- VAUX_UP (R547): VAUX_3V3 enters its range, which starts the always-on regulator and the SMBus endpoint -/
  | vauxUp (addr : BitVec 2)
  /-- PWR_EN_RISE (R547): PWR_EN rises, which ramps the main rails, releases PWRGD_OUT and boots the module -/
  | pwrEnRise (vinOk : Bool) (b : BootInputs)
  /-- PWR_EN_FALL (R548): PWR_EN falls, which abandons commands, writes the shutdown marker and drops the main rails -/
  | pwrEnFall
  /-- VAUX_LOSS (R546): VAUX_3V3 falls below 3.0 V, which loses the always-on contents -/
  | vauxLoss
  /-- VIN_FAULT (R546): VIN_48 is out of range for 100 µs, which asserts FAULT_N and drops the rails -/
  | vinFault
  /-- REGULATOR_FAULT (R546): An internal regulator is out of regulation for 50 µs -/
  | regulatorFault
  /-- THERMAL_TRIP (R480): A junction reaches 110 °C, which shuts the module down at once -/
  | thermalTrip (island : Nat)
  /-- RESET_N (R549): RESET_N is held low for at least 10 µs, which starts a warm reset -/
  | resetN (b : BootInputs)
  /-- PERST_ASSERT (R70): Cn_PERST_N is asserted while the module runs, which resets that port alone and closes its sessions -/
  | perstAssert (port : Fin 2)
  /-- PERST_DEASSERT (R69): Cn_PERST_N is deasserted, which starts link bring-up or wakes the module from DORMANT -/
  | perstDeassert (port : Fin 2) (b : BootInputs)
  /-- WAKE_REQ_N (R480): Assertion of WAKE_REQ_N, which is latched or starts an exit from SIMMER or DORMANT -/
  | wakeReqN (b : BootInputs)
  /-- THERM_N (R549): The board pulls THERM_N low, which lowers the crater cap step by step -/
  | thermN
  /-- THERM_N_RELEASE (R549): The board releases THERM_N, which lets the cap lift under R537 -/
  | thermNRelease
  /-- TIME_SYNC (R553): A TIME_SYNC edge, which sets or slews module time or is ignored -/
  | timeSync
  /-- TRIG_IN (R498): The selected edge on TRIG_IN fires the Tremor trigger -/
  | trigIn (falling : Bool)
  /-- CBL_PRES (R543): A change of Fn_CBL_PRES_N, which disables a cage or makes it eligible to train -/
  | cblPres (port : Fin 6) (present : Bool)
  /-- JTAG_TRST_N (R509): JTAG_TRST_N resets the test access port to Test-Logic-Reset -/
  | jtagTrstN
  /-- IDCODE (R509): JTAG instruction that shifts out the identity code -/
  | idcode
  /-- SAMPLE_PRELOAD (R509): JTAG boundary-scan sample or preload -/
  | samplePreload (pins shifted : Nat)
  /-- EXTEST (R509): JTAG instruction that takes the pins from the functional logic and drives the boundary register -/
  | extest (shifted : Nat)
  /-- CLAMP (R509): JTAG instruction that takes and clamps the pins -/
  | clamp
  /-- HIGHZ (R509): JTAG instruction that puts the pins into high impedance -/
  | highz
  /-- DTMCS (R510): JTAG access to the RISC-V debug transport control -/
  | dtmcs (value : BitVec 32)
  /-- DMI (R510): JTAG debug-module access to the Caldera harts: halt, resume, step, abstract commands and triggers -/
  | dmi (addr : BitVec 7) (op : BitVec 2) (data : BitVec 32)
  /-- ZDBG_TOKEN (R516): Shifts in a debug token and verifies it as DEBUG_TOKEN does -/
  | zdbgToken (token : List Byte)
  /-- ZDBG_CTL (R514): JTAG access to the debug level, boot nonce and status register -/
  | zdbgCtl
  /-- ZDBG_TRIGGER (R498): Writing TRIGGER in ZDBG_CTL, which fires the Tremor trigger as source DEBUG -/
  | zdbgTrigger
  /-- ZSBA (R512): Debug system-bus access to module addresses, optionally translated through a session -/
  | zsba (write : Bool) (session : Option Nat) (addr : Word) (len : Nat) (data : List Byte)
  /-- BYPASS (R509): JTAG bypass, also taken for undefined instruction codes -/
  | bypass (code : BitVec 8)
  /-- CDBG_HALT (R511): Write requesting a halt of core slots at their next operator boundary -/
  | cdbgHalt (crater : Fin 32) (slots : BitVec 33)
  /-- CDBG_RESUME (R511): Write resuming halted core slots -/
  | cdbgResume (crater : Fin 32) (slots : BitVec 33)
  /-- CDBG_STEP (R511): CDBG_RESUME with STEP, which resumes core slots for one operator and then halts them -/
  | cdbgStep (crater : Fin 32) (slots : BitVec 33)
  /-- TIME_SET (R553): MCTP message that sets module time at the next TIME_SYNC edge -/
  | timeSet (seconds : Word)
  /-- TIME_GET (R553): MCTP message that returns the present module time -/
  | timeGet
  /-- PLDM_REQUEST (R555): A PLDM base or platform-monitoring request served by the SMBus endpoint -/
  | pldmRequest (body : List Byte)
  /-- MCTP_CONTROL (R555): An MCTP control message served by the SMBus endpoint -/
  | mctpControl (body : List Byte)
  /-- FW_HEARTBEAT (R53): Every 1 ms tick, at which the leading Caldera increments the heartbeat count -/
  | fwHeartbeat
  /-- HEARTBEAT_WATCHDOG (R53): The heartbeat has not changed for 10 ms, so FW_ALIVE is cleared and FW_STALL is set -/
  | heartbeatWatchdog
  /-- COAL_TIMER (R99): COAL_US has passed since the first pending completion, so the ring vector fires -/
  | coalTimer (r : RingId)
  /-- CQ_HEAD_POLL (R97): 2 µs re-read of the completion head word while a completion waits for room -/
  | cqHeadPoll (r : RingId) (head : Word)
  /-- CXL_LINK_UP (R69): A CXL port reaches DL_Active and its configuration space answers -/
  | cxlLinkUp (port : Fin 2) (width rate : Nat)
  /-- LINK_RETRAIN (R43): A CXL port retrains to another width or rate, which closes or reopens its rings -/
  | linkRetrain (port : Fin 2) (width rate : Nat)
  /-- FAR_TIER_COMPLETION (R77): A far-tier read completion arrives, and an error or poisoned completion counts as a detection -/
  | farTierCompletion (plan : Word) (op : Nat) (bad : Bool)
  /-- FAR_TIER_TIMEOUT (R76): A far-tier request is not completed within 10 ms, which counts as a detection -/
  | farTierTimeout (plan : Word) (op : Nat)
  /-- STEP_BOUNDARY (R27): When the last operator of a step is done: drain, merge, commit, flip and advance -/
  | stepBoundary (plan : Word) (f : ReadFaults)
  /-- STEP_REPLAY (R166): After a detection and the drain of the failed attempt, the step runs again from committed inputs -/
  | stepReplay (plan : Word)
  /-- EMIT_DELIVERY (R172): Delivery of a committed step's EMIT records to the completion ring -/
  | emitDelivery (plan : Word)
  /-- MIGRATION_DECISION (R329): At every INTERVAL_STEPS-th boundary, firmware chooses blocks to promote or demote and decays the counts -/
  | migrationDecision (table : Word)
  /-- MIGRATION_COPY (R330): A block's copy to its destination reaches the block's end in idle Vent cycles -/
  | migrationCopy (table : Word) (block : Nat)
  /-- BASIN_SCRUB (R446): 100 ms scrub that reads every Basin row and rewrites rows that fail parity -/
  | basinScrub (badRows : List Nat)
  /-- ISLAND_REPLAN (R490): 24-hourly re-plan of every island's operating point -/
  | islandReplan (plan : List IslandPlan)
  /-- MARGIN_SAMPLE (R491): 10-minute sample of island margins and lane eyes, which raises voltage, derates, retrains or retires -/
  | marginSample (samples : List IslandSample) (eyes : EyeSamples)
  /-- POWER_SAMPLE (R537): Input power sample that caps crater clocks or paces feeders against POWER_LIMIT_W -/
  | powerSample (avg1 avg10 : Nat) (over2ms : Bool)
  /-- JUNCTION_SAMPLE (R538): 100 µs junction temperature read, which lowers or lifts the crater cap -/
  | junctionSample (temps : List Int) (cool10ms : Bool)
  /-- SLEEP_NO_ANSWER (R468): A block neither agrees nor refuses a sleep request within 1 ms, so the transition is refused -/
  | sleepNoAnswer (unit : BitVec 32)
  /-- EVENT_CONDITION (R501): 1 µs evaluation of the armed status or counter condition, which fires the trigger -/
  | eventCondition (status : Option (BitVec 8 × Word))
  /-- SCHEDULED_FIRE (R502): Module time reaches FIRE_TIME, which fires the trigger -/
  | scheduledFire
  /-- FABRIC_LINK_UP (R402): Fabric port training completes with the port UP or UP_7_8, or goes DOWN -/
  | fabricLinkUp (port : Fin 6) (peer : PeerOutcome)
  /-- FLIT_RETRY (R403): A flit fails its CRC and is replayed from the retry buffer -/
  | flitRetry (port : Fin 6) (lane : Fin 8)
  /-- RETRAIN_TIMEOUT (R404): A retrain that does not finish within 100 ms leaves the port DOWN -/
  | retrainTimeout (port : Fin 6)
  /-- FABRIC_FORWARD (R411): A message for another module is forwarded adaptively or on escape, or discarded -/
  | fabricForward (port : Fin 6) (m : Message) (credits : List Nat)
  /-- ESCAPE_WAIT (R411): No adaptive credit for ESC_WAIT_NS, so the message moves to the escape channel -/
  | escapeWait (m : Message)
  /-- ROW_READ (R327): Request for a sharded table row owned by this module -/
  | rowRead (link : Nat) (m : Message)
  /-- ROW_DATA (R327): A remote row returned to the requesting pooling Vent -/
  | rowData (link : Nat) (m : Message)
  /-- UPDATE (R327): A forwarded SCATTER_UPDATE contribution staged at the owner under its key -/
  | update (link : Nat) (m : Message)
  /-- ACK (R410): A cumulative flow acknowledgement that opens the sender's window -/
  | ack (link : Nat) (m : Message)
  /-- ACK_TIMER (R410): 2 µs after the oldest unacknowledged message, the receiver sends an ACK -/
  | ackTimer (src flow : Nat)
  /-- STALE (R413): A STALE response, which fails the requesting operator with STALE_EPOCH -/
  | stale (link : Nat) (m : Message)
  /-- FENCE (R413): A FENCE with a higher epoch puts the module into FENCED -/
  | fence (link : Nat) (m : Message)
  /-- UNREACHABLE (R411): An UNREACHABLE response, which fails the requesting operator with FABRIC_TIMEOUT -/
  | unreachable (link : Nat) (m : Message)
  /-- ARRIVE (R417): A step barrier arrival from a child rank -/
  | arrive (link : Nat) (m : Message)
  /-- RELEASE (R417): A step barrier release from the parent rank -/
  | release (link : Nat) (m : Message)
  /-- EXCHANGE_DATA (R419): Received EXCHANGE rows written into OUT0 -/
  | exchangeData (link : Nat) (m : Message)
  /-- REDUCE_DATA (R420): Received REDUCE partials -/
  | reduceData (link : Nat) (m : Message)
  /-- GATHER_DATA (R420): Received ALLGATHER rows -/
  | gatherData (link : Nat) (m : Message)
  /-- TOPK_LIST (R373): A partial top-k list received for a merge node -/
  | topkList (link : Nat) (m : Message)
  /-- RELAY_FRAGMENT (R420): A relayed weight fragment received and forwarded to subscribers -/
  | relayFragment (link : Nat) (m : Message)
  /-- SEARCH (R392): A cascade key broadcast from the head, searched in the local Basin -/
  | search (link : Nat) (m : Message)
  /-- SEARCH_RESULT (R392): The final cascade word sent by the tail to the head -/
  | searchResult (link : Nat) (m : Message)
  /-- REQ_TIMEOUT (R421): A response has not arrived REQ_TIMEOUT_US after its request -/
  | reqTimeout (plan : Word) (op : Nat)
  /-- COLL_TIMEOUT (R421): A barrier, collective, merge or relay makes no progress for COLL_TIMEOUT_MS -/
  | collTimeout (plan : Word) (op : Nat)
  /-- CASCADE_WORD (R392): A word on MATCH_IN, which is resolved against the local result and sent on MATCH_OUT -/
  | cascadeWord (word : Word)
  /-- CASCADE_SYNC (R395): SYNC words on MATCH_IN, which lock the member after 64 consecutive words -/
  | cascadeSync (count : Nat)
  /-- CASCADE_LOCK_TIMEOUT (R395): A member is not locked within 10 ms, so the run ends FABRIC_TIMEOUT -/
  | cascadeLockTimeout
  /-- SEARCH_TIMEOUT (R397): A search's final word has not reached the head within 1 ms -/
  | searchTimeout (plan : Word) (seq : Nat)
  /-- HEARTBEAT_SEND (R432): 100 µs timer that sends HEARTBEAT on each twin link -/
  | heartbeatSend
  /-- HEARTBEAT_BLOCK (R432): 10 ms write of the own heartbeat block and read of the twin's -/
  | heartbeatBlock (twin : Option (List Byte))
  /-- HEARTBEAT (R432): A received twin HEARTBEAT, checked against the pair epoch -/
  | heartbeat (link : Nat) (m : Message)
  /-- TAKEOVER (R433): All three paths are silent for TAKEOVER_MS, so the module takes a new epoch, confirms and serves SOLO -/
  | takeover (readBack : Bool) (confirm : List (BitVec 32))
  /-- DETACH (R435): Both links are silent while the shared path is alive under DETACH, so the pair becomes DETACHED -/
  | detach
  /-- PAIR_TIMEOUT (R428): The twin has not sent its TWIN_PAIR within 10 s, so pairing fails PARTNER_LOST -/
  | pairTimeout
  /-- PAIR_HELLO (R429): The twin's pairing record, which is received and checked -/
  | pairHello (link : Nat) (m : Message)
  /-- MIRROR_WRITE (R430): A mirrored write staged by the receiver -/
  | mirrorWrite (link : Nat) (m : Message)
  /-- MIRROR_COMMIT (R430): A step's commit, which applies that step's staged writes to the IN windows and is acknowledged -/
  | mirrorCommit (link : Nat) (m : Message)
  /-- MIRROR_ACK (R431): Acknowledgement that releases flips waiting on the mirror -/
  | mirrorAck (link : Nat) (m : Message)
  /-- RESYNC_DATA (R438): Window data copied during pairing or resync -/
  | resyncData (link : Nat) (m : Message)
  /-- HANDOVER (R440): The releasing twin hands over, and the receiver takes a new epoch and becomes SOLO -/
  | handover (link : Nat) (m : Message)
  /-- HANDOVER_ACK (R440): Acknowledgement that lets the releasing module leave the pair -/
  | handoverAck (link : Nat) (m : Message)
  /-- ROW_REFETCH (R448): A request for a mirrored row, answered once MIRROR_COUNT commits are applied -/
  | rowRefetch (link : Nat) (m : Message)
  /-- ROW_REFETCH_DATA (R448): A refetched row, written back and delivered to the reader -/
  | rowRefetchData (link : Nat) (m : Message)
  /-- REFETCH_TIMEOUT (R448): No refetch answer within TAKEOVER_MS, so the sector is poisoned -/
  | refetchTimeout (index : Nat)
  /-- TWIN_STALE (R436): A TWIN STALE answer, which fences the module -/
  | twinStale (link : Nat) (m : Message)
  /-- IMAGE_REQUEST (R441): A recovering twin asks for the committed image, which is answered with IMAGE_DATA -/
  | imageRequest (link : Nat) (m : Message)
  /-- IMAGE_DATA (R528): Image bytes received by the boot ROM in recovery and programmed into NOR -/
  | imageData (link : Nat) (m : Message)
  /-- RECOVERY_POLL (R528): 100 ms timer in RECOVERY_WAIT that sends IMAGE_REQUEST on the twin links -/
  | recoveryPoll
  /-- RECOVERY_STALL (R528): A twin image stream stalls for 1 s, so the module returns to RECOVERY_WAIT -/
  | recoveryStall
  /-- SCAN (R211): Operator that discovers, parses and admits records into a batch and writes its manifest -/
  | scan (plan : Word) (op : Nat) (f : ReadFaults)
  /-- BATCH_TIMEOUT (R220): TIMEOUT_US passes since step start, so the batch closes TIMEOUT -/
  | batchTimeout (plan : Word)
  /-- DECODE (R238): Operator that pre-checks and decodes Pumice frames, suspending on output space -/
  | decode (plan : Word) (op : Nat) (f : ReadFaults)
  /-- ENCODE (R247): Operator that encodes rows into Pumice frames -/
  | encode (plan : Word) (op : Nat) (f : ReadFaults)
  /-- CHECK (R259): Operator that compares segment CRCs with stored values, rereading on a mismatch -/
  | check (plan : Word) (op : Nat) (f : ReadFaults)
  /-- RELAYOUT (R178): Operator that copies, converts, permutes or transposes a tensor on the layout engines -/
  | relayout (plan : Word) (op : Nat) (f : ReadFaults)
  /-- FILTER (R270): Operator that writes a row mask from grouped terms -/
  | filter (plan : Word) (op : Nat) (f : ReadFaults)
  /-- PROJECT (R272): Operator that derives fields by per-element operations -/
  | project (plan : Word) (op : Nat) (f : ReadFaults)
  /-- HASH (R274): Operator that hashes key fields -/
  | hash (plan : Word) (op : Nat) (f : ReadFaults)
  /-- BUCKET (R277): Operator that buckets values by boundaries or by multiply-shift -/
  | bucket (plan : Word) (op : Nat) (f : ReadFaults)
  /-- NORMALISE (R285): Operator that normalises features -/
  | normalise (plan : Word) (op : Nat) (f : ReadFaults)
  /-- STATS (R281): Operator that forms per-core statistics partials and merges them -/
  | stats (plan : Word) (op : Nat) (f : ReadFaults)
  /-- JOIN_BUILD (R290): Operator that builds a hash table in canonical order -/
  | joinBuild (plan : Word) (op : Nat) (f : ReadFaults)
  /-- JOIN_PROBE (R291): Operator that probes a hash table and writes payloads -/
  | joinProbe (plan : Word) (op : Nat) (f : ReadFaults)
  /-- GROUP_AGG (R294): Operator that aggregates rows by key at the merge -/
  | groupAgg (plan : Word) (op : Nat) (f : ReadFaults)
  /-- SORT (R297): Operator that sorts rows stably by one or two keys -/
  | sort (plan : Word) (op : Nat) (f : ReadFaults)
  /-- GATHER (R317): Operator that looks up table rows by index -/
  | gather (plan : Word) (op : Nat) (f : ReadFaults)
  /-- POOL_GATHER (R319): Operator that looks up and reduces bags of table rows -/
  | poolGather (plan : Word) (op : Nat) (f : ReadFaults)
  /-- SCATTER_UPDATE (R323): Operator that stages row-update contributions for the merge -/
  | scatterUpdate (plan : Word) (op : Nat) (f : ReadFaults)
  /-- DENSE (R351): Operator that applies streamed weight fragments to resident samples -/
  | dense (plan : Word) (op : Nat) (f : ReadFaults)
  /-- ACTIVATE (R352): Operator that applies an activation function or its gradient -/
  | activate (plan : Word) (op : Nat) (f : ReadFaults)
  /-- NORM (R354): Operator that applies layer or RMS normalisation -/
  | norm (plan : Word) (op : Nat) (f : ReadFaults)
  /-- INTERACT (R355): Operator that forms pairwise dot products -/
  | interact (plan : Word) (op : Nat) (f : ReadFaults)
  /-- ATTEND_SHORT (R356): Operator that runs short-sequence attention -/
  | attendShort (plan : Word) (op : Nat) (f : ReadFaults)
  /-- SOFTMAX (R357): Operator that computes softmax or log-softmax -/
  | softmax (plan : Word) (op : Nat) (f : ReadFaults)
  /-- DENSE_GRAD_INPUT (R358): DENSE_GRAD MODE INPUT, which computes input gradients from transposed weights -/
  | denseGradInput (plan : Word) (op : Nat) (f : ReadFaults)
  /-- DENSE_GRAD_WEIGHT (R359): DENSE_GRAD MODE WEIGHT, which computes weight gradients through the return flow -/
  | denseGradWeight (plan : Word) (op : Nat) (f : ReadFaults)
  /-- OPT_STEP (R360): Operator that applies an SGD or Adam update in the Vents at the merge -/
  | optStep (plan : Word) (op : Nat) (f : ReadFaults)
  /-- TOPK (R368): Operator in MODE LIMIT, which selects the top K of each row on one core -/
  | topk (plan : Word) (op : Nat) (f : ReadFaults)
  /-- TOPK_COLLECTIVE (R372): Operator in MODE COLLECTIVE, which selects top K over shards of long rows -/
  | topkCollective (plan : Word) (op : Nat) (f : ReadFaults)
  /-- TOPK_MERGE_NODE (R374): A merge node runs once both child lists are ready -/
  | topkMergeNode (plan : Word) (op : Nat) (node : Nat)
  /-- MATCH (R385): Operator that searches keys in the Basins, locally or over the cascade -/
  | matchOp (plan : Word) (op : Nat) (f : ReadFaults)
  /-- EXCHANGE_SEND (R419): EXCHANGE MODE SEND, which sends rows to their owning ranks -/
  | exchangeSend (plan : Word) (op : Nat) (f : ReadFaults)
  /-- EXCHANGE_RETURN (R419): EXCHANGE MODE RETURN, which returns rows to their origins -/
  | exchangeReturn (plan : Word) (op : Nat) (f : ReadFaults)
  /-- REDUCE (R420): Operator that sums FP32 tensors over ranks in a fixed tree -/
  | reduce (plan : Word) (op : Nat) (f : ReadFaults)
  /-- ALLGATHER (R420): Operator that gathers the rows of every rank -/
  | allgather (plan : Word) (op : Nat) (f : ReadFaults)
  /-- BARRIER (R418): Operator that waits for every rank of the plan -/
  | barrier (plan : Word) (op : Nat) (f : ReadFaults)
  /-- EMIT (R171): Operator that holds rows, results or manifests as records for delivery after the commit -/
  | emit (plan : Word) (op : Nat) (f : ReadFaults)
  /-- REFCLK_STABLE (R69): Cn_REFCLK becomes stable, and if it is the last of the three conditions to hold it starts the port's bring-up -/
  | refclkStable (port : Fin 2)
  /-- CASCADE_LOCK_LOSS (R397): A cascade member loses lock on MATCH_IN during a step, so the run ends with FABRIC_TIMEOUT on every member -/
  | cascadeLockLoss
  /-- FABRIC_SIGNAL_LOSS (R407): A fabric port loses signal from its far end, for example when the neighbour enters DORMANT, and goes DOWN with reason NO_SIGNAL -/
  | fabricSignalLoss (port : Fin 6)
  /-- TIME_SET_NO_EDGE (R553): No TIME_SYNC edge arrives within 2 s of a TIME_SET, so the value is discarded and the response reports NO_EDGE -/
  | timeSetNoEdge
  /-- ATTEST_BUCKET_REFILL (R534): Every 15 minutes the ATTEST signature bucket refills by one, up to 4 -/
  | attestBucketRefill
  /-- AON_OVERLOAD (R478): The always-on load exceeds 40 mA in DORMANT, so the output drops below 0.68 V, the contents are marked lost and BROWNOUT is set -/
  | aonOverload
  deriving DecidableEq, Repr

end Sys2Proof
end

