-- ==== Sys2Proof/Decode.lean ====
section
/-!
DEFINITION. The decoder over the command table: no row of it gives an encoding.
-/

namespace Sys2Proof

/-- The command a table word spells. The command table gives no row any bits, so no word spells a command. -/
def decodeTableWord (_nbits _w : Nat) : Option Instr := none

end Sys2Proof
end

