-- ==== Sys2Proof/Machine/Types.lean ====
section
/-!
DEFINITION. The enumerations of the spec that state, packets and plans share: status codes, formats, spaces,
stage classes, operators, boot phases and stages, power and pair states.
-/

namespace Sys2Proof.Machine

/-- Byte-addressed contents: strictly rising addresses, an unlisted address reading as zero. -/
abbrev Memory := List Host.Cell

/-- R114: the status codes. -/
inductive Status where
  | done | suspended | doneWithDrops | cancelled
  | badPacket | badPlan | limit | align | overlap | aliasWrite | access | busy | refused | noResource
  | version | implausible | unsupported
  | checkMismatch | checkSuspect | replayLimit | poisoned | staleEpoch
  | fabricTimeout | partnerLost | fenced | brownout | internal
  deriving DecidableEq, Repr

/-- R117: element and cell formats. -/
inductive Format where
  | fp32 | bf16 | fp16 | e4m3 | e5m2 | int32 | a8 | u8 | u64
  | b8 | b6 | b4 | b3 | tn2 | tn5
  deriving DecidableEq, Repr

/-- R130: the space a descriptor lives in. -/
inductive Space where
  | session | localPools | staging | blocked
  deriving DecidableEq, Repr

/-- R147: stage classes. -/
inductive StageClass where
  | core | vent | spring | pumice | layout | basin | fabric | host
  deriving DecidableEq, Repr

/-- R150: the operators of a plan. -/
inductive Operator where
  | scan | decode | encode | check | relayout
  | filter | project | hash | bucket | normalise | stats
  | joinBuild | joinProbe | groupAgg | sort
  | gather | poolGather | scatterUpdate
  | dense | activate | norm | interact | attendShort | softmax | denseGrad | optStep
  | topk | matchOp
  | exchange | reduce | allgather | barrier | emit
  deriving DecidableEq, Repr

/-- R52: BOOT_PHASE. -/
inductive BootPhase where
  | rom | imageLoad | fwInit | running | recovery | failed
  deriving DecidableEq, Repr

/-- R58: STAGE of BOOT_STATUS. -/
inductive BootStage where
  | romStart | puf | imageVerify | fwLoad | die1Join | memTrain | nearClear | running
  | recoveryWait | recoveryLoad
  deriving DecidableEq, Repr

/-- R435: the pair state. -/
inductive PairState where
  | unpaired | pairing | paired | solo | detached | fenced | releasing
  deriving DecidableEq, Repr

/-- R310: the state of a version slot. -/
inductive SlotState where
  | empty | loaded | current | retiring
  deriving DecidableEq, Repr

/-- R407: the state of a fabric port. -/
inductive PortState where
  | disabled | training | up | up78 | down
  deriving DecidableEq, Repr

/-- R220: why a batch closed. -/
inductive BatchClose where
  | full | timeout | endOfInput | rejectFull
  deriving DecidableEq, Repr

/-- R216: why a record was rejected. -/
inductive RejectReason where
  | hdrCheck | bodyCheck | parse | limit | implausible | shape | dupId | augMissing | augBad
  | truncated | schema | decode
  deriving DecidableEq, Repr

/-- The event codes of R115. -/
inductive EventCode where
  | marginLow | unitRetired | twinTakeover | tableMigrated | thermal | powerDone | snapReady
  deriving DecidableEq, Repr

end Sys2Proof.Machine
end

