-- ==== Sys2Proof/Machine/HostState.lean ====
section
/-!
DEFINITION. State of the host attachment and of the Cipol protocol: ports, rings, completion rings, sessions,
translation (chapters 02 and 03).
-/

namespace Sys2Proof.Machine

/-- Where the completion of a started command goes (R95, R101). -/
structure CmdRef where
  port : Nat
  ring : Nat
  tag : BitVec 32
  ringSeq : BitVec 32
  opcode : BitVec 16
  noIrq : Bool
  deriving DecidableEq, Repr

/-- A completion as R95 lays it out; PHASE is set when it is written. -/
structure Completion where
  tag : BitVec 32
  status : Status
  phase : Bool
  more : Bool
  opcode : BitVec 16
  ringSeq : BitVec 32
  count0 : Word
  count1 : BitVec 32
  payload : List Byte
  noIrq : Bool
  deriving DecidableEq, Repr

/-- R115: an event on its way to one completion ring. -/
structure Event where
  code : EventCode
  unit : BitVec 32
  time : Word
  detail0 : Word
  detail1 : Word
  deriving DecidableEq, Repr

/-- R94, R97, R99: one completion ring in host memory, seen from the module. -/
structure CompletionRing where
  base : Word
  headAddr : Word
  log2Size : Nat
  coalCount : Nat
  coalUs : Nat
  /-- units written since the ring was set up -/
  written : Nat
  /-- units the host has released, as last read from the head word -/
  released : Nat
  /-- completions without NO_IRQ written since the vector last fired -/
  pendingIrq : Nat
  /-- module time of the first of them -/
  firstPending : Option Word
  /-- completions that did not fit, oldest first -/
  held : List Completion
  deriving DecidableEq, Repr

/-- A chain in progress on a ring (R93). -/
structure Chain where
  opcode : BitVec 16
  tag : BitVec 32
  session : BitVec 16
  handle : Word
  ringSeq : BitVec 32
  noIrq : Bool
  /-- parameter words of the first packet -/
  params : List (BitVec 32)
  /-- payload bytes gathered so far; for DATA_PUT the count of bytes taken is `taken` -/
  payload : List Byte
  taken : Nat
  /-- virtual address or offset the next DATA_PUT packet must carry -/
  nextVa : Nat
  /-- a status already decided for the chain, given when it ends -/
  failed : Option Status
  deriving DecidableEq, Repr

/-- R57, R85–R89, R101, R102: one submission ring. -/
structure Ring where
  enabled : Bool
  stopped : Bool
  head : BitVec 32
  tail : BitVec 32
  /-- the session a non-admin ring is bound to -/
  session : Option Nat
  cq : Option CompletionRing
  /-- commands started and not completed -/
  outstanding : List CmdRef
  chain : Option Chain
  /-- undelivered events, oldest first, at most 256 (R116) -/
  events : List Event
  /-- events dropped since the last delivered one (R115 LOST) -/
  lost : BitVec 16
  /-- the window's bytes by offset (R64) -/
  window : Memory
  deriving DecidableEq, Repr

/-- One MSI-X table entry (R67). -/
structure MsixEntry where
  addr : Word
  data : BitVec 32
  masked : Bool
  deriving DecidableEq, Repr

/-- What a port sends towards the host, in order (R68, R96). None of it sets Relaxed Ordering (R46). -/
inductive PortWrite where
  /-- a posted write of bytes at a host address: a piece of a completion's payload, or its header as one write -/
  | write (addr : Word) (bytes : List Byte)
  /-- an MSI-X message of a vector -/
  | msix (vector : Nat)
  deriving DecidableEq, Repr

/-- State of one CXL port with its BAR0 copies, its rings and its configuration space (R42–R71). -/
structure Port where
  /-- Cn_PERST_N is asserted -/
  perst : Bool
  /-- Cn_REFCLK is stable -/
  refclk : Bool
  /-- link bring-up of R69 has started and not yet reached DL_Active -/
  training : Bool
  /-- the link is in DL_Active -/
  linkUp : Bool
  /-- trained width in lanes and rate in GT/s -/
  width : Nat
  rate : Nat
  /-- Memory Space Enable and Bus Master Enable (R69 step 4) -/
  memEnable : Bool
  busMaster : Bool
  /-- UIO enabled on the whole path (R72) -/
  uioEnable : Bool
  /-- the base addresses of BAR0 and BAR2 (R47) -/
  bar0 : Word
  bar2 : Word
  /-- Device Control: Max_Payload_Size and Max_Read_Request_Size as their three-bit codes (128 << code bytes) (R46) -/
  mps : Nat
  mrrs : Nat
  /-- MSI-X Enable and Function Mask of the configuration space (R67) -/
  msixEnable : Bool
  msixFuncMask : Bool
  ringsOpen : Bool
  hostEvent : Word
  hostEventMask : Word
  msix : List MsixEntry
  /-- the pending bit array, bits 64:0 -/
  pba : BitVec 65
  rings : List Ring
  /-- the ring served last, for the round-robin of R100 -/
  lastServed : Nat
  /-- DEV_STATUS EVENTS_LOST (R107) -/
  eventsLost : BitVec 32
  /-- Cn_WAKE_N is driven (R71) -/
  wakeOut : Bool
  sent : List PortWrite
  deriving DecidableEq, Repr

/-- R79, R80, R82: one open session. -/
structure Session where
  port : Nat
  rings : List Nat
  smallBase : Nat
  smallPages : Nat
  largeBase : Nat
  largePages : Nat
  /-- SESSION_CLOSE has started (R104); who asked for it -/
  closing : Option CmdRef
  deriving DecidableEq, Repr

/-- R83: one translation entry. -/
structure XlateEntry where
  large : Bool
  read : Bool
  write : Bool
  table : Bool
  weights : Bool
  session : Nat
  /-- module address bits 44:16 -/
  mpage : Nat
  deriving DecidableEq, Repr

/-- R73: one far-tier window of the configuration record. -/
structure FarWindow where
  port : Nat
  write : Bool
  read : Bool
  hpaBase : Nat
  size : Nat
  modBase : Nat
  deriving DecidableEq, Repr

end Sys2Proof.Machine
end

