-- ==== Sys2Proof/Machine/PlanState.lean ====
section
/-!
DEFINITION. State of plans, their runs and their steps; of embedding tables, suspended codec contexts, check taps
and the Basin (chapters 04, 05, 07 to 11 and 14).
-/

namespace Sys2Proof.Machine

/-- R130: a tensor descriptor, `dims` and `strides` having RANK entries. -/
structure Descriptor where
  base : Nat
  format : Format
  rank : Nat
  aliasOk : Bool
  reduce : Nat
  space : Space
  /-- BOUND: bit d set means WRAP for dimension d -/
  bound : Nat
  stageDie : Nat
  lane : Bool
  block2d : Bool
  fabric : Bool
  dims : List Nat
  strides : List Int
  fabricMapBase : Nat
  blockCount : Nat
  deriving DecidableEq, Repr

/-- R147: a stage entry. -/
structure Stage where
  firstOp : Nat
  opCount : Nat
  cls : StageClass
  firstOnly : Bool
  skipDerated : Bool
  cores : Nat
  craterMask : Nat
  deriving DecidableEq, Repr

/-- R148: an operator entry with its parameter block. -/
structure OpEntry where
  op : Operator
  in0 : Option Nat
  in1 : Option Nat
  in2 : Option Nat
  out0 : Option Nat
  out1 : Option Nat
  params : List Byte
  deriving DecidableEq, Repr

/-- R149: an edge. -/
structure Edge where
  fromStage : Nat
  toStage : Nat
  desc : Nat
  whole : Bool
  deriving DecidableEq, Repr

/-- R149: a table binding. -/
structure Binding where
  table : Word
  fixed : Option Nat
  update : Bool
  deriving DecidableEq, Repr

/-- A loaded plan binary (R145–R149). -/
structure PlanBinary where
  /-- 0 both dies, 1 die 0 only, 2 die 1 only -/
  dies : Nat
  fabricRanks : Nat
  stages : List Stage
  ops : List OpEntry
  descs : List Descriptor
  edges : List Edge
  binds : List Binding
  deriving DecidableEq, Repr

/-- R29, R323: the canonical merge key, with the operator index and bag position of R323. -/
structure MergeKey where
  step : Nat
  rank : Nat
  core : Nat
  pos : Nat
  op : Nat
  j : Nat
  deriving DecidableEq, Repr

/-- A contribution staged for the merge of R27 step 2: a table row or ID, or a group key, with its values. -/
structure Staged where
  op : Nat
  key : MergeKey
  /-- row index or 64-bit ID of SCATTER_UPDATE; 0 for GROUP_AGG -/
  target : Nat
  /-- the contribution is to be admitted under ADMIT (R325) -/
  admits : Bool
  /-- GROUP_AGG: the key bytes -/
  ident : List Byte
  /-- FP32 patterns of SCATTER_UPDATE, or 64-bit stored aggregates, `none` for an absent value -/
  values : List (Option Word)
  deriving DecidableEq, Repr

/-- R280, R281: one feature's partial or merged statistics; histogram and HLL hold non-zero entries only. -/
structure StatPartial where
  count : Nat
  mean : Word
  m2 : Word
  min : Word
  max : Word
  absent : Nat
  nans : Nat
  hist : Sparse Nat
  hll : Sparse Nat
  deriving DecidableEq, Repr

/-- A core's partial of a STATS operator awaiting the merge (R281). -/
structure StagedStat where
  op : Nat
  rank : Nat
  core : Nat
  feature : Nat
  part : StatPartial
  deriving DecidableEq, Repr

/-- A reject entry of the manifest (R219). -/
structure Reject where
  ident : Word
  slot : Option Nat
  reason : RejectReason
  idKnown : Bool
  deriving DecidableEq, Repr

/-- A slot of a batch: the record assigned to it and whether it is valid (R218). -/
structure BatchSlot where
  ordinal : Nat
  offset : Nat
  ident : Word
  valid : Bool
  deriving DecidableEq, Repr

/-- The batch of a step (R219, R220). -/
structure Batch where
  slots : List BatchSlot
  rejects : List Reject
  close : Option BatchClose
  firstOrdinal : Nat
  nextOrdinal : Nat
  firstOffset : Nat
  nextOffset : Nat
  /-- bytes skipped by resynchronisation (R217, R226) -/
  resyncBytes : Nat
  deriving DecidableEq, Repr

/-- R173: the counter record of a run, and the extension counters by operator and counter ID. -/
structure Counters where
  idxDropped : Nat
  rowsPoisoned : Nat
  samplesRejected : Nat
  nanCount : Nat
  /-- requests dropped for a stale incarnation or epoch -/
  staleDrops : Nat
  ext : List ((Nat × Nat) × Nat)
  deriving DecidableEq, Repr

/-- R171: an EMIT record held for delivery. -/
structure EmitRecord where
  op : Nat
  key : Word
  body : List Byte
  deriving DecidableEq, Repr

/-- The records of a committed step still to be delivered (R172). -/
structure EmitBatch where
  step : Nat
  records : List EmitRecord
  deriving DecidableEq, Repr

/-- R164: the commit record. -/
structure CommitRecord where
  plan : Word
  step : Nat
  time : Word
  outSectors : Nat
  emitRecords : Nat
  digest : BitVec 32
  attempts : Nat
  deriving DecidableEq, Repr

/-- R242: an entry of the dictionary image: prefix code, last byte, and length less 1. -/
structure DictEntry where
  pre : Nat
  last : Byte
  lenM1 : Nat
  deriving DecidableEq, Repr

/-- R242: the context of the frame that straddles the supplied output space. -/
structure CodecContext where
  plan : Word
  op : Nat
  frame : Nat
  /-- body bit position of the next code -/
  bitPos : Nat
  nextCode : Nat
  prevCode : Option Nat
  k : Nat
  produced : Nat
  carry : List Byte
  runCrc : BitVec 32
  /-- data and CLEAR codes read in the frame so far -/
  codes : Nat
  clears : Nat
  /-- the dictionary image: entries of codes from 259 upward, in order -/
  dict : List DictEntry
  deriving DecidableEq, Repr

/-- Where a codec context is held (R242–R246): its handle, its slot or the address it was spilled to. -/
structure CtxHolder where
  handle : Word
  session : Nat
  die : Nat
  slot : Option Nat
  spilled : Option Nat
  ctx : CodecContext
  deriving DecidableEq, Repr

/-- A detection charged during an attempt (R446, R450): the unit, if any, and the attempt. -/
structure Detection where
  unit : Option (BitVec 32)
  attempt : Nat
  deriving DecidableEq, Repr

/-- A collective message received for an operator of the open step (R417–R420, R373, R392). -/
structure Arrival where
  /-- TYPE of the message; 256 and above mark what this module has itself done -/
  kind : Nat
  op : Nat
  phase : Nat
  src : Nat
  dst : Nat
  /-- bytes that the whole contribution has -/
  total : Nat
  data : List Byte
  deriving DecidableEq, Repr

/-- R19: a valid crater owner-table entry. -/
structure CraterEntry where
  incarnation : Nat
  slot : Nat
  deriving DecidableEq, Repr

/-- R20: a valid die owner-table entry. -/
structure DieEntry where
  die : Nat
  mapIndex : Nat
  crater : Nat
  deriving DecidableEq, Repr

/-- R21: a valid fabric owner-table entry; also R416 rank entries, `rank` then being unused. -/
structure FabricEntry where
  rank : Nat
  module : Nat
  epoch : BitVec 32
  deriving DecidableEq, Repr

/-- One bank of the owner tables (R17, R24, R416). Crater entries are keyed by crater × 16,384 + index. -/
structure OwnerBank where
  crater : Sparse CraterEntry
  die : Sparse DieEntry
  fabric : Sparse FabricEntry
  ranks : Sparse FabricEntry
  deriving DecidableEq, Repr

/-- R306: a row-directory entry; the counts are the access counts of die 0 and die 1. -/
structure DirEntry where
  hot : Bool
  migrating : Bool
  dirty : Bool
  addr : Nat
  count0 : Nat
  count1 : Nat
  deriving DecidableEq, Repr

/-- Shared mutable state as it stood when the step began (R24, R25, R26). -/
structure View where
  near : Memory
  far : Memory
  xlate : Sparse XlateEntry
  /-- the bank of the owner tables that serves the step's lookups (R24) -/
  owner : OwnerBank
  /-- incarnation numbers that the cores carry in this attempt (R22, R23) -/
  incarnation : Sparse Nat
  rowDir : Sparse DirEntry
  poison : List Nat
  /-- bound version slot per binding (R168) -/
  slots : List (Option Nat)
  deriving DecidableEq, Repr

/-- The open step of a run (R27, R160, R161, R166). -/
structure OpenStep where
  attempt : Nat
  view : View
  /-- operators that have finished in this attempt -/
  done : List Nat
  /-- bytes of edge descriptors in SESSION space, keyed by the address the descriptor forms (R161) -/
  scratch : Memory
  /-- the commit buffer: bytes written to step outputs, by session virtual address, zeros included -/
  commitBuf : List Host.Cell
  /-- bytes that the stages of the step wrote to pieces of BLOCKED tensors, by stage, descriptor and core (R143, R161) -/
  pieceWrites : Sparse (List Host.Cell)
  /-- bytes that the stages wrote to LOCAL space, by stage and logical core -/
  localWrites : Sparse (List Host.Cell)
  /-- bytes that the stages wrote to the staging regions, by stage, keyed as the staging memory is -/
  stageWrites : Sparse (List Host.Cell)
  /-- elements of aliased writes (R138): operator, descriptor and address, with what they have gathered -/
  aliased : List ((Nat × Nat × Int) × Nat)
  /-- key components that rows have kept across an exchange, by descriptor × 2^41 + row: rank, core, position (R295) -/
  rowKeys : Sparse (Nat × Nat × Nat)
  staged : List Staged
  stats : List StagedStat
  counters : Counters
  emits : List EmitRecord
  batch : Option Batch
  /-- a failed detection has been met and the attempt drains (R166) -/
  detections : List Detection
  inbox : List Arrival
  /-- faults told with an operator or boundary command that waits, met when it goes on; operators by index, the boundary one past the
  last -/
  heldFaults : Sparse ReadFaults
  /-- output space added for a suspended operator: operator, address and length, in order (R236) -/
  extents : List (Nat × Nat × Nat)
  /-- sectors of bypassed positions that the twin has delivered to an operator that waits (R457) -/
  fetched : List Nat
  /-- the step stands committed and waits for its flip (R165, R431) -/
  committed : Bool
  /-- module time at which the step began -/
  began : Word
  deriving DecidableEq, Repr

/-- Why a run is suspended (R169). -/
inductive SuspendReason where
  | emitSpace | outputSpace
  deriving DecidableEq, Repr

/-- A run in progress or suspended (R156–R159, R169, R170). -/
structure Run where
  reply : CmdRef
  /-- EMIT completions go to this ring (R157) -/
  steps : Nat
  committedSteps : Nat
  lastStep : Nat
  lastDigest : BitVec 32
  replays : Nat
  stalls : List Nat
  budget : Option Nat
  delivered : Nat
  counters : Counters
  /-- batches committed and not yet delivered -/
  queue : List EmitBatch
  openStep : Option OpenStep
  /-- the input of SCAN has ended (R213) -/
  inputEnded : Bool
  /-- discovery position: next ordinal and next offset (R213) -/
  ordinal : Nat
  offset : Nat
  /-- the batch of the first attempt of the open step (R222) -/
  manifest : Option Batch
  /-- first step of the run is still open (FIRST_ONLY, R160) -/
  firstStep : Bool
  /-- FIXED bindings bound when the run began (R168) -/
  fixedSlots : List (Option Nat)
  suspended : Option (SuspendReason × Nat)
  /-- PLAN_CANCELs that wait for the commit to end (R159), in order of arrival -/
  cancel : List CmdRef
  /-- the suspended DECODE context's handle (R242) -/
  ctx : Option Word
  detections : List Detection
  deriving DecidableEq, Repr

/-- A loaded plan (R151–R156, R560). -/
structure Plan where
  handle : Word
  session : Nat
  bin : PlanBinary
  /-- craters chosen for each CORE stage, empty for the others (R152) -/
  craters : List (List Nat)
  /-- craters chosen for BLOCKED descriptors that no CORE stage names (R153) -/
  otherCraters : List Nat
  /-- logical cores owning a BLOCKED descriptor's blocks, with first block and count (R153) -/
  owners : Sparse (List (Nat × Nat × Nat))
  /-- guest logical cores and the logical core that hosts each (R154) -/
  guests : List (Nat × Nat)
  /-- near-tier bytes reserved (R151 COUNT0) and base and size of the staging region on each die (R560) -/
  nearBytes : Nat
  stageBase : List Nat
  stageSize : List Nat
  /-- taps reserved for CHECK operators (R258) -/
  taps : List (Nat × Nat)
  /-- first owner-table entry and length of each descriptor's die owner map, and of each crater owner map -/
  dieMaps : List (Nat × Nat × Nat)
  craterMaps : List (Nat × Nat × Nat × Nat)
  nextStep : Nat
  commit : Option CommitRecord
  /-- places in the mirror order of commits that the twin has not acknowledged (R431) -/
  mirrorSeqs : List Nat
  run : Option Run
  /-- LOCAL pieces of BLOCKED tensors as the last commit left them, by descriptor and logical core (R143) -/
  pieces : Sparse Memory
  /-- LOCAL space as the last commit left it, by logical core -/
  localMem : Sparse Memory
  deriving DecidableEq, Repr

/-- R328: the migration policy. -/
structure Policy where
  hotVa : Nat
  hotFrames : Nat
  promoteMin : Nat
  maxPerStep : Nat
  decayShift : Nat
  enable : Bool
  intervalSteps : Nat
  retrySteps : Nat
  deriving DecidableEq, Repr

/-- R330: one migration in progress. -/
structure Migration where
  slot : Nat
  block : Nat
  demote : Bool
  frame : Nat
  /-- rows copied so far -/
  pointer : Nat
  copied : Bool
  drained : Bool
  /-- a clean demotion skips the copy -/
  clean : Bool
  /-- hold queue: rows in arrival order -/
  hold : List Nat
  /-- the candidate that takes the frame once this demotion has flipped (R329) -/
  next : Option Nat
  deriving DecidableEq, Repr

/-- A version slot (R310, R312). -/
structure VersionSlot where
  state : SlotState
  storeVa : Word
  indexVa : Word
  /-- first row-directory entry -/
  dirBase : Nat
  refs : Nat
  deriving DecidableEq, Repr

/-- An embedding table (R302, R328). -/
structure EmbTable where
  handle : Word
  session : Nat
  hashed : Bool
  rowFormat : Format
  merge : Nat
  sharded : Bool
  log2Block : Nat
  log2Index : Nat
  rowElems : Nat
  rows : Nat
  lr : BitVec 32
  eps : BitVec 32
  fabricMapBase : Nat
  slots : List VersionSlot
  policy : Option Policy
  /-- frames in use: frame, slot, block -/
  frames : List (Nat × Nat × Nat)
  migrations : List Migration
  /-- aborted blocks: slot, block, governing step of the abort -/
  aborted : List (Nat × Nat × Nat)
  /-- plan and step of the last decision (R329) -/
  decided : Option (Word × Nat)
  promotions : Nat
  demotions : Nat
  aborts : Nat
  writebackBytes : Nat
  deriving DecidableEq, Repr

/-- R251–R257: one check tap. -/
structure Tap where
  attached : Bool
  session : Nat
  stream : Nat
  unit : Nat
  poly : Nat
  arrival : Bool
  va : Nat
  len : Nat
  running : Word
  byteCount : Nat
  seqFault : Bool
  /-- the plan handle of the CHECK operator that reserved the tap (R258) -/
  reserved : Option Word
  deriving DecidableEq, Repr

/-- R379: one Basin segment. -/
structure Segment where
  width : Nat
  owner : Option Nat
  deriving DecidableEq, Repr

/-- R379, R380: one Basin entry. -/
structure BasinEntry where
  key : Nat
  resultId : BitVec 32
  priority : BitVec 16
  deriving DecidableEq, Repr

/-- A BASIN_LOAD accepted and not yet applied (R383). -/
structure BasinLoad where
  segment : Nat
  op : Nat
  width : Nat
  session : Nat
  first : Nat
  /-- for each record: valid, entry -/
  records : List (Bool × BasinEntry)
  atStep : Nat
  plan : Word
  reply : CmdRef
  deriving DecidableEq, Repr

/-- R393: the fields of a cascade word. -/
structure CascadeResult where
  resultId : BitVec 32
  priority : BitVec 16
  winPos : BitVec 4
  hit : Bool
  xtie : Bool
  multi : BitVec 2
  deriving DecidableEq, Repr

/-- R392, R397: the searches that the cascade carries: plan, step, operator, and the head's attempt. -/
structure ChainTag where
  plan : Word
  step : Nat
  op : Nat
  attempt : Nat
  deriving DecidableEq, Repr

/-- The cascade lines of this module (R391–R397). -/
structure Cascade where
  locked : Bool
  /-- consecutive SYNC words seen at one alignment -/
  syncSeen : Nat
  /-- SYNC words driven on MATCH_OUT, as the head's bursts or as words passed on -/
  syncOut : Nat
  tag : Option ChainTag
  /-- place of the next result word expected on MATCH_IN -/
  nextSeq : Nat
  /-- upstream words and local results waiting for each other, by place -/
  upstream : Sparse CascadeResult
  localResults : Sparse CascadeResult
  /-- result words driven on MATCH_OUT, oldest first -/
  sentOut : List Word
  deriving DecidableEq, Repr

/-- The Basins of both dies and the cascade. -/
structure BasinUnit where
  segments : List Segment
  /-- valid entries by segment × 65,536 + entry -/
  entries : Sparse BasinEntry
  loads : List BasinLoad
  cascade : Cascade
  deriving DecidableEq, Repr

end Sys2Proof.Machine
end

