-- ==== Sys2Proof/Machine/FabricState.lean ====
section
/-!
DEFINITION. State of the owner tables, of the fabric ports and router, of the twin pair, and of detection,
spares and retirement (chapters 01, 15, 16 and 17).
-/

namespace Sys2Proof.Machine

/-- An OWNER_TABLE_SET entry written to the shadow bank and not yet in effect (R415). -/
structure OwnerLoad where
  plan : Word
  atStep : Nat
  /-- index, entry or its removal -/
  owners : List (Nat × Option FabricEntry)
  ranks : List (Nat × Option FabricEntry)
  deriving DecidableEq, Repr

/-- The owner tables, double-banked (R24), and what still waits for a governing flip. -/
structure OwnerUnit where
  active : OwnerBank
  shadow : OwnerBank
  loads : List OwnerLoad
  deriving DecidableEq, Repr

/-- R402–R404, R407: one fabric port. -/
structure FabricPort where
  enabled : Bool
  state : PortState
  reason : Nat
  laneFail : BitVec 8
  neighbor : Nat
  neighborPort : Nat
  /-- the far end presents the recovery identity (R402) -/
  recovery : Bool
  corrected : Nat
  retries : Nat
  retrains : Nat
  unroutable : Nat
  /-- consecutive failures of the flit at the head of the retry buffer (R404) -/
  flitFails : Nat
  /-- Fn_CBL_PRES_N shows a cable (R543) -/
  cable : Bool
  /-- the port is out of service for a test or retired (R456, R461) -/
  outOfService : Bool
  deriving DecidableEq, Repr

/-- A message that left by a port (R409), or waits for a credit or an acknowledgement. -/
structure SentMessage where
  port : Nat
  escape : Bool
  msg : Message
  deriving DecidableEq, Repr

/-- R410: the sending end of a flow: the messages of one operator instance to one module within one step. -/
structure FlowOut where
  dest : Nat
  flow : Nat
  step : BitVec 32
  op : Nat
  nextSeq : Nat
  acked : Nat
  deriving DecidableEq, Repr

/-- R410, R11: the receiving end of a flow. -/
structure FlowIn where
  src : Nat
  flow : Nat
  step : BitVec 32
  op : Nat
  nextSeq : Nat
  /-- messages that arrived ahead of their turn, or ahead of the step they belong to -/
  early : List Message
  unacked : Nat
  deriving DecidableEq, Repr

/-- The fabric unit (R405, R412–R414). -/
structure FabricUnit where
  moduleId : Nat
  fabricId : BitVec 16
  epoch : BitVec 32
  collTimeoutMs : Nat
  reqTimeoutUs : Nat
  escWaitNs : Nat
  routes : Sparse (BitVec 16)
  ports : List FabricPort
  minEpoch : Sparse (BitVec 32)
  /-- the epoch of the FENCE that fenced the module (R414) -/
  fencedBy : Option (BitVec 32)
  flowsOut : List FlowOut
  flowsIn : List FlowIn
  /-- messages sent, oldest first -/
  sent : List SentMessage
  /-- messages that wait for a credit (R411) or for their flow's window (R410), oldest first -/
  waiting : List Message
  /-- messages that wait for a flow to open (R410), oldest first -/
  unopened : List Message
  staleDrops : Nat
  deriving DecidableEq, Repr

/-- R427: a mirror window. -/
structure TwinWindow where
  inbound : Bool
  index : Nat
  session : Nat
  va : Nat
  len : Nat
  deriving DecidableEq, Repr

/-- R427: the pairing record in use. -/
structure PairRecord where
  async : Bool
  detachOnLinksDown : Bool
  link0 : Nat
  link1 : Nat
  partner : Nat
  windows : List TwinWindow
  lagSteps : Nat
  takeoverMs : Nat
  hbAddr : Nat
  stageMib : Nat
  deriving DecidableEq, Repr

/-- A mirrored write held by the receiver (R430). -/
structure StagedMirror where
  window : Nat
  offset : Nat
  data : List Byte
  deriving DecidableEq, Repr

/-- A row being refetched from the twin (R448). -/
structure Refetch where
  window : Nat
  offset : Nat
  sector : Nat
  mirrorCount : Nat
  deriving DecidableEq, Repr

/-- The twin unit (R424–R442). -/
structure TwinUnit where
  state : PairState
  record : Option PairRecord
  /-- the TWIN_PAIR, RESYNC, HANDBACK or TWIN_RELEASE command in progress -/
  command : Option CmdRef
  /-- OP of that command: 0 PAIR, 1 RESYNC, 2 HANDBACK, 3 RELEASE -/
  commandOp : Nat
  /-- the copy of R429 step 3 or R438 is under way -/
  copying : Bool
  /-- windows of the copy still to be acknowledged, or on a returning module still to be received -/
  windowsLeft : Nat
  /-- session, address and length of writes made during the copy, which are mirrored after it (R429) -/
  during : List (Nat × Nat × Nat)
  /-- the twin's record, side, state and epoch, received before this module was told to pair -/
  hello : Option (List Byte × BitVec 32)
  /-- the record to go back to when a RESYNC fails -/
  priorRecord : Option PairRecord
  pairEpoch : BitVec 32
  /-- the twin serves its own workload only when false; true: this module serves both (SOLO, or after RESYNC) -/
  servesBoth : Bool
  fencedFromUnpaired : Bool
  /-- MIRROR_COMMIT messages sent since pairing, and of them acknowledged (R430, R448) -/
  commitsSent : Nat
  commitsAcked : Nat
  /-- MIRROR_COMMIT messages applied from the twin -/
  commitsApplied : Nat
  staging : List StagedMirror
  /-- the last mirrored commit record of each of the twin's plans, ascending handle -/
  twinCommits : List CommitRecord
  mirrorBytes : Nat
  /-- bytes mirrored with each commit that the twin has not acknowledged, oldest first (R431) -/
  unackedBytes : List Nat
  staleTwin : Nat
  takeovers : Nat
  lastHeard : Word
  heard0 : Word
  heard1 : Word
  /-- when the twin's COUNT last changed, and its last value (R432) -/
  sharedSeen : Word
  twinCount : Word
  ownCount : Word
  /-- ISOLATED was reported (R434) -/
  isolated : Bool
  refetches : List Refetch
  /-- refetch requests of the twin that wait for MIRROR_COUNT commits to be applied -/
  refetchWaiting : List Message
  /-- messages sent on the twin links: link 0 or 1, message -/
  sent : List (Nat × Message)
  deriving DecidableEq, Repr

/-- R459, R463: an entry of the retirement list. -/
structure Retired where
  unit : BitVec 32
  reason : Nat
  time : Word
  /-- a test of the unit has passed since its retirement (R463) -/
  testPassed : Bool
  /-- RESTORE accepted, takes effect at the next boundary or reset -/
  restoring : Bool
  deriving DecidableEq, Repr

/-- A detection remembered for the RATE rule (R452): unit, step (plan and number, or none) and time. -/
structure RateMark where
  unit : BitVec 32
  step : Option (Word × Nat)
  time : Word
  deriving DecidableEq, Repr

/-- Detection, spares and retirement (R22, R443–R464). -/
structure ErrorUnit where
  /-- incarnation numbers that differ from their boot value 1, by physical core -/
  incarnation : Sparse Nat
  /-- role-to-slot moves: crater × 32 + role ↦ slot, where it is not the slot of the same number (R13) -/
  roleSlot : Sparse Nat
  /-- lost roles hosted by another slot of the crater (R454): logical core ↦ slot -/
  doubled : Sparse Nat
  /-- physical cores out of service -/
  deadCores : List Nat
  retired : List Retired
  /-- units that the RATE rule retires at the next step boundary (R452) -/
  retiring : List (BitVec 32)
  /-- units recorded as retired whose retirement takes effect at the next step boundary (R459) -/
  applying : List (BitVec 32)
  rate : List RateMark
  linkRetries : Nat
  sectorRereads : Nat
  rowsRefetched : Nat
  /-- sectors that hold the poison mark, by module address / 64 (R449) -/
  poison : List Nat
  deriving DecidableEq, Repr

end Sys2Proof.Machine
end

