-- ==== Sys2Proof/Machine/BoardState.lean ====
section
/-!
DEFINITION. State of power, clock islands and ageing, of the Tremor and the debug port, of boot and security, and
of the module's pins (chapters 18 to 23).
-/

namespace Sys2Proof.Machine

/-- The power state the module rests in (R465). -/
inductive PowerState where
  | active | simmer | dormant | cold
  deriving DecidableEq, Repr

/-- R468: why a block refuses a power transition. -/
inductive RefuseReason where
  | planActive | paired | testActive | contextHeld | flowsOpen | mirrorLag | undrained | noAnswer
  deriving DecidableEq, Repr

/-- A power transition accepted and not yet ended (R469–R472). -/
structure Transition where
  target : PowerState
  fromState : PowerState
  reply : Option CmdRef
  /-- it waits for commands that had already started (R469) -/
  draining : Bool
  deriving DecidableEq, Repr

/-- R466–R483. -/
structure PowerUnit where
  state : PowerState
  transition : Option Transition
  wakeLatched : Bool
  /-- 0 DONE, 1 REFUSED, 2 none since boot -/
  lastResult : Nat
  lastReason : Nat
  lastStopped : Nat
  /-- 0 command, 1 WAKE_REQ_N, 2 C0_PERST_N, 3 C1_PERST_N -/
  lastWake : Nat
  lastBlock : BitVec 32
  parked : BitVec 32
  /-- crater parking waits for these plans' boundaries: the command to complete (R481) -/
  parkReply : Option CmdRef
  dormantEntries : BitVec 32
  lastTime : Word
  /-- a reset held until the transition ends (R61): RECOVERY when true, and what its boot meets -/
  heldReset : Option (Bool × BootInputs)
  /-- the model's own: the free values that stand for the bytes of the last save set (R473), from this one on -/
  savedFrom : Option Nat
  /-- addresses and lengths in the always-on stores that debug has written since -/
  savedOver : List (Nat × Nat)
  deriving DecidableEq, Repr

/-- R489–R495: one clock island. -/
structure Island where
  freqMhz : Nat
  voltMv : Nat
  marginPs : Int
  retired : Bool
  derates : Nat
  shiftPpm : Int
  /-- daily minima of the margin at 0.800 V, newest first, at most 30 (R496) -/
  daily : List Int
  /-- a frequency, and the rail voltage with it, that waits for the next step boundary (R492) -/
  pendingPoint : Option (Nat × Nat)
  /-- module times of the last MARGIN_LOW with reasons 1, 2 and 4 (R497) -/
  lastLow : List (Nat × Word)
  deriving DecidableEq, Repr

/-- R490–R496, R537, R538. -/
structure AgeUnit where
  islands : List Island
  lastReplan : Word
  nextReplan : Word
  lastSample : Word
  /-- frequency cap on every in-service crater island (R494, R537, R538) -/
  craterCapMhz : Nat
  /-- a cap that waits for the next step boundary, and when the cap last changed (R537) -/
  pendingCap : Option Nat
  lastCap : Word
  /-- halvings of the feeders' duty against POWER_LIMIT_W, 0 to 3, and when it last changed (R537) -/
  pacing : Nat
  lastPace : Word
  /-- position retrainings: position, time (R491) -/
  retrained : List (Nat × Word)
  deriving DecidableEq, Repr

/-- R504: the state of the trigger unit. -/
inductive TremorState where
  | idle | armed | latching | latched
  deriving DecidableEq, Repr

/-- R503: the arming record. -/
structure ArmRecord where
  sources : BitVec 6
  trigOutEn : Bool
  trigInFalling : Bool
  autoRearm : Bool
  eventCounter : Bool
  counterExt : Bool
  statusValue : BitVec 8
  counterId : BitVec 16
  opIndex : BitVec 32
  plan : Word
  threshold : Word
  fireTime : Word
  islandMask : BitVec 45
  deriving DecidableEq, Repr

/-- R505: what one island latched. -/
structure IslandSnap where
  /-- 0 LATCHED, 1 NOT_POWERED, 2 NOT_IN_MASK, 3 NOT_LATCHED -/
  rstate : Nat
  localCycle : Word
  latchTime : Word
  freqMhz : Nat
  body : List Byte
  deriving DecidableEq, Repr

/-- R498–R508. -/
structure TremorUnit where
  state : TremorState
  arm : ArmRecord
  source : BitVec 6
  seq : BitVec 32
  triggerTime : Word
  latched : BitVec 45
  read : BitVec 45
  missed : BitVec 32
  snaps : List IslandSnap
  /-- pulses driven on TRIG_OUT -/
  trigOut : Nat
  deriving DecidableEq, Repr

/-- R514: the debug level. -/
inductive DebugLevel where
  | locked | observe | full
  deriving DecidableEq, Repr

/-- R511: one watchpoint. -/
structure Watch where
  addr : Word
  lenLog2 : Nat
  read : Bool
  write : Bool
  action : Nat
  enable : Bool
  hit : Bool
  deriving DecidableEq, Repr

/-- R511: one breakpoint. -/
structure Breakpoint where
  plan : Word
  stage : Nat
  op : Nat
  enable : Bool
  hit : Bool
  deriving DecidableEq, Repr

/-- The debug state of one Caldera hart as the debug module shows it (R510). -/
structure Hart where
  halted : Bool
  /-- written general registers and CSRs by abstract register number -/
  regs : Sparse Word
  deriving DecidableEq, Repr

/-- R509–R516. -/
structure DebugUnit where
  /-- the instruction register of the test access port -/
  ir : BitVec 8
  /-- pins are taken by EXTEST (1), CLAMP (2) or HIGHZ (3); 0: functional -/
  pinsTaken : Nat
  /-- the boundary register -/
  boundary : Nat
  level : DebugLevel
  denied : Bool
  bootNonce : Word
  harts : List Hart
  /-- registers of the debug module and of its DTM, by DMI address -/
  dmi : Sparse (BitVec 32)
  dtmcs : BitVec 32
  /-- HALT_REQ and HALTED of each crater's slots -/
  haltReq : Sparse (BitVec 33)
  halted : Sparse (BitVec 33)
  /-- slots resumed for one operator (R511 STEP) -/
  stepping : Sparse (BitVec 33)
  /-- slots resumed and not yet past their next operator, which no breakpoint stops again -/
  resumed : Sparse (BitVec 33)
  /-- watchpoints by crater × 4 + w, breakpoints by die × 4 + b -/
  watches : Sparse Watch
  breakpoints : Sparse Breakpoint
  zsbaError : Bool
  deriving DecidableEq, Repr

/-- R529: a configuration record. -/
structure ConfigRecord where
  vendorSigned : Bool
  /-- the owner key that signed it; empty when the vendor root key did -/
  signerKey : List Byte
  sequence : Word
  fabricEn : BitVec 6
  cxlEn : BitVec 2
  split : Bool
  oneDieGrant : Bool
  debugCap : Nat
  vendorDebug : Bool
  twinEn : Bool
  twinLink0 : Nat
  twinLink1 : Nat
  powerLimitW : Nat
  minSvn : Nat
  windows : List FarWindow
  /-- the signed bytes, signature excluded -/
  raw : List Byte
  deriving DecidableEq, Repr

/-- The NOR (R517). -/
structure Nor where
  /-- entries of the index journal, the last one first -/
  journal : List Nat
  ownerKey : Option (List Byte)
  copyA : Option ConfigRecord
  copyB : Option ConfigRecord
  cleanShutdown : Bool
  /-- the firmware image area, as programmed -/
  image : List Byte
  deriving DecidableEq, Repr

/-- Boot, firmware and security (R517–R535, R51–R60). -/
structure BootUnit where
  phase : BootPhase
  stage : BootStage
  bootMode : BitVec 2
  errStage : BootStage
  errStatus : Option Status
  errDetail : BitVec 32
  configValid : Bool
  imageValid : Bool
  die0Up : Bool
  die1Up : Bool
  oneDie : Bool
  /-- positions out of service when the interleave was formed (R457) -/
  badAtReset : List Nat
  /-- the surviving die in one-die operation -/
  leadDie : Nat
  /-- module time of the last reset or PWRGD_OUT assertion (ELAPSED_MS) -/
  resetTime : Word
  heartbeat : Word
  heartbeatTime : Word
  fwAlive : Bool
  /-- the watchdog has fired and the count has not moved since (R53) -/
  fwStalled : Bool
  /-- the reset that the present instant of module time is taken up by: RECOVERY or WARM (R55) -/
  resetting : Option Bool
  aonFlags : BitVec 6
  config : ConfigRecord
  configSafe : Bool
  nor : Nor
  /-- the record stored and not yet in use (R531) -/
  staged : Option (List Byte)
  fwRelease : BitVec 8
  svn : Nat
  header : List Byte
  nextIndex : Nat
  bucket : Nat
  bucketTime : Word
  /-- records of the NOR that failed their signature at boot (R520): bit 0 the owner record, bits 1 and 2 the copies -/
  norBad : BitVec 3
  /-- 0 none, 1 host path, 2 and 3 twin link 0 and 1 (R528) -/
  recoverySource : Nat
  recoveryBytes : List Byte
  recoveryTime : Word
  deriving DecidableEq, Repr

end Sys2Proof.Machine

namespace Sys2Proof.Machine

/-- R553: the discipline of module time. -/
structure TimeUnit where
  /-- module time of the previous TIME_SYNC edge -/
  lastEdge : Option Word
  /-- the next accepted edge sets module time (first edge after a cold boot or a DORMANT wake) -/
  firstPending : Bool
  /-- SECONDS of a TIME_SET that waits for its edge, and when it arrived -/
  setPending : Option (Word × Word)
  /-- slew in parts per million -/
  slewPpm : Int
  /-- consecutive accepted edges -/
  accepted : Nat
  ignored : Nat
  /-- module time saved at DORMANT entry, and the always-on cycle count then (R554) -/
  saved : Option Word
  deriving DecidableEq, Repr

/-- R540–R550: pins and straps. -/
structure PinUnit where
  vauxUp : Bool
  pwrEn : Bool
  vinOk : Bool
  pwrgdOut : Bool
  /-- FAULT_N is asserted; cause: 0 none, 1 thermal trip, 2 input, 3 regulator, 4 boot failed (R556) -/
  fault : Nat
  /-- THERM_N pulled low by the board, and by the module -/
  thermIn : Bool
  thermOut : Bool
  /-- POWER_SET COLD was taken: the module stays off until PWR_EN falls and rises (R548) -/
  coldLatched : Bool
  twinSide : BitVec 1
  cascPos : BitVec 4
  smbAddr : BitVec 2
  smbAlert : Bool
  /-- the MCTP endpoint ID (R555) -/
  eid : BitVec 8
  /-- hottest junction of die 0 and die 1, in 0.1 °C, as last read -/
  temp0 : Int
  temp1 : Int
  /-- the always-on contents are lost / the retention rail dropped; cause of the next brown-out report -/
  aonLost : Bool
  retentionLost : Bool
  brownDetail : Option Nat
  /-- messages the SMBus endpoint has sent, words shifted out on TDO -/
  smbSent : List (List Byte)
  tdo : List Nat
  deriving DecidableEq, Repr

end Sys2Proof.Machine
end

