-- ==== Sys2Proof/Machine/State.lean ====
section
/-!
DEFINITION. The state of the HX24 block: every register, table, memory, queue and mode the spec gives it, with the
queue of waiting commands; why a step can stop; and the state at reset.
-/

namespace Sys2Proof.Machine

/-- The state of the module. Memories are sparse, an unlisted byte reading as zero. -/
structure State where
  /-- commands that wait, first in first out -/
  pending : List Instr
  /-- module time in ns (R553, R554) -/
  time : Word
  /-- the model's own counter that free values are applied to -/
  freeCount : Nat
  /-- near tier by module address (R38, R40, R41) -/
  near : Memory
  /-- far tier by host physical address (R75) -/
  far : Memory
  /-- weight staging buffers by die × 0x400_0000 + offset (R38, R560) -/
  staging : Memory
  /-- Pools as debug writes left them, by core × 0x10_0000 + offset (R38, R512) -/
  pools : Memory
  /-- parity bits of the Pool rows written, by core × 0x1_0000 + row; a row not listed holds those of zeros (R444) -/
  poolParity : Sparse (BitVec 16)
  /-- always-on stores by die × 0x10_0000 + offset (R38, R473) -/
  aonStore : Memory
  xlate : Sparse XlateEntry
  sessions : Sparse Session
  ports : List Port
  plans : List Plan
  tables : List EmbTable
  /-- serial numbers handed out so far to plans, tables and codec contexts (R151, R302, R242) -/
  planSerial : Nat
  tableSerial : Nat
  ctxSerial : Nat
  /-- the row directory (R306) -/
  rowDir : Sparse DirEntry
  contexts : List CtxHolder
  taps : List Tap
  basin : BasinUnit
  owner : OwnerUnit
  fabric : FabricUnit
  twin : TwinUnit
  err : ErrorUnit
  power : PowerUnit
  age : AgeUnit
  tremor : TremorUnit
  dbg : DebugUnit
  boot : BootUnit
  pins : PinUnit
  clock : TimeUnit
  deriving DecidableEq, Repr

/-- Why the machine stops with a fault: never. The spec gives every command of the block an effect, if only that nothing
happens, so no constructor is needed; nothing raises a fault (safe). -/
inductive Fault where
  deriving DecidableEq, Repr

/-- Why a command has no meaning. -/
inductive Refusal where
  /-- The command has no meaning in the model yet; raised by `exec`'s arm of that command. Safe. -/
  | notModelled (mnemonic : String)
  deriving DecidableEq, Repr

/-- A submission ring that is not enabled (R57, R85). -/
def Ring.reset : Ring where
  enabled := false
  stopped := false
  head := 0
  tail := 0
  session := none
  cq := none
  outstanding := []
  chain := none
  events := []
  lost := 0
  window := []

/-- An MSI-X entry as PCIe leaves it at reset: masked (PRESUMED, log entry 3). -/
def MsixEntry.reset : MsixEntry where
  addr := 0
  data := 0
  masked := true

/-- A CXL port before its link comes up (R42–R71). -/
def Port.reset : Port where
  perst := true
  refclk := false
  training := false
  linkUp := false
  width := 0
  rate := 0
  memEnable := false
  busMaster := false
  uioEnable := false
  bar0 := 0
  bar2 := 0
  mps := 0
  mrrs := 2
  msixEnable := false
  msixFuncMask := false
  ringsOpen := false
  hostEvent := 0
  hostEventMask := 0
  msix := List.replicate 65 MsixEntry.reset
  pba := 0
  rings := List.replicate 64 Ring.reset
  lastServed := 0
  eventsLost := 0
  wakeOut := false
  sent := []

/-- A tap with nothing attached (R252). -/
def Tap.reset : Tap where
  attached := false
  session := 0
  stream := 0
  unit := 0
  poly := 0
  arrival := false
  va := 0
  len := 0
  running := 0
  byteCount := 0
  seqFault := false
  reserved := none

/-- R391–R395: the cascade before it locks. -/
def Cascade.reset : Cascade where
  locked := false
  syncSeen := 0
  syncOut := 0
  tag := none
  nextSeq := 0
  upstream := []
  localResults := []
  sentOut := []

/-- R379: every segment free, of width 128, every entry invalid. -/
def BasinUnit.reset : BasinUnit where
  segments := List.replicate 32 { width := 128, owner := none }
  entries := []
  loads := []
  cascade := Cascade.reset

/-- R19–R21, R416: every owner, rank and die entry invalid. -/
def OwnerBank.reset : OwnerBank where
  crater := []
  die := []
  fabric := []
  ranks := []

/-- Both banks empty. -/
def OwnerUnit.reset : OwnerUnit where
  active := OwnerBank.reset
  shadow := OwnerBank.reset
  loads := []

/-- R407: a disabled port with no cable. -/
def FabricPort.reset : FabricPort where
  enabled := false
  state := .disabled
  reason := 0
  laneFail := 0
  neighbor := 0
  neighborPort := 0
  recovery := false
  corrected := 0
  retries := 0
  retrains := 0
  unroutable := 0
  flitFails := 0
  cable := false
  outOfService := false

/-- R405, R412: the fabric unit after boot. -/
def FabricUnit.reset : FabricUnit where
  moduleId := 0
  fabricId := 0
  epoch := 0
  collTimeoutMs := 0
  reqTimeoutUs := 0
  escWaitNs := 0
  routes := []
  ports := List.replicate 6 FabricPort.reset
  minEpoch := []
  fencedBy := none
  flowsOut := []
  flowsIn := []
  sent := []
  waiting := []
  unopened := []
  staleDrops := 0

/-- R435, R442: unpaired. -/
def TwinUnit.reset : TwinUnit where
  state := .unpaired
  record := none
  command := none
  commandOp := 0
  copying := false
  windowsLeft := 0
  during := []
  hello := none
  priorRecord := none
  pairEpoch := 0
  servesBoth := false
  fencedFromUnpaired := false
  commitsSent := 0
  commitsAcked := 0
  commitsApplied := 0
  staging := []
  twinCommits := []
  mirrorBytes := 0
  unackedBytes := []
  staleTwin := 0
  takeovers := 0
  lastHeard := 0
  heard0 := 0
  heard1 := 0
  sharedSeen := 0
  twinCount := 0
  ownCount := 0
  isolated := false
  refetches := []
  refetchWaiting := []
  sent := []

/-- R22, R13, R459: nothing retired, incarnations at 1. -/
def ErrorUnit.reset : ErrorUnit where
  incarnation := []
  roleSlot := []
  doubled := []
  deadCores := []
  retired := []
  retiring := []
  applying := []
  rate := []
  linkRetries := 0
  sectorRereads := 0
  rowsRefetched := 0
  poison := []

/-- R482: the power record before any transition; the module is off until it is powered. -/
def PowerUnit.reset : PowerUnit where
  state := .cold
  transition := none
  wakeLatched := false
  lastResult := 2
  lastReason := 0
  lastStopped := 0
  lastWake := 0
  lastBlock := 0
  parked := 0
  parkReply := none
  dormantEntries := 0
  lastTime := 0
  heldReset := none
  savedFrom := none
  savedOver := []

/-- R495: an island record at reset. -/
def Island.reset : Island where
  freqMhz := 0
  voltMv := 0
  marginPs := 0
  retired := false
  derates := 0
  shiftPpm := 0
  daily := []
  pendingPoint := none
  lastLow := []

/-- R495: no re-plan and no sample taken; the crater cap stands at the top planned clock (R490). -/
def AgeUnit.reset : AgeUnit where
  islands := List.replicate 45 Island.reset
  lastReplan := 0
  nextReplan := 0
  lastSample := 0
  craterCapMhz := 850
  pendingCap := none
  lastCap := 0
  pacing := 0
  lastPace := 0
  retrained := []

/-- R498, R503: armed with REGISTER, TRIG_IN and DEBUG, every island, TRIG_OUT, no AUTO_REARM. -/
def ArmRecord.reset : ArmRecord where
  sources := 0x0E
  trigOutEn := true
  trigInFalling := false
  autoRearm := false
  eventCounter := false
  counterExt := false
  statusValue := 0
  counterId := 0
  opIndex := 0
  plan := 0
  threshold := 0
  fireTime := 0
  islandMask := BitVec.allOnes 45

/-- R504, R505: armed, no snapshot held. -/
def TremorUnit.reset : TremorUnit where
  state := .armed
  arm := ArmRecord.reset
  source := 0
  seq := 0
  triggerTime := 0
  latched := 0
  read := 0
  missed := 0
  snaps := List.replicate 45 { rstate := 3, localCycle := 0, latchTime := 0, freqMhz := 0, body := [] }
  trigOut := 0

/-- R509, R514: Test-Logic-Reset selects IDCODE (PRESUMED, IEEE 1149.1; log entry 3), level LOCKED. -/
def DebugUnit.reset : DebugUnit where
  ir := 0x01
  pinsTaken := 0
  boundary := 0
  level := .locked
  denied := false
  bootNonce := 0
  harts := List.replicate 2 { halted := false, regs := [] }
  dmi := []
  dtmcs := 0
  haltReq := []
  halted := []
  stepping := []
  resumed := []
  watches := []
  breakpoints := []
  zsbaError := false

/-- R530: the SAFE defaults, which the factory's vendor-signed record equals. -/
def ConfigRecord.safe : ConfigRecord where
  vendorSigned := true
  signerKey := []
  sequence := 0
  fabricEn := 0x3F
  cxlEn := 0x3
  split := false
  oneDieGrant := false
  debugCap := 0
  vendorDebug := false
  twinEn := true
  twinLink0 := 2
  twinLink1 := 5
  powerLimitW := 1000
  minSvn := 0
  windows := []
  raw := []

/-- R517, R530: the NOR as the factory leaves it: a valid image (its bytes not listed), the vendor-signed record in
copy A (which copy: DESIGN CHOICE, log entry 4), no owner, an empty journal, no marker. -/
def Nor.factory : Nor where
  journal := []
  ownerKey := none
  copyA := some ConfigRecord.safe
  copyB := none
  cleanShutdown := false
  image := []

/-- R51–R60: the boot registers at reset; AON_FLAGS reads BROWNOUT after supply loss. -/
def BootUnit.reset : BootUnit where
  phase := .rom
  stage := .romStart
  bootMode := 0
  errStage := .romStart
  errStatus := none
  errDetail := 0
  configValid := false
  imageValid := false
  die0Up := false
  die1Up := false
  oneDie := false
  badAtReset := []
  leadDie := 0
  resetTime := 0
  heartbeat := 0
  heartbeatTime := 0
  fwAlive := false
  fwStalled := false
  resetting := none
  aonFlags := 0x01
  config := ConfigRecord.safe
  configSafe := true
  nor := Nor.factory
  staged := none
  fwRelease := 0
  svn := 0
  header := []
  nextIndex := 0
  bucket := 4
  bucketTime := 0
  norBad := 0
  recoverySource := 0
  recoveryBytes := []
  recoveryTime := 0

/-- R540–R550: no supply present, pins at their pulled levels. -/
def PinUnit.reset : PinUnit where
  vauxUp := false
  pwrEn := false
  vinOk := false
  pwrgdOut := false
  fault := 0
  thermIn := false
  thermOut := false
  coldLatched := false
  twinSide := 0
  cascPos := 0
  smbAddr := 0
  smbAlert := false
  eid := 0
  temp0 := 0
  temp1 := 0
  aonLost := true
  retentionLost := false
  brownDetail := none
  smbSent := []
  tdo := []

/-- R553, R554: module time free-running from 0, the first edge still to come. -/
def TimeUnit.reset : TimeUnit where
  lastEdge := none
  firstPending := true
  setPending := none
  slewPpm := 0
  accepted := 0
  ignored := 0
  saved := none

/-- The module with every register at its reset value and no supply applied: VAUX_UP and PWR_EN_RISE power it
(log entry 1). -/
def State.reset : State where
  pending := []
  time := 0
  freeCount := 0
  near := []
  far := []
  staging := []
  pools := []
  poolParity := []
  aonStore := []
  xlate := []
  sessions := []
  ports := List.replicate 2 Port.reset
  plans := []
  tables := []
  planSerial := 0
  tableSerial := 0
  ctxSerial := 0
  rowDir := []
  contexts := []
  taps := List.replicate 64 Tap.reset
  basin := BasinUnit.reset
  owner := OwnerUnit.reset
  fabric := FabricUnit.reset
  twin := TwinUnit.reset
  err := ErrorUnit.reset
  power := PowerUnit.reset
  age := AgeUnit.reset
  tremor := TremorUnit.reset
  dbg := DebugUnit.reset
  boot := BootUnit.reset
  pins := PinUnit.reset
  clock := TimeUnit.reset

end Sys2Proof.Machine
end

