-- ==== Sys2Proof/Machine/Bits.lean ====
section
/-!
DEFINITION. Bit fields, byte orders, sparse arrays and byte memories: the plain operations every rule is written with.
-/

namespace Sys2Proof.Machine

/-- Bits `hi`:`lo` of a word, both ends included (R4). -/
def bits {w : Nat} (x : BitVec w) (hi lo : Nat) : Nat := (x.toNat >>> lo) % 2 ^ (hi + 1 - lo)

/-- Bit `i` of a word. -/
def bit {w : Nat} (x : BitVec w) (i : Nat) : Bool := x.getLsbD i

/-- The word with bit `i` set. -/
def setBit {w : Nat} (x : BitVec w) (i : Nat) : BitVec w := x ||| BitVec.ofNat w (1 <<< i)

/-- The word with bit `i` clear. -/
def clearBit {w : Nat} (x : BitVec w) (i : Nat) : BitVec w := x &&& ~~~ BitVec.ofNat w (1 <<< i)

/-- The word with bit `i` at a value. -/
def putBit {w : Nat} (x : BitVec w) (i : Nat) (b : Bool) : BitVec w := if b then setBit x i else clearBit x i

/-- The little-endian value of a byte string (R4). -/
def leNat : List Byte → Nat
  | [] => 0
  | b :: bs => b.toNat + 256 * leNat bs

/-- `len` bytes of a number, little-endian (R4). -/
def natLE : Nat → Nat → List Byte
  | _, 0 => []
  | n, len + 1 => BitVec.ofNat 8 n :: natLE (n / 256) len

/-- Bytes `off` to `off + len - 1` of a record; bytes past its end read as zero. -/
def slice (bs : List Byte) (off len : Nat) : List Byte :=
  let part := (bs.drop off).take len
  part ++ List.replicate (len - part.length) 0

/-- The field of `width` bits at bit `lo` of a record. -/
def field (bs : List Byte) (lo width : Nat) : Nat :=
  (leNat (slice bs (lo / 8) ((lo % 8 + width + 7) / 8)) >>> (lo % 8)) % 2 ^ width

/-- A record of `len` bytes from its fields, each given as bit position and value. -/
def record (len : Nat) (fields : List (Nat × Nat)) : List Byte :=
  natLE (fields.foldl (fun acc f => acc + f.2 <<< f.1) 0) len

/-- The two's-complement value of the low `w` bits of a number. -/
def signed (w n : Nat) : Int := (BitVec.ofNat w n).toInt

/-- `n / d` rounded up. -/
def ceilDiv (n d : Nat) : Nat := (n + d - 1) / d

/-- `n` rounded up to a multiple of `d`. -/
def roundUp (n d : Nat) : Nat := ceilDiv n d * d

/-- A Bool as a bit. -/
def bitOf (b : Bool) : Nat := if b then 1 else 0

/-- The entry of a sparse array, if it is listed. -/
def sget {α : Type} (m : Sparse α) (i : Nat) : Option α := (m.find? (fun e => e.1 == i)).map (·.2)

/-- The array with entry `i` written. -/
def sset {α : Type} (m : Sparse α) (i : Nat) (v : α) : Sparse α :=
  m.filter (fun e => decide (e.1 < i)) ++ (i, v) :: m.filter (fun e => decide (i < e.1))

/-- The array with entry `i` back at its reset contents. -/
def sdel {α : Type} (m : Sparse α) (i : Nat) : Sparse α := m.filter (fun e => e.1 != i)

/-- The array with entries `lo` to `lo + n - 1` back at their reset contents. -/
def sdelRange {α : Type} (m : Sparse α) (lo n : Nat) : Sparse α :=
  m.filter (fun e => decide (e.1 < lo ∨ lo + n ≤ e.1))

/-- The array with entry `i` written or removed. -/
def sput {α : Type} (m : Sparse α) (i : Nat) (v : Option α) : Sparse α :=
  match v with
  | some x => sset m i x
  | none => sdel m i

/-- Entry `i` of a list, changed by `f`. -/
def modAt {α : Type} (xs : List α) (i : Nat) (f : α → α) : List α := xs.modify i f

/-- R38: the canonical form of a memory: addresses strictly rising and no zero byte listed. -/
abbrev memWf (m : Memory) : Prop := m.Pairwise (fun x y => x.1 < y.1) ∧ ∀ c ∈ m, c.2 ≠ 0

/-- One byte of a memory. -/
def memByte (m : Memory) (a : Nat) : Byte := ((m.find? (fun c => c.1 == a)).map (·.2)).getD 0

/-- The cells of a byte string stored from address `a` upward. -/
def cellsFrom : Nat → List Byte → List Host.Cell
  | _, [] => []
  | a, b :: bs => (a, b) :: cellsFrom (a + 1) bs

/-- The memory with a byte string stored from address `a` upward. -/
def memWrite (m : Memory) (a : Nat) (bs : List Byte) : Memory :=
  m.filter (fun c => decide (c.1 < a)) ++ (cellsFrom a bs).filter (fun c => c.2 != 0) ++
    m.filter (fun c => decide (a + bs.length ≤ c.1))

/-- Walk `n` addresses from `a` over cells that start at `a` or later. -/
def walkCells : List Host.Cell → Nat → Nat → List Byte
  | _, _, 0 => []
  | [], a, n + 1 => 0 :: walkCells [] (a + 1) n
  | c :: cs, a, n + 1 => if c.1 = a then c.2 :: walkCells cs (a + 1) n else 0 :: walkCells (c :: cs) (a + 1) n

/-- `n` bytes of a memory from address `a`. -/
def memRead (m : Memory) (a n : Nat) : List Byte :=
  walkCells (m.filter (fun c => decide (a ≤ c.1 ∧ c.1 < a + n))) a n

/-- The memory with `n` bytes from address `a` at zero. -/
def memClear (m : Memory) (a n : Nat) : Memory := m.filter (fun c => decide (c.1 < a ∨ a + n ≤ c.1))

/-- An overlay of written bytes, zeros included, with a byte string stored in it. -/
def overWrite (m : List Host.Cell) (a : Nat) (bs : List Byte) : List Host.Cell :=
  m.filter (fun c => decide (c.1 < a)) ++ cellsFrom a bs ++ m.filter (fun c => decide (a + bs.length ≤ c.1))

/-- `n` zero bytes. -/
def zeros (n : Nat) : List Byte := List.replicate n 0

/-- A byte string padded with zeros to a multiple of `k` bytes. -/
def padTo (k : Nat) (bs : List Byte) : List Byte := bs ++ zeros (roundUp bs.length k - bs.length)

end Sys2Proof.Machine
end

