-- ==== Sys2Proof/Machine/Shake.lean ====
section
/-!
DEFINITION. SHAKE256 (FIPS 202), which chapters 20 and 21 name for identities, hashes and measurements.
-/

namespace Sys2Proof.Machine

/-- Rotation offsets of the lanes, lane `x + 5 y` at position `x + 5 y`. -/
def keccakRot : List Nat :=
  [0, 1, 62, 28, 27, 36, 44, 6, 55, 20, 3, 10, 43, 25, 39, 41, 45, 15, 21, 8, 18, 2, 61, 56, 14]

/-- Round constants. -/
def keccakRc : List Word :=
  [0x0000000000000001, 0x0000000000008082, 0x800000000000808A, 0x8000000080008000, 0x000000000000808B,
    0x0000000080000001, 0x8000000080008081, 0x8000000000008009] ++
  [0x000000000000008A, 0x0000000000000088, 0x0000000080008009, 0x000000008000000A, 0x000000008000808B,
    0x800000000000008B, 0x8000000000008089, 0x8000000000008003] ++
  [0x8000000000008002, 0x8000000000000080, 0x000000000000800A, 0x800000008000000A, 0x8000000080008081,
    0x8000000000008080, 0x0000000080000001, 0x8000000080008008]

/-- Lane `x, y` of a Keccak state, both taken modulo 5. -/
def lane (a : List Word) (x y : Nat) : Word := a.getD (x % 5 + 5 * (y % 5)) 0

/-- One round of Keccak-f[1600]. -/
def keccakRound (a : List Word) (rc : Word) : List Word :=
  let c := (List.range 5).map (fun x => lane a x 0 ^^^ lane a x 1 ^^^ lane a x 2 ^^^ lane a x 3 ^^^ lane a x 4)
  let d := (List.range 5).map (fun x => c.getD ((x + 4) % 5) 0 ^^^ (c.getD ((x + 1) % 5) 0).rotateLeft 1)
  let t := (List.range 25).map (fun i => a.getD i 0 ^^^ d.getD (i % 5) 0)
  let b := (List.range 25).map (fun i =>
    let x := i % 5
    let y := i / 5
    let sx := (x + 3 * y) % 5
    (lane t sx x).rotateLeft (keccakRot.getD (sx + 5 * x) 0))
  let e := (List.range 25).map (fun i =>
    let x := i % 5
    let y := i / 5
    lane b x y ^^^ (~~~ lane b (x + 1) y &&& lane b (x + 2) y))
  e.zipIdx.map (fun (w, i) => if i = 0 then w ^^^ rc else w)

/-- Keccak-f[1600]. -/
def keccakF (a : List Word) : List Word := keccakRc.foldl keccakRound a

/-- A block of 136 bytes added into the state. -/
def absorbBlock (a : List Word) (bs : List Byte) : List Word :=
  keccakF (a.zipIdx.map (fun (w, i) => w ^^^ BitVec.ofNat 64 (leNat (slice bs (8 * i) 8))))

/-- Blocks of 136 bytes absorbed one after the other. -/
def absorb : Nat → List Byte → List Word → List Word
  | 0, _, a => a
  | n + 1, bs, a => absorb n (bs.drop 136) (absorbBlock a (bs.take 136))

/-- The message with the suffix 1111 and the padding of SHAKE256. -/
def shakePad (bs : List Byte) : List Byte :=
  let n := bs.length + 1
  let k := roundUp n 136 - n
  if k = 0 then bs ++ [0x9F] else bs ++ [0x1F] ++ zeros (k - 1) ++ [0x80]

/-- SHAKE256 with a 256-bit output. -/
def shake256 (bs : List Byte) : List Byte :=
  let m := shakePad bs
  let a := absorb (m.length / 136) m (List.replicate 25 0)
  ((a.take 4).map (fun w => natLE w.toNat 8)).flatten

end Sys2Proof.Machine
end

