-- ==== Sys2Proof/Machine/Crc.lean ====
section
/-!
DEFINITION. The cyclic redundancy checks of the module (R251, R393).
-/

namespace Sys2Proof.Machine

/-- One bit of a reflected CRC register. -/
def crcBitRef {w : Nat} (poly r : BitVec w) : BitVec w :=
  if r.getLsbD 0 then (r >>> 1) ^^^ poly else r >>> 1

/-- Eight bits of a reflected CRC register after a byte has been added to it. -/
def crcByteRef {w : Nat} (poly r : BitVec w) (b : Byte) : BitVec w :=
  let x := r ^^^ b.setWidth w
  let s := crcBitRef poly
  s (s (s (s (s (s (s (s x)))))))

/-- One bit of a CRC register that shifts left. -/
def crcBitFwd {w : Nat} (poly r : BitVec w) : BitVec w :=
  if r.getLsbD (w - 1) then (r <<< 1) ^^^ poly else r <<< 1

/-- One byte into a CRC register that shifts left. -/
def crcByteFwd {w : Nat} (poly r : BitVec w) (b : Byte) : BitVec w :=
  let x := r ^^^ (b.setWidth w <<< (w - 8))
  let s := crcBitFwd poly
  s (s (s (s (s (s (s (s x)))))))

/-- CRC-32C register after more bytes (R251 POLY 0, reflected polynomial). -/
def crc32cRun (r : BitVec 32) (bs : List Byte) : BitVec 32 := bs.foldl (crcByteRef 0x82F63B78) r

/-- CRC-32C of a byte string. -/
def crc32c (bs : List Byte) : BitVec 32 := ~~~ crc32cRun 0xFFFFFFFF bs

/-- R251: the RUNNING register of a tap at attach, by POLY. -/
def tapInit (poly : Nat) : Word :=
  match poly with
  | 0 => 0xFFFFFFFF
  | 1 => 0xFFFFFFFF
  | 2 => 0xFFFFFFFFFFFFFFFF
  | _ => 0xFFFF

/-- R252: RUNNING after more bytes, by POLY. -/
def tapRun (poly : Nat) (running : Word) (bs : List Byte) : Word :=
  match poly with
  | 0 => (crc32cRun (running.setWidth 32) bs).setWidth 64
  | 1 => (bs.foldl (crcByteRef (0xEDB88320 : BitVec 32)) (running.setWidth 32)).setWidth 64
  | 2 => bs.foldl (crcByteRef (0xC96C5795D7870F42 : BitVec 64)) running
  | _ => (bs.foldl (crcByteFwd (0x1021 : BitVec 16)) (running.setWidth 16)).setWidth 64

/-- R252: RESULT is RUNNING XOR XorOut. -/
def tapResult (poly : Nat) (running : Word) : Word :=
  match poly with
  | 0 => running ^^^ 0xFFFFFFFF
  | 1 => running ^^^ 0xFFFFFFFF
  | 2 => ~~~ running
  | _ => running

/-- R251: the width of a tap's CRC in bits. -/
def tapWidth (poly : Nat) : Nat :=
  match poly with
  | 0 => 32
  | 1 => 32
  | 2 => 64
  | _ => 16

/-- R258: the check of a byte string under POLY. -/
def tapCheck (poly : Nat) (bs : List Byte) : Word := tapResult poly (tapRun poly (tapInit poly) bs)

/-- R393: CRC-8/SMBUS. -/
def crc8 (bs : List Byte) : BitVec 8 := bs.foldl (crcByteFwd (0x07 : BitVec 8)) 0

/-- R444: the parity bits of an SRAM row: bit `i` covers byte `i` and bit `i mod width` of the row's index. -/
def rowParity (width index : Nat) (bs : List Byte) : BitVec 16 :=
  BitVec.ofNat 16 ((List.range 16).foldl (fun acc i =>
    acc + bitOf ((((List.range 8).countP (fun j => bit (bs.getD i 0) j)) + bitOf (index.testBit (i % width))) % 2 = 1) <<< i) 0)

end Sys2Proof.Machine
end

