-- ==== Sys2Proof/Config.lean ====
section
/-!
DEFINITION. What an implementation fixes, and the free values: constants and functions with no body.
-/

namespace Sys2Proof.Config

/-- A fresh value for each count of the state's free-value counter; nothing is known of it. -/
opaque freeValue : Nat → Word

/-- Which of the free near-tier pages firmware takes for an allocation (R110 "firmware picks"): a page number from
which it looks upward, wrapping, for each count of the free-value counter. -/
opaque nearPick : Nat → Nat

/-- Which of the results within its stated error bound a unit gives, by function and operands: the bound is stated, the
value is not, and equal operands give equal results (R32). -/
opaque approx (fn : Nat) (a b : Nat) : Nat

/-- A result that the spec leaves open and R32 makes repeatable, by subject and what it may depend on: 1 MERGE_LEVELS of a SORT
(R300), by its rows; 2 the key of an EMIT record of a row that is no slot of the batch (R171), by operator and row; 3 what a module
sends under its partner's rank for data that belongs to no block (R31, R420), by step, operator, rank and place; 4 the
bytes that SCAN has parsed of a columnar input (R219, R220), by step and offsets; 5 how many elements a list without a presence bit holds that
is written for an absent source (R266, R272, R276), by its capacity and the value; 6 the bytes of a flit past the last message of its virtual
channel (R401), by port, channel, flit and place. -/
opaque unstated (subject : Nat) (args : List Nat) : Nat

/-- R401: the 12-byte link header of a flit: its sequence number, virtual channel and returned credits, whose layout and numbering the
spec does not state; by port, virtual channel and the flit's place in it. -/
opaque linkHeader (port channel k : Nat) : BitVec 96

/-- R45, R106: Zaldun's PCI vendor ID. -/
opaque vendorId : BitVec 16

/-- R106: the module serial number. -/
opaque serial : Word

/-- R509: Zaldun's JEDEC manufacturer identity. -/
opaque jedecId : BitVec 11

/-- R522: the device public key, its OID included. -/
opaque devicePk : List Byte

/-- R522: the vendor device certificate. -/
opaque deviceCert : List Byte

/-- R525, R531: Zaldun's root public key; the mask ROM holds its SHAKE256 hash. -/
opaque rootPk : List Byte

/-- R524: the firmware image that the factory programs. -/
opaque factoryImage : List Byte

/-- NIST SP 800-208: whether a signature over a message verifies under an XMSS-SHAKE256_20_256 public key. -/
opaque xmssVerify (key message signature : List Byte) : Bool

/-- R522, R523: the device key's signature over a message with a one-time index. -/
opaque xmssSign (index : Nat) (message : List Byte) : List Byte

end Sys2Proof.Config
end

