-- ==== Sys2Proof/Machine/Ops.lean ====
section
/-!
DEFINITION. The shared operations: free values, ports and rings, interrupt vectors, host events, completions, events,
the module address map, translation and the allocation of near-tier pages (chapters 01, 02 and 03).
-/

namespace Sys2Proof.Machine

/-! ## Time and free values -/

/-- One idle nanosecond: module time counts while the module holds it (R553, R554), from the rise of PWRGD_OUT and
through DORMANT (DESIGN CHOICE, log entry 2). -/
def idleTick (s : State) : State :=
  if s.pins.pwrgdOut ∨ s.power.state = .dormant then { s with time := s.time + 1 } else s

/-- The next free value. -/
def freshValue (s : State) : Word := Config.freeValue s.freeCount

/-- The state with `n` free values taken. -/
def takeFresh (n : Nat) (s : State) : State := { s with freeCount := s.freeCount + n }

/-! ## Ports and rings -/

/-- Port `p`. -/
def portOf (s : State) (p : Nat) : Port := s.ports.getD p Port.reset

/-- The state with port `p` changed. -/
def onPort (p : Nat) (f : Port → Port) (s : State) : State := { s with ports := modAt s.ports p f }

/-- Every port changed. -/
def onPorts (f : Port → Port) (s : State) : State := { s with ports := s.ports.map f }

/-- Ring `i` of a port. -/
def ringAt (q : Port) (i : Nat) : Ring := q.rings.getD i Ring.reset

/-- Ring `i` of port `p`. -/
def ringOf (s : State) (p i : Nat) : Ring := ringAt (portOf s p) i

/-- The port with ring `i` changed. -/
def onRing (i : Nat) (f : Ring → Ring) (q : Port) : Port := { q with rings := modAt q.rings i f }

/-! ## MSI-X and host events -/

/-- R67: a message of vector `v` cannot be sent now. -/
def vectorBlocked (q : Port) (v : Nat) : Bool :=
  !q.linkUp || !q.msixEnable || q.msixFuncMask || (q.msix.getD v MsixEntry.reset).masked

/-- R67: a message of vector `v` falls due: it is sent, or held in the pending bit array. -/
def fireVector (v : Nat) (q : Port) : Port :=
  if vectorBlocked q v then { q with pba := setBit q.pba v } else { q with sent := q.sent ++ [.msix v] }

/-- R67: held messages that nothing blocks any more are sent. -/
def sendHeldVectors (q : Port) : Port :=
  (List.range 65).foldl
    (fun q v =>
      if bit q.pba v && !vectorBlocked q v then { q with pba := clearBit q.pba v, sent := q.sent ++ [.msix v] } else q)
    q

/-- R54, R67: a HOST_EVENT bit is set on a port; the device vector fires when the bit changes to 1 under its mask. -/
def raiseEvent (b : Nat) (q : Port) : Port :=
  if bit q.hostEvent b then q
  else if bit q.hostEventMask b then fireVector 64 { q with hostEvent := setBit q.hostEvent b }
  else { q with hostEvent := setBit q.hostEvent b }

/-- R49: a module-wide event is set in both copies. -/
def raiseAll (b : Nat) (s : State) : State := onPorts (raiseEvent b) s

/-- R53, R483: an event that is set on every port that is up. -/
def raiseUp (b : Nat) (s : State) : State := onPorts (fun q => if q.linkUp then raiseEvent b q else q) s

/-! ## Completions -/

/-- R114: status codes. -/
def statusCode : Status → Nat
  | .done => 0x00
  | .suspended => 0x01
  | .doneWithDrops => 0x02
  | .cancelled => 0x03
  | .badPacket => 0x10
  | .badPlan => 0x11
  | .limit => 0x12
  | .align => 0x13
  | .overlap => 0x14
  | .aliasWrite => 0x15
  | .access => 0x16
  | .busy => 0x17
  | .refused => 0x18
  | .noResource => 0x19
  | .version => 0x1A
  | .implausible => 0x1B
  | .unsupported => 0x1C
  | .checkMismatch => 0x20
  | .checkSuspect => 0x21
  | .replayLimit => 0x22
  | .poisoned => 0x23
  | .staleEpoch => 0x24
  | .fabricTimeout => 0x30
  | .partnerLost => 0x31
  | .fenced => 0x32
  | .brownout => 0x3E
  | .internal => 0x3F

/-- A byte string cut into pieces of at most `n` bytes; one empty piece for an empty string. -/
def cut (n : Nat) : Nat → List Byte → List (List Byte)
  | 0, bs => [bs]
  | fuel + 1, bs => if bs.length ≤ n then [bs] else bs.take n :: cut n fuel (bs.drop n)

/-- R95: the 32-byte units of a completion ring. -/
def cqUnits (c : CompletionRing) : Nat := 2 ^ c.log2Size / 32

/-- R95: the units a completion occupies. -/
def completionUnits (c : Completion) : Nat := 1 + ceilDiv c.payload.length 32

/-- R97: a completion of `n` units fits in what the head word has released. -/
def cqFits (c : CompletionRing) (n : Nat) : Bool := decide (c.written + n ≤ c.released + cqUnits c)

/-- R99: the coalescing state after one more completion, and whether the vector fires. -/
def coalesce (time : Word) (noIrq : Bool) (c : CompletionRing) : CompletionRing × Bool :=
  if noIrq then (c, false)
  else if c.coalUs = 0 ∨ max 1 c.coalCount ≤ c.pendingIrq + 1 then
    ({ c with pendingIrq := 0, firstPending := none }, true)
  else
    ({ c with pendingIrq := c.pendingIrq + 1, firstPending := some (c.firstPending.getD time) }, false)

/-- R102: the ring once the completion has been written: its command is no longer outstanding with its last one. -/
def settleCommand (c : Completion) (r : Ring) : Ring :=
  if c.more || c.tag = 0xFFFFFFFF then r
  else { r with outstanding := r.outstanding.eraseP (fun o => o.tag = c.tag ∧ o.opcode = c.opcode ∧ o.ringSeq = c.ringSeq) }

/-- R95: bytes 0 to 27 of a completion header. -/
def completionBody (c : Completion) : List Byte :=
  record 28 [(0, c.tag.toNat), (32, statusCode c.status), (40, bitOf c.phase), (41, bitOf c.more), (48, c.opcode.toNat),
    (64, c.payload.length), (96, c.ringSeq.toNat), (128, c.count0.toNat), (192, c.count1.toNat)]

/-- R95: the 32 bytes of a completion header, with its check. -/
def completionHeader (c : Completion) : List Byte := completionBody c ++ natLE (crc32c (completionBody c)).toNat 4

/-- R46: the bytes that one posted write carries at most. -/
def maxWrite (q : Port) : Nat := 128 <<< q.mps

/-- R95, R96: the posted writes of a payload from a unit of the completion ring on, cut where the ring ends and at the
port's Max_Payload_Size. -/
def payloadWrites (most : Nat) (cq : CompletionRing) (atUnit : Nat) (bs : List Byte) : List PortWrite :=
  let size := 32 * cqUnits cq
  let off := 32 * atUnit % size
  let pieces (off : Nat) (b : List Byte) : List PortWrite :=
    (cut most b.length b).zipIdx.map (fun (x, k) => .write (cq.base + BitVec.ofNat 64 (off + k * most)) x)
  if bs = [] then []
  else if bs.length ≤ size - off then pieces off bs
  else pieces off (bs.take (size - off)) ++ pieces 0 (bs.drop (size - off))

/-- R96: a completion as posted writes: its payload first, then its header as one 32-byte write. -/
def completionWrites (most : Nat) (cq : CompletionRing) (c : Completion) : List PortWrite :=
  payloadWrites most cq (cq.written + 1) c.payload ++
    [.write (cq.base + BitVec.ofNat 64 (32 * (cq.written % cqUnits cq))) (completionHeader c)]

/-- R68, R95, R96, R99: a completion is written at the next units of the ring's completion ring, and then the ring's
vector fires when it is due. -/
def writeCompletion (time : Word) (i : Nat) (cq : CompletionRing) (c : Completion) (q : Port) : Port :=
  let phased := { c with phase := (cq.written / cqUnits cq) % 2 = 0 }
  let moved := coalesce time c.noIrq { cq with written := cq.written + completionUnits c }
  let q1 := { onRing i (fun r => settleCommand c { r with cq := some moved.1 }) q with
    sent := q.sent ++ completionWrites (maxWrite q) cq phased }
  if moved.2 then fireVector i q1 else q1

/-- R115: the payload of an event. -/
def eventPayload (e : Event) (lost : Nat) : List Byte :=
  let code := match e.code with
    | .marginLow => 1
    | .unitRetired => 2
    | .twinTakeover => 3
    | .tableMigrated => 4
    | .thermal => 5
    | .powerDone => 6
    | .snapReady => 7
  record 32 [(0, code), (16, lost), (32, e.unit.toNat), (64, e.time.toNat), (128, e.detail0.toNat),
    (192, e.detail1.toNat)]

/-- R115: the completion that carries an event. -/
def eventCompletion (e : Event) (lost : Nat) : Completion where
  tag := 0xFFFFFFFF
  status := .done
  phase := false
  more := false
  opcode := 0x00F0
  ringSeq := 0xFFFFFFFF
  count0 := 0
  count1 := 0
  payload := eventPayload e lost
  noIrq := false

/-- R69 step 4: the port may write to host memory. -/
def mayWrite (q : Port) : Bool := q.linkUp && q.busMaster

/-- R97: held completions are written in order while they fit. -/
def writeHeld (time : Word) (i : Nat) : List Completion → Port → Port
  | [], q => onRing i (fun r => { r with cq := r.cq.map (fun c => { c with held := [] }) }) q
  | c :: cs, q =>
    match (ringAt q i).cq with
    | none => q
    | some cq =>
      if mayWrite q && cqFits cq (completionUnits c) then
        writeHeld time i cs (writeCompletion time i { cq with held := cs } c q)
      else onRing i (fun r => { r with cq := r.cq.map (fun x => { x with held := c :: cs }) }) q

/-- R115, R116: undelivered events are written in order while they fit. -/
def writeEvents (time : Word) (i : Nat) : List Event → Port → Port
  | [], q => q
  | e :: es, q =>
    match (ringAt q i).cq with
    | none => q
    | some cq =>
      if cq.held = [] ∧ mayWrite q ∧ cqFits cq 2 then
        let c := eventCompletion e (ringAt q i).lost.toNat
        writeEvents time i es
          (writeCompletion time i cq c (onRing i (fun r => { r with events := es, lost := 0 }) q))
      else q

/-- Everything that waits on ring `i` and fits is written. -/
def pumpRing (time : Word) (i : Nat) (q : Port) : Port :=
  let q1 := writeHeld time i (((ringAt q i).cq.map (·.held)).getD []) q
  writeEvents time i (ringAt q1 i).events q1

/-- Every ring of a port pumped. -/
def pumpPort (time : Word) (q : Port) : Port := (List.range 64).foldl (fun q i => pumpRing time i q) q

/-- A completion is handed to ring `i`'s completion ring; without one it is dropped. -/
def postCompletion (time : Word) (i : Nat) (c : Completion) (q : Port) : Port :=
  pumpRing time i (onRing i (fun r => { r with cq := r.cq.map (fun x => { x with held := x.held ++ [c] }) }) q)

/-- The status, counts and payload of one completion of a command. -/
structure Reply where
  status : Status
  count0 : Nat
  count1 : Nat
  payload : List Byte
  deriving DecidableEq, Repr

/-- A completion with no counts and no payload. -/
def replyOf (st : Status) : Reply := { status := st, count0 := 0, count1 := 0, payload := [] }

/-- A DONE completion with a payload. -/
def replyData (bs : List Byte) : Reply := { status := .done, count0 := 0, count1 := 0, payload := bs }

/-- R98: the longest payload of one completion on a ring. -/
def maxPayload (r : Ring) : Nat := min 4194272 (2 ^ ((r.cq.map (·.log2Size)).getD 16 - 1) - 32)

/-- R98: a reply as its completions; with `offsets`, COUNT0 is the offset of a completion's first byte (R113). -/
def splitReply (n : Nat) (offsets : Bool) (r : Reply) : List Reply :=
  let pieces := cut n (ceilDiv r.payload.length (max n 1)) r.payload
  pieces.zipIdx.map (fun (bs, k) =>
    { r with payload := bs, count0 := if offsets then r.count0 + k * n else r.count0 })

/-- A completion of a command. -/
def completionOf (c : CmdRef) (more : Bool) (r : Reply) : Completion where
  tag := c.tag
  status := r.status
  phase := false
  more := more
  opcode := c.opcode
  ringSeq := c.ringSeq
  count0 := BitVec.ofNat 64 r.count0
  count1 := BitVec.ofNat 32 r.count1
  payload := r.payload
  noIrq := c.noIrq

/-- The completions of a command are posted in order, MORE set on every one, or on every one but the last. -/
def postReplies (c : CmdRef) (moreFollow : Bool) : List Reply → State → State
  | [], s => s
  | r :: rs, s =>
    postReplies c moreFollow rs
      (onPort c.port (postCompletion s.time c.ring (completionOf c (moreFollow || !rs.isEmpty) r)) s)

/-- The command completes with one reply, split under R98. -/
def complete (c : CmdRef) (r : Reply) (s : State) : State :=
  postReplies c false (splitReply (maxPayload (ringOf s c.port c.ring)) false r) s

/-- The command completes with data whose completions give their offsets in COUNT0 (R113). -/
def completeData (c : CmdRef) (r : Reply) (s : State) : State :=
  postReplies c false (splitReply (maxPayload (ringOf s c.port c.ring)) true r) s

/-! ## Events -/

/-- R115, R116: firmware runs: booted, its rails up, and the leading hart not halted. -/
def fwRunning (s : State) : Bool :=
  decide (s.boot.phase = .running) && (s.power.state = .active || s.power.state = .simmer) && !(s.dbg.harts.getD s.boot.leadDie { halted := false, regs := [] }).halted

/-- R53: firmware runs and its heartbeat has not stalled, so it consumes packets and sends events. -/
def fwServing (s : State) : Bool := fwRunning s && !s.boot.fwStalled

/-- R116: an event joins a completion ring's queue of 256, or is dropped and counted. -/
def queueEvent (time : Word) (i : Nat) (e : Event) (q : Port) : Port :=
  if (ringAt q i).cq = none then q
  else if (ringAt q i).events.length < 256 then
    pumpRing time i (onRing i (fun r => { r with events := r.events ++ [e] }) q)
  else
    { onRing i (fun r => { r with lost := if r.lost = 0xFFFF then r.lost else r.lost + 1 }) q with
      eventsLost := q.eventsLost + 1 }

/-- R116: an event goes to the admin completion ring of each port; events need running firmware. -/
def postEvent (code : EventCode) (unit : Nat) (d0 d1 : Nat) (s : State) : State :=
  if fwServing s then
    onPorts (queueEvent s.time 0
      { code := code, unit := BitVec.ofNat 32 unit, time := s.time, detail0 := BitVec.ofNat 64 d0,
        detail1 := BitVec.ofNat 64 d1 }) s
  else s

/-- R116: TABLE_MIGRATED also goes to the lowest-numbered ring of the session that owns the table. -/
def postTableEvent (sid : Nat) (unit : Nat) (d0 d1 : Nat) (s : State) : State :=
  let s1 := postEvent .tableMigrated unit d0 d1 s
  match sget s.sessions sid with
  | none => s1
  | some ss =>
    match ss.rings.min? with
    | none => s1
    | some i =>
      if fwServing s then
        onPort ss.port (queueEvent s.time i
          { code := .tableMigrated, unit := BitVec.ofNat 32 unit, time := s.time, detail0 := BitVec.ofNat 64 d0,
            detail1 := BitVec.ofNat 64 d1 }) s1
      else s1

/-! ## Module addresses (R38 to R41, R73 to R76) -/

/-- End of the near-tier range (R38). -/
def nearEnd : Nat := 0x001800000000

/-- GDDR7 positions retired when the interleave was formed: those on the retirement list (R457). -/
def retiredPositions (s : State) : List Nat :=
  (s.err.retired.filter (fun r => bits r.unit 23 16 = 3)).map (fun r => bits r.unit 15 0)

/-- Bytes usable on each position (R445): 7.75 GiB. -/
def positionBytes : Nat := 0x1F0000000

/-- R40, R41, R457, R458: the usable near-tier ranges as base and size, under the interleave formed at the last reset. -/
def nearRanges (s : State) : List (Nat × Nat) :=
  let half (d : Nat) : Nat := (6 - (s.boot.badAtReset.filter (fun p => p / 6 = d)).length) * positionBytes
  if s.boot.oneDie then
    if s.boot.config.split then [(s.boot.leadDie * 0xC00000000, half s.boot.leadDie)] else [(0, half s.boot.leadDie)]
  else if s.boot.config.split then [(0, half 0), (0xC00000000, half 1)]
  else [(0, half 0 + half 1)]

/-- R40, R41: the GDDR7 position of a near-tier address. -/
def positionOf (s : State) (a : Nat) : Nat :=
  let live (lo n : Nat) : List Nat := (List.range' lo n).filter (fun p => !s.boot.badAtReset.contains p)
  let ps := if s.boot.oneDie then live (s.boot.leadDie * 6) 6
    else if s.boot.config.split then (if a < 0xC00000000 then live 0 6 else live 6 6) else live 0 12
  let rel := if s.boot.config.split ∧ 0xC00000000 ≤ a then a - 0xC00000000 else a
  ps.getD (rel / 2048 % max ps.length 1) 0

/-- R457: positions retired since the interleave was formed, which are bypassed. -/
def bypassed (s : State) : List Nat := (retiredPositions s).filter (fun p => !s.boot.badAtReset.contains p)

/-- R457: a near-tier sector that lies on a bypassed position and so reads as bad. -/
def sectorGone (s : State) (sector : Nat) : Bool :=
  decide (sector * 64 < nearEnd) && (bypassed s).contains (positionOf s (sector * 64))

/-- R457: sectors of a module range that lie on bypassed positions. -/
def goneSectors (s : State) (a n : Nat) : List Nat :=
  if bypassed s = [] ∨ n = 0 then [] else (List.range' (a / 64) ((a + n - 1) / 64 + 1 - a / 64)).filter (sectorGone s)

/-- The address range lies in the usable near tier. -/
def nearOk (s : State) (a n : Nat) : Bool := (nearRanges s).any (fun r => decide (r.1 ≤ a ∧ a + n ≤ r.1 + r.2))

/-- R106: usable near tier in bytes. -/
def nearUsable (s : State) : Nat := ((nearRanges s).map (·.2)).sum

/-- R73: the far-tier window that holds a module address. -/
def farWindow (ws : List FarWindow) (a : Nat) : Option FarWindow :=
  ws.find? (fun w => decide (w.modBase * 0x10000000 ≤ a ∧ a < (w.modBase + w.size) * 0x10000000))

/-- R75: the host physical address of a module address in a window. -/
def farHpa (w : FarWindow) (a : Nat) : Nat := w.hpaBase * 0x10000000 + (a - w.modBase * 0x10000000)

/-- R75, R456: the port that carries a far-tier request; a retired port's granules go to the other one. -/
def farPort (s : State) (w : FarWindow) (a : Nat) : Nat :=
  let out (p : Nat) : Bool := s.err.retired.any (fun r => decide (r.unit.toNat = 0x000B0000 + p))
  let p := if w.port = 2 then (a - w.modBase * 0x10000000) / 4096 % 2 else w.port
  if out p then 1 - p else p

/-- R76: the largest size that a request may have at an address with so many bytes to go: a power of two of 64 bytes to
`most`, naturally aligned, so that no request crosses a 4 KiB boundary. -/
def farSize (most a n : Nat) : Nat :=
  ([512, 256, 128].find? (fun k => decide (k ≤ most ∧ a % k = 0 ∧ k ≤ n))).getD 64

/-- R76: the requests, as address and size, from a 64-byte boundary on; reads of at most 512 bytes, writes of at most 256. -/
def farSplit (most : Nat) : Nat → Nat → Nat → List (Nat × Nat)
  | 0, _, _ => []
  | fuel + 1, a, n =>
    if n = 0 then [] else (a, farSize most a n) :: farSplit most fuel (a + farSize most a n) (n - farSize most a n)

/-- R76: the requests of an access, which takes whole 64-byte sectors. -/
def farRequests (a n : Nat) (write : Bool) : List (Nat × Nat) :=
  let first := a / 64 * 64
  let len := ceilDiv (a + n) 64 * 64 - first
  if n = 0 then [] else farSplit (if write then 256 else 512) (len / 64) first len

/-- R69 step 4, R72: far-tier requests go out by a port with UIO enabled. Requests wait, without a fault, for the host to
set Bus Master Enable; what they wait for is outside the model, and the access counts as failed (DESIGN CHOICE, log entry 91). -/
def farPortOpen (q : Port) : Bool := q.uioEnable && q.busMaster

/-- R72, R76: a far-tier access is allowed by its window, and by the port of every request that it takes. -/
def farOk (s : State) (a n : Nat) (write : Bool) : Bool :=
  match farWindow s.boot.config.windows a with
  | none => false
  | some w =>
    decide (a + n ≤ (w.modBase + w.size) * 0x10000000) && (if write then w.write else w.read) &&
      (farRequests a n write).all (fun q => farPortOpen (portOf s (farPort s w q.1)))

/-- `n` bytes at a module address of the near or the far tier. -/
def moduleRead (ws : List FarWindow) (near far : Memory) (a n : Nat) : List Byte :=
  if a < nearEnd then memRead near a n
  else match farWindow ws a with
    | none => zeros n
    | some w => memRead far (farHpa w a) n

/-- R449: sectors that a write covers whole are no longer poisoned. -/
def clearPoison (a n : Nat) (ps : List Nat) : List Nat :=
  ps.filter (fun p => decide (p * 64 < a ∨ a + n < p * 64 + 64))

/-- Bytes stored at a module address of the near or the far tier; nothing is stored at an address not decoded (R39). -/
def moduleWrite (a : Nat) (bs : List Byte) (s : State) : State :=
  let s1 := { s with err := { s.err with poison := clearPoison a bs.length s.err.poison } }
  if a < nearEnd then { s1 with near := memWrite s.near a bs }
  else match farWindow s.boot.config.windows a with
    | none => s
    | some w => { s1 with far := memWrite s.far (farHpa w a) bs }

/-! ## Translation (R82 to R84) -/

/-- The permissions an access needs. -/
structure Need where
  read : Bool
  write : Bool
  table : Bool
  weights : Bool
  deriving DecidableEq, Repr

/-- An access that reads. -/
def needRead : Need := { read := true, write := false, table := false, weights := false }

/-- An access that writes. -/
def needWrite : Need := { read := false, write := true, table := false, weights := false }

/-- R82: where the large region starts. -/
def largeBase : Nat := 0x080000000000

/-- R84: the table index of a virtual address and the offset within its page. -/
def xlateIndex (ss : Session) (va : Nat) : Option (Nat × Nat) :=
  if va < largeBase then
    if va / 0x10000 < ss.smallPages then some (ss.smallBase + va / 0x10000, va % 0x10000) else none
  else if (va - largeBase) / 0x200000 < ss.largePages then
    some (ss.largeBase + (va - largeBase) / 0x200000, va % 0x200000)
  else none

/-- An entry grants what an access needs. -/
def grants (e : XlateEntry) (n : Need) : Bool :=
  (e.read || !n.read) && (e.write || !n.write) && (e.table || !n.table) && (e.weights || !n.weights)

/-- R84: the module address of a session virtual address; `none` is ACCESS. -/
def translate (x : Sparse XlateEntry) (sid : Nat) (ss : Session) (n : Need) (va : Nat) : Option Nat :=
  match xlateIndex ss va with
  | none => none
  | some (idx, off) =>
    match sget x idx with
    | none => none
    | some e => if e.session = sid ∧ grants e n then some (e.mpage * 0x10000 + off) else none

/-- The page size at a virtual address (R82). -/
def pageSize (va : Nat) : Nat := if va < largeBase then 0x10000 else 0x200000

/-- A virtual range cut at page boundaries: virtual address and length of each piece. -/
def pagePieces : Nat → Nat → Nat → List (Nat × Nat)
  | 0, _, _ => []
  | _, _, 0 => []
  | fuel + 1, va, len =>
    let n := min len (pageSize va - va % pageSize va)
    (va, n) :: pagePieces fuel (va + n) (len - n)

/-- The pieces of a virtual range. -/
def piecesOf (va len : Nat) : List (Nat × Nat) := pagePieces (len / 0x10000 + 2) va len

/-- R36, R84: the module address and length of each piece of a virtual range; `none` is ACCESS. -/
def translateRange (x : Sparse XlateEntry) (sid : Nat) (ss : Session) (n : Need) (va len : Nat) :
    Option (List (Nat × Nat)) :=
  (piecesOf va len).mapM (fun pc => (translate x sid ss n pc.1).map (fun a => (a, pc.2)))

/-- Bytes of translated pieces. -/
def readPieces (s : State) (ps : List (Nat × Nat)) : List Byte :=
  (ps.map (fun p => moduleRead s.boot.config.windows s.near s.far p.1 p.2)).flatten

/-- A byte string stored over translated pieces. -/
def writePieces : List (Nat × Nat) → List Byte → State → State
  | [], _, s => s
  | p :: ps, bs, s => writePieces ps (bs.drop p.2) (moduleWrite p.1 (bs.take p.2) s)

/-- R72, R76: every far-tier piece is reachable. -/
def farPiecesOk (s : State) (ps : List (Nat × Nat)) (write : Bool) : Bool :=
  ps.all (fun p => decide (p.1 < nearEnd) || farOk s p.1 p.2 write)

/-- Two ranges of addresses share a byte. -/
def overlaps (a n b m : Nat) : Bool := decide (a < b + m ∧ b < a + n)

/-! ## Near-tier pages (R110) -/

/-- Near-tier ranges given to sessions: module address and size. -/
def mappedNear (s : State) : List (Nat × Nat) :=
  (s.xlate.filter (fun e => decide (e.2.mpage * 0x10000 < nearEnd))).map
    (fun e => (e.2.mpage * 0x10000, if e.2.large then 0x200000 else 0x10000))

/-- Rings enabled on both ports (R107). -/
def ringsEnabled (s : State) : Nat := ((s.ports.map (fun q => (q.rings.filter (·.enabled)).length))).sum

/-- Near-tier bytes that firmware holds: ring windows (R64; the two admin rings always), plan reservations (R151), the
firmware image area (R526) and mirror staging (R427). -/
def reservedNear (s : State) : Nat :=
  (2 + (s.ports.map (fun q => ((q.rings.drop 1).filter (·.enabled)).length)).sum) * 0x400000 +
    (s.plans.map (·.nearBytes)).sum + 0x1000000 + (s.twin.record.map (fun r => r.stageMib * 0x100000)).getD 0

/-- R107: unallocated near-tier bytes. -/
def nearFree (s : State) : Nat := nearUsable s - ((mappedNear s).map (·.2)).sum - reservedNear s

/-- Search upward from page `k` of `total` pages, wrapping, for a page whose address is free. -/
def findPage (used : List (Nat × Nat)) (size : Nat) (ok : Nat → Bool) (total : Nat) : Nat → Nat → Option Nat
  | 0, _ => none
  | fuel + 1, k =>
    let a := (k % total) * size
    if ok a && used.all (fun u => !overlaps a size u.1 u.2) then some a else findPage used size ok total fuel (k + 1)

/-- Pick `n` free pages of a size; firmware's choice of each is free (R110). -/
def pickPages (ok : Nat → Bool) (size count0 : Nat) : Nat → List (Nat × Nat) → Option (List Nat)
  | 0, _ => some []
  | n + 1, used =>
    match findPage used size ok (nearEnd / size) (nearEnd / size) (Config.nearPick (count0 + n)) with
    | none => none
    | some a => (pickPages ok size count0 n ((a, size) :: used)).map (a :: ·)

/-! ## Units -/

/-- R455: a unit ID from its class and index. -/
def unitId (cls index : Nat) : BitVec 32 := BitVec.ofNat 32 (cls * 0x10000 + index)

/-- The unit stands on the retirement list (R459). -/
def isRetired (s : State) (u : BitVec 32) : Bool := s.err.retired.any (fun r => decide (r.unit = u))

/-- Die 0 and die 1 in service (R458). -/
def dieUp (s : State) (d : Nat) : Bool := !s.boot.oneDie || decide (s.boot.leadDie = d)

/-- Craters in service: neither retired, nor parked, nor on a die out of service (R481). -/
def craterUp (s : State) (c : Nat) : Bool :=
  dieUp s (c / 16) && !isRetired s (unitId 2 c) && !bit s.power.parked c

/-- R106: logical cores in service. -/
def coresActive (s : State) : Nat := 32 * ((List.range 32).filter (craterUp s)).length

end Sys2Proof.Machine
end

