-- ==== Sys2Proof/Machine/Flags.lean ====
section
/-!
DEFINITION. The codes and registers that the module's fields read as: status codes, DEV_ID, DEV_STATE, BOOT_STATUS,
BOOT_ERROR, RING_HEAD and the other views of BAR0 (chapters 02 and 03).
-/

namespace Sys2Proof.Machine

/-- R58: STAGE codes. -/
def stageCode : BootStage → Nat
  | .romStart => 0x00
  | .puf => 0x01
  | .imageVerify => 0x02
  | .fwLoad => 0x03
  | .die1Join => 0x04
  | .memTrain => 0x05
  | .nearClear => 0x06
  | .running => 0x07
  | .recoveryWait => 0x10
  | .recoveryLoad => 0x11

/-- R52: BOOT_PHASE codes. -/
def phaseCode : BootPhase → Nat
  | .rom => 0x0
  | .imageLoad => 0x1
  | .fwInit => 0x2
  | .running => 0x3
  | .recovery => 0x4
  | .failed => 0xF

/-- R466: power state codes. -/
def powerCode : PowerState → Nat
  | .active => 0
  | .simmer => 1
  | .dormant => 2
  | .cold => 3

/-- R442: pair state codes. -/
def pairCode : PairState → Nat
  | .unpaired => 0
  | .pairing => 1
  | .paired => 2
  | .solo => 3
  | .detached => 4
  | .fenced => 5
  | .releasing => 6

/-- R468: refusal reason codes. -/
def refuseCode : RefuseReason → Nat
  | .planActive => 0x01
  | .paired => 0x02
  | .testActive => 0x03
  | .contextHeld => 0x04
  | .flowsOpen => 0x05
  | .mirrorLag => 0x06
  | .undrained => 0x07
  | .noAnswer => 0x08

/-- R435: DEV_STATE.PAIRED. -/
def isPaired (s : State) : Bool := s.twin.state = .paired || s.twin.state = .solo || s.twin.state = .releasing

/-- R435: DEV_STATE.FENCED. -/
def isFenced (s : State) : Bool := s.twin.state = .fenced

/-- R52: POWER, 2 during a transition. -/
def powerField (s : State) : Nat := if s.power.transition.isSome then 2 else powerCode s.power.state

/-- R51: DEV_ID as read through port `p`. -/
def devId (s : State) (p : Nat) : Word :=
  let up := s.boot.phase = .running
  BitVec.ofNat 64 (p <<< 48 + (if up then 0x12 <<< 40 + s.boot.fwRelease.toNat <<< 32 + 0x01 <<< 24 else 0) +
    0xA1 <<< 16 + 0x0A24)

/-- R52: DEV_STATE as read through port `p`. -/
def devState (s : State) (p : Nat) : Word :=
  BitVec.ofNat 64 (bitOf s.boot.oneDie <<< 12 + bitOf (portOf s p).ringsOpen <<< 11 + bitOf (isPaired s) <<< 10 +
    bitOf s.boot.fwAlive <<< 9 + bitOf (isFenced s) <<< 8 + phaseCode s.boot.phase <<< 4 + powerField s)

/-- R58: ELAPSED_MS. -/
def elapsedMs (s : State) : Nat := min 0xFFFFFFFF ((s.time - s.boot.resetTime).toNat / 1000000)

/-- R528: a FW_STAGE chain is delivering an image in recovery. -/
def hostDelivering (s : State) : Bool :=
  s.boot.phase = .recovery && s.ports.any (fun q => (ringAt q 0).chain.any (fun c => c.opcode = 0x00D0))

/-- R58, R528: the stage that BOOT_STATUS shows: the first source to deliver data moves the module to RECOVERY_LOAD. -/
def shownStage (s : State) : BootStage := if hostDelivering s then .recoveryLoad else s.boot.stage

/-- R58: BOOT_STATUS. -/
def bootStatus (s : State) : Word :=
  BitVec.ofNat 64 (elapsedMs s <<< 32 + s.boot.bootMode.toNat <<< 14 + bitOf s.boot.configValid <<< 13 +
    bitOf s.boot.imageValid <<< 12 + bitOf s.boot.die1Up <<< 11 + bitOf s.boot.die0Up <<< 10 + stageCode (shownStage s))

/-- R59: BOOT_ERROR. -/
def bootError (s : State) : Word :=
  BitVec.ofNat 64 (s.boot.errDetail.toNat <<< 32 + stageCode s.boot.errStage <<< 8 +
    (s.boot.errStatus.map statusCode).getD 0)

/-- R57: RING_HEAD. -/
def ringHead (r : Ring) : Word := BitVec.ofNat 64 (bitOf r.stopped <<< 32 + r.head.toNat)

/-- R49, R67: 64-bit word `w` of the MSI-X table: address, or data with the mask bit of Vector Control at bit 32. -/
def msixWord (q : Port) (w : Nat) : Word :=
  let e := q.msix.getD (w / 2) MsixEntry.reset
  if w % 2 = 0 then e.addr else BitVec.ofNat 64 (bitOf e.masked <<< 32 + e.data.toNat)

/-- R48, R49: what a good BAR0 read of an offset returns through port `p`. -/
def bar0Read (s : State) (p : Nat) (offset : Nat) : Word :=
  let q := portOf s p
  if offset = 0x0000 then devId s p
  else if offset = 0x0008 then devState s p
  else if offset = 0x0010 then s.boot.heartbeat
  else if offset = 0x0018 then q.hostEvent
  else if offset = 0x0020 then q.hostEventMask
  else if 0x0300 ≤ offset ∧ offset < 0x0500 then ringHead (ringAt q ((offset - 0x300) / 8))
  else if offset = 0x0800 then bootStatus s
  else if offset = 0x0808 then bootError s
  else if offset = 0x0810 then s.boot.aonFlags.zeroExtend 64
  else if 0x8000 ≤ offset ∧ offset < 0x8410 then msixWord q ((offset - 0x8000) / 8)
  else if offset = 0x9000 then q.pba.truncate 64
  else if offset = 0x9008 then BitVec.ofNat 64 (bits q.pba 64 64)
  else 0

/-- R65: what a BAR2 read returns. -/
def bar2Read (s : State) (p : Nat) (offset n : Nat) : List Byte :=
  let r := ringOf s p (offset / 0x400000)
  if r.enabled then memRead r.window (offset % 0x400000) n else zeros n

/-! AON_FLAGS bits (R60). -/

def aonBrownout : Nat := 0
def aonDormantResume : Nat := 1
def aonWarmReset : Nat := 2
def aonRecoveryReq : Nat := 3
def aonThermalTrip : Nat := 4
def aonWatchdog : Nat := 5

/-! HOST_EVENT bits (R54). -/

def evBootDone : Nat := 0
def evResetDone : Nat := 1
def evFwStall : Nat := 2
def evRecovery : Nat := 3
def evLinkDegraded : Nat := 4
def evThermal : Nat := 5
def evFenced : Nat := 6
def evBarFault : Nat := 7
def evSnapLatched : Nat := 8
def evPowerChange : Nat := 9

/-- R43: the four service points. -/
def servicePoint (width rate : Nat) : Bool := (width = 8 || width = 4) && (rate = 64 || rate = 32)

/-- The state with an AON_FLAGS bit set. -/
def setAon (b : Nat) (s : State) : State := { s with boot := { s.boot with aonFlags := setBit s.boot.aonFlags b } }

end Sys2Proof.Machine
end

