-- ==== Sys2Proof/Machine/Admit.lean ====
section
/-!
DEFINITION. How the module takes a packet from a submission ring: the packet at HEAD, protocol stops, chains, the
judging order of R92, and the start of the command (R78 to R93, R100 to R104).
-/

namespace Sys2Proof.Machine

/-! ## Packets -/

/-- Parameter word `i` of a packet (R90). -/
def packetParam (p : Packet) (i : Nat) : BitVec 32 :=
  [p.p0, p.p1, p.p2, p.p3, p.p4, p.p5, p.p6].getD i 0

/-- R90: bytes 0 to 59 of a packet's header. -/
def headerBody (op : BitVec 16) (p : Packet) : List Byte :=
  natLE op.toNat 2 ++ natLE p.flags.toNat 2 ++ natLE p.tag.toNat 4 ++ natLE p.payloadLen.toNat 4 ++
    natLE p.session.toNat 2 ++ natLE p.rsv0.toNat 2 ++ natLE p.ringSeq.toNat 4 ++ natLE p.rsv1.toNat 4 ++
    natLE p.handle.toNat 8 ++ ((List.range 7).map (fun i => natLE (packetParam p i).toNat 4)).flatten

/-- R90: the 64 bytes of a packet's header. -/
def headerBytes (op : BitVec 16) (p : Packet) : List Byte := headerBody op p ++ natLE p.hdrCrc.toNat 4

/-- R85: `n` bytes of a ring's window from the unit with sequence `seq`, wrapping at the window's end. -/
def windowRead (r : Ring) (seq n : Nat) : List Byte :=
  let off := seq % 65536 * 64
  memRead r.window off (min n (0x400000 - off)) ++ memRead r.window 0 (n - (0x400000 - off))

/-- R86: the units of a packet. -/
def packetUnits (payloadLen : Nat) : Nat := ceilDiv (64 + payloadLen) 64

/-- R87: units between HEAD and TAIL. -/
def ringAvail (r : Ring) : Nat := (r.tail - r.head).toNat

/-- R88: the protocol error of the header at HEAD, reasons 0x1 to 0x3. -/
def headerStop (r : Ring) (hdr : List Byte) : Option Nat :=
  if (crc32c (hdr.take 60)).toNat ≠ field hdr 480 32 then some 1
  else if field hdr 128 32 ≠ r.head.toNat then some 2
  else if field hdr 64 32 > 4194240 then some 3
  else none

/-! ## Whose turn it is -/

/-- R78, R528, R53: a processor that serves rings runs, and the port's rings are open. -/
def ringsServed (s : State) (p : Nat) : Bool :=
  (portOf s p).ringsOpen &&
    (s.boot.phase = .recovery ||
      (fwServing s && (s.power.state = .active || s.power.state = .simmer)))

/-- R469: during a transition the module takes only POWER_SET and POWER_QUERY, and only from admin rings. -/
def transitionAllows (s : State) (i : Nat) (op : Nat) : Bool :=
  s.power.transition.isNone || (i = 0 && (op = 0x0090 || op = 0x0091))

/-- The packet at HEAD continues the ring's chain (R93). -/
def continuesChain (r : Ring) (hdr : List Byte) : Bool :=
  match r.chain with
  | none => false
  | some c =>
    decide (c.opcode.toNat = field hdr 0 16 ∧ c.tag.toNat = field hdr 32 32 ∧ c.session.toNat = field hdr 96 16 ∧
      c.handle.toNat = field hdr 192 64)

/-- R91, R101, R102: a command may start on a ring: its FENCE has nothing to wait for, and fewer than 64 are outstanding. -/
def mayStart (r : Ring) (hdr : List Byte) : Bool :=
  (field hdr 17 1 = 0 || r.outstanding.isEmpty) && decide (r.outstanding.length < 64)

/-- R87, R88, R93, R101, R102, R469: the module can act on the packet at HEAD of ring `i` of port `p` now. A packet that breaks a
chain off abandons the chain whatever it itself has to wait for. -/
def ringCanServe (s : State) (p i : Nat) : Bool :=
  let r := ringOf s p i
  if !r.enabled || r.stopped || r.tail = r.head then false
  else
    let hdr := windowRead r r.head.toNat 64
    if (headerStop r hdr).isSome then s.power.transition.isNone
    else decide (packetUnits (field hdr 64 32) ≤ ringAvail r) && transitionAllows s i (field hdr 0 16) &&
      (r.chain.isSome || mayStart r hdr)

/-- R100: ring `i` is the one that port `p` serves next: the admin ring, or the first ring after the one served last. -/
def ringsTurn (s : State) (p i : Nat) : Bool :=
  if i = 0 then true
  else
    let last := (portOf s p).lastServed
    !ringCanServe s p 0 &&
      (List.range ((i + 64 - last - 1) % 64)).all (fun k =>
        let j := (last + 1 + k) % 64
        j = 0 || !ringCanServe s p j)

/-- The packet stands at HEAD of its ring and is the next one its port takes. -/
def packetAtHead (s : State) (r : RingId) (op : BitVec 16) (p : Packet) : Bool :=
  let q := ringOf s r.port r.idx
  ringsServed s r.port && ringCanServe s r.port r.idx && ringsTurn s r.port r.idx &&
    decide (windowRead q q.head.toNat 64 = headerBytes op p) &&
    ((headerStop q (headerBytes op p)).isSome ||
      decide (windowRead q (q.head.toNat + 1) p.payloadLen.toNat = p.payload))

/-! ## Judging (R92) -/

/-- What a command's HANDLE names: nothing, an object, a plan where P4 says KIND 1 (DATA_PUT, R112), or a plan where it is not 0
(OWNER_TABLE_SET, R416). -/
inductive HandleUse where
  | unused | session | plan | table | context | stagedPlan | planOrNone
  deriving DecidableEq, Repr

/-- What the command table and its owning chapter say of a command before its own checks. -/
structure CommandRule where
  opcode : BitVec 16
  /-- the opcode is in the command table -/
  known : Bool
  adminOnly : Bool
  chainable : Bool
  handle : HandleUse
  /-- the bits of P0 to P6 that the command defines -/
  used : List (BitVec 32)
  /-- R79: the command needs a job domain or creates an object of a session -/
  needsSession : Bool
  /-- R103: accepted while FENCED -/
  whenFenced : Bool
  /-- R528: accepted by the boot ROM in recovery -/
  inRecovery : Bool
  /-- R469: completes BUSY in SIMMER -/
  busyInSimmer : Bool
  deriving DecidableEq, Repr

/-- A command of any ring with no chain, handle or parameters. -/
def plainRule (op : BitVec 16) : CommandRule where
  opcode := op
  known := true
  adminOnly := false
  chainable := false
  handle := .unused
  used := []
  needsSession := false
  whenFenced := false
  inRecovery := false
  busyInSimmer := false

/-- R5, R90, R91: reserved bits of the header, of FLAGS and of the parameter words are zero. -/
def reservedClear (rule : CommandRule) (p : Packet) : Bool :=
  p.rsv0 = 0 && p.rsv1 = 0 && p.flags &&& 0xFFF8 = 0 &&
    (List.range 7).all (fun i => packetParam p i &&& ~~~ rule.used.getD i 0 = 0)

/-- R80: the SESSION field is bound to the ring and names an open session or the admin context. -/
def sessionBound (s : State) (r : RingId) (p : Packet) : Bool :=
  if r.idx = 0 then p.session = 0xFFFF || (sget s.sessions p.session.toNat).isSome
  else decide ((ringOf s r.port r.idx).session = some p.session.toNat) && (sget s.sessions p.session.toNat).isSome

/-- R92: HANDLE names an existing object, of the session that SESSION names; the admin context may name an object of
any session (DEDUCED, log entry 10). -/
def handleNames (s : State) (h : HandleUse) (p : Packet) : Bool :=
  let planOwner := (s.plans.find? (fun x => x.handle = p.handle)).map (·.session)
  let owner : Option Nat := match h with
    | .unused => none
    | .session => if p.handle.toNat < 256 ∧ (sget s.sessions p.handle.toNat).isSome then some p.handle.toNat else none
    | .plan | .stagedPlan | .planOrNone => planOwner
    | .table => (s.tables.find? (fun x => x.handle = p.handle)).map (·.session)
    | .context => (s.contexts.find? (fun x => x.handle = p.handle)).map (·.session)
  h = .unused || (h = .stagedPlan && p.p4 &&& 3 ≠ 1) || (h = .planOrNone && p.handle = 0) || (match owner with
    | none => false
    | some o => p.session = 0xFFFF || o = p.session.toNat)

/-- R92 with R81, R103, R104, R79, R469, R528: the status a packet completes with before its own checks. -/
def judge (s : State) (r : RingId) (rule : CommandRule) (p : Packet) : Option Status :=
  let outst := (ringOf s r.port r.idx).outstanding
  if !rule.known ∨ (s.boot.phase = .recovery ∧ !rule.inRecovery) then some .unsupported
  else if !reservedClear rule p then some .badPacket
  else if p.tag = 0xFFFFFFFF ∨ outst.any (fun o => o.tag = p.tag) then some .badPacket
  else if !sessionBound s r p then some .badPacket
  else if !handleNames s rule.handle p then some .access
  else if bit p.flags 0 ∧ !rule.chainable then some .badPacket
  else if rule.opcode ≠ 0x0011 ∧ ((sget s.sessions p.session.toNat).map (fun ss => ss.closing.isSome)).getD false then
    some .cancelled
  else if rule.adminOnly ∧ r.idx ≠ 0 then some .access
  else if isFenced s ∧ !rule.whenFenced then some .fenced
  else if rule.needsSession ∧ p.session = 0xFFFF then some .access
  else if s.power.state = .simmer ∧ rule.busyInSimmer then some .busy
  else none

/-! ## Taking the packet -/

/-- Where the command's completion goes. -/
def refOf (r : RingId) (c : Chain) : CmdRef where
  port := r.port
  ring := r.idx
  tag := c.tag
  ringSeq := c.ringSeq
  opcode := c.opcode
  noIrq := c.noIrq

/-- The state with ring `r` changed. -/
def onRingOf (r : RingId) (f : Ring → Ring) (s : State) : State := onPort r.port (onRing r.idx f) s

/-- R88: the ring stops at the packet; except for reason 0x5 one completion tells why. -/
def stopRing (r : RingId) (reason : Nat) (s : State) : State :=
  let s1 := onRingOf r (fun x => { x with stopped := true }) s
  if reason = 5 then s1
  else
    onPort r.port (postCompletion s.time r.idx
      { tag := 0xFFFFFFFF, status := .badPacket, phase := false, more := false, opcode := 0,
        ringSeq := (ringOf s r.port r.idx).head, count0 := 0, count1 := BitVec.ofNat 32 reason, payload := [],
        noIrq := false }) s1

/-- R87: HEAD moves past the packet, and the ring becomes the one served last (R100). -/
def passPacket (r : RingId) (p : Packet) (s : State) : State :=
  onPort r.port
    (fun q =>
      { onRing r.idx (fun x => { x with head := x.head + BitVec.ofNat 32 (packetUnits p.payloadLen.toNat) }) q with
        lastServed := if r.idx = 0 then q.lastServed else r.idx.val })
    s

/-- A command that starts: its first packet, and what R92 says of it. NO_IRQ and the parameters of a chain are those of its
first packet (DESIGN CHOICE, log entry 13). -/
def startChain (op : BitVec 16) (p : Packet) (failed : Option Status) : Chain where
  opcode := op
  tag := p.tag
  session := p.session
  handle := p.handle
  ringSeq := p.ringSeq
  noIrq := bit p.flags 2
  params := (List.range 7).map (packetParam p)
  payload := []
  taken := 0
  nextVa := 0
  failed := failed

/-- R93, R105, R112: a chain in progress is abandoned with BAD_PACKET; COUNT0 of DATA_PUT is the bytes written. -/
def abandonChain (r : RingId) (s : State) : State :=
  match (ringOf s r.port r.idx).chain with
  | none => s
  | some c =>
    complete (refOf r c) { replyOf .badPacket with count0 := if c.opcode = 0x0030 then c.taken else 0 }
      (onRingOf r (fun x => { x with chain := none }) s)

/-- A chain's payload grows by a packet's. -/
def gatherPayload (p : Packet) (c : Chain) (s : State) : State × Chain :=
  (s, { c with payload := c.payload ++ p.payload, taken := c.taken + p.payload.length })

/-- A status already decided for the chain stands before a later one. -/
def failChain (st : Status) (c : Chain) : Chain := { c with failed := some (c.failed.getD st) }

/-- The command as a whole ends: with the status decided so far, or by its own meaning. COUNT0 of a failed DATA_PUT is
the bytes written (R112). -/
def finishChain (r : RingId) (body : CmdRef → Chain → State → State) (c : Chain) (s : State) : State :=
  match c.failed with
  | some st => complete (refOf r c) { replyOf st with count0 := if c.opcode = 0x0030 then c.taken else 0 } s
  | none => body (refOf r c) c s

/-- A packet is consumed: it goes on with a chain, or starts a command, and with its last packet the command ends. `gather` takes
a packet's payload, `body` is the command's own meaning. A packet with CHAIN = 1 whose payload is no multiple of 64 bytes ends its
chain with BAD_PACKET, and what follows is a new command (DESIGN CHOICE, log entry 13). -/
def consumePacket (r : RingId) (rule : CommandRule) (gather : Packet → Chain → State → State × Chain)
    (body : CmdRef → Chain → State → State) (p : Packet) (going : Option Chain) (s : State) : State :=
  let c0 := match going with
    | some c => if reservedClear rule p then c else failChain .badPacket c
    | none => startChain rule.opcode p (judge s r rule p)
  let s2 := passPacket r p s
  let s3 := if going.isSome then s2 else onRingOf r (fun x => { x with outstanding := x.outstanding ++ [refOf r c0] }) s2
  let taken := if c0.failed.isSome then (s3, c0) else gather p c0 s3
  if bit p.flags 0 ∧ rule.chainable ∧ p.payloadLen.toNat % 64 = 0 then
    onRingOf r (fun x => { x with chain := some taken.2 }) taken.1
  else
    let c1 := if bit p.flags 0 ∧ rule.chainable then failChain .badPacket taken.2 else taken.2
    finishChain r body c1 (onRingOf r (fun x => { x with chain := none }) taken.1)

/-- The packet that stands at HEAD is taken: a protocol stop, or a packet that is consumed. One that breaks a chain off abandons
the chain, and stays at HEAD while it may not start itself (R93, R101, R102). -/
def takePacket (r : RingId) (rule : CommandRule) (gather : Packet → Chain → State → State × Chain)
    (body : CmdRef → Chain → State → State) (p : Packet) (s : State) : State :=
  let q := ringOf s r.port r.idx
  let hdr := headerBytes rule.opcode p
  match headerStop q hdr with
  | some reason => stopRing r reason s
  | none =>
    if r.idx = 0 ∧ q.cq = none then stopRing r 5 s
    else if continuesChain q hdr then consumePacket r rule gather body p q.chain s
    else
      let s1 := abandonChain r s
      if q.chain.isSome ∧ !mayStart (ringOf s1 r.port r.idx) hdr then s1 else consumePacket r rule gather body p none s1

/-- A host packet: taken when it is the next packet its port takes; otherwise nothing happens, for the module consumes
only what stands at HEAD (R87, R100). -/
def hostCommand (r : RingId) (rule : CommandRule) (body : CmdRef → Chain → State → State) (p : Packet) (s : State) :
    State :=
  if packetAtHead s r rule.opcode p then takePacket r rule gatherPayload body p s else s

/-! ## Parameters of a command -/

/-- Parameter word `i` of a started command. -/
def parN (c : Chain) (i : Nat) : Nat := (c.params.getD i 0).toNat

/-- The 64-bit parameter in words `i` and `i + 1`. -/
def par64 (c : Chain) (i : Nat) : Nat := parN c i + parN c (i + 1) <<< 32

/-- Bits `hi`:`lo` of parameter word `i`. -/
def parBits (c : Chain) (i hi lo : Nat) : Nat := bits (c.params.getD i 0) hi lo

/-- The packet with bits of P0 replaced, for a row that fixes a selector. -/
def fixP0 (mask value : BitVec 32) (p : Packet) : Packet := { p with p0 := (p.p0 &&& ~~~ mask) ||| value }

end Sys2Proof.Machine
end

