-- ==== Sys2Proof/Machine/Tensor.lean ====
section
/-!
DEFINITION. Tensor descriptors: their geometry, addresses, footprints, injectivity and alignment, and the checks that
PLAN_LOAD makes of them (chapter 04, R117 to R144).
-/

namespace Sys2Proof.Machine

/-! ## Formats (R117, R121) -/

/-- R117: FORMAT codes. -/
def formatCode : Format → Nat
  | .fp32 => 0x01
  | .bf16 => 0x02
  | .fp16 => 0x03
  | .e4m3 => 0x04
  | .e5m2 => 0x05
  | .int32 => 0x06
  | .a8 => 0x07
  | .u8 => 0x08
  | .u64 => 0x09
  | .b8 => 0x10
  | .b6 => 0x11
  | .b4 => 0x12
  | .b3 => 0x13
  | .tn2 => 0x14
  | .tn5 => 0x15

/-- Every format. -/
def allFormats : List Format :=
  [.fp32, .bf16, .fp16, .e4m3, .e5m2, .int32, .a8, .u8, .u64, .b8, .b6, .b4, .b3, .tn2, .tn5]

/-- R117: the format of a code. -/
def formatOf (n : Nat) : Option Format := allFormats.find? (fun f => formatCode f = n)

/-- Bytes of an element of an element format; 0 for A8 and the cell formats. -/
def elemBytes : Format → Nat
  | .fp32 | .int32 => 4
  | .bf16 | .fp16 => 2
  | .e4m3 | .e5m2 | .u8 => 1
  | .u64 => 8
  | _ => 0

/-- R121: bytes of a cell; 0 for element formats and A8. -/
def cellBytes : Format → Nat
  | .b8 => 66
  | .b6 => 50
  | .b4 => 34
  | .b3 => 26
  | .tn2 => 18
  | .tn5 => 15
  | _ => 0

/-- A8 and the cell formats are packed by rows (R132). -/
def isPacked (f : Format) : Bool := elemBytes f = 0

/-- A block-scaled cell format. -/
def isCell (f : Format) : Bool := cellBytes f ≠ 0

/-- A floating-point element format. -/
def isFloat (f : Format) : Bool := f = .fp32 || f = .bf16 || f = .fp16 || f = .e4m3 || f = .e5m2

/-- Data bytes of a row of `n` elements, padding not counted (R120, R127). -/
def rowDataBytes (f : Format) (n : Nat) : Nat :=
  if isCell f then ceilDiv n 64 * cellBytes f else if f = .a8 then 4 + n else n * elemBytes f

/-- R127: the access width that rows of a space are padded to. -/
def padWidth : Space → Nat
  | .session | .staging => 64
  | .localPools | .blocked => 16

/-! ## Geometry (R131, R142) -/

/-- Extent of dimension `i`. -/
def dimOf (d : Descriptor) (i : Nat) : Nat := d.dims.getD i 1

/-- Byte stride of dimension `i`. -/
def strideOf (d : Descriptor) (i : Nat) : Int := d.strides.getD i 0

/-- The product of the extents from dimension `i` upward. -/
def dimsFrom (d : Descriptor) (i : Nat) : Nat := (d.dims.drop i).foldl (· * ·) 1

/-- R131, R142: the row count. -/
def rowCount (d : Descriptor) : Nat :=
  if d.rank = 1 then (if isPacked d.format then 1 else dimOf d 0) else dimsFrom d 1

/-- R131: elements of one row. -/
def rowLen (d : Descriptor) : Nat := if d.rank = 1 ∧ !isPacked d.format then 1 else dimOf d 0

/-- Bytes of one padded row (R127) in the descriptor's space; outside BLOCKED space the elements of a RANK 1 element
format lie at their stride and are not padded. -/
def paddedRow (d : Descriptor) : Nat :=
  if d.rank = 1 ∧ !isPacked d.format then (if d.space = .blocked then roundUp (elemBytes d.format) 16 else elemBytes d.format)
  else roundUp (rowDataBytes d.format (dimOf d 0)) (padWidth d.space)

/-- R142: the block count of a BLOCKED tensor. -/
def blockCountOf (d : Descriptor) : Nat :=
  if d.block2d then ceilDiv (dimOf d 0) 64 * ceilDiv (dimOf d 1) 64 * dimsFrom d 2 else ceilDiv (rowCount d) 64

/-- R142: the block of element `i0` of row `r`: a row block, or a tile of dimensions 0 and 1. -/
def blockOf (d : Descriptor) (i0 r : Nat) : Nat :=
  if d.block2d then (r / dimOf d 1 * ceilDiv (dimOf d 1) 64 + r % dimOf d 1 / 64) * ceilDiv (dimOf d 0) 64 + i0 / 64
  else r / 64

/-- R143: bytes of one row of a block: a padded row, or 64 padded elements under BLOCK2D. -/
def blockRowBytes (d : Descriptor) : Nat := if d.block2d then roundUp (rowDataBytes d.format 64) 16 else paddedRow d

/-- R143: bytes of a block: 64 of its rows. -/
def blockSize (d : Descriptor) : Nat := 64 * blockRowBytes d

/-- Where a byte of the padded row layout stands among the blocks: block, offset in it, and how many bytes from there on stand
together; `kept` is false for padding that a tile has no room for. -/
structure BlockSpot where
  blk : Nat
  off : Nat
  run : Nat
  kept : Bool
  deriving DecidableEq, Repr

/-- R142, R143: the place of byte `a` of the padded row layout. The scale of an A8 row stands in its first tile (DESIGN CHOICE, log
entry 96). -/
def spotOf (d : Descriptor) (a : Nat) : BlockSpot :=
  let w := max (paddedRow d) 1
  if !d.block2d then { blk := a / (64 * w), off := a % (64 * w), run := 64 * w - a % (64 * w), kept := true }
  else
    let x := a % w
    let r := a / w
    let lead := if d.format = .a8 then 4 else 0
    let span := max 1 (if isCell d.format then cellBytes d.format else if d.format = .a8 then 64 else 64 * elemBytes d.format)
    let t := min (ceilDiv (dimOf d 0) 64 - 1) ((x - lead) / span)
    let inside := x - (if t = 0 then 0 else lead + t * span)
    let last := decide (t + 1 = ceilDiv (dimOf d 0) 64)
    let room := blockRowBytes d - inside
    { blk := blockOf d (64 * t) r
      off := r % dimOf d 1 % 64 * blockRowBytes d + inside
      run := if last then (if room = 0 then w - x else min room (w - x)) else lead + (t + 1) * span - x
      kept := decide (room ≠ 0) }

/-- A descriptor that no plan names. -/
def noDescriptor : Descriptor :=
  { base := 0, format := .u8, rank := 1, aliasOk := false, reduce := 0, space := .session, bound := 0, stageDie := 0,
    lane := false, block2d := false, fabric := false, dims := [1], strides := [1], fabricMapBase := 0, blockCount := 0 }

/-- The indices of dimensions 1 upward of row `r`, dimension 1 varying fastest (R131). -/
def rowIndices : List Nat → Nat → List Nat
  | [], _ => []
  | e :: es, r => r % max e 1 :: rowIndices es (r / max e 1)

/-- R133: an index brought inside an extent by CLAMP or WRAP. -/
def resolveIndex (wrap : Bool) (dim : Nat) (i : Int) : Nat :=
  if 0 ≤ i ∧ i < dim then i.toNat
  else if wrap then (i % dim).toNat
  else if i < 0 then 0 else dim - 1

/-- The byte stride of dimension `i`: as written, or as the padded rows of BLOCKED space lie (R143). -/
def effStride (d : Descriptor) (i : Nat) : Int :=
  if d.space ≠ .blocked then strideOf d i
  else if i = 0 then ((if d.rank = 1 then paddedRow d else elemBytes d.format : Nat) : Int)
  else ((paddedRow d * ((d.dims.drop 1).take (i - 1)).foldl (· * ·) 1 : Nat) : Int)

/-- R133: the address of an index vector, `i0` first; the term of dimension 0 is left out for packed formats. -/
def addressOf (d : Descriptor) (idx : List Int) : Int :=
  (idx.zipIdx).foldl
    (fun acc (i, k) =>
      if k = 0 ∧ isPacked d.format then acc
      else acc + resolveIndex (bitOf (d.bound.testBit k) = 1) (dimOf d k) i * effStride d k)
    (d.base : Int)

/-- The address of row `r` in SESSION, STAGING or LOCAL space, or its offset in BLOCKED space. -/
def rowAddress (d : Descriptor) (r : Nat) : Int :=
  if d.space = .blocked then ((r * paddedRow d : Nat) : Int)
  else if d.rank = 1 ∧ !isPacked d.format then (d.base : Int) + r * strideOf d 0
  else (((rowIndices (d.dims.drop 1) r).zipIdx 1).foldl (fun acc (i, k) => acc + (i : Int) * strideOf d k) (d.base : Int))

/-! ## Footprints and injectivity (R135, R136, R139) -/

/-- R136 step 5: the bytes of the unit that dimensions are compared with. -/
def unitBytes (d : Descriptor) : Nat :=
  if isPacked d.format then roundUp (rowDataBytes d.format (dimOf d 0)) (padWidth d.space) else elemBytes d.format

/-- The dimensions whose strides address units: 1 upward for packed formats, 0 upward for element formats. -/
def addressedDims (d : Descriptor) : List Nat := (List.range d.rank).drop (if isPacked d.format then 1 else 0)

/-- Lowest byte and one past the highest byte of a tensor's footprint, as addresses or offsets in its space. -/
def footprint (d : Descriptor) : Int × Int :=
  if d.space = .blocked then (0, ((rowCount d * paddedRow d : Nat) : Int))
  else
    let ends := (addressedDims d).foldl
      (fun (acc : Int × Int) k =>
        let e := ((dimOf d k : Int) - 1) * strideOf d k
        if e < 0 then (acc.1 + e, acc.2) else (acc.1, acc.2 + e))
      ((d.base : Int), (d.base : Int))
    (ends.1, ends.2 + unitBytes d)

/-- One dimension of a write's iteration space: stride, extent, first index, dimension size and WRAP. -/
structure WriteDim where
  stride : Int
  extent : Nat
  origin : Int
  dim : Nat
  wrap : Bool
  deriving DecidableEq, Repr

/-- The iteration indices of a dimension leave the tensor. -/
def leavesDim (w : WriteDim) : Bool := decide (w.origin < 0 ∨ (w.dim : Int) < w.origin + w.extent)

/-- R136 step 5: highest less lowest resolved index. -/
def spreadOf (w : WriteDim) : Nat :=
  if w.wrap ∧ leavesDim w ∧ (w.origin % w.dim + w.extent > w.dim) then w.dim - 1 else w.extent - 1

/-- R136: the injectivity test over an iteration space; `unit` is the footprint of one unit. -/
def injective (unit : Nat) (ws : List WriteDim) : Bool :=
  let live := ws.filter (fun w => w.extent ≠ 1)
  live.all (fun w =>
      w.stride ≠ 0 && !(!w.wrap && leavesDim w) && !(w.wrap && decide (w.dim < w.extent))) &&
    ((live.mergeSort (fun a b => decide (a.stride.natAbs ≤ b.stride.natAbs))).foldl
      (fun (acc : Bool × Nat) w =>
        (acc.1 && decide (acc.2 ≤ w.stride.natAbs), acc.2 + w.stride.natAbs * spreadOf w))
      (true, unit)).1

/-- R139: every unit starts at a multiple of its footprint. -/
def unitsCoincide (unit : Nat) (ws : List WriteDim) : Bool :=
  (ws.filter (fun w => w.extent ≠ 1)).all (fun w => w.stride.natAbs % unit = 0)

/-- The write dimensions of a descriptor written over its own extents. -/
def ownWriteDims (d : Descriptor) : List WriteDim :=
  (addressedDims d).map (fun k =>
    { stride := strideOf d k, extent := dimOf d k, origin := 0, dim := dimOf d k, wrap := d.bound.testBit k })

/-- R137, R139: a write map is accepted. -/
def writeMapOk (d : Descriptor) (ws : List WriteDim) : Bool :=
  d.space = .blocked || injective (unitBytes d) ws || (d.aliasOk && unitsCoincide (unitBytes d) ws)

/-- R140: base and strides are aligned for a mover of a class width; a read may have stride 0 in dimension 0; a privileged channel, of
width 1, accepts any. -/
def alignedFor (width : Nat) (write : Bool) (d : Descriptor) : Bool :=
  d.space = .blocked || width = 1 ||
    (decide (d.base % width = 0) &&
      (List.range d.rank).all (fun k =>
        if k = 0 then
          if isPacked d.format then true
          else decide (strideOf d 0 = elemBytes d.format) || (!write && decide (strideOf d 0 = 0))
        else decide (strideOf d k % width = 0)))

/-! ## Parsing and the checks of R135 -/

/-- R130: the descriptor of a 128-byte record, read without judging it. -/
def parseDescriptor (b : List Byte) : Descriptor :=
  let rank := field b 72 3
  { base := field b 0 64
    format := (formatOf (field b 64 8)).getD .u8
    rank := rank
    aliasOk := field b 75 1 = 1
    reduce := field b 76 2
    space := match field b 78 2 with
      | 0 => .session
      | 1 => .localPools
      | 2 => .staging
      | _ => .blocked
    bound := field b 80 6
    stageDie := field b 86 1
    lane := field b 87 1 = 1
    block2d := field b 88 1 = 1
    fabric := field b 89 1 = 1
    dims := (List.range rank).map (fun k => field b (128 + 32 * k) 32)
    strides := (List.range rank).map (fun k => signed 64 (field b (320 + 64 * k) 64))
    fabricMapBase := field b 704 19
    blockCount := field b 800 32 }

/-- R130, R135 row 1: reserved fields of a descriptor record. STAGE_DIE is given for STAGING space only, and a non-zero one elsewhere is
taken as such a field (DEDUCED, log entry 99). -/
def descReservedBad (b : List Byte) : Bool :=
  let rank := field b 72 3
  (formatOf (field b 64 8)).isNone || rank = 0 || rank = 7 || field b 76 2 = 3 ||
    field b 90 38 ≠ 0 || field b 80 6 >>> rank ≠ 0 ||
    (List.range 6).any (fun k => decide (rank ≤ k) && (field b (128 + 32 * k) 32 ≠ 0 || field b (320 + 64 * k) 64 ≠ 0)) ||
    field b 723 13 ≠ 0 || field b 736 18 ≠ 0 || field b 754 14 ≠ 0 || field b 768 14 ≠ 0 || field b 782 18 ≠ 0 ||
    field b 832 192 ≠ 0 ||
    (field b 78 2 = 3 && field b 0 64 ≠ 0) || (field b 89 1 = 0 && field b 704 19 ≠ 0) ||
    (field b 78 2 ≠ 2 && field b 86 1 ≠ 0)

/-- R135: the first check a descriptor fails, of the rows before alignment, which concern the descriptor alone. -/
def descCheck (b : List Byte) : Option Status :=
  let d := parseDescriptor b
  let fp := footprint d
  if descReservedBad b then some .badPlan
  else if isPacked d.format ∧ strideOf d 0 ≠ 0 then some .badPlan
  else if (if d.space = .blocked then d.blockCount ≠ blockCountOf d else d.blockCount ≠ 0) then some .badPlan
  else if (d.lane ∧ d.space ≠ .localPools) ∨ ((d.block2d ∨ d.fabric) ∧ d.space ≠ .blocked) ∨ (d.block2d ∧ d.rank = 1) then
    some .badPlan
  else if d.dims.any (fun n => n = 0 ∨ n > 2 ^ 24) ∨ dimsFrom d 0 > 2 ^ 40 then some .limit
  else if (d.space = .localPools ∧ (fp.1 < 0 ∨ fp.2 > (if d.lane then 0x10000 else 0xC0000))) ∨
      (d.space = .staging ∧ (fp.1 < 0 ∨ fp.2 > 0x3000000)) then some .limit
  else none

/-- R135: REDUCE SUM or MAX on a write that no element-wise result exists for. -/
def reduceUnsupported (d : Descriptor) : Bool :=
  d.reduce ≠ 0 && (isPacked d.format || d.format = .u8 || d.format = .u64)

end Sys2Proof.Machine
end

