-- ==== Sys2Proof/Machine/TableOps.lean ====
section
/-!
DEFINITION. Operations on embedding tables that several commands share: rows and blocks, version slots and their
references, hot blocks and migrations (chapter 11, R302 to R314, R328 to R333).
-/

namespace Sys2Proof.Machine

/-! ## Session memory -/

/-- No permission beyond the mapping itself. -/
def needNothing : Need := { read := false, write := false, table := false, weights := false }

/-- Translated pieces of a range of a session's memory; `none` is ACCESS. -/
def sessionPieces (s : State) (sid : Nat) (n : Need) (va len : Nat) : Option (List (Nat × Nat)) :=
  match sget s.sessions sid with
  | none => none
  | some ss => translateRange s.xlate sid ss n va len

/-- Bytes of a session's memory; an unmapped range reads as nothing but zeros. -/
def sessionRead (s : State) (sid va len : Nat) : List Byte :=
  match sessionPieces s sid needNothing va len with
  | none => zeros len
  | some ps => readPieces s ps

/-- Bytes stored in a session's memory, where it is mapped. -/
def sessionWrite (sid va : Nat) (bs : List Byte) (s : State) : State :=
  match sessionPieces s sid needNothing va bs.length with
  | none => s
  | some ps => writePieces ps bs s

/-! ## Rows and blocks -/

/-- R304: data bytes of a row. -/
def rowData (t : EmbTable) : Nat := rowDataBytes t.rowFormat t.rowElems

/-- R304: byte offset of the ADAGRAD_ROW accumulator. -/
def accumulatorOff (t : EmbTable) : Nat := roundUp (rowData t) 4

/-- R304: ROW_BYTES. -/
def rowBytesOf (t : EmbTable) : Nat :=
  roundUp (if t.merge = 4 then accumulatorOff t + 4 else rowData t) 64

/-- R306: row blocks of a slot. -/
def tableBlocks (t : EmbTable) : Nat := ceilDiv t.rows (2 ^ t.log2Block)

/-- R328: bytes of a frame. -/
def frameBytes (t : EmbTable) : Nat := 2 ^ t.log2Block * rowBytesOf t

/-- Slot `k` of a table. -/
def slotOf (t : EmbTable) (k : Nat) : VersionSlot :=
  t.slots.getD k { state := .empty, storeVa := 0xFFFFFFFFFFFFFFFF, indexVa := 0xFFFFFFFFFFFFFFFF, dirBase := 0, refs := 0 }

/-- R306: bytes of one block as far as the table's rows reach. -/
def blockBytes (t : EmbTable) (blk : Nat) : Nat :=
  (min t.rows ((blk + 1) * 2 ^ t.log2Block) - blk * 2 ^ t.log2Block) * rowBytesOf t

/-- R305: session VA of a block in its storage. -/
def storageVa (t : EmbTable) (k blk : Nat) : Nat := (slotOf t k).storeVa.toNat + blk * frameBytes t

/-- R328: session VA of a frame of the hot area. -/
def frameVa (t : EmbTable) (frame : Nat) : Nat := (t.policy.map (·.hotVa)).getD 0 + frame * frameBytes t

/-- The directory entry of a block. -/
def dirEntry (s : State) (t : EmbTable) (k blk : Nat) : DirEntry :=
  (sget s.rowDir ((slotOf t k).dirBase + blk)).getD
    { hot := false, migrating := false, dirty := false, addr := storageVa t k blk / 64, count0 := 0, count1 := 0 }

/-- The state with a directory entry written. -/
def setDir (t : EmbTable) (k blk : Nat) (f : DirEntry → DirEntry) (s : State) : State :=
  { s with rowDir := sset s.rowDir ((slotOf t k).dirBase + blk) (f (dirEntry s t k blk)) }

/-- The table of a handle. -/
def tableOf (s : State) (h : Word) : Option EmbTable := s.tables.find? (fun t => t.handle = h)

/-- The state with a table changed. -/
def onTable (h : Word) (f : EmbTable → EmbTable) (s : State) : State :=
  { s with tables := s.tables.map (fun t => if t.handle = h then f t else t) }

/-- The table with a slot changed. -/
def onSlot (k : Nat) (f : VersionSlot → VersionSlot) (t : EmbTable) : EmbTable := { t with slots := modAt t.slots k f }

/-- R302: the number of a table, bits 11:0 of its handle. -/
def tableNumber (t : EmbTable) : Nat := bits t.handle 11 0

/-! ## Hot blocks and migrations (R330, R331, R333) -/

/-- R333: TABLE_MIGRATED. -/
def tableMigrated (t : EmbTable) (k blk : Nat) (demote wrote : Bool) (s : State) : State :=
  postTableEvent t.session (t.handle.toNat % 2 ^ 32) blk (k + bitOf demote <<< 2 + bitOf wrote <<< 3) s

/-- Sectors of a session range that hold the poison mark, or lie on a bypassed position (R457), by their offset in it. -/
def poisonedSectors (s : State) (sid va len : Nat) : List Nat :=
  (List.range (len / 64)).filter (fun i =>
    ((sessionPieces s sid needNothing (va + 64 * i) 64).getD []).any (fun p => s.err.poison.contains (p.1 / 64) || goneSectors s p.1 1 != []))

/-- R449: the sectors of a session range at some offsets take the poison mark. -/
def markSectors (sid va : Nat) (l : List Nat) (s : State) : State :=
  let at_ := l.flatMap (fun i => ((sessionPieces s sid needNothing (va + 64 * i) 64).getD []).map (fun p => p.1 / 64))
  { s with err := { s.err with poison := (s.err.poison ++ at_).dedup } }

/-- R321, R330 step 2: bytes copied from one session range to another; a poisoned sector stays poisoned. -/
def copySession (sid from_ to_ len : Nat) (s : State) : State :=
  markSectors sid to_ (poisonedSectors s sid from_ len) (sessionWrite sid to_ (sessionRead s sid from_ len) s)

/-- R330 steps 2 and 5: a demotion flips: a dirty block is written back, and the directory names its storage again. -/
def demoteBlock (h : Word) (k blk : Nat) (s : State) : State :=
  match tableOf s h with
  | none => s
  | some t =>
    let e := dirEntry s t k blk
    if !e.hot then s
    else
      let n := blockBytes t blk
      let s1 := if e.dirty then copySession t.session (e.addr * 64) (storageVa t k blk) n s else s
      let s2 := setDir t k blk
        (fun x => { x with hot := false, dirty := false, migrating := false, addr := storageVa t k blk / 64 }) s1
      let s3 := onTable h
        (fun x => { x with
          frames := x.frames.filter (fun f => !(f.2.1 = k && f.2.2 = blk))
          demotions := x.demotions + 1
          writebackBytes := x.writebackBytes + if e.dirty then n else 0 }) s2
      tableMigrated t k blk true e.dirty s3

/-- R330 steps 2 and 5: a promotion flips: the block stands in its frame, and the directory names the frame. -/
def promoteBlock (h : Word) (k blk frame : Nat) (s : State) : State :=
  match tableOf s h with
  | none => s
  | some t =>
    let n := blockBytes t blk
    let s1 := copySession t.session (storageVa t k blk) (frameVa t frame) n s
    let s2 := setDir t k blk
      (fun x => { x with hot := true, dirty := true, migrating := false, addr := frameVa t frame / 64 }) s1
    tableMigrated t k blk false false (onTable h (fun x => { x with promotions := x.promotions + 1 }) s2)

/-- R331: migrations that meet a test are aborted: MIGRATING clears, the destination is released, ABORTS counts. -/
def abortMigrations (h : Word) (step : Nat) (test : Migration → Bool) (s : State) : State :=
  match tableOf s h with
  | none => s
  | some t =>
    let gone := t.migrations.filter test
    let s1 := gone.foldl (fun x m => setDir t m.slot m.block (fun e => { e with migrating := false }) x) s
    onTable h
      (fun x => { x with
        migrations := x.migrations.filter (fun m => !test m)
        aborts := x.aborts + gone.length
        aborted := x.aborted ++ gone.map (fun m => (m.slot, m.block, step))
        frames := x.frames.filter (fun f =>
          !gone.any (fun m => !m.demote && m.slot = f.2.1 && m.block = f.2.2)) }) s1

/-- R330 step 1: a migration starts; `next` waits for the frame that a demotion leaves. A clean demotion has nothing to copy. -/
def startMigration (h : Word) (k blk frame : Nat) (demote : Bool) (next : Option Nat) (s : State) : State :=
  match tableOf s h with
  | none => s
  | some t =>
    let clean := demote && !(dirEntry s t k blk).dirty
    let m : Migration := { slot := k, block := blk, demote := demote, frame := frame, pointer := 0, copied := clean,
                           drained := clean, clean := clean, hold := [], next := next }
    onTable h (fun x => { x with
      migrations := x.migrations ++ [m]
      frames := if demote then x.frames else x.frames ++ [(frame, k, blk)] })
      (setDir t k blk (fun e => { e with migrating := true }) s)

/-- R329: the candidate that waited for a frame is promoted into it once the block before it has been demoted; with ENABLE cleared it is
not (R328). -/
def startNext (h : Word) (m : Migration) (s : State) : State :=
  match m.next, tableOf s h with
  | some b, some t => if t.policy.any (·.enable) then startMigration h m.slot b m.frame false none s else s
  | _, _ => s

/-- R330 steps 5 and 6: a migration flips, with the rows as they stand at its source. -/
def finishMigration (h : Word) (m : Migration) (s : State) : State :=
  let s1 := onTable h (fun x => { x with migrations := x.migrations.filter (fun y => y != m) }) s
  if m.demote then startNext h m (demoteBlock h m.slot m.block s1) else promoteBlock h m.slot m.block m.frame s1

/-- R332: no plan that binds a slot runs: every pending migration of the table's slot, and what waited for its frame, is carried through
copy, drain and flip at once. -/
def finishMigrations (h : Word) (k : Nat) (s : State) : State :=
  let once (x : State) : State := match tableOf x h with
    | none => x
    | some t => (t.migrations.filter (fun m => m.slot = k)).foldl (fun y m => finishMigration h m y) x
  once (once s)

/-- R310, R312: a RETIRING slot without references demotes its hot blocks and becomes LOADED. -/
def settleSlot (h : Word) (k : Nat) (s : State) : State :=
  match tableOf s h with
  | none => s
  | some t =>
    if (slotOf t k).state = .retiring ∧ (slotOf t k).refs = 0 then
      let hot := t.frames.filter (fun f => f.2.1 = k)
      let s1 := hot.foldl (fun x f => demoteBlock h k f.2.2 x) s
      onTable h (onSlot k (fun v => { v with state := .loaded })) s1
    else s

/-- R168: a reference on a bound version is taken. -/
def holdSlot (h : Word) (k : Nat) (s : State) : State := onTable h (onSlot k (fun v => { v with refs := v.refs + 1 })) s

/-- R168, R312: a reference on a bound version is released. -/
def dropSlot (h : Word) (k : Nat) (s : State) : State :=
  settleSlot h k (onTable h (onSlot k (fun v => { v with refs := v.refs - 1 })) s)

/-- R313: the published slot of a table. -/
def currentSlot (t : EmbTable) : Option Nat :=
  (List.range 4).find? (fun k => (slotOf t k).state = .current)

end Sys2Proof.Machine
end

