-- ==== Sys2Proof/Machine/PlanOps.lean ====
section
/-!
DEFINITION. Operations on plans that several commands share: states, bound ranges, the counter record, and how a run
ends, suspends or is discarded (chapter 05).
-/

namespace Sys2Proof.Machine

/-! ## Plans -/

/-- The plan of a handle. -/
def planOf (s : State) (h : Word) : Option Plan := s.plans.find? (fun p => p.handle = h)

/-- The state with a plan changed. -/
def onPlan (h : Word) (f : Plan → Plan) (s : State) : State :=
  { s with plans := s.plans.map (fun p => if p.handle = h then f p else p) }

/-- The state with the run of a plan changed. -/
def onRun (h : Word) (f : Run → Run) (s : State) : State := onPlan h (fun p => { p with run := p.run.map f }) s

/-- R156: the plan is RUNNING. -/
def isRunning (p : Plan) : Bool := (p.run.map (fun r => r.suspended.isNone)).getD false

/-- R156: the plan is SUSPENDED. -/
def isSuspended (p : Plan) : Bool := (p.run.map (fun r => r.suspended.isSome)).getD false

/-- R156: the plan is RUNNING or SUSPENDED. -/
def isLive (p : Plan) : Bool := p.run.isSome

/-- Plans RUNNING or SUSPENDED. -/
def livePlans (s : State) : List Plan := s.plans.filter isLive

/-! ## Counters (R173) -/

/-- No counts. -/
def countersZero : Counters := { idxDropped := 0, rowsPoisoned := 0, samplesRejected := 0, nanCount := 0, staleDrops := 0, ext := [] }

/-- An extension counter counted up, kept in ascending operator and counter order. -/
def addExt (op id n : Nat) : List ((Nat × Nat) × Nat) → List ((Nat × Nat) × Nat)
  | [] => [((op, id), n)]
  | e :: es =>
    if e.1 = (op, id) then (e.1, e.2 + n) :: es
    else if op < e.1.1 ∨ (op = e.1.1 ∧ id < e.1.2) then ((op, id), n) :: e :: es
    else e :: addExt op id n es

/-- Extension counters that tell the latest event and do not add up over steps (R241, R250, R261). -/
def latestCounter (b : PlanBinary) (k : Nat × Nat) : Bool :=
  match b.ops[k.1]? with
  | some e =>
    if e.op = .decode ∨ e.op = .encode then decide (6 ≤ k.2 ∧ k.2 ≤ 11)
    else if e.op = .check then decide (2 ≤ k.2 ∧ k.2 ≤ 5)
    else false
  | none => false

/-- Extension counters of an attempt joined to those of the run. -/
def joinExt (b : PlanBinary) (acc new : List ((Nat × Nat) × Nat)) : List ((Nat × Nat) × Nat) :=
  new.foldl (fun l e => addExt e.1.1 e.1.2 e.2 (if latestCounter b e.1 then l.filter (fun x => x.1 ≠ e.1) else l)) acc

/-- The counts of a committed attempt added to a run's. -/
def addCounters (bin : PlanBinary) (a b : Counters) : Counters where
  idxDropped := a.idxDropped + b.idxDropped
  rowsPoisoned := a.rowsPoisoned + b.rowsPoisoned
  samplesRejected := a.samplesRejected + b.samplesRejected
  nanCount := a.nanCount + b.nanCount
  staleDrops := a.staleDrops + b.staleDrops
  ext := joinExt bin a.ext b.ext

/-- The extension counters that an operator reports: R201, R226, R250, R261, R300, R337, R362, R377, R399, R423. -/
def extIds : Operator → List Nat
  | .scan | .scatterUpdate | .topk | .poolGather => List.range' 1 9
  | .decode | .encode => List.range' 1 14
  | .check => List.range' 1 5
  | .relayout => List.range' 1 6
  | .filter | .project | .bucket | .normalise | .stats | .softmax => [1, 2, 3]
  | .hash | .sort | .norm | .attendShort | .optStep => [1, 2]
  | .joinBuild | .joinProbe | .groupAgg | .dense | .denseGrad => [1, 2, 3, 4]
  | .gather => [1, 2, 3, 4, 5, 6, 7, 9]
  | .activate | .interact => [1]
  | .matchOp => List.range' 1 8
  | .exchange | .reduce | .allgather | .barrier => List.range' 1 7
  | .emit => []

/-- What a counter reads when nothing has counted it: 0, and all ones where no frame (R250) and no segment (R261) failed. -/
def extUnused (op : Operator) (id : Nat) : Nat :=
  if ((op = .decode ∨ op = .encode) ∧ id = 10) ∨ (op = .check ∧ id ≠ 1) then 0xFFFFFFFFFFFFFFFF else 0

/-- Every extension counter of the plan's operators, those that nothing has counted included. -/
def allExt (b : PlanBinary) (l : List ((Nat × Nat) × Nat)) : List ((Nat × Nat) × Nat) :=
  b.ops.zipIdx.foldl
    (fun acc e => (extIds e.1.op).foldl
      (fun x id => if x.any (fun y => y.1 = (e.2, id)) then x else addExt e.2 id (extUnused e.1.op id) x) acc) l

/-- R173: the counter record with its extension entries. -/
def counterRecord (b : PlanBinary) (r : Run) : List Byte :=
  let ext := allExt b r.counters.ext
  record 384 ([(0, r.committedSteps), (64, r.lastStep), (128, r.counters.idxDropped), (192, r.counters.rowsPoisoned),
      (256, r.counters.samplesRejected), (320, r.counters.nanCount), (384, r.counters.staleDrops), (448, r.replays % 2 ^ 32),
      (480, r.lastDigest.toNat)] ++
      ((List.range 32).map (fun k => (512 + 64 * k, r.stalls.getD k 0))) ++ [(2560, ext.length)]) ++
    (ext.map (fun e => record 16 [(0, e.1.1), (32, e.1.2), (64, e.2)])).flatten

/-- R175: the status of a run that would end DONE. -/
def doneStatus (c : Counters) : Status :=
  if c.idxDropped ≠ 0 ∨ c.rowsPoisoned ≠ 0 ∨ c.samplesRejected ≠ 0 then .doneWithDrops else .done

/-! ## Bound slots -/

/-- R168: the slots that the run binds now: FIXED ones, and those bound for the open step. -/
def boundSlots (p : Plan) : List (Word × Nat × Bool) :=
  match p.run with
  | none => []
  | some r =>
    let now := (r.openStep.map (·.view.slots)).getD r.fixedSlots
    (p.bin.binds.zip now).filterMap (fun (b, k) => k.map (fun k => (b.table, k, b.update)))

/-- Every bound slot's reference is released. -/
def dropBound (p : Plan) (s : State) : State := (boundSlots p).foldl (fun x b => dropSlot b.1 b.2.1 x) s

/-- R168: the slots that a step binds now: FIXED ones, and the CURRENT slots of the other tables. -/
def slotsNow (s : State) (p : Plan) (r : Run) : List (Option Nat) :=
  p.bin.binds.zipIdx.map (fun (b, i) =>
    if b.fixed.isSome then r.fixedSlots.getD i none else (tableOf s b.table).bind currentSlot)

/-- R332: a RUNNING plan binds a version slot: in its open step, or in the step that it waits to begin. -/
def bindsSlot (s : State) (h : Word) (k : Nat) (p : Plan) : Bool :=
  isRunning p && (match p.run with
    | none => false
    | some r => (p.bin.binds.zip ((r.openStep.map (·.view.slots)).getD (slotsNow s p r))).any (fun x =>
        decide (x.1.table = h) && x.2 = some k))

/-- R332: the RUNNING plans that bind a version slot. -/
def slotPlans (s : State) (h : Word) (k : Nat) : List Plan := s.plans.filter (bindsSlot s h k)

/-- R332: the one RUNNING plan that binds a slot. -/
def governing (s : State) (h : Word) (k : Nat) : Option Plan :=
  match slotPlans s h k with
  | [p] => some p
  | _ => none

/-- R332: pending migrations of slots that no RUNNING plan binds are carried through. -/
def carryMigrations (s : State) : State :=
  s.tables.foldl
    (fun x t => (List.range 4).foldl
      (fun y k => if (slotPlans y t.handle k).isEmpty then finishMigrations t.handle k y else y) x) s

/-! ## Ranges that a live plan binds (R104, R163) -/

/-- The descriptors that an operator names. -/
def opDescs (o : OpEntry) : List Nat := [o.in0, o.in1, o.in2, o.out0, o.out1].filterMap id

/-- R161: the descriptor is passed along an edge: step scratch. -/
def isEdgeDesc (p : Plan) (d : Nat) : Bool := p.bin.edges.any (fun e => e.desc = d)

/-- The descriptor is an output of an operator. -/
def isOutDesc (p : Plan) (d : Nat) : Bool := p.bin.ops.any (fun o => o.out0 = some d ∨ o.out1 = some d)

/-- R161: the descriptor is a step output. -/
def isStepOutput (p : Plan) (k : Nat) : Bool :=
  isOutDesc p k && !isEdgeDesc p k && decide ((p.bin.descs[k]?).map (·.space) = some .session)

/-- A descriptor's footprint in session memory, as first address and length. -/
def sessionSpan (d : Descriptor) : Option (Nat × Nat) :=
  if d.space = .session then
    let f := footprint d
    some (f.1.toNat, (f.2 - f.1).toNat)
  else none

/-- The session ranges that a plan binds: its descriptors, edges left out, and the storage and index of bound slots. -/
def boundRanges (s : State) (p : Plan) : List (Nat × Nat) :=
  (p.bin.descs.zipIdx.filterMap (fun (d, k) => if isEdgeDesc p k then none else sessionSpan d)) ++
    ((boundSlots p).filterMap (fun b => (tableOf s b.1).map (fun t =>
      ((slotOf t b.2.1).storeVa.toNat, t.rows * rowBytesOf t)))) ++
    ((boundSlots p).filterMap (fun b => (tableOf s b.1).bind (fun t =>
      if t.hashed then some ((slotOf t b.2.1).indexVa.toNat, 64 + 16 * 2 ^ t.log2Index) else none))) ++
    (((p.run.bind (·.openStep)).map (·.extents)).getD []).map (·.2)

/-- A range of a session's memory is bound by a RUNNING or SUSPENDED plan (R104). -/
def rangeBound (s : State) (sid va len : Nat) : Bool :=
  (livePlans s).any (fun p => decide (p.session = sid) && (boundRanges s p).any (fun r => overlaps va len r.1 r.2))

/-! ## Ends of a run -/

/-- R246: a plan's suspended contexts are freed. -/
def freeContexts (h : Word) (s : State) : State := { s with contexts := s.contexts.filter (fun c => c.ctx.plan ≠ h) }

/-- R381: a load's effect on the Basin. -/
def applyLoad (l : BasinLoad) (b : BasinUnit) : BasinUnit :=
  let base := l.segment * 65536
  match l.op with
  | 0 =>
    let put (m : Sparse BasinEntry) (x : (Bool × BasinEntry) × Nat) : Sparse BasinEntry :=
      if x.1.1 then sset m (base + l.first + x.2) x.1.2 else sdel m (base + l.first + x.2)
    { b with
      segments := modAt b.segments l.segment (fun g => { g with owner := some l.session })
      entries := l.records.zipIdx.foldl put b.entries }
  | 1 =>
    { b with
      segments := modAt b.segments l.segment (fun _ => { width := l.width, owner := some l.session })
      entries := sdelRange b.entries base 65536 }
  | _ =>
    { b with
      segments := modAt b.segments l.segment (fun g => { g with owner := none })
      entries := sdelRange b.entries base 65536 }

/-- R383: a load is applied and its command completes: the entries written, and the first step that sees them. -/
def doLoad (first : Nat) (s : State) (l : BasinLoad) : State :=
  complete l.reply { replyOf .done with count0 := l.records.length, count1 := first }
    { s with basin := applyLoad l s.basin }

/-- R383: the mark of a load that no plan governs. -/
def noPlan : Word := 0xFFFFFFFFFFFFFFFF

/-- R383: loads without a governing plan that is RUNNING or SUSPENDED apply at once, in order of acceptance. -/
def settleLoads (s : State) : State :=
  let stays (l : BasinLoad) : Bool := l.plan ≠ noPlan && s.plans.any (fun p => p.handle = l.plan && isLive p)
  let due := s.basin.loads.filter (fun l => !stays l)
  if due = [] then s
  else due.foldl (doLoad 0xFFFFFFFF) { s with basin := { s.basin with loads := s.basin.loads.filter stays } }

/-- A load applied to a bank, in payload order. -/
def loadBank (l : OwnerLoad) (b : OwnerBank) : OwnerBank :=
  { b with
    fabric := l.owners.foldl (fun m e => sput m e.1 e.2) b.fabric
    ranks := l.ranks.foldl (fun m e => sput m e.1 e.2) b.ranks }

/-- R24, R415: a load takes effect. -/
def applyOwnerLoad (l : OwnerLoad) (s : State) : State :=
  { s with owner := { s.owner with active := loadBank l s.owner.active, shadow := loadBank l s.owner.shadow } }

/-- R415: entries governed by a plan that is neither RUNNING nor SUSPENDED any longer take effect (DEDUCED, log entry 52). -/
def settleOwners (s : State) : State :=
  let stays (l : OwnerLoad) : Bool := s.plans.any (fun p => p.handle = l.plan && isLive p)
  let due := s.owner.loads.filter (fun l => !stays l)
  if due = [] then s
  else due.foldl (fun x l => applyOwnerLoad l x) { s with owner := { s.owner with loads := s.owner.loads.filter stays } }

/-- R174: the stall counters are times, which the model leaves free; reserved resources read zero. -/
def freeStalls (s : State) (r : Run) : Run :=
  { r with stalls := (List.range 22).map (fun k => (Config.freeValue (s.freeCount + k)).toNat) }

/-- R171: the bytes of an EMIT record: header, body and padding. -/
def emitBytes (e : EmitRecord) : List Byte :=
  record 16 [(0, e.op), (32, e.body.length), (64, e.key.toNat)] ++ padTo 16 e.body

/-- R172: the records that fit a completion and the budget, the budget left, and the records left. -/
def takeRecords : Nat → Option Nat → List EmitRecord → List (List Byte) × Option Nat × List EmitRecord
  | _, b, [] => ([], b, [])
  | cap, b, e :: es =>
    let n := (emitBytes e).length
    if n ≤ cap ∧ b.all (fun x => decide (n ≤ x)) then
      let r := takeRecords (cap - n) (b.map (· - n)) es
      (emitBytes e :: r.1, r.2)
    else ([], b, e :: es)

/-- R172: the records of the oldest step held are delivered, as far as the budget reaches. -/
def deliverOldest : Nat → Word → State → State
  | 0, _, s => s
  | fuel + 1, h, s =>
    match (planOf s h).bind (·.run) with
    | none => s
    | some r =>
      match r.queue with
      | [] => s
      | q :: qs =>
        let t := takeRecords (maxPayload (ringOf s r.reply.port r.reply.ring)) r.budget q.records
        if t.1 = [] then s
        else
          let s1 := postReplies r.reply true
            [{ status := .done, count0 := q.step, count1 := t.1.length, payload := t.1.flatten }]
            (onRun h (fun x => { x with
              budget := t.2.1
              delivered := x.delivered + t.1.length
              queue := if t.2.2 = [] then qs else { q with records := t.2.2 } :: qs }) s)
          if t.2.2 = [] then s1 else deliverOldest fuel h s1

/-- Records of the oldest step held. -/
def oldestLength (s : State) (h : Word) : Nat :=
  (((planOf s h).bind (·.run)).bind (fun r => r.queue.head?.map (fun q => q.records.length))).getD 0

/-- R172: everything held is delivered as far as the budget reaches. -/
def deliverAll (h : Word) (s : State) : State :=
  ((((planOf s h).bind (·.run)).map (·.queue)).getD []).foldl (fun x _ => deliverOldest (oldestLength x h) h x) s

/-- R159: the run is inside its commit: the step stands committed and its flip waits. -/
def inCommit (p : Plan) : Bool := (p.run.bind (·.openStep)).any (·.committed)

/-- R245: near-tier bytes of a plan once the space added to its open step is released. -/
def withoutExtents (p : Plan) : Nat := p.nearBytes - ((((p.run.bind (·.openStep)).map (·.extents)).getD []).map (·.2.2)).sum

/-- The run of a plan is gone; a step that stood committed keeps its number (R160). -/
def dropRun (h : Word) (s : State) : State :=
  onPlan h (fun x => { x with
    run := none
    nextStep := if inCommit x then x.nextStep + 1 else x.nextStep
    nearBytes := withoutExtents x }) s

/-- R156, R173, R175: the run ends with a status: its last completion carries the counter record and, in COUNT1, the
records delivered. Records of committed steps are delivered first, as far as the budget reaches, unless the run is
cancelled (R159; DEDUCED, log entry 62). A SUSPENDED run has its final completion too, under the tag of the command that it last
went on with (DEDUCED, log entry 12). -/
def endRun (h : Word) (st : Status) (s : State) : State :=
  match (planOf s h).bind (·.run) with
  | none => s
  | some r0 =>
    let s0 := if st = .cancelled ∨ r0.suspended.isSome then s else deliverAll h s
    match planOf s0 h, (planOf s0 h).bind (·.run) with
    | some p, some r =>
      let st1 := if st = .done then doneStatus r.counters else st
      let s1 := settleOwners (settleLoads (carryMigrations (dropRun h (freeContexts h (dropBound p s0)))))
      let s2 := takeFresh 22 (complete r.reply
        { status := st1, count0 := 0, count1 := r.delivered, payload := counterRecord p.bin (freeStalls s1 r) } s1)
      r.cancel.foldl (fun x c => complete c { replyOf .done with count0 := r.committedSteps } x) s2
    | _, _ => s0

/-- R168: the references that CURRENT bindings hold for the open step are released, and the step is gone. -/
def leaveStep (h : Word) (s : State) : State :=
  match planOf s h with
  | none => s
  | some p =>
    match p.run with
    | none => s
    | some r =>
      let now := (r.openStep.map (·.view.slots)).getD []
      let held := (p.bin.binds.zip now).filterMap (fun (b, k) => if b.fixed.isSome then none else k.map (fun k => (b.table, k)))
      held.foldl (fun x b => dropSlot b.1 b.2 x) (onPlan h
        (fun x => { x with nearBytes := withoutExtents x, run := x.run.map (fun y => { y with openStep := none }) }) s)

/-- R156: the run has no further step: it ends DONE once its records have been delivered. -/
def finishRun (h : Word) (s : State) : State :=
  let s1 := leaveStep h s
  match (planOf s1 h).bind (·.run) with
  | none => s1
  | some r => if r.queue = [] then endRun h .done s1 else s1

/-- R159: a run is cancelled, at once or after the commit and flip under way. -/
def cancelRun (h : Word) (by_ : Option CmdRef) (s : State) : State :=
  match planOf s h with
  | none => s
  | some p =>
    if inCommit p then
      match by_ with
      | some c => onRun h (fun r => { r with cancel := r.cancel ++ [c] }) s
      | none => s
    else
      let s1 := endRun h .cancelled s
      match by_, p.run with
      | some c, some r => complete c { replyOf .done with count0 := r.committedSteps } s1
      | some c, none => complete c (replyOf .done) s1
      | none, _ => s1

/-- R241, R261: the run's counters with the extension counters of one operator of its open step. -/
def withOpenExt (p : Plan) (r : Run) (op : Nat) : Run :=
  let ext := ((r.openStep.map (·.counters.ext)).getD []).filter (fun e => e.1.1 = op)
  { r with counters := { r.counters with ext := joinExt p.bin r.counters.ext ext } }

/-- R169: the run suspends: its completion gives the steps committed, the reason and the operator. -/
def suspendRun (h : Word) (reason : SuspendReason) (op : Nat) (s : State) : State :=
  match planOf s h, (planOf s h).bind (·.run) with
  | none, _ => s
  | _, none => s
  | some p, some r =>
    let code := match reason with
      | .emitSpace => 1
      | .outputSpace => 2
    carryMigrations (takeFresh 22 (complete r.reply
      { status := .suspended, count0 := r.committedSteps, count1 := code <<< 24 + op
        payload := counterRecord p.bin (freeStalls s (match reason with
          | .emitSpace => r
          | .outputSpace => withOpenExt p r op)) }
      (onRun h (fun x => { x with suspended := some (reason, op) }) s)))

/-! ## The open step -/

/-- The state with the open step of a plan's run changed. -/
def onStep (h : Word) (f : OpenStep → OpenStep) (s : State) : State :=
  onRun h (fun r => { r with openStep := r.openStep.map f }) s

/-- R23, R173, R413: dropped requests are counted in the attempt that is open, or in the run. -/
def countStale (h : Word) (n : Nat) (s : State) : State :=
  onRun h
    (fun r =>
      let up (k : Counters) : Counters := { k with staleDrops := k.staleDrops + n }
      match r.openStep with
      | some o => if o.committed then { r with counters := up r.counters }
        else { r with openStep := some { o with counters := up o.counters } }
      | none => { r with counters := up r.counters }) s

/-- R166: a detection during a step: charged to its unit in this attempt; the attempt then drains and is replayed. -/
def detectStep (h : Word) (u : Option (BitVec 32)) (s : State) : State :=
  onRun h
    (fun r =>
      let d : Detection := { unit := u, attempt := (r.openStep.map (·.attempt)).getD 1 }
      { r with
        detections := r.detections ++ [d]
        openStep := r.openStep.map (fun o => { o with detections := o.detections ++ [d] }) }) s

/-- R17, R20: a bank without a plan's owner maps. -/
def dropMaps (p : Plan) (b : OwnerBank) : OwnerBank :=
  { b with
    die := p.dieMaps.foldl (fun m e => sdelRange m e.2.1 e.2.2) b.die
    crater := p.craterMaps.foldl (fun m e => sdelRange m (e.2.1 * 16384 + e.2.2.1) e.2.2.2) b.crater }

/-- Owner maps of a plan are released in both banks. -/
def freeMaps (p : Plan) (o : OwnerUnit) : OwnerUnit :=
  { o with active := dropMaps p o.active, shadow := dropMaps p o.shadow }

/-- R156: everything a plan holds is released: its reservations, owner maps, contexts and reserved taps. -/
def freePlan (h : Word) (s : State) : State :=
  { freeContexts h s with
    plans := s.plans.filter (fun p => p.handle ≠ h)
    owner := ((planOf s h).map (fun p => freeMaps p s.owner)).getD s.owner
    taps := s.taps.map (fun t => if t.reserved = some h then { t with reserved := none } else t) }

end Sys2Proof.Machine
end

