-- ==== Sys2Proof/Machine/TwinOps.lean ====
section
/-!
DEFINITION. Operations of the twin pair that several commands share: twin links and messages, mirrored writes, epochs,
fencing (chapter 16).
-/

namespace Sys2Proof.Machine

/-! ## Links and messages -/

/-- R427: the fabric port of twin link 0 or 1. -/
def twinPort (s : State) (link : Nat) : Nat :=
  match s.twin.record with
  | some r => if link = 0 then r.link0 else r.link1
  | none => if link = 0 then s.boot.config.twinLink0 else s.boot.config.twinLink1

/-- A fabric port carries messages (R407). -/
def portUp (s : State) (n : Nat) : Bool :=
  let p := s.fabric.ports.getD n FabricPort.reset
  p.state = .up || p.state = .up78

/-- R442: a twin link is up. -/
def twinLinkUp (s : State) (link : Nat) : Bool := portUp s (twinPort s link)

/-- R430: the link that carries traffic of a die: its own, or the other while its own is down. -/
def twinLinkFor (s : State) (die : Nat) : Nat :=
  if twinLinkUp s die then die else if twinLinkUp s (1 - die) then 1 - die else die

/-- R408, R441: a message of class TWIN, which carries the pair epoch. -/
def twinMessage (s : State) (kind : Nat) (epoch : BitVec 32) (payload : List Byte) : Message where
  dest := BitVec.ofNat 12 ((s.twin.record.map (·.partner)).getD 0)
  hops := 0
  src := BitVec.ofNat 12 s.fabric.moduleId
  cls := 3
  escape := false
  kind := BitVec.ofNat 8 kind
  srcEpoch := epoch
  dstEpoch := 0
  flow := 0
  seq := 0
  step := 0
  opIndex := 0
  srcRank := 0
  payload := payload

/-- A TWIN message leaves on a twin link. -/
def sendTwin (link kind : Nat) (payload : List Byte) (s : State) : State :=
  { s with twin := { s.twin with sent := s.twin.sent ++ [(link, twinMessage s kind s.twin.pairEpoch payload)] } }

/-- R441: the payload of MIRROR_WRITE, RESYNC_DATA, ROW_REFETCH and ROW_REFETCH_DATA: a 64-byte head with the window
index, the offset, the length and MIRROR_COUNT, then the bytes. The manual gives no layout (DESIGN CHOICE, log entry 14). -/
def mirrorPayload (window offset len count : Nat) (bs : List Byte) : List Byte :=
  record 64 [(0, window), (64, offset), (128, len), (192, count)] ++ bs

/-- Window index, offset, length and MIRROR_COUNT of such a payload. -/
def mirrorHead (b : List Byte) : Nat × Nat × Nat × Nat := (field b 0 8, field b 64 64, field b 128 64, field b 192 64)

/-- The die whose positions hold a module address; far-tier addresses count as die 0. -/
def dieOfAddress (s : State) (a : Nat) : Nat := if a < nearEnd then positionOf s a / 6 else 0

/-- The die whose positions hold a byte of a session's memory. -/
def dieOfSession (s : State) (sid va : Nat) : Nat :=
  match (sessionPieces s sid needNothing va 1).bind List.head? with
  | some p => dieOfAddress s p.1
  | none => 0

/-! ## Mirroring (R425, R426, R430) -/

/-- The module mirrors its writes: it is PAIRED, or RELEASING and draining, no copy is under way, and it has not been
found ISOLATED (R434). -/
def mirrors (s : State) : Bool := (s.twin.state = .paired || s.twin.state = .releasing) && !s.twin.copying && !s.twin.isolated

/-- R425, R438: windows whose contents are mirrored out: OUT windows, and IN windows too while serving both workloads. -/
def mirrorWindows (s : State) : List TwinWindow :=
  (s.twin.record.map (fun r => r.windows.filter (fun w => !w.inbound || s.twin.servesBoth))).getD []

/-- R441: how a message names a window: the index of an OUT window of the sender, or 32 more for one of its IN windows
(DESIGN CHOICE, log entry 14). -/
def windowCode (w : TwinWindow) : Nat := w.index + 32 * bitOf w.inbound

/-- Bytes of one window are sent in messages of a type, each of at most 4,032 bytes (R441). -/
def sendWindow (kind : Nat) (w : TwinWindow) : Nat → Nat → List Byte → State → State
  | 0, _, _, s => s
  | fuel + 1, off, bs, s =>
    if bs = [] then s
    else
      let link := twinLinkFor s (dieOfSession s w.session (w.va + off))
      let piece := bs.take 4032
      let s1 := sendTwin link kind (mirrorPayload (windowCode w) off piece.length 0 piece) s
      sendWindow kind w fuel (off + piece.length) (bs.drop 4032)
        { s1 with twin := { s1.twin with mirrorBytes := s1.twin.mirrorBytes + piece.length } }

/-- R426: session bytes as rows hold them: a hot block's bytes stand for its storage. -/
def followRead (s : State) (sid va n : Nat) : List Byte :=
  (s.tables.filter (fun t => t.session = sid)).foldl
    (fun bs t => t.frames.foldl
      (fun bs f =>
        let lo := storageVa t f.2.1 f.2.2
        let a := max va lo
        let b := min (va + n) (lo + blockBytes t f.2.2)
        if (dirEntry s t f.2.1 f.2.2).hot ∧ a < b then
          bs.take (a - va) ++ sessionRead s sid ((dirEntry s t f.2.1 f.2.2).addr * 64 + (a - lo)) (b - a) ++ bs.drop (b - va)
        else bs) bs)
    (sessionRead s sid va n)

/-- R426: what a session range shares with a mirrored window is sent, in whole sectors. -/
def sendMirror (sid va len : Nat) (w : TwinWindow) (s : State) : State :=
  if w.session = sid ∧ overlaps va len w.va w.len then
    let lo := (max va w.va) / 64 * 64
    let hi := min (roundUp (va + len) 64) (w.va + w.len)
    sendWindow 0x22 w (ceilDiv (hi - lo) 4032) (lo - w.va) (followRead s sid lo (hi - lo)) s
  else s

/-- R426: a write into a session range that has been made is mirrored where it meets a mirrored window; during a copy it
is remembered and mirrored after it (R429). -/
def mirrorRange (sid va len : Nat) (s : State) : State :=
  if s.twin.copying then { s with twin := { s.twin with during := s.twin.during ++ [(sid, va, len)] } }
  else if mirrors s then (mirrorWindows s).foldl (fun x w => sendMirror sid va len w x) s
  else s

/-- R426: a session range meets an IN window of a paired module. -/
def inWindow (s : State) (sid va len : Nat) : Bool :=
  isPaired s && (s.twin.record.map (fun r => r.windows.any (fun w =>
    w.inbound && decide (w.session = sid) && overlaps va len w.va w.len))).getD false

/-- R426: a session range meets a window of a paired module. -/
def anyWindow (s : State) (sid va len : Nat) : Bool :=
  isPaired s && (s.twin.record.map (fun r => r.windows.any (fun w =>
    decide (w.session = sid) && overlaps va len w.va w.len))).getD false

/-- R426: session bytes written, and mirrored where that is due. -/
def storeSession (sid va : Nat) (bs : List Byte) (s : State) : State :=
  mirrorRange sid va bs.length (sessionWrite sid va bs s)

/-- R442: own committed steps not yet acknowledged. -/
def mirrorLag (s : State) : Nat := if isPaired s then s.twin.commitsSent - s.twin.commitsAcked else 0

/-! ## Epochs and states (R433, R435, R437) -/

/-- R433: the smallest value above the current epoch with the side's parity: odd for side A, even for side B. -/
def nextPairEpoch (s : State) : BitVec 32 :=
  let e := s.twin.pairEpoch.toNat + 1
  let want := if s.pins.twinSide = 0 then 1 else 0
  BitVec.ofNat 32 (if e % 2 = want then e else e + 1)

/-- R434: TWIN_TAKEOVER with a reason. -/
def takeoverEvent (reason : Nat) (s : State) : State :=
  postEvent .twinTakeover ((s.twin.record.map (·.partner)).getD 0) s.twin.pairEpoch.toNat reason s

/-- The pair command in progress completes, if there is one. -/
def completeTwin (r : Reply) (s : State) : State :=
  match s.twin.command with
  | none => s
  | some c => complete c r { s with twin := { s.twin with command := none } }

/-- R449: a sector takes the poison mark. -/
def poisonSector (sector : Nat) (s : State) : State :=
  if s.err.poison.contains sector then s else { s with err := { s.err with poison := s.err.poison ++ [sector] } }

/-! ## Refetches (R448) -/

/-- The session virtual address that maps a module address. -/
def sessionVaOf (s : State) (a : Nat) : Option (Nat × Nat) :=
  s.xlate.findSome? (fun e =>
    let size := if e.2.large then 0x200000 else 0x10000
    let lo := e.2.mpage * 0x10000
    if lo ≤ a ∧ a < lo + size then
      (sget s.sessions e.2.session).map (fun ss =>
        (e.2.session, if e.2.large then largeBase + (e.1 - ss.largeBase) * size + (a - lo) else (e.1 - ss.smallBase) * size + (a - lo)))
    else none)

/-- R448: the OUT window of a PAIRED module that holds a session address. -/
def outWindowAt (s : State) (sid va : Nat) : Option TwinWindow :=
  if s.twin.state = .paired ∧ !s.twin.copying then
    (s.twin.record.bind (fun r => r.windows.find? (fun w =>
      !w.inbound && decide (w.session = sid) && overlaps va 64 w.va w.len)))
  else none

/-- R448: ROW_REFETCH is sent for one sector. -/
def startRefetch (w : TwinWindow) (va sector : Nat) (s : State) : State :=
  if s.twin.refetches.any (fun x => x.sector = sector) then s
  else
    let link := twinLinkFor s (dieOfAddress s (sector * 64))
    let s1 := sendTwin link 0x28 (mirrorPayload (windowCode w) (va - w.va) 64 s.twin.commitsSent []) s
    { s1 with
      twin := { s1.twin with
        refetches := s1.twin.refetches ++
          [{ window := w.index, offset := va - w.va, sector := sector, mirrorCount := s.twin.commitsSent }] } }

/-- R448: the pair leaves PAIRED: sectors being refetched are poisoned instead. -/
def dropRefetches (s : State) : State :=
  let s1 := s.twin.refetches.foldl (fun x r => poisonSector r.sector x) s
  { s1 with twin := { s1.twin with refetches := [], refetchWaiting := [] } }

/-- R413, R437: the module enters FENCED: HOST_EVENT tells it, its running plans end FENCED, and so does a pair command in
progress. -/
def enterFenced (by_ : Option (BitVec 32)) (s : State) : State :=
  let was := s.twin.state
  let s0 := completeTwin (replyOf .fenced) (dropRefetches s)
  let s1 := { s0 with
    twin := { s0.twin with state := .fenced, fencedFromUnpaired := decide (was = .unpaired), copying := false, during := [] }
    fabric := { s0.fabric with fencedBy := by_ } }
  (livePlans s1).foldl (fun x p => endRun p.handle .fenced x) (raiseAll evFenced s1)

/-- R435: a higher pair epoch or a fence reaches PAIRED, SOLO and DETACHED only. -/
def fenceable (s : State) : Bool := s.twin.state = .paired || s.twin.state = .solo || s.twin.state = .detached

end Sys2Proof.Machine
end

