-- ==== Sys2Proof/Machine/Taps.lean ====
section
/-!
DEFINITION. Check taps: what a tap folds, and TAP_ATTACH, TAP_READ and TAP_WRITE (chapter 09).
-/

namespace Sys2Proof.Machine

/-- R251: XorOut is applied by `tapResult`. The RESULT of a tap; a tap that stands as at reset has its reset value, 0 (R256). -/
def tapValue (t : Tap) : Word :=
  if !t.attached ∧ t.poly = 0 ∧ t.running = 0 ∧ t.byteCount = 0 then 0 else tapResult t.poly t.running

/-- R254: one tap folds the part of a beat that lies in its window. -/
def foldTap (va : Nat) (bs : List Byte) (t : Tap) : Tap :=
  let lo := max va t.va
  let hi := min (va + bs.length) (t.va + t.len)
  if hi ≤ lo ∨ t.seqFault then t
  else if !t.arrival ∧ lo ≠ t.va + t.byteCount then { t with seqFault := true }
  else
    { t with running := tapRun t.poly t.running ((bs.drop (lo - va)).take (hi - lo)), byteCount := t.byteCount + (hi - lo) }

/-- R253: the die of tap `k`. -/
def tapDie (k : Nat) : Nat := k / 32

/-- R253, R254: a beat of a session on a stream's unit is seen by every tap that watches it. -/
def foldStream (stream die unit sid va : Nat) (bs : List Byte) (s : State) : State :=
  { s with
    taps := s.taps.zipIdx.map (fun (t, k) =>
      if t.attached ∧ t.stream = stream ∧ t.unit = unit ∧ t.session = sid ∧ tapDie k = die then foldTap va bs t else t) }

/-- R253: the units of a stream. -/
def streamUnits (stream : Nat) : Nat :=
  match stream with
  | 0 => 16
  | 1 | 2 => 12
  | 3 | 4 => 4
  | 5 => 1
  | 6 => 2
  | 7 => 6
  | 8 => 8
  | _ => 0

/-- R253: the die of a unit, where the unit fixes it. -/
def streamDie (stream unit : Nat) : Option Nat :=
  match stream with
  | 1 | 2 => some (unit / 6)
  | 6 => some unit
  | 7 => some (unit / 3)
  | _ => none

/-- The tap of a number. -/
def tapAt (s : State) (k : Nat) : Tap := s.taps.getD k Tap.reset

/-- R255: a tap that nothing holds and that is in service (R456). -/
def tapFree (s : State) (k : Nat) : Bool :=
  !(tapAt s k).attached && (tapAt s k).reserved.isNone && !isRetired s (unitId 8 k)

/-- R255: the tap a TAP_ATTACH names; 0xFF takes the lowest free one on the unit's die, or of the module where the unit
fixes no die (DESIGN CHOICE, log entry 15). -/
def chooseTap (s : State) (tap stream unit : Nat) : Option Nat :=
  if tap = 0xFF then
    (List.range 64).find? (fun k => tapFree s k && ((streamDie stream unit).map (fun d => decide (d = tapDie k))).getD true)
  else some tap

/-- R255: the first condition that a TAP_ATTACH fails. -/
def tapAttachCheck (s : State) (sid : Nat) (c : Chain) : Option Status :=
  let tap := parBits c 0 7 0
  let stream := parBits c 0 11 8
  let unit := parBits c 0 15 12
  let va := par64 c 1
  let len := par64 c 3
  if stream > 8 ∨ streamUnits stream ≤ unit ∨ (64 ≤ tap ∧ tap ≠ 0xFF) ∨ (stream ≠ 0 ∧ len = 0) then
    some .badPacket
  else if stream ≠ 0 ∧ len > 2 ^ 40 then some .limit
  else if tap ≠ 0xFF ∧ ((streamDie stream unit).map (fun d => decide (d ≠ tapDie tap))).getD false then some .unsupported
  else if (tap ≠ 0xFF ∧ (tapAt s tap).attached ∧ (tapAt s tap).session ≠ sid) ∨
      (stream ≠ 0 ∧ (sessionPieces s sid needRead va len).isNone) then some .access
  else if tap ≠ 0xFF ∧ (tapAt s tap).reserved.isSome then some .busy
  else if (chooseTap s tap stream unit).isNone then some .noResource
  else none

/-- R255: the tap is attached to its window with RUNNING at Init, or detached. -/
def attachTap (sid : Nat) (c : Chain) (k : Nat) (s : State) : State :=
  let stream := parBits c 0 11 8
  { s with
    taps := modAt s.taps k (fun _ =>
      if stream = 0 then Tap.reset
      else
        { attached := true, session := sid, stream := stream, unit := parBits c 0 15 12, poly := parBits c 0 17 16,
          arrival := parBits c 0 18 18 = 1, va := par64 c 1, len := par64 c 3,
          running := tapInit (parBits c 0 17 16), byteCount := 0, seqFault := false, reserved := none }) }

/-- TAP_ATTACH (R255). -/
def tapAttachBody (r : CmdRef) (c : Chain) (s : State) : State :=
  match tapAttachCheck s c.session.toNat c with
  | some st => complete r (replyOf st) s
  | none =>
    match chooseTap s (parBits c 0 7 0) (parBits c 0 11 8) (parBits c 0 15 12) with
    | none => complete r (replyOf .noResource) s
    | some k => complete r (replyData (natLE k 8)) (attachTap c.session.toNat c k s)

/-- R255, R257: the conditions on the tap that TAP_READ and TAP_WRITE share. -/
def tapUseCheck (s : State) (c : Chain) : Option Status :=
  let k := parBits c 0 7 0
  if 64 ≤ k then some .badPacket
  else if (tapAt s k).attached ∧ (tapAt s k).session ≠ c.session.toNat then some .access
  else if (tapAt s k).reserved.isSome then some .busy
  else none

/-- R256: the record of TAP_READ. -/
def tapRecord (t : Tap) : List Byte :=
  record 32 [(0, t.running.toNat), (64, (tapValue t).toNat), (128, t.byteCount), (192, t.poly), (194, bitOf t.attached),
    (195, bitOf t.seqFault)]

/-- TAP_READ (R256). -/
def tapReadBody (r : CmdRef) (c : Chain) (s : State) : State :=
  match tapUseCheck s c with
  | some st => complete r (replyOf st) s
  | none => complete r (replyData (tapRecord (tapAt s (parBits c 0 7 0)))) s

/-- TAP_WRITE (R257). -/
def tapWriteBody (r : CmdRef) (c : Chain) (s : State) : State :=
  match tapUseCheck s c with
  | some st => complete r (replyOf st) s
  | none =>
    let k := parBits c 0 7 0
    if par64 c 1 / 2 ^ tapWidth (tapAt s k).poly ≠ 0 then complete r (replyOf .badPacket) s
    else
      complete r (replyOf .done)
        { s with
          taps := modAt s.taps k (fun t =>
            { t with running := BitVec.ofNat 64 (par64 c 1), byteCount := par64 c 3, seqFault := false }) }

/-- What the command table says of TAP_ATTACH. -/
def tapAttachRule : CommandRule :=
  { plainRule 0x0070 with used := [0x7FFFF, 0xFFFFFFFF, 0xFFFFFFFF, 0xFFFFFFFF, 0xFFFFFFFF], needsSession := true }

/-- What the command table says of TAP_READ. -/
def tapReadRule : CommandRule := { plainRule 0x0071 with used := [0xFF] }

/-- What the command table says of TAP_WRITE. -/
def tapWriteRule : CommandRule :=
  { plainRule 0x0072 with used := [0xFF, 0xFFFFFFFF, 0xFFFFFFFF, 0xFFFFFFFF, 0xFFFFFFFF] }

/-- TAP_ATTACH (R255). -/
def execTapAttach (r : RingId) (p : Packet) (s : State) : Host.Outcome State Fault Refusal :=
  .next (hostCommand r tapAttachRule tapAttachBody p s)

/-- TAP_READ (R256). -/
def execTapRead (r : RingId) (p : Packet) (s : State) : Host.Outcome State Fault Refusal :=
  .next (hostCommand r tapReadRule tapReadBody p s)

/-- TAP_WRITE (R257). -/
def execTapWrite (r : RingId) (p : Packet) (s : State) : Host.Outcome State Fault Refusal :=
  .next (hostCommand r tapWriteRule tapWriteBody p s)

end Sys2Proof.Machine
end

