-- ==== Sys2Proof/Machine/Device.lean ====
section
/-!
DEFINITION. The commands of the protocol chapter: DEV_INFO, DEV_STATUS, sessions, mappings and data (R78, R104 to R113),
and packets whose opcode is not in the command table (R92).
-/

namespace Sys2Proof.Machine

/-! ## Device -/

/-- R106: CRATERS_RETIRED. -/
def cratersRetired (s : State) : Nat :=
  ((List.range 32).map (fun c => bitOf (isRetired s (unitId 2 c)) <<< c)).sum

/-- R106: the DEV_INFO record; in recovery the firmware fields read zero as in DEV_ID (R51). -/
def devInfoRecord (s : State) (p : Nat) : List Byte :=
  let id := devId s p
  record 256 [(0, bits id 15 0), (16, bits id 23 16), (24, bits id 31 24), (32, bits id 39 32), (40, bits id 43 40),
    (44, bits id 47 44), (48, Config.vendorId.toNat), (64, Config.serial.toNat), (128, s.fabric.moduleId),
    (140, s.pins.twinSide.toNat), (144, s.pins.cascPos.toNat), (148, bitOf s.boot.config.split),
    (149, bitOf s.boot.oneDie), (160, coresActive s), (192, cratersRetired s), (224, nearUsable s / 0x100000)]

/-- R82, R107: translation entries in no session's slices. -/
def xlateFree (s : State) : Nat := 1048576 - (s.sessions.map (fun e => e.2.smallPages + e.2.largePages)).sum

/-- R107: the DEV_STATUS record. -/
def devStatusRecord (s : State) (p : Nat) : List Byte :=
  record 64 [(0, (devState s p).toNat), (64, s.sessions.length), (80, ringsEnabled s), (96, xlateFree s),
    (128, nearFree s), (192, s.fabric.epoch.toNat),
    (224, if s.twin.state = .unpaired then 0 else s.twin.pairEpoch.toNat), (256, (portOf s p).eventsLost.toNat)]

/-- DEV_INFO (R106). -/
def devInfoBody (r : CmdRef) (_ : Chain) (s : State) : State :=
  complete r (replyData (devInfoRecord s r.port)) s

/-- DEV_STATUS (R107). -/
def devStatusBody (r : CmdRef) (_ : Chain) (s : State) : State :=
  complete r (replyData (devStatusRecord s r.port)) s

/-! ## Sessions -/

/-- R94: the completion ring of a 32-byte descriptor. -/
def cqOf (b : List Byte) : CompletionRing where
  base := BitVec.ofNat 64 (field b 0 64)
  headAddr := BitVec.ofNat 64 (field b 64 64)
  log2Size := field b 128 8
  coalCount := field b 144 16
  coalUs := field b 160 16
  written := 0
  released := 0
  pendingIrq := 0
  firstPending := none
  held := []

/-- R94: a reserved field of a descriptor is not zero. -/
def cqReservedBad (b : List Byte) : Bool := field b 136 8 ≠ 0 || field b 176 80 ≠ 0

/-- The descriptors of a SESSION_OPEN payload. -/
def cqList (c : Chain) : List (List Byte) := (List.range (c.payload.length / 32)).map (fun k => slice c.payload (32 * k) 32)

/-- R108, rows 1 to 3. -/
def openCheck (setup : Bool) (c : Chain) : Option Status :=
  let count := parBits c 0 7 0
  if (setup ∧ (count ≠ 0 ∨ parN c 1 ≠ 0 ∨ parN c 2 ≠ 0)) ∨ (cqList c).any cqReservedBad ∨
      c.payload.length ≠ 32 * (if setup then 1 else count) then some .badPacket
  else if count > 16 ∨ (cqList c).any (fun b => (cqOf b).log2Size < 16 ∨ 28 < (cqOf b).log2Size) then some .limit
  else if (cqList c).any (fun b => (cqOf b).base.toNat % 4096 ≠ 0 ∨ (cqOf b).headAddr.toNat % 8 ≠ 0) then some .align
  else none

/-- R78, R108: the admin ring's completion ring is installed; RINGS_OPEN stays and no session is opened. -/
def installAdmin (r : RingId) (c : Chain) (s : State) : State :=
  onRingOf r (fun x => { x with cq := (cqList c).head?.map cqOf }) s

/-- ADMIN_SETUP (R78, R108): judged as the admin ring's first packet; on success HEAD passes it once the completion ring
is installed, on failure the ring stops with reason 0x5. Once a completion ring is installed it fails with BAD_PACKET. -/
def adminSetupTake (r : RingId) (rule : CommandRule) (p : Packet) (s : State) : State :=
  let q := ringOf s r.port r.idx
  if r.idx = 0 ∧ q.cq = none ∧ headerStop q (headerBytes rule.opcode p) = none then
    let c := { startChain rule.opcode p none with payload := p.payload }
    if (judge s r rule p).isSome ∨ bit p.flags 0 ∨ (openCheck true c).isSome then stopRing r 5 s
    else
      let s1 := passPacket r p (installAdmin r c s)
      let s2 := onRingOf r (fun x => { x with outstanding := x.outstanding ++ [refOf r c] }) s1
      complete (refOf r c) (replyData (natLE 0xFFFF 8)) s2
  else takePacket r rule gatherPayload (fun ref _ x => complete ref (replyOf .badPacket) x) p s

/-- R18, R82: the lowest base of a free contiguous slice of the translation table. -/
def freeSlice (used : List (Nat × Nat)) (n : Nat) : Option Nat :=
  if n = 0 then some 0
  else ((0 :: used.map (fun u => u.1 + u.2)).filter (fun b =>
    decide (b + n ≤ 1048576) && used.all (fun u => !overlaps b n u.1 u.2))).min?

/-- Translation slices in use. -/
def slicesOf (s : State) : List (Nat × Nat) :=
  s.sessions.flatMap (fun e => [(e.2.smallBase, e.2.smallPages), (e.2.largeBase, e.2.largePages)])

/-- R108: the lowest free session number. -/
def freeSession (s : State) : Option Nat := (List.range 256).find? (fun k => (sget s.sessions k).isNone)

/-- A ring has completions that wait for room (R97). -/
def holdsCompletions (q : Ring) : Bool := q.cq.any (fun c => !c.held.isEmpty)

/-- R108: the lowest free rings of a port: a ring is free once its session's last completion has been written (R109). -/
def freeRings (s : State) (p n : Nat) : List Nat :=
  (((List.range 64).drop 1).filter (fun i => !(ringOf s p i).enabled && !holdsCompletions (ringOf s p i))).take n

/-- R65, R85, R108: a ring enabled for a session with its completion ring; its window starts with zeros (DESIGN CHOICE,
log entry 5). -/
def openRing (sid : Nat) (cq : CompletionRing) : Ring :=
  { Ring.reset with enabled := true, session := some sid, cq := some cq }

/-- What SESSION_OPEN allocates: session number, rings, bases of the two slices; `none` is NO_RESOURCE. -/
def openPlan (s : State) (p : Nat) (c : Chain) : Option (Nat × List Nat × Nat × Nat) :=
  let rings := freeRings s p (parBits c 0 7 0)
  match freeSession s, freeSlice (slicesOf s) (parN c 1) with
  | some sid, some small =>
    match freeSlice ((small, parN c 1) :: slicesOf s) (parN c 2) with
    | none => none
    | some large =>
      if rings.length = parBits c 0 7 0 ∧ rings.length * 0x400000 ≤ nearFree s then some (sid, rings, small, large) else none
  | _, _ => none

/-- SESSION_OPEN (R108). -/
def sessionOpenBody (r : CmdRef) (c : Chain) (s : State) : State :=
  match openCheck false c with
  | some st => complete r (replyOf st) s
  | none =>
    match openPlan s r.port c with
    | none => complete r (replyOf .noResource) s
    | some (sid, rings, small, large) =>
      let ss : Session :=
        { port := r.port, rings := rings, smallBase := small, smallPages := parN c 1, largeBase := large,
          largePages := parN c 2, closing := none }
      let s1 := { s with sessions := sset s.sessions sid ss }
      let s2 := (rings.zip (cqList c)).foldl
        (fun x e => onPort r.port (onRing e.1 (fun _ => openRing sid (cqOf e.2))) x) s1
      complete r (replyData (natLE sid 8 ++ rings.map (BitVec.ofNat 8))) s2

/-- A command of a ring whose last completion is produced but still held (R97). -/
def isHeld (q : Ring) (o : CmdRef) : Bool :=
  (q.cq.map (fun c => c.held.any (fun h => !h.more && decide (h.tag = o.tag ∧ h.opcode = o.opcode)))).getD false

/-- R104: a session's chains that are mid-way complete with CANCELLED: those of its own rings and those of an admin ring that
act for it. -/
def cancelChains (sid : Nat) (s : State) : State :=
  let mine := s.ports.zipIdx.flatMap (fun (q, p) => q.rings.zipIdx.filterMap (fun (r, i) =>
    r.chain.bind (fun c => if c.session.toNat = sid then some (p, i, c) else none)))
  mine.foldl
    (fun x e =>
      complete { port := e.1, ring := e.2.1, tag := e.2.2.tag, ringSeq := e.2.2.ringSeq, opcode := e.2.2.opcode, noIrq := e.2.2.noIrq }
        (replyOf .cancelled) (onPort e.1 (onRing e.2.1 (fun q => { q with chain := none })) x)) s

/-- R104, R109: outstanding commands of a session's own rings complete with CANCELLED, but for the one that closes it. -/
def cancelOutstanding (ss : Session) (self : Option CmdRef) (s : State) : State :=
  let own := ss.rings.flatMap (fun i =>
    ((ringOf s ss.port i).outstanding.filter (fun o => self ≠ some o ∧ !isHeld (ringOf s ss.port i) o)))
  own.foldl (fun x o => complete o (replyOf .cancelled) x) s

/-- R97, R109: completions of a session's commands that have not been written yet. -/
def closeWaits (ss : Session) (s : State) : Bool := ss.rings.any (fun i => holdsCompletions (ringOf s ss.port i))

/-- A ring is disabled: its window is released; completions that are still held are written as room allows. -/
def closeRing (q : Ring) : Ring :=
  { Ring.reset with
    cq := match q.cq with
      | none => none
      | some c => if c.held = [] then none else some c }

/-- R109: everything a session holds is freed: plans, tables, contexts, mappings, near-tier pages, slices, taps and
Basin segments. -/
def freeSessionState (sid : Nat) (s : State) : State :=
  let mine := (s.plans.filter (fun p => p.session = sid)).map (·.handle)
  let s1 := mine.foldl (fun x h => freePlan h x) s
  let inSlices (k : Nat) : Bool :=
    (sget s.sessions sid).any (fun ss => overlaps k 1 ss.smallBase ss.smallPages || overlaps k 1 ss.largeBase ss.largePages)
  let dirOf (t : EmbTable) : List (Nat × Nat) :=
    t.slots.filterMap (fun v => if v.state = .empty then none else some (v.dirBase, tableBlocks t))
  { s1 with
    rowDir := ((s1.tables.filter (fun t => t.session = sid)).flatMap dirOf).foldl (fun m e => sdelRange m e.1 e.2) s1.rowDir
    tables := s1.tables.filter (fun t => t.session ≠ sid)
    contexts := s1.contexts.filter (fun c => c.session ≠ sid)
    xlate := s1.xlate.filter (fun e => !inSlices e.1)
    taps := s1.taps.map (fun t => if t.attached ∧ t.session = sid then { Tap.reset with reserved := t.reserved } else t)
    basin := { s1.basin with
      segments := s1.basin.segments.map (fun g => if g.owner = some sid then { g with owner := none } else g)
      entries := s1.basin.entries.filter (fun e =>
        !decide (((s1.basin.segments.getD (e.1 / 65536) { width := 128, owner := none }).owner) = some sid))
      loads := s1.basin.loads.filter (fun l => l.session ≠ sid) } }

/-- R109: the rings of a closed session are disabled and its number is free. -/
def dropSession (sid : Nat) (ss : Session) (s : State) : State :=
  let s1 := ss.rings.foldl (fun x i => onPort ss.port (onRing i closeRing) x) s
  { s1 with sessions := sdel s1.sessions sid }

/-- The session is closing. -/
def markClosing (sid : Nat) (r : Option CmdRef) (s : State) : State :=
  { s with sessions := s.sessions.map (fun e => if e.1 = sid then (e.1, { e.2 with closing := r }) else e) }

/-- R109: the session closes: its plans have ended, its outstanding commands complete CANCELLED, and once those completions are
written everything it holds is freed and SESSION_CLOSE completes. -/
def finishClose (sid : Nat) (r : Option CmdRef) (s : State) : State :=
  match sget s.sessions sid with
  | none => s
  | some ss =>
    let s1 := cancelOutstanding ss r s
    if closeWaits ss s1 then markClosing sid r s1
    else
      let s2 := freeSessionState sid s1
      let s3 := match r with
        | some c => complete c (replyOf .done) s2
        | none => s2
      dropSession sid ss s3

/-- R104, R109: SESSION_CLOSE starts: the session's chains and runs are cancelled; a run inside its commit delays the close. -/
def beginClose (sid : Nat) (r : Option CmdRef) (s : State) : State :=
  let mine := (s.plans.filter (fun p => p.session = sid)).map (·.handle)
  let s1 := mine.foldl (fun x h => cancelRun h none x) (cancelChains sid s)
  if (s1.plans.filter (fun p => p.session = sid)).any isLive then markClosing sid r s1 else finishClose sid r s1

/-- A close that waited for a commit, or for room for the session's completions, goes on once no run of the session is left and they
are written (R97, R104, R109, R159). -/
def resumeCloses (s : State) : State :=
  s.sessions.foldl
    (fun x e => match e.2.closing with
      | none => x
      | some r =>
        let y := (x.plans.filter (fun p => p.session = e.1 ∧ !inCommit p)).foldl (fun z p => cancelRun p.handle none z) x
        if (y.plans.filter (fun p => p.session = e.1)).any isLive then y else finishClose e.1 (some r) y) s

/-- SESSION_CLOSE (R109). -/
def sessionCloseBody (r : CmdRef) (c : Chain) (s : State) : State :=
  let sid := c.handle.toNat
  match sget s.sessions sid with
  | none => complete r (replyOf .access) s
  | some ss =>
    if ss.closing.isSome then complete r (replyOf .busy) s
    else beginClose sid (some r) s

/-! ## Mappings -/

/-- Permission bits of a page against a far-tier window (R110). -/
def farTargetOk (s : State) (a n perm : Nat) : Bool :=
  match farWindow s.boot.config.windows a with
  | none => false
  | some w =>
    decide (a + n ≤ (w.modBase + w.size) * 0x10000000) && (w.read || perm % 2 = 0) && (w.write || perm / 2 % 2 = 0)

/-- R110, R111, rows 2 and 3 of the mapping checks, by what the command names. -/
def mapRangeCheck (s : State) (ss : Session) (va count : Nat) (large far : Bool) (target nearDie : Nat) : Option Status :=
  let size := if large then 0x200000 else 0x10000
  let fits : Bool :=
    if large then decide (largeBase ≤ va ∧ (va - largeBase) / size + count ≤ ss.largePages)
    else decide (va < largeBase ∧ va / size + count ≤ ss.smallPages)
  if va % size ≠ 0 ∨ (far ∧ target % size ≠ 0) then some .align
  else if !fits ∨ (nearDie ≠ 0 ∧ !s.boot.config.split) then some .limit
  else none

/-- The translation entry index of a virtual address of the session. -/
def entryIndex (ss : Session) (va : Nat) : Nat := ((xlateIndex ss va).map (·.1)).getD 0

/-- R110: pages a MEM_MAP names are mapped to module addresses. -/
def mapPages (sid : Nat) (ss : Session) (va : Nat) (large : Bool) (perm : Nat) (targets : List Nat) (s : State) : State :=
  let size := if large then 0x200000 else 0x10000
  { s with
    xlate := targets.zipIdx.foldl
      (fun x (a, k) => sset x (entryIndex ss (va + k * size))
        { large := large, read := perm.testBit 0, write := perm.testBit 1, table := perm.testBit 2, weights := perm.testBit 3,
          session := sid, mpage := a / 0x10000 }) s.xlate }

/-- R110: near-tier pages given to a session are filled with zeros. -/
def zeroPages (size : Nat) (targets : List Nat) (s : State) : State :=
  { s with
    near := targets.foldl (fun m a => memClear m a size) s.near
    err := { s.err with poison := targets.foldl (fun ps a => clearPoison a size ps) s.err.poison } }

/-- R110: a near-tier page of firmware's choice lies in the usable near tier, and on the die that is asked for. -/
def nearPageOk (s : State) (nearDie size a : Nat) : Bool :=
  nearOk s a size && (nearDie = 0 || (nearDie = 1 && decide (a < 0xC00000000)) || (nearDie = 2 && decide (0xC00000000 ≤ a)))

/-- MEM_MAP (R110). NEAR_DIE 0x3, which the manual does not list, completes with BAD_PACKET (DESIGN CHOICE, log entry 94). -/
def memMapBody (r : CmdRef) (c : Chain) (s : State) : State :=
  let sid := c.session.toNat
  let va := par64 c 0
  let target := par64 c 2
  let count := parN c 4
  let perm := parBits c 5 3 0
  let large : Bool := parBits c 5 4 4 = 1
  let source := parBits c 5 6 5
  let nearDie := parBits c 5 8 7
  let size := if large then 0x200000 else 0x10000
  match sget s.sessions sid with
  | none => complete r (replyOf .access) s
  | some ss =>
    if count = 0 ∨ source > 1 ∨ nearDie = 3 ∨ (source = 0 ∧ target ≠ 0) then
      complete r (replyOf .badPacket) s
    else
      match mapRangeCheck s ss va count large (source = 1) target nearDie with
      | some st => complete r (replyOf st) s
      | none =>
        let pages := List.range count
        if pages.any (fun k => (sget s.xlate (entryIndex ss (va + k * size))).isSome) ∨
            (source = 1 ∧ !farTargetOk s target (count * size) perm) then complete r (replyOf .access) s
        else if source = 1 then
          complete r { replyOf .done with count0 := count }
            (mapPages sid ss va large perm (pages.map (fun k => target + k * size)) s)
        else if nearFree s < count * size then complete r (replyOf .noResource) s
        else
          match pickPages (nearPageOk s nearDie size) size s.freeCount count (mappedNear s) with
          | none => complete r (replyOf .noResource) (takeFresh count s)
          | some targets =>
            complete r { replyOf .done with count0 := count }
              (takeFresh count (mapPages sid ss va large perm targets (zeroPages size targets s)))

/-- R305: a session range meets the storage, an ID index or the hot area of a live table of the session. -/
def tableMemory (s : State) (sid va len : Nat) : Bool :=
  (s.tables.filter (fun t => t.session = sid)).any (fun t =>
    t.slots.any (fun v => v.state ≠ .empty &&
      (overlaps va len v.storeVa.toNat (t.rows * rowBytesOf t) ||
        (t.hashed && overlaps va len v.indexVa.toNat (64 + 16 * 2 ^ t.log2Index)))) ||
    (t.policy.map (fun p => overlaps va len p.hotVa (p.hotFrames * frameBytes t))).getD false)

/-- MEM_UNMAP (R111). -/
def memUnmapBody (r : CmdRef) (c : Chain) (s : State) : State :=
  let sid := c.session.toNat
  let va := par64 c 0
  let count := parN c 4
  let large : Bool := parBits c 5 4 4 = 1
  let size := if large then 0x200000 else 0x10000
  match sget s.sessions sid with
  | none => complete r (replyOf .access) s
  | some ss =>
    if count = 0 then complete r (replyOf .badPacket) s
    else
      match mapRangeCheck s ss va count large false 0 0 with
      | some st => complete r (replyOf st) s
      | none =>
        let idx := (List.range count).map (fun k => entryIndex ss (va + k * size))
        if idx.any (fun k => !((sget s.xlate k).map (fun e => decide (e.session = sid))).getD false) then
          complete r (replyOf .access) s
        else if rangeBound s sid va (count * size) ∨ tableMemory s sid va (count * size) ∨
            anyWindow s sid va (count * size) then complete r (replyOf .busy) s
        else
          complete r { replyOf .done with count0 := count } { s with xlate := idx.foldl (fun x k => sdel x k) s.xlate }

/-! ## Data -/

/-- R314: a range meets storage or index of a slot that a live plan binds, or of a slot with a HOT block. -/
def slotGuarded (s : State) (sid va len : Nat) : Bool :=
  (s.tables.filter (fun t => t.session = sid)).any (fun t =>
    (List.range 4).any (fun k =>
      let v := slotOf t k
      v.state ≠ .empty &&
        (overlaps va len v.storeVa.toNat (t.rows * rowBytesOf t) ||
          (t.hashed && overlaps va len v.indexVa.toNat (64 + 16 * 2 ^ t.log2Index))) &&
        ((livePlans s).any (fun p => (boundSlots p).any (fun b => b.1 = t.handle && b.2.1 = k)) ||
          (t.frames.any (fun f => f.2.1 = k && (dirEntry s t k f.2.2).hot)))))

/-- R104, R163, R314, R426: a DATA_PUT into a session range would be BUSY. -/
def putBusy (s : State) (sid va len : Nat) : Bool :=
  rangeBound s sid va len || slotGuarded s sid va len || inWindow s sid va len

/-- R560: the module address of an offset in a plan's staging region on a die. -/
def stagingAddress (p : Plan) (die off : Nat) : Nat := die * 0x4000000 + p.stageBase.getD die 0 + off

/-- R112: bytes written to a plan's staging region; whole sectors written are no longer poisoned (R446). -/
def putStaging (a : Nat) (bs : List Byte) (s : State) : State :=
  { s with
    staging := memWrite s.staging a bs
    err := { s.err with poison := clearPoison (0x210000000000 + a) bs.length s.err.poison } }

/-- R112: the conditions on a packet of DATA_PUT, the first packet marked by `c.payload` being empty. A non-zero STAGE_DIE with
KIND 0x0 completes with BAD_PACKET (DESIGN CHOICE, log entry 94). -/
def putCheck (s : State) (p : Packet) (c : Chain) : Option Status :=
  let par (i : Nat) : Nat := (packetParam p i).toNat
  let va := par 0 + par 1 <<< 32
  let total := par 2 + par 3 <<< 32
  let kind := par 4
  let die := par 5
  let sid := c.session.toNat
  let first := c.payload = []
  let from_ := if first then va else va - c.taken
  if total = 0 ∨ kind > 1 ∨ (kind = 0 ∧ die ≠ 0) ∨ (first ∧ va % 64 ≠ 0) ∨ (!first ∧ va ≠ c.nextVa) ∨
      total ≠ par64 c 2 ∨ kind ≠ parN c 4 ∨ die ≠ parN c 5 ∨ total < c.taken + p.payload.length then
    (if first ∧ total > 2 ^ 40 then some .limit else some .badPacket)
  else if total > 2 ^ 40 then some .limit
  else if kind = 0 then
    match sessionPieces s sid needWrite from_ total with
    | none => some .access
    | some ps => if !farPiecesOk s ps true then some .access else if putBusy s sid from_ total then some .busy else none
  else
    match planOf s c.handle with
    | none => some .access
    | some q =>
      if isLive q then some .busy
      else if from_ + total > q.stageSize.getD die 0 then some .limit
      else none

/-- R112: a packet of DATA_PUT writes its payload, in the order it came, or decides the status of its chain. -/
def gatherPut (port : Nat) (p : Packet) (c : Chain) (s : State) : State × Chain :=
  match putCheck s p c with
  | some st => (s, failChain st { c with payload := [1] })
  | none =>
    let va := (packetParam p 0).toNat + (packetParam p 1).toNat <<< 32
    let c1 := { c with payload := [1], taken := c.taken + p.payload.length, nextVa := va + p.payload.length }
    if parN c 4 = 0 then
      (foldStream 6 port port c.session.toNat va p.payload (storeSession c.session.toNat va p.payload s), c1)
    else
      match planOf s c.handle with
      | none => (s, c1)
      | some q => (putStaging (stagingAddress q (parN c 5) va) p.payload s, c1)

/-- DATA_PUT ends (R112): the payloads add up to TOTAL_LEN. -/
def dataPutBody (r : CmdRef) (c : Chain) (s : State) : State :=
  complete r { replyOf (if c.taken = par64 c 2 then .done else .badPacket) with count0 := c.taken } s

/-- R253: far-tier data that a command of a session reads arrives on its CXL port, request by request. -/
def foldFarReads (sid : Nat) : Nat → List (Nat × Nat) → State → State
  | _, [], s => s
  | va, p :: ps, s =>
    let s1 := match farWindow s.boot.config.windows p.1 with
      | none => s
      | some w => (farRequests p.1 p.2 false).foldl
          (fun x q => foldStream 6 (farPort x w q.1) (farPort x w q.1) sid (va + (q.1 - p.1)) (readPieces x [q]) x) s
    foldFarReads sid (va + p.2) ps s1

/-- DATA_GET (R113). -/
def dataGetBody (r : CmdRef) (c : Chain) (s : State) : State :=
  let va := par64 c 0
  let len := par64 c 2
  if len = 0 then complete r (replyOf .badPacket) s
  else if len > 2 ^ 40 then complete r (replyOf .limit) s
  else
    match sessionPieces s c.session.toNat needRead va len with
    | none => complete r (replyOf .access) s
    | some ps =>
      if !farPiecesOk s ps false then complete r (replyOf .access) s
      else completeData r (replyData (readPieces s ps)) (foldFarReads c.session.toNat va ps s)

/-! ## What the command table says of each, and the meanings -/

/-- All of a parameter word. -/
def allBits : BitVec 32 := 0xFFFFFFFF

def devInfoRule : CommandRule := { plainRule 0x0001 with whenFenced := true, inRecovery := true }
def devStatusRule : CommandRule := { plainRule 0x0002 with whenFenced := true, inRecovery := true }
def sessionOpenRule : CommandRule :=
  { plainRule 0x0010 with adminOnly := true, used := [0x800000FF, allBits, allBits] }
def adminSetupRule : CommandRule := { sessionOpenRule with inRecovery := true }
def sessionCloseRule : CommandRule := { plainRule 0x0011 with handle := .session, whenFenced := true }
def memMapRule : CommandRule :=
  { plainRule 0x0020 with used := [allBits, allBits, allBits, allBits, allBits, 0x1FF], needsSession := true }
def memUnmapRule : CommandRule :=
  { plainRule 0x0021 with used := [allBits, allBits, 0, 0, allBits, 0x10], needsSession := true }
def dataPutRule : CommandRule :=
  { plainRule 0x0030 with
    chainable := true, handle := .stagedPlan, used := [allBits, allBits, allBits, allBits, 0x3, 0x1], needsSession := true }
def dataGetRule : CommandRule :=
  { plainRule 0x0031 with used := [allBits, allBits, allBits, allBits], needsSession := true }

/-- DEV_INFO (R106). -/
def execDevInfo (r : RingId) (p : Packet) (s : State) : Host.Outcome State Fault Refusal :=
  .next (hostCommand r devInfoRule devInfoBody p s)

/-- DEV_STATUS (R107). -/
def execDevStatus (r : RingId) (p : Packet) (s : State) : Host.Outcome State Fault Refusal :=
  .next (hostCommand r devStatusRule devStatusBody p s)

/-- SESSION_OPEN with ADMIN_SETUP clear (R108). -/
def execSessionOpen (r : RingId) (p : Packet) (s : State) : Host.Outcome State Fault Refusal :=
  .next (hostCommand r sessionOpenRule sessionOpenBody (fixP0 0x80000000 0 p) s)

/-- SESSION_OPEN with ADMIN_SETUP set (R78, R108). -/
def execAdminSetup (r : RingId) (p : Packet) (s : State) : Host.Outcome State Fault Refusal :=
  let p1 := fixP0 0x80000000 0x80000000 p
  .next (if packetAtHead s r adminSetupRule.opcode p1 then adminSetupTake r adminSetupRule p1 s else s)

/-- SESSION_CLOSE (R109). -/
def execSessionClose (r : RingId) (p : Packet) (s : State) : Host.Outcome State Fault Refusal :=
  .next (hostCommand r sessionCloseRule sessionCloseBody p s)

/-- MEM_MAP (R110). -/
def execMemMap (r : RingId) (p : Packet) (s : State) : Host.Outcome State Fault Refusal :=
  .next (hostCommand r memMapRule memMapBody p s)

/-- MEM_UNMAP (R111). -/
def execMemUnmap (r : RingId) (p : Packet) (s : State) : Host.Outcome State Fault Refusal :=
  .next (hostCommand r memUnmapRule memUnmapBody p s)

/-- DATA_PUT (R112): its payload is written packet by packet. -/
def execDataPut (r : RingId) (p : Packet) (s : State) : Host.Outcome State Fault Refusal :=
  .next (if packetAtHead s r dataPutRule.opcode p then takePacket r dataPutRule (gatherPut r.port) dataPutBody p s else s)

/-- DATA_GET (R113). -/
def execDataGet (r : RingId) (p : Packet) (s : State) : Host.Outcome State Fault Refusal :=
  .next (hostCommand r dataGetRule dataGetBody p s)

/-- The opcodes of R105 with a meaning of their own; EVENT is listed there but never sent by the host. -/
def knownOpcodes : List Nat :=
  [0x01, 0x02, 0x10, 0x11, 0x20, 0x21, 0x30, 0x31, 0x40, 0x41, 0x42, 0x43, 0x44, 0x50, 0x51, 0x52, 0x53, 0x60, 0x61,
    0x70, 0x71, 0x72, 0x80, 0x81, 0x90, 0x91, 0xA0, 0xA1, 0xB0, 0xB1, 0xB2, 0xC0, 0xC1, 0xD0, 0xD1, 0xD2, 0xD3, 0xD4,
    0xE0, 0xE1, 0xE2]

/-- A packet whose opcode is reserved, or is EVENT (R92, R105). -/
def execUnknownOpcode (r : RingId) (opcode : BitVec 16) (p : Packet) (s : State) : Host.Outcome State Fault Refusal :=
  .next (if knownOpcodes.contains opcode.toNat then s
    else hostCommand r { plainRule opcode with known := false } (fun _ _ x => x) p s)

end Sys2Proof.Machine
end

