-- ==== Sys2Proof/Machine/Placement.lean ====
section
/-!
DEFINITION. Placement: which craters run a stage, which logical core owns a block, the Pool check, and re-placement
after a crater leaves service (R152 to R154, R339 to R341).
-/

namespace Sys2Proof.Machine

/-! ## Craters -/

/-- Stage `k` of a plan. -/
def stageAt (b : PlanBinary) (k : Nat) : Stage :=
  b.stages.getD k { firstOp := 0, opCount := 0, cls := .host, firstOnly := false, skipDerated := false, cores := 0, craterMask := 0 }

/-- The operator indices of a stage. -/
def stageOps (g : Stage) : List Nat := List.range' g.firstOp g.opCount

/-- The stage that holds an operator. -/
def stageOfOp (b : PlanBinary) (op : Nat) : Nat :=
  ((b.stages.zipIdx.find? (fun e => decide (e.1.firstOp ≤ op ∧ op < e.1.firstOp + e.1.opCount))).map (·.2)).getD 0

/-- R494, R454: a crater is derated: below 850 MHz, or with a doubled role. -/
def derated (s : State) (c : Nat) : Bool :=
  decide ((s.age.islands.getD c Island.reset).freqMhz < 850) || s.err.doubled.any (fun e => e.1 / 32 = c)

/-- R145: craters of the dies named by DIES, in one-die operation the surviving die (R458). -/
def onDies (s : State) (dies c : Nat) : Bool :=
  if s.boot.oneDie ∧ dies = 0 then c / 16 = s.boot.leadDie else dies = 0 || c / 16 + 1 = dies

/-- R152: craters that may host a CORE stage now. -/
def eligibleCraters (s : State) (dies mask : Nat) (skipDerated : Bool) : List Nat :=
  (List.range 32).filter (fun c =>
    craterUp s c && onDies s dies c && (mask = 0 || mask.testBit c) && !(skipDerated && derated s c))

/-- R152: the craters chosen for a stage. Check 10 of R151 fails with LIMIT when the eligible craters cannot supply CORES; a stage
of CORES 0 that no crater can host is check 11's, NO_RESOURCE (R458). -/
def chooseCraters (s : State) (dies : Nat) (g : Stage) : Except Status (List Nat) :=
  let e := eligibleCraters s dies g.craterMask g.skipDerated
  if g.cls ≠ .core then .ok []
  else if g.cores = 0 then (if e = [] then .error .noResource else .ok e)
  else if e.length < g.cores / 32 then .error .limit
  else .ok (e.take (g.cores / 32))

/-- R151 checks 10 and 11: the craters of every stage; LIMIT comes before NO_RESOURCE. -/
def placeStages (s : State) (b : PlanBinary) : Except Status (List (List Nat)) :=
  let l := b.stages.map (chooseCraters s b.dies)
  let limit (x : Except Status (List Nat)) : Bool := match x with
    | .error st => st = .limit
    | .ok _ => false
  if l.any limit then .error .limit else l.mapM id

/-! ## Owners of blocks (R153) -/

/-- R153: the placing stage of a descriptor: the lowest CORE stage that names it. -/
def placingStage (b : PlanBinary) (d : Nat) : Option Nat :=
  (b.stages.zipIdx.find? (fun (g, _) => g.cls = .core && (stageOps g).any (fun o =>
    (b.ops[o]?).any (fun e => (opDescs e).contains d)))).map (·.2)

/-- R153: equal contiguous runs over cores in ascending order: core, first place, count. -/
def dealBlocks (cores : List Nat) (blocks : Nat) : List (Nat × Nat × Nat) :=
  let q := blocks / max cores.length 1
  let m := blocks % max cores.length 1
  (cores.zipIdx.map (fun (c, k) => (c, k * q + min k m, q + (if k < m then 1 else 0)))).filter (fun e => decide (e.2.2 ≠ 0))

/-- Runs of consecutive numbers in an ascending list: first number and count. -/
def runsOf : List Nat → List (Nat × Nat)
  | [] => []
  | x :: l =>
    match runsOf l with
    | [] => [(x, 1)]
    | r :: rs => if r.1 = x + 1 then (x, r.2 + 1) :: rs else (x, 1) :: r :: rs

/-- R153: the blocks of an ascending list dealt over cores: core, first block and count of every run. -/
def dealList (cores blocks : List Nat) : List (Nat × Nat × Nat) :=
  (dealBlocks cores blocks.length).flatMap (fun e =>
    (runsOf ((blocks.drop e.2.1).take e.2.2)).map (fun r => (e.1, r.1, r.2)))

/-- R16, R142: the blocks of a FABRIC descriptor that the fabric owner table gives to this module, each with its rank. -/
def fabricBlocks (s : State) (d : Descriptor) : List (Nat × Nat) :=
  (s.owner.active.fabric.filter (fun e => decide (d.fabricMapBase ≤ e.1 ∧ e.1 < d.fabricMapBase + blockCountOf d) &&
    decide (e.2.module = s.fabric.moduleId))).map (fun e => (e.1 - d.fabricMapBase, e.2.rank))

/-- R31, R142, R153: the blocks of a FABRIC descriptor on this module, dealt rank by rank, so that a block keeps its logical core
when a twin takes its rank over (DEDUCED, log entry 95). -/
def dealFabric (s : State) (d : Descriptor) (cores : List Nat) : List (Nat × Nat × Nat) :=
  let l := fabricBlocks s d
  (l.map (·.2)).dedup.flatMap (fun r => dealList cores ((l.filter (fun e => e.2 = r)).map (·.1)))

/-- Logical cores of craters (R13). -/
def coresOf (craters : List Nat) : List Nat := craters.flatMap (fun c => List.range' (c * 32) 32)

/-- R153: the logical cores that a CORE stage runs on: those of its craters, and the owners of the blocks that its operators name. -/
def stageCores (p : Plan) (k : Nat) : List Nat :=
  let cs := p.craters.getD k []
  let owners := (stageOps (stageAt p.bin k)).flatMap (fun o => (((p.bin.ops[o]?).map opDescs).getD []).flatMap (fun d =>
    ((sget p.owners d).getD []).map (fun (x : Nat × Nat × Nat) => x.1)))
  coresOf cs ++ (owners.filter (fun c => !cs.contains (c / 32))).dedup

/-- R153: the owners of every BLOCKED descriptor's blocks, `other` being the craters of those that no CORE stage names. -/
def ownersFor (s : State) (b : PlanBinary) (craters : List (List Nat)) (other : List Nat) :
    Sparse (List (Nat × Nat × Nat)) :=
  b.descs.zipIdx.filterMap (fun (d, k) =>
    if d.space ≠ .blocked then none
    else
      let cs := match placingStage b k with
        | some g => craters.getD g []
        | none => other
      some (k, if d.fabric then dealFabric s d (coresOf cs) else dealBlocks (coresOf cs) (blockCountOf d)))

/-- The logical core of this module that owns a block of a descriptor. -/
def blockOwner (p : Plan) (d blk : Nat) : Option Nat :=
  (((sget p.owners d).getD []).find? (fun e => decide (e.2.1 ≤ blk ∧ blk < e.2.1 + e.2.2))).map (·.1)

/-- The logical core that owns a block, 0 where none here does. -/
def ownerOfBlock (p : Plan) (d blk : Nat) : Nat := (blockOwner p d blk).getD 0

/-- The runs of a descriptor's blocks on this module, ascending: owner, first block, count. -/
def blockRuns (p : Plan) (d : Nat) : List (Nat × Nat × Nat) :=
  let l := (sget p.owners d).getD []
  if (p.bin.descs.getD d noDescriptor).fabric then l.mergeSort (fun a b => decide (a.2.1 ≤ b.2.1)) else l

/-- R143: the blocks of a descriptor that a logical core holds, ascending. -/
def coreBlocks (p : Plan) (d core : Nat) : List Nat :=
  ((blockRuns p d).filter (fun e => e.1 = core)).flatMap (fun e => List.range' e.2.1 e.2.2)

/-- Blocks of a descriptor that a logical core holds. -/
def blocksAt (p : Plan) (d core : Nat) : Nat :=
  (((sget p.owners d).getD []).filter (fun e => e.1 = core)).foldl (fun n e => n + e.2.2) 0

/-- R15, R142: rows of a block: 64 rows, or those of a 64 × 64 tile, as far as the tensor reaches. -/
def blockRows (d : Descriptor) (blk : Nat) : Nat :=
  if d.block2d then
    let t1 := blk / ceilDiv (dimOf d 0) 64 % ceilDiv (dimOf d 1) 64
    min 64 (dimOf d 1 - 64 * t1)
  else min 64 (rowCount d - 64 * blk)

/-- Rows of a descriptor that a logical core holds. -/
def rowsAt (p : Plan) (d core : Nat) : Nat :=
  match p.bin.descs[d]? with
  | none => 0
  | some x => ((coreBlocks p d core).map (blockRows x)).sum

/-! ## The Pool check (R339 to R341) -/

/-- The operators whose BLOCKED operands are lane-striped (R339). -/
def denseOp (o : Operator) : Bool :=
  o = .dense || o = .activate || o = .norm || o = .interact || o = .attendShort || o = .softmax || o = .denseGrad

/-- R339: lane-striped descriptors of a plan. -/
def laneStriped (b : PlanBinary) : List Nat :=
  ((b.ops.filter (fun o => denseOp o.op)).flatMap opDescs).dedup.filter (fun d =>
    (b.descs[d]?).any (fun x => x.space = .blocked))

/-- The operators that write, and those that read, a descriptor. -/
def writersOf (b : PlanBinary) (d : Nat) : List Nat :=
  b.ops.zipIdx.filterMap (fun (o, k) => if o.out0 = some d ∨ o.out1 = some d then some k else none)

/-- Operators that read a descriptor. -/
def readersOf (b : PlanBinary) (d : Nat) : List Nat :=
  b.ops.zipIdx.filterMap (fun (o, k) => if o.in0 = some d ∨ o.in1 = some d ∨ o.in2 = some d then some k else none)

/-- R341: a tensor is live at an operator. -/
def liveAt (b : PlanBinary) (d op : Nat) : Bool :=
  let first := ((writersOf b d).min?).getD 0
  let last := ((readersOf b d ++ writersOf b d).max?).getD 0
  decide (first ≤ op ∧ op ≤ last)

/-- R341: per-sample scratch of an operator: 4 × N of a DENSE with an A8 result, 4 × C of a SOFTMAX. -/
def opScratch (b : PlanBinary) (op : Nat) : Nat :=
  match b.ops[op]? with
  | none => 0
  | some o =>
    match o.op, (o.out0.bind (b.descs[·]?)) with
    | .dense, some x => if x.format = .a8 then 4 * dimOf x 0 else 0
    | .softmax, some x => 4 * dimOf x 0
    | _, _ => 0

/-- R341: s_live of a stage. -/
def sLive (b : PlanBinary) (g : Stage) : Nat :=
  (((stageOps g).map (fun op =>
    (((laneStriped b).filter (fun d => liveAt b d op)).map (fun d => ((b.descs[d]?).map paddedRow).getD 0)).sum +
      opScratch b op)).max?).getD 0

/-- R340: the residency of a stage at a core. -/
def slotsAt (p : Plan) (g : Stage) (core : Nat) : Nat :=
  let ds := ((stageOps g).flatMap (fun o => ((p.bin.ops[o]?).map opDescs).getD [])).filter (laneStriped p.bin).contains
  ceilDiv ((ds.map (fun d => rowsAt p d core)).max?.getD 0) 12

/-- Bytes of a plan's pieces on a core, except those that `skip` names. -/
def pieceBytes (p : Plan) (skip : List Nat) (core : Nat) : Nat :=
  (p.bin.descs.zipIdx.map (fun (d, k) =>
    if d.space = .blocked ∧ !skip.contains k then blocksAt p k core * blockSize d else 0)).sum

/-- R366: a TOPK of streamed rows takes two Pools of the core. -/
def streamBytes (b : PlanBinary) (g : Stage) : Nat :=
  if (stageOps g).any (fun o => (b.ops[o]?).any (fun e =>
    e.op = .topk && (e.in0.bind (b.descs[·]?)).any (fun d => d.space = .session))) then 32768 else 0

/-- R340: no core of a CORE stage of the dense operators holds more than 384 rows. -/
def residencyOk (p : Plan) : Bool :=
  p.bin.stages.zipIdx.all (fun (g, k) =>
    g.cls ≠ .core || (stageCores p k).all (fun c => decide (slotsAt p g c ≤ 32)))

/-- The logical cores whose work the core of role `host` runs for a plan: its own and its guests (R154). -/
def hostedBy (p : Plan) (host : Nat) : List Nat :=
  host :: (p.guests.filter (fun e => e.2 = host)).map (·.1)

/-- R13: the slot that holds a role. -/
def slotOfRole (s : State) (c r : Nat) : Nat := (sget s.err.roleSlot (c * 32 + r)).getD r

/-- The logical cores whose work a physical core runs for a plan: those of every role that its slot holds (R154, R454). -/
def hostedAt (s : State) (p : Plan) (core : Nat) : List Nat :=
  ((List.range 32).filter (fun r => slotOfRole s (core / 33) r = core % 33)).flatMap (fun r => hostedBy p (core / 33 * 32 + r))

/-- The physical core that runs a logical core's work for a plan. -/
def physicalOf (s : State) (p : Plan) (c : Nat) : Nat :=
  let h := ((p.guests.find? (fun e => e.1 = c)).map (·.2)).getD c
  h / 32 * 33 + slotOfRole s (h / 32) (h % 32)

/-- R341: the Pools of every core hold what a plan places there, beside the pieces of the other loaded plans. -/
def poolsFit (s : State) (p : Plan) : Bool :=
  p.bin.stages.zipIdx.all (fun (g, k) =>
    g.cls ≠ .core ||
      (let cores := stageCores p k
       let m := ((cores.map (slotsAt p g)).max?).getD 0
       ((cores.map (physicalOf s p)).dedup).all (fun h =>
         let mine := hostedAt s p h
         let live := mine.filter (fun c => decide (slotsAt p g c ≠ 0))
         let others := ((s.plans.filter (fun q => q.handle ≠ p.handle)).map (fun q =>
           ((hostedAt s q h).map (pieceBytes q [])).sum)).sum
         decide (live.length * (12 * m * sLive p.bin g) + (mine.map (pieceBytes p (laneStriped p.bin))).sum +
           streamBytes p.bin g + others ≤ 786432))))

/-! ## Re-placement (R154) -/

/-- R154: the host of role `r` of crater `c`: the role-r core of the first eligible crater after `c` that hosts no guest,
or the one with the fewest guests; the guests are those of this plan (DESIGN CHOICE, log entry 101). -/
def guestHost (eligible : List Nat) (guests : List (Nat × Nat)) (c r : Nat) : Option Nat :=
  let order := ((List.range 32).map (fun k => (c + 1 + k) % 32)).filter eligible.contains
  let load (x : Nat) : Nat := (guests.filter (fun g => g.2 = x * 32 + r)).length
  match order.find? (fun x => load x = 0) with
  | some x => some (x * 32 + r)
  | none => ((order.map load).min?).bind (fun n => (order.find? (fun x => load x = n)).map (fun x => x * 32 + r))

/-- R154, R348: a crater has left a plan: it is out of service, or derated and in a stage that skips derated craters. -/
def leftPlan (s : State) (p : Plan) (c : Nat) : Bool :=
  !craterUp s c || (derated s c && (p.bin.stages.zip p.craters).any (fun e => e.1.skipDerated && e.2.contains c))

/-- R154, R348: the plan with every role of the craters that have left it hosted elsewhere; `none` when no crater is eligible.
Logical core numbers stay. -/
def rehost (s : State) (p : Plan) : Option Plan :=
  let skip := p.bin.stages.any (·.skipDerated)
  let eligible := eligibleCraters s p.bin.dies 0 skip
  let used := ((p.craters.flatten ++ (p.owners.flatMap (fun (e : Nat × List (Nat × Nat × Nat)) => e.2.map (fun (x : Nat × Nat × Nat) => x.1 / 32))))).dedup
  let kept := p.guests.filter (fun g => leftPlan s p (g.1 / 32) && eligible.contains (g.2 / 32))
  let lost := (List.range 32).filter (fun c => used.contains c && leftPlan s p c)
  let roles := lost.flatMap (fun c => (List.range 32).map (fun r => (c, r)))
  (roles.foldl
    (fun (acc : Option (List (Nat × Nat))) cr => acc.bind (fun gs =>
      if gs.any (fun g => g.1 = cr.1 * 32 + cr.2) then some gs
      else (guestHost eligible gs cr.1 cr.2).map (fun h => gs ++ [(cr.1 * 32 + cr.2, h)])))
    (some kept)).map (fun gs => { p with guests := gs })

/-- R24, R31, R142: the blocks of FABRIC descriptors as the owner tables give them now. -/
def refreshOwners (s : State) (p : Plan) : Plan :=
  if p.bin.descs.any (fun d => d.space = .blocked && d.fabric) then
    { p with owners := ownersFor s p.bin p.craters p.otherCraters } else p

/-! ## Owner maps (R17, R19, R20, R143, R153) -/

/-- R22: the incarnation of a physical core's slot. -/
def incarnationOf (s : State) (core : Nat) : Nat := (sget s.err.incarnation core).getD 1

/-- The crater and role that run a logical core's work: its own, or its host's (R154). -/
def hostCore (p : Plan) (c : Nat) : Nat := ((p.guests.find? (fun g => g.1 = c)).map (·.2)).getD c

/-- The blocks of a descriptor on this module, each with its owner, ascending. -/
def blockOwners (p : Plan) (d : Nat) : List (Nat × Nat) :=
  (blockRuns p d).flatMap (fun e => (List.range' e.2.1 e.2.2).map (fun b => (b, e.1)))

/-- Blocks of a descriptor that a crater holds, each with its owner, ascending. -/
def craterBlocks (p : Plan) (d c : Nat) : List (Nat × Nat) := (blockOwners p d).filter (fun e => hostCore p e.2 / 32 = c)

/-- R19, R20: the entries of a plan's owner maps written into a bank. -/
def fillMaps (s : State) (p : Plan) (b : OwnerBank) : OwnerBank :=
  { b with
    die := p.dieMaps.foldl
      (fun m e =>
        (blockOwners p e.1).foldl
          (fun m x =>
            let c := hostCore p x.2 / 32
            sset m (e.2.1 + x.1)
              { die := c / 16, crater := c % 16, mapIndex := ((craterBlocks p e.1 c).findIdx (fun y => y.1 = x.1)) }) m)
      b.die
    crater := p.craterMaps.foldl
      (fun m e =>
        ((craterBlocks p e.1 e.2.1).zipIdx).foldl
          (fun m x =>
            let slot := slotOfRole s e.2.1 (hostCore p x.1.2 % 32)
            sset m (e.2.1 * 16384 + e.2.2.1 + x.2)
              { slot := slot, incarnation := incarnationOf s (e.2.1 * 33 + slot) }) m)
      b.crater }

/-- The lowest base of `n` free entries among `cap`. -/
def freeRange (used : List (Nat × Nat)) (cap n : Nat) : Option Nat :=
  ((0 :: used.map (fun u => u.1 + u.2)).filter (fun b =>
    decide (b + n ≤ cap) && used.all (fun u => !overlaps b n u.1 u.2))).min?

/-- R17, R18: bases for the owner maps of a plan beside those of the other plans; `none` is NO_RESOURCE. -/
def chooseMaps (s : State) (p : Plan) : Option Plan :=
  let others := s.plans.filter (fun q => q.handle ≠ p.handle)
  let blocked := (p.owners.map (·.1))
  let die := blocked.foldl
    (fun (acc : Option (List (Nat × Nat × Nat))) d => acc.bind (fun l =>
      let n := blockCountOf (p.bin.descs.getD d noDescriptor)
      (freeRange ((others.flatMap (·.dieMaps) ++ l).map (·.2)) 262144 n).map (fun b => l ++ [(d, b, n)])))
    (some [])
  let crater := (blocked.flatMap (fun d => (List.range 32).map (fun c => (d, c)))).foldl
    (fun (acc : Option (List (Nat × Nat × Nat × Nat))) dc => acc.bind (fun l =>
      let n := (craterBlocks p dc.1 dc.2).length
      if n = 0 then some l
      else (freeRange (((others.flatMap (·.craterMaps) ++ l).filter (fun e => e.2.1 = dc.2)).map (·.2.2)) 16384 n).map
        (fun b => l ++ [(dc.1, dc.2, b, n)])))
    (some [])
  match die, crater with
  | some a, some b => some { p with dieMaps := a, craterMaps := b }
  | _, _ => none

/-- R143: a tensor places at most 256 blocks in any crater, and a FABRIC tensor has at most 524,288 blocks. -/
def mapsWithin (p : Plan) : Bool :=
  p.owners.all (fun (e : Nat × List (Nat × Nat × Nat)) =>
    (List.range 32).all (fun c => decide ((craterBlocks p e.1 c).length ≤ 256))) &&
    p.bin.descs.all (fun d => !(d.space = .blocked && d.fabric) || decide (blockCountOf d ≤ 524288))

/-! ## Lookups (R16, R20, R23) -/

/-- Where a lookup of a block leads: to a core slot with its incarnation, to another module, or nowhere (ACCESS). -/
inductive BlockPlace where
  | core (crater slot incarnation : Nat)
  | module (dest : Nat) (epoch : BitVec 32)
  | nowhere
  deriving DecidableEq, Repr

/-- R16, R19 to R21: block `blk` of descriptor `k` resolved through a bank of the owner tables, level by level. -/
def lookupBlock (self : Nat) (b : OwnerBank) (p : Plan) (k blk : Nat) : BlockPlace :=
  let d := p.bin.descs.getD k noDescriptor
  let here : BlockPlace :=
    match (p.dieMaps.find? (fun e => e.1 = k)).bind (fun e => if blk < e.2.2 then sget b.die (e.2.1 + blk) else none) with
    | none => .nowhere
    | some de =>
      let c := de.die * 16 + de.crater
      match (p.craterMaps.find? (fun e => e.1 = k && e.2.1 = c)).bind (fun e => sget b.crater (c * 16384 + e.2.2.1 + de.mapIndex)) with
      | none => .nowhere
      | some ce => if ce.slot ≤ 32 then .core c ce.slot ce.incarnation else .nowhere
  if d.fabric then
    match sget b.fabric (d.fabricMapBase + blk) with
    | none => .nowhere
    | some fe => if fe.module = self then here else .module fe.module fe.epoch
  else here

/-- The blocks of a descriptor's operand that an operator asks for: every block of the tensor. -/
def operandBlocks (p : Plan) (k : Nat) : List Nat :=
  let d := p.bin.descs.getD k noDescriptor
  if d.space = .blocked then List.range (blockCountOf d) else []

/-- A request names a block with no valid owner entry. -/
def blocksLost (self : Nat) (b : OwnerBank) (p : Plan) (k : Nat) : Bool :=
  (operandBlocks p k).any (fun blk => lookupBlock self b p k blk = .nowhere)

/-- R23: the requests for the blocks of a descriptor whose core carries another incarnation than the crater owner table gives. -/
def staleRequests (self : Nat) (v : View) (p : Plan) (k : Nat) : Nat :=
  (operandBlocks p k).countP (fun blk => match lookupBlock self v.owner p k blk with
    | .core c slot n => decide ((sget v.incarnation (c * 33 + slot)).getD 1 ≠ n)
    | _ => false)

/-- A plan's owner maps written into both banks (R453: while no attempt runs on them). -/
def writeMaps (p : Plan) (s : State) : State :=
  { s with owner := { s.owner with active := fillMaps s p s.owner.active, shadow := fillMaps s p s.owner.shadow } }

/-- Every loaded plan's owner maps written again, after a role has moved. -/
def rewriteMaps (s : State) : State := s.plans.foldl (fun x p => writeMaps p x) s

/-- R154: a plan as it stands after re-placement; `none` when it cannot be placed or its Pools do not hold it. -/
def replaced (s : State) (p : Plan) : Option Plan :=
  match (rehost s (refreshOwners s p)).bind (chooseMaps s) with
  | none => none
  | some q => if poolsFit s q ∧ mapsWithin q then some q else none

/-- A re-placed plan takes its place and its owner maps. -/
def installPlan (p q : Plan) (s : State) : State :=
  writeMaps q (onPlan p.handle (fun _ => q) { s with owner := freeMaps p s.owner })

/-- R463, R481: every loaded plan could still be placed in a state. -/
def allPlaceable (s : State) : Bool := s.plans.all (fun p => (replaced s p).isSome)

/-- R154, R348, R24: a loaded plan whose roles do not yet stand where the craters in service put them, or whose FABRIC blocks have
come or gone with the owner tables. -/
def needsReplace (s : State) (p : Plan) : Bool :=
  match rehost s p with
  | some q => decide (q.guests ≠ p.guests) || decide ((refreshOwners s p).owners ≠ p.owners)
  | none => true

/-- R154: a plan is re-placed at its boundary; when it does not fit, its run ends with NO_RESOURCE. -/
def replacePlan (h : Word) (s : State) : State :=
  match planOf s h with
  | none => s
  | some p =>
    match replaced s p with
    | some q => installPlan p q s
    | none => endRun h .noResource s

/-- R154, R459: plans that do not run are re-placed at once. -/
def replaceIdle (s : State) : State :=
  (s.plans.filter (fun p => !isLive p)).foldl
    (fun x p => match replaced x p with
      | some q => installPlan p q x
      | none => x) s

end Sys2Proof.Machine
end

