-- ==== Sys2Proof/Machine/ErrorOps.lean ====
section
/-!
DEFINITION. Detections, roles and the retirement list: the operations that several commands share (R22, R446 to R459,
R464).
-/

namespace Sys2Proof.Machine

/-- R464: the reasons of a retirement. -/
def reasonReplay : Nat := 1
def reasonReplayLimit : Nat := 2
def reasonRate : Nat := 3
def reasonTest : Nat := 4
def reasonCommand : Nat := 5
def reasonMargin : Nat := 6
def reasonIncarnation : Nat := 7

/-- R455: class and index of a unit. -/
def unitClass (u : BitVec 32) : Nat := bits u 23 16
def unitIndex (u : BitVec 32) : Nat := bits u 15 0

/-- R455: units of a class. -/
def classCount : Nat → Nat
  | 1 => 1056
  | 2 => 32
  | 3 => 12
  | 4 => 32
  | 5 => 16
  | 6 => 8
  | 7 => 2
  | 8 => 64
  | 9 => 6
  | 10 => 48
  | 11 => 2
  | 12 => 1
  | 13 => 2
  | _ => 0

/-- R455: the unit ID is of a known class and in range. -/
def unitValid (u : BitVec 32) : Bool := bits u 31 24 = 0 && decide (unitIndex u < classCount (unitClass u))

/-! ## The retirement list (R459) -/

/-- R459: an entry of the list is added, or updated for a unit already on it; a crater's entry replaces those of its
cores. -/
def listRetired (u : BitVec 32) (reason : Nat) (time : Word) (l : List Retired) : List Retired :=
  let e : Retired := { unit := u, reason := reason, time := time, testPassed := false, restoring := false }
  let l1 := if unitClass u = 2 then
      l.filter (fun r => !(unitClass r.unit = 1 && decide (unitIndex r.unit / 33 = unitIndex u)))
    else l
  if l1.any (fun r => r.unit = u) then l1.map (fun r => if r.unit = u then e else r) else l1 ++ [e]

/-- R459, R464: a retirement is recorded: the list entry, and UNIT_RETIRED with the unit that took over all of the work,
if one did; a unit already on the list gets its new reason and time and no second event. -/
def recordRetired (u : BitVec 32) (reason : Nat) (heir : Option (BitVec 32)) (s : State) : State :=
  let s1 := { s with err := { s.err with retired := listRetired u reason s.time s.err.retired } }
  if isRetired s u then s1
  else postEvent .unitRetired u.toNat reason (heir.elim 0xFFFFFFFF (·.toNat)) s1

/-! ## Cores, roles and incarnations (R13, R22, R453, R454) -/

/-- The core is out of service. -/
def coreDead (s : State) (core : Nat) : Bool := s.err.deadCores.contains core

/-- R13: roles that a slot of a crater holds. -/
def rolesAt (s : State) (c slot : Nat) : List Nat := (List.range 32).filter (fun r => slotOfRole s c r = slot)

/-- R453: the crater's free spare: an in-service slot that holds no role. -/
def freeSpare (s : State) (c : Nat) : Option Nat :=
  (List.range 33).find? (fun k => !coreDead s (c * 33 + k) && (rolesAt s c k).isEmpty)

/-- R22: a slot's incarnation is incremented. One that would pass 0xFFFF stays, and the slot is retired instead. -/
def bumpIncarnation (core : Nat) (s : State) : State :=
  if incarnationOf s core < 0xFFFF then
    { s with err := { s.err with incarnation := sset s.err.incarnation core (incarnationOf s core + 1) } }
  else if coreDead s core then s
  else recordRetired (unitId 1 core) reasonIncarnation none { s with err := { s.err with deadCores := core :: s.err.deadCores } }

/-- R453: the Pools of a core are cleared. -/
def clearPools (core : Nat) (s : State) : State :=
  { s with
    pools := sdelRange s.pools (core * 0x100000) 0x100000
    poolParity := sdelRange s.poolParity (core * 0x10000) 0x10000 }

/-- R453, R454: one role moves to the spare, whose Pools are cleared, or to the lowest in-service slot that hosts only one role. -/
def moveRole (c r : Nat) (s : State) : State :=
  match freeSpare s c with
  | some k =>
    clearPools (c * 33 + k)
      { s with err := { s.err with roleSlot := sset s.err.roleSlot (c * 32 + r) k, doubled := sdel s.err.doubled (c * 32 + r) } }
  | none =>
    match (List.range 33).find? (fun k => !coreDead s (c * 33 + k) && decide ((rolesAt s c k).length = 1)) with
    | some k =>
      { s with err := { s.err with
          roleSlot := sset s.err.roleSlot (c * 32 + r) k, doubled := sset s.err.doubled (c * 32 + r) k } }
    | none => s

/-- R454, R459: cores of a crater on the retirement list. -/
def lostCores (s : State) (c : Nat) : Nat :=
  (s.err.retired.filter (fun r => unitClass r.unit = 1 && decide (unitIndex r.unit / 33 = c))).length

/-- R22, R456: a retired crater's slots get new incarnations; its plans are re-placed under R154. -/
def applyCrater (c : Nat) (s : State) : State :=
  (List.range 33).foldl (fun x k => bumpIncarnation (c * 33 + k) x) s

/-- R453, R454: a core is gated, its incarnation incremented, its roles moved and the owner entries rewritten. -/
def applyCore (core : Nat) (s : State) : State :=
  if coreDead s core then s
  else
    let roles := rolesAt s (core / 33) (core % 33)
    let s1 := { s with err := { s.err with deadCores := core :: s.err.deadCores } }
    rewriteMaps (roles.foldl (fun x r => moveRole (core / 33) r x) (bumpIncarnation core s1))

/-- R464: the core that takes over all of a core's work, when one does. -/
def heirOf (s : State) (core : Nat) : Option (BitVec 32) :=
  let c := core / 33
  let roles := rolesAt s c (core % 33)
  let moved := roles.foldl (fun x r => moveRole c r x) { s with err := { s.err with deadCores := core :: s.err.deadCores } }
  match (roles.map (slotOfRole moved c)).dedup with
  | [k] => if k = core % 33 then none else some (unitId 1 (c * 33 + k))
  | _ => none

/-- R454: the loss of a core retires its crater: it would be the third beyond the spare. -/
def lastStraw (s : State) (core : Nat) : Bool :=
  !isRetired s (unitId 1 core) && decide (3 ≤ lostCores s (core / 33))

/-- R453: a core is declared dead between two attempts: recorded and in effect at once. -/
def retireCoreNow (core reason : Nat) (s : State) : State :=
  if lastStraw s core then applyCrater (core / 33) (recordRetired (unitId 2 (core / 33)) reason none s)
  else applyCore core (recordRetired (unitId 1 core) reason (heirOf s core) s)

/-! ## Detections and the RATE rule (R446, R452) -/

/-- R452: distinct steps, within 24 hours, in which a unit was charged; a detection outside every step counts as one
further step. -/
def rateCount (u : BitVec 32) (l : List RateMark) : Nat :=
  let mine := l.filter (fun m => m.unit = u)
  (mine.filterMap (·.step)).dedup.length + (mine.filter (fun m => m.step.isNone)).length

/-- R452: a detection is remembered for 24 hours of module time, and its unit is marked for retirement at the eighth
distinct step. -/
def chargeRate (u : BitVec 32) (step : Option (Word × Nat)) (s : State) : State :=
  let old := s.err.rate.filter (fun m => (s.time - m.time).toNat < 86400000000000)
  let rate := old ++ [{ unit := u, step := step, time := s.time }]
  { s with err := { s.err with
      rate := rate
      retiring := if 8 ≤ rateCount u rate ∧ !s.err.retiring.contains u ∧ !isRetired s u then s.err.retiring ++ [u]
        else s.err.retiring } }

/-- R446: a detection in a plan's open step, charged to a unit or to none. -/
def detect (h : Word) (u : Option (BitVec 32)) (s : State) : State :=
  let step := (planOf s h).map (fun p => (h, p.nextStep))
  let s1 := detectStep h u s
  match u with
  | some x => chargeRate x step s1
  | none => s1

/-! ## Bad sectors (R447) -/

/-- R447: what a bad sector leads to: a replay, a refetch that the reader waits for, or poison that ends the run or not. -/
inductive SectorEnd where
  | replay | refetch | poisoned | endRun
  deriving DecidableEq, Repr

/-- R447: a bad sector that a session's page holds is refetched, or takes the poison mark, which ends a run that read it as other data
than a table's. -/
def heldSector (sid va sector : Nat) (s : State) : State × SectorEnd :=
  if tableMemory s sid (va / 64 * 64) 64 then
    match outWindowAt s sid (va / 64 * 64) with
    | some w => (startRefetch w (va / 64 * 64) sector s, .refetch)
    | none => (poisonSector sector s, .poisoned)
  else (poisonSector sector s, .endRun)

end Sys2Proof.Machine
end

