-- ==== Sys2Proof/Machine/Tremor.lean ====
section
/-!
DEFINITION. The Tremor: its sources, the trigger sequence, and SNAP_ARM and SNAP_READ (R498 to R508).
-/

namespace Sys2Proof.Machine

/-! ## Islands (R484) -/

/-- The kinds of island: R484's table by number. -/
inductive IslandKind where
  | crater | vent | basin | engine | caldera | fabric | cxl | alwaysOn
  deriving DecidableEq, Repr

/-- R484: the kind of an island. -/
def islandKind (i : Nat) : IslandKind :=
  if i < 32 then .crater
  else if 44 ≤ i then .alwaysOn
  else match (i - 32) % 6 with
    | 0 => .vent
    | 1 => .basin
    | 2 => .engine
    | 3 => .caldera
    | 4 => .fabric
    | _ => .cxl

/-- R484: the die of an island; the always-on island counts to die 0. -/
def islandDie (i : Nat) : Nat := if i < 32 then i / 16 else if i < 44 then (i - 32) / 6 else 0

/-- Main rails are up. -/
def railsUp (s : State) : Bool := s.pins.pwrgdOut && (s.power.state = .active || s.power.state = .simmer)

/-- R505: the island runs at the latch: neither gated, parked, retired nor off. In SIMMER the craters and engines are
gated and the Basin clock is stopped (R465; a stopped clock has no edge to latch at: DEDUCED, log entry 19). -/
def islandPowered (s : State) (i : Nat) : Bool :=
  let up := dieUp s (islandDie i) && !(s.age.islands.getD i Island.reset).retired
  match islandKind i with
  | .alwaysOn => true
  | .crater => up && craterUp s i && s.power.state = .active
  | .basin | .engine => up && s.power.state = .active
  | _ => up

/-- R495, R537: FREQ_MHZ of an island, craters under the cap. -/
def shownMhz (s : State) (i : Nat) : Nat :=
  let f := (s.age.islands.getD i Island.reset).freqMhz
  if islandKind i = .crater then min f s.age.craterCapMhz else f

/-- R499: an island latches within so many ns of the trigger: 10 ns for the pulse and one period of its clock, which is that of the
link's reference in the fabric and CXL islands (DEDUCED, log entry 19). -/
def latchWithin (s : State) (i : Nat) : Nat :=
  10 + match islandKind i with
    | .alwaysOn => 41
    | .fabric => 7
    | .cxl => 10
    | _ => ceilDiv 1000 (max 1 (shownMhz s i))

/-- R507, R511: watchpoint `w` of a crater has hit a core: it has hit, and it watches that core's Pools. -/
def watchHitOn (s : State) (c slot w : Nat) : Bool :=
  (sget s.dbg.watches (c * 4 + w)).any (fun x =>
    x.hit && overlaps x.addr.toNat (2 ^ x.lenLog2) (0x200000000000 + (c * 33 + slot) * 0x100000) 0x100000)

/-! ## Records (R505 to R507) -/

/-- `n` bytes from the free values that follow count `c`. -/
def freeBytes (c n : Nat) : List Byte :=
  ((List.range (ceilDiv n 8)).flatMap (fun k => natLE (Config.freeValue (c + k)).toNat 8)).take n

/-- R506: body bytes of an island's record. -/
def bodyLen (i : Nat) : Nat :=
  match islandKind i with
  | .crater => 2176
  | .vent => 1536
  | .basin => 256
  | .engine => 1024
  | .caldera => 512
  | .fabric => 768
  | .cxl => 256
  | .alwaysOn => 128

/-- R507: a core section. What the core was doing is not resolved between two commands, and stands as free values. -/
def coreSection (s : State) (c0 c slot : Nat) : List Byte :=
  let free (k : Nat) : Nat := (Config.freeValue (c0 + k)).toNat
  let roles := rolesAt s c slot
  record 64 [(0, free 0), (64, free 1), (128, free 2 % 2 ^ 16), (144, free 3 % 2 ^ 14),
    (158, bitOf (bit ((sget s.dbg.halted c).getD 0) slot)), (159, free 4 % 2), (160, slot),
    (166, roles.headD 0), (171, bitOf roles.isEmpty), (176, incarnationOf s (c * 33 + slot)),
    (192, free 5 % 2 ^ 32), (224, free 6 % 2 ^ 32), (256, free 7 % 2 ^ 8),
    (264, ((List.range 4).map (fun w => bitOf (watchHitOn s c slot w) <<< w)).sum)]

/-- R506: the body of an island's record; where the manual gives contents but no layout, the bytes are free. -/
def islandBody (s : State) (c0 i : Nat) : List Byte :=
  if i < 32 then (List.range 33).flatMap (fun k => coreSection s (c0 + 8 * k) i k) ++ freeBytes (c0 + 264) 64
  else freeBytes c0 (bodyLen i)

/-- What an island latches (R499 step 3, R505); which edge of its clock it is that comes first is free. -/
def latchIsland (s : State) (c0 : Nat) (mask : BitVec 45) (i : Nat) : IslandSnap :=
  if !bit mask i then { rstate := 2, localCycle := 0, latchTime := 0, freqMhz := 0, body := [] }
  else if !islandPowered s i then { rstate := 1, localCycle := 0, latchTime := 0, freqMhz := 0, body := [] }
  else
    { rstate := 0, localCycle := Config.freeValue (c0 + 400 * i),
      latchTime := s.time + BitVec.ofNat 64 ((Config.freeValue (c0 + 400 * i + 399)).toNat % (latchWithin s i + 1)),
      freqMhz := shownMhz s i, body := islandBody s (c0 + 400 * i + 1) i }

/-! ## The trigger (R498 to R500) -/

/-- R499: the trigger runs to its end: every island of the mask latches or is recorded NOT_POWERED, and it is reported. -/
def latchAll (src : BitVec 6) (s : State) : State :=
  let t := s.tremor
  let snaps := (List.range 45).map (latchIsland s s.freeCount t.arm.islandMask)
  let latched := (snaps.zipIdx.map (fun (x, i) => bitOf (x.rstate = 0) <<< i)).sum
  let t1 := { t with
    state := .latched, source := src, seq := t.seq + 1, triggerTime := s.time, latched := BitVec.ofNat 45 latched,
    read := 0, snaps := snaps, trigOut := if t.arm.trigOutEn then t.trigOut + 1 else t.trigOut }
  raiseUp evSnapLatched
    (postEvent .snapReady t1.seq.toNat t1.triggerTime.toNat src.toNat (takeFresh (400 * 45) { s with tremor := t1 }))

/-- R498, R500: sources assert: an enabled one fires the armed trigger, or is counted in MISSED while a snapshot is
held. The unit is off without its rails. -/
def fire (src : BitVec 6) (s : State) : State :=
  let on := src &&& s.tremor.arm.sources
  if !railsUp s ∨ on = 0 then s
  else match s.tremor.state with
    | .armed => latchAll on s
    | .latching | .latched => { s with tremor := { s.tremor with missed := s.tremor.missed + 1 } }
    | .idle => s

/-- R500: the snapshot is let go: no record is held, and the unit is ARMED or IDLE. -/
def releaseSnap (t : TremorUnit) : TremorUnit :=
  { t with
    state := if t.arm.autoRearm then .armed else .idle, latched := 0, read := 0, snaps := TremorUnit.reset.snaps }

/-! ## SNAP_ARM and SNAP_READ -/

/-- R503: the arming record of a payload. -/
def armOf (b : List Byte) : ArmRecord where
  sources := BitVec.ofNat 6 (field b 0 6)
  trigOutEn := field b 8 1 = 1
  trigInFalling := field b 9 1 = 1
  autoRearm := field b 10 1 = 1
  eventCounter := field b 12 1 = 1
  counterExt := field b 13 1 = 1
  statusValue := BitVec.ofNat 8 (field b 16 8)
  counterId := BitVec.ofNat 16 (field b 32 16)
  opIndex := BitVec.ofNat 32 (field b 64 32)
  plan := BitVec.ofNat 64 (field b 128 64)
  threshold := BitVec.ofNat 64 (field b 192 64)
  fireTime := BitVec.ofNat 64 (field b 256 64)
  islandMask := if field b 320 45 = 0 then BitVec.allOnes 45 else BitVec.ofNat 45 (field b 320 45)

/-- R503: a reserved field of an arming record is not zero. -/
def armReservedBad (b : List Byte) : Bool :=
  field b 6 2 ≠ 0 || field b 14 2 ≠ 0 || field b 24 8 ≠ 0 || field b 48 16 ≠ 0 || field b 96 32 ≠ 0 || field b 365 147 ≠ 0

/-- R503: the first condition that a SNAP_ARM fails. -/
def snapArmCheck (s : State) (b : List Byte) : Option Status :=
  let a := armOf b
  if b.length ≠ 64 ∨ armReservedBad b ∨ (a.eventCounter ∧ a.plan = 0) then some .badPacket
  else if bit a.sources 5 ∧ a.fireTime.toNat < s.time.toNat + 10000 then some .limit
  else if a.plan ≠ 0 ∧ planOf s a.plan = none then some .access
  else if s.tremor.state = .latching ∨ (s.tremor.state = .latched ∧ field b 11 1 = 0) then some .busy
  else none

/-- SNAP_ARM (R503): the record is taken; under IMMEDIATE the trigger fires at once. -/
def snapArmBody (r : CmdRef) (c : Chain) (s : State) : State :=
  match snapArmCheck s c.payload with
  | some st => complete r (replyOf st) s
  | none =>
    let t := if s.tremor.state = .latched then releaseSnap s.tremor else s.tremor
    let s1 := { s with tremor := { t with state := .armed, arm := armOf c.payload } }
    complete r (replyOf .done) (fire (1 : BitVec 6) s1)

/-- R504: the code of the trigger unit's state. -/
def tremorCode : TremorState → Nat
  | .idle => 0
  | .armed => 1
  | .latching => 2
  | .latched => 3

/-- R504: the summary record. -/
def snapSummary (t : TremorUnit) : List Byte :=
  record 64 [(0, tremorCode t.state), (8, t.source.toNat), (32, t.seq.toNat), (64, t.triggerTime.toNat),
    (128, t.latched.toNat), (192, t.read.toNat), (256, t.missed.toNat)]

/-- R505: an island's record. -/
def snapRecord (t : TremorUnit) (i : Nat) : List Byte :=
  let x := t.snaps.getD i { rstate := 3, localCycle := 0, latchTime := 0, freqMhz := 0, body := [] }
  record 64 [(0, i), (8, x.rstate), (16, x.body.length), (32, t.seq.toNat), (64, x.localCycle.toNat),
    (128, x.latchTime.toNat), (192, t.triggerTime.toNat), (256, x.freqMhz)] ++ x.body

/-- R500, R504: the island has been read; with the last latched one the snapshot is let go. -/
def markRead (i : Nat) (t : TremorUnit) : TremorUnit :=
  let t1 := { t with read := setBit t.read i }
  if t1.state = .latched ∧ t1.latched &&& ~~~ t1.read = 0 then releaseSnap t1 else t1

/-- SNAP_READ (R504). -/
def snapReadBody (r : CmdRef) (c : Chain) (s : State) : State :=
  let i := parBits c 0 7 0
  if i = 0xFF then complete r (replyData (snapSummary s.tremor)) s
  else if 45 ≤ i then complete r (replyOf .badPacket) s
  else complete r (replyData (snapRecord s.tremor i)) { s with tremor := markRead i s.tremor }

def snapArmRule : CommandRule := { plainRule 0x00A0 with adminOnly := true }
def snapReadRule : CommandRule := { plainRule 0x00A1 with adminOnly := true, whenFenced := true, used := [0xFF] }

/-- SNAP_ARM (R503). -/
def execSnapArm (r : RingId) (p : Packet) (s : State) : Host.Outcome State Fault Refusal :=
  .next (hostCommand r snapArmRule snapArmBody p s)

/-- SNAP_READ (R504). -/
def execSnapRead (r : RingId) (p : Packet) (s : State) : Host.Outcome State Fault Refusal :=
  .next (hostCommand r snapReadRule snapReadBody p s)

/-! ## Sources outside the command rings -/

/-- R498 bit 1, R56. -/
def srcRegister : BitVec 6 := 0x02
/-- R498 bit 2. -/
def srcTrigIn : BitVec 6 := 0x04
/-- R498 bit 3. -/
def srcDebug : BitVec 6 := 0x08
/-- R498 bit 4. -/
def srcEvent : BitVec 6 := 0x10
/-- R498 bit 5. -/
def srcScheduled : BitVec 6 := 0x20

/-- TRIG_IN (R498): the selected edge fires. -/
def execTrigIn (falling : Bool) (s : State) : Host.Outcome State Fault Refusal :=
  .next (if falling = s.tremor.arm.trigInFalling ∧ s.dbg.pinsTaken = 0 then fire srcTrigIn s else s)

/-- R501: the counter that the arming record selects, of the plan's run. -/
def armedCounter (s : State) : Option Nat :=
  let a := s.tremor.arm
  ((planOf s a.plan).bind (·.run)).bind (fun r =>
    if a.counterExt then
      some (((r.counters.ext.find? (fun e => e.1 = (a.opIndex.toNat, a.counterId.toNat))).map (·.2)).getD 0)
    else
      [r.committedSteps, r.lastStep, r.counters.idxDropped, r.counters.rowsPoisoned, r.counters.samplesRejected,
        r.counters.nanCount, r.counters.staleDrops, r.replays][a.counterId.toNat]?)

/-- R501: the armed condition holds; `status` is the status firmware has just written and its plan. -/
def eventHolds (s : State) (status : Option (BitVec 8 × Word)) : Bool :=
  let a := s.tremor.arm
  if a.eventCounter then (armedCounter s).any (fun n => decide (a.threshold.toNat ≤ n))
  else status.any (fun x => x.1 = a.statusValue && (a.plan = 0 || a.plan = x.2))

/-- EVENT_CONDITION (R501): firmware evaluates it, so it must run. -/
def execEventCondition (status : Option (BitVec 8 × Word)) (s : State) : Host.Outcome State Fault Refusal :=
  .next (if fwRunning s && s.tremor.state = .armed && eventHolds s status then fire srcEvent s else s)

/-- SCHEDULED_FIRE (R498, R502): module time has reached FIRE_TIME while the unit is armed with SCHEDULED; the row asserts
that the time has passed, so module time stands there at least. It is reached once: a unit armed again by AUTO_REARM after that time does
not fire on it. -/
def execScheduledFire (s : State) : Host.Outcome State Fault Refusal :=
  let a := s.tremor.arm
  .next (if s.tremor.state = .armed ∧ bit a.sources 5 ∧ s.tremor.triggerTime.toNat < a.fireTime.toNat then
    fire srcScheduled { s with time := if s.time.toNat < a.fireTime.toNat then a.fireTime else s.time }
    else s)

end Sys2Proof.Machine
end

