-- ==== Sys2Proof/Machine/BootOps.lean ====
section
/-!
DEFINITION. Reset and boot: what a reset drops, the stages of R519 with the failures of R520, recovery entry, island
re-planning, and the warm reset (R62, R63, R69, R490, R493, R518 to R530).
-/

namespace Sys2Proof.Machine

/-! ## Ports (R43, R69) -/

/-- R529: the configuration in use lets a CXL port train. -/
def cxlEnabled (s : State) (p : Nat) : Bool := bit s.boot.config.cxlEn p

/-- R456: a retired CXL port carries no rings. -/
def cxlRetired (s : State) (p : Nat) : Bool := isRetired s (unitId 11 p)

/-- R69 step 5, R63, R476: the rings of a port open when the link is up at a service point; ring 0 is enabled if it was
not. The admin ring's completion ring comes with ADMIN_SETUP (R78). -/
def openPort (q : Port) : Port :=
  if q.linkUp ∧ servicePoint q.width q.rate then
    { onRing 0 (fun r => if r.enabled then r else { Ring.reset with enabled := true }) q with ringsOpen := true }
  else q

/-- Ports that can serve open their admin rings (R69 step 5); a port on a lost die stays closed (R458). -/
def openPorts (s : State) : State :=
  { s with ports := s.ports.zipIdx.map (fun (q, p) => if dieUp s p ∧ !cxlRetired s p then openPort q else q) }

/-- Every ring of a port is disabled and its rings are closed. -/
def closePort (q : Port) : Port :=
  { q with rings := List.replicate 64 Ring.reset, ringsOpen := false, lastServed := 0 }

/-- R69 step 1: the link trains when PERST is released, PWRGD_OUT is high, REFCLK is stable and CXL_EN allows it. -/
def startTraining (p : Nat) (s : State) : State :=
  onPort p
    (fun q => if s.dbg.pinsTaken = 0 ∧ !q.perst ∧ q.refclk ∧ s.pins.pwrgdOut ∧ cxlEnabled s p ∧ !q.linkUp ∧ s.power.state ≠ .dormant
      then { q with training := true } else q) s

/-- The link goes down: its configuration space comes back at its defaults (R476). -/
def linkDown (q : Port) : Port :=
  { q with
    training := false, linkUp := false, width := 0, rate := 0, memEnable := false, busMaster := false,
    uioEnable := false, bar0 := 0, bar2 := 0, mps := 0, mrrs := 2, msixEnable := false, msixFuncMask := false, ringsOpen := false }

/-! ## Islands (R484, R489, R490) -/

/-- R484: the nominal clock of an island; 0 where it comes from a link or the RC oscillator (R495). -/
def nominalMhz (i : Nat) : Nat :=
  match islandKind i with
  | .crater | .basin => 850
  | .vent | .caldera => 1000
  | .engine => 1200
  | _ => 0

/-- R484: the floor of an island's range. -/
def floorMhz (i : Nat) : Nat :=
  match islandKind i with
  | .crater => 700
  | .basin => 775
  | .vent | .caldera => 900
  | .engine => 1100
  | _ => 0

/-- R489: the lowest rail voltage of an island in mV; 0 without a rail. -/
def railFloor (i : Nat) : Nat :=
  match islandKind i with
  | .crater => 650
  | .vent | .basin | .engine | .caldera => 700
  | _ => 0

/-- The island has a rail of R489. -/
def hasRail (i : Nat) : Bool := railFloor i ≠ 0

/-- The state with an island changed. -/
def onIsland (i : Nat) (f : Island → Island) (s : State) : State :=
  { s with age := { s.age with islands := modAt s.age.islands i f } }

/-- R493: the units that the retirement of an island takes in. -/
def islandUnits (i : Nat) : List (BitVec 32) :=
  let d := islandDie i
  match islandKind i with
  | .crater => [unitId 2 i]
  | .vent | .caldera => [unitId 13 d]
  | .basin => (List.range' (d * 16) 16).map (unitId 4)
  | .engine =>
    unitId 7 d :: (List.range' (d * 4) 4).map (unitId 6) ++ (List.range' (d * 8) 8).map (unitId 5) ++
      (List.range' (d * 32) 32).map (unitId 8)
  | _ => []

/-- R490: the island takes part in a re-plan: it is neither retired nor parked, and its die is in service. -/
def replans (s : State) (i : Nat) : Bool :=
  hasRail i && dieUp s (islandDie i) && !(s.age.islands.getD i Island.reset).retired &&
    !(islandKind i = .crater && (isRetired s (unitId 2 i) || bit s.power.parked i))

/-- R490: the operating point is one that the search can end at: on the 25 MHz and 5 mV grids, within the ranges. -/
def pointOk (i : Nat) (pt : Nat × Nat) : Bool :=
  decide (floorMhz i ≤ pt.1 ∧ pt.1 ≤ nominalMhz i ∧ (nominalMhz i - pt.1) % 25 = 0 ∧
    railFloor i ≤ pt.2 ∧ pt.2 ≤ 800 ∧ pt.2 % 5 = 0)

/-! ## What a reset drops (R62 steps 1 and 2, R477) -/

/-- Sessions, plans, tables and everything held for them are gone, with the contents of Pools and staging. -/
def dropObjects (s : State) : State :=
  { s with
    sessions := [], xlate := [], plans := [], tables := [], rowDir := [], contexts := []
    taps := List.replicate 64 Tap.reset
    basin := BasinUnit.reset
    owner := OwnerUnit.reset
    staging := [], pools := [], poolParity := [] }

/-- R412, R435: the fabric unit and the pair are as after boot; cables and units out of service stay as they are. -/
def dropFabric (s : State) : State :=
  { s with
    fabric := { FabricUnit.reset with
      ports := s.fabric.ports.map (fun q => { FabricPort.reset with cable := q.cable, outOfService := q.outOfService }) }
    twin := TwinUnit.reset }

/-- R513, R515: the level drops to LOCKED, a new boot nonce is drawn, and every halt, watchpoint and breakpoint clears. -/
def dropDebug (s : State) : State :=
  takeFresh 1 { s with
    dbg := { s.dbg with
      level := .locked, bootNonce := freshValue s,
      harts := DebugUnit.reset.harts, haltReq := [], halted := [], stepping := [], resumed := [], watches := [], breakpoints := [] } }

/-- R13, R22, R459: roles and incarnations at boot: every slot holds its own role at incarnation 1, and the roles of
retired cores move to their spares. Restored units are in service again. -/
def bootUnits (s : State) : State :=
  let kept := s.err.retired.filter (fun r => !r.restoring)
  let dead := (kept.filter (fun r => unitClass r.unit = 1)).map (fun r => unitIndex r.unit)
  let s1 := { s with err := { ErrorUnit.reset with retired := kept, deadCores := dead } }
  dead.foldl (fun x core => (rolesAt x (core / 33) (core % 33)).foldl (fun y r => moveRole (core / 33) r y) x) s1

/-- R481, R482: the power record after a boot; DORMANT_ENTRIES counts since cold boot. -/
def bootPower (cold : Bool) (s : State) : State :=
  { s with power := { PowerUnit.reset with
      state := .active, dormantEntries := if cold then 0 else s.power.dormantEntries
      savedFrom := s.power.savedFrom, savedOver := s.power.savedOver } }

/-- R498, R504: the trigger unit after a boot; SEQ counts since cold boot. -/
def bootTremor (cold : Bool) (s : State) : State :=
  { s with tremor := { TremorUnit.reset with
      seq := if cold then 0 else s.tremor.seq, trigOut := s.tremor.trigOut } }

/-- R62 steps 1 and 2: everything that does not outlive a reset. -/
def dropWork (cold : Bool) (s : State) : State :=
  bootTremor cold (bootPower cold (dropDebug (dropFabric (dropObjects (bootUnits (onPorts (fun q => { closePort q with eventsLost := 0 }) s))))))

/-! ## Boot (R519, R520) -/

/-- BOOT_ERROR records a failure (R59, R520); a later one of the same boot replaces it (DEDUCED, log entry 20). -/
def noteError (stage : BootStage) (st : Status) (detail : Nat) (s : State) : State :=
  { s with boot := { s.boot with errStage := stage, errStatus := some st, errDetail := BitVec.ofNat 32 detail } }

/-- R520, R549: the boot fails: BOOT_PHASE reads FAILED and FAULT_N is asserted. -/
def failBoot (stage : BootStage) (st : Status) (detail : Nat) (s : State) : State :=
  let s1 := noteError stage st detail s
  { onPorts (fun q => { q with ringsOpen := false }) s1 with
    boot := { s1.boot with phase := .failed, stage := stage, fwAlive := false }
    pins := { s1.pins with fault := if s1.pins.fault = 0 then 4 else s1.pins.fault } }

/-- R54, R63, R528: the boot ROM waits for an image: ring 0 of each port serves the transfer, the twin links train, and HOST_EVENT
tells of the recovery entry, RESET_DONE of one from any boot (DEDUCED, log entry 92). -/
def enterRecovery (s : State) : State :=
  let c := s.boot.config
  let links := [c.twinLink0, c.twinLink1]
  let s1 := { s with
    boot := { s.boot with
      phase := .recovery, stage := .recoveryWait, fwAlive := false, recoverySource := 0, recoveryBytes := [] }
    fabric := { s.fabric with
      ports := s.fabric.ports.zipIdx.map (fun (q, n) =>
        if links.contains n ∧ q.cable ∧ !q.outOfService then { q with enabled := true, state := .training } else q) } }
  raiseAll evResetDone (raiseAll evRecovery (openPorts s1))

/-- R531: the signer rule: vendor-signed while no owner is enrolled, owner-signed while that owner is. -/
def signerAllowed (n : Nor) (c : ConfigRecord) : Bool :=
  if c.vendorSigned then n.ownerKey.isNone else n.ownerKey = some c.signerKey

/-- R530: the record in use: the valid copy with the higher SEQUENCE. -/
def chooseConfig (n : Nor) : Option ConfigRecord :=
  match n.copyA.filter (signerAllowed n), n.copyB.filter (signerAllowed n) with
  | some a, some b => if a.sequence.toNat < b.sequence.toNat then some b else some a
  | some a, none => some a
  | none, b => b

/-- The die is on the retirement list, die 1 also through the die bridge (R458). -/
def dieRetired (s : State) (d : Nat) : Bool := isRetired s (unitId 13 d) || (d = 1 && isRetired s (unitId 12 0))

/-- R517: the image in the NOR's image area; what the factory programs there is not fixed by the manual. -/
def storedImage (n : Nor) : List Byte := if n.image = [] then Config.factoryImage else n.image

/-- R524: the header of the image in the NOR. -/
def storedHeader (n : Nor) : List Byte := slice (storedImage n) 0 256

/-- R525 order 1: the shape of an image. -/
def imageShapeBad (b : List Byte) : Bool :=
  let body := field b 128 32
  b.length < 8192 || field b 0 32 ≠ 0x4D49465A || field b 32 8 ≠ 1 || field b 80 48 ≠ 0 || field b 608 1440 ≠ 0 ||
    (slice b 6032 2160).any (· ≠ 0) || body > 16769024 || b.length < 8192 + body ||
    field b 192 32 > 2097152 || field b 256 32 > 2097152 ||
    field b 160 32 + field b 192 32 > body || field b 224 32 + field b 256 32 > body

/-- R525 order 3: root key, certificate and image signature. -/
def imageSigned (b : List Byte) : Bool :=
  let root := slice b 256 68
  let signing := slice b 324 68
  decide (shake256 root = shake256 Config.rootPk) && Config.xmssVerify root signing (slice b 392 2820) &&
    Config.xmssVerify signing (slice b 0 256) (slice b 3212 2820)

/-- R525: the first check that an image fails, under a configuration's MIN_SVN. -/
def imageCheck (minSvn : Nat) (b : List Byte) : Option Status :=
  if imageShapeBad b then some .badPacket
  else if field b 40 8 ≠ 1 ∨ field b 60 4 ≠ 1 then some .unsupported
  else if !imageSigned b then some .access
  else if field b 64 16 < minSvn then some .access
  else if shake256 (slice b 8192 (field b 128 32)) ≠ slice b 44 32 then some .checkMismatch
  else none

/-- R525: the status of a check, by its order. -/
def imageStatus (order : Nat) : Status :=
  match order with
  | 1 => .badPacket
  | 2 => .unsupported
  | 5 => .checkMismatch
  | _ => .access

/-- R525, R528: why the stored image does not boot, if it does not. The factory's image passes every check but that of its SVN. -/
def storedImageFails (s : State) : Option Status :=
  if s.boot.nor.image = [] then
    (if s.boot.config.minSvn = 0 || decide (s.boot.config.minSvn ≤ field (storedHeader s.boot.nor) 64 16) then none else some .access)
  else imageCheck s.boot.config.minSvn s.boot.nor.image

/-- R520: the NOR as the module can use it: records that failed their signature at boot are not there. -/
def norInUse (b : BootUnit) : Nor :=
  { b.nor with
    ownerKey := if bit b.norBad 0 then none else b.nor.ownerKey
    copyA := if bit b.norBad 1 then none else b.nor.copyA
    copyB := if bit b.norBad 2 then none else b.nor.copyB }

/-- R519 step 3: the owner record is verified, the configuration in use is chosen (R518, R530), and BOOT_ERROR tells when the owner record
fails or no copy is valid (R520). -/
def verifyConfig (bad : BitVec 3) (s0 : State) : State :=
  let s1 := { s0 with boot := { s0.boot with norBad := bad } }
  let s := if bit bad 0 ∧ s1.boot.nor.ownerKey.isSome then noteError .imageVerify .checkMismatch 2 s1 else s1
  let set (c : ConfigRecord) (safe : Bool) : State :=
    { s with boot := { s.boot with
        phase := .imageLoad, stage := .imageVerify, config := c, configSafe := safe, configValid := !safe } }
  if s.boot.bootMode = 2 then set ConfigRecord.safe true
  else match chooseConfig (norInUse s.boot) with
    | some c => set c false
    | none => noteError .imageVerify .checkMismatch 3 (set ConfigRecord.safe true)

/-- R519 steps 1 and 2: registers at their boot values, the boot mode sampled, the retirement list read. BOOT_ERROR tells
of a brown-out that this boot follows (R477, R479, R546). -/
def startRom (b : BootInputs) (s : State) : State :=
  { s with
    boot := { s.boot with
      phase := .rom, stage := .romStart, bootMode := b.bootMode, errStage := .romStart,
      errStatus := s.pins.brownDetail.map (fun _ => .brownout), errDetail := BitVec.ofNat 32 (s.pins.brownDetail.getD 0),
      configValid := false, imageValid := false, die0Up := false, die1Up := false, oneDie := false,
      leadDie := if dieRetired s 0 then 1 else 0, resetTime := s.time, heartbeat := 0, heartbeatTime := s.time,
      fwAlive := false, fwStalled := false, resetting := none, config := ConfigRecord.safe, configSafe := true, staged := none, fwRelease := 0, svn := 0,
      header := [], recoverySource := 0, recoveryBytes := [] }
    pins := { s.pins with brownDetail := none } }

/-- R523: the next one-time index at boot. -/
def bootIndex (b : BootUnit) : Nat :=
  let upto := b.nor.journal.headD 0
  if !bit b.aonFlags aonBrownout ∧ b.nextIndex ≤ upto then b.nextIndex else upto

/-- R519 steps 4 to 6: firmware runs on the leading die and the other joins, and the interleave is formed without the
positions that are retired or fail training (R457, R520). The reason of a training failure is not given: TEST stands for
it (DESIGN CHOICE, log entry 21). -/
def trainMemory (b : BootInputs) (s : State) : State :=
  let bad := b.badPositions.filter (fun p => decide (p < 12) && !isRetired s (unitId 3 p) && dieUp s (p / 6))
  let s1 := bad.foldl
    (fun x p => noteError .memTrain .internal (6 + p <<< 8)
      { x with err := { x.err with retired := listRetired (unitId 3 p) reasonTest x.time x.err.retired } }) s
  { s1 with boot := { s1.boot with phase := .fwInit, badAtReset := retiredPositions s1 } }

/-- R490: what a re-plan measured is put to use: the operating point, at once for islands that no running plan uses, and
otherwise at the next boundary or when a power transition has ended (R492). -/
def planIsland (i : Nat) (pt : Nat × Nat) (s : State) : State :=
  let busy := s.power.transition.isSome || s.plans.any (fun p => isRunning p && (islandKind i ≠ .crater || p.craters.any (·.contains i)))
  onIsland i
    (fun x =>
      if x.freqMhz = pt.1 then { x with voltMv := pt.2, pendingPoint := none }
      else if busy then { x with pendingPoint := some pt }
      else { x with freqMhz := pt.1, voltMv := pt.2, pendingPoint := none }) s

/-- R490 at boot: measured points are taken; islands that the boot leaves unmeasured keep their point, or start at their
nominal clock with the rail at its maximum (DESIGN CHOICE, log entry 17). Islands with no point are retired (R493). -/
def bootReplan (b : BootInputs) (s : State) : State :=
  let fresh := (List.range 45).foldl
    (fun x i => onIsland i (fun q =>
      if hasRail i ∧ q.freqMhz = 0 then { q with freqMhz := nominalMhz i, voltMv := 800 } else q) x) s
  let s1 := b.islands.foldl
    (fun x e =>
      if !replans x e.island then x
      else match e.point with
        | some pt => if pointOk e.island pt then planIsland e.island pt x else x
        | none =>
          (islandUnits e.island).foldl
            (fun y u => { y with err := { y.err with retired := listRetired u reasonMargin y.time y.err.retired } })
            (onIsland e.island (fun q => { q with retired := true }) x)) fresh
  { s1 with age := { s1.age with
    lastReplan := s1.time, nextReplan := s1.time + 86400000000000, craterCapMhz := 850, pendingCap := none,
    pacing := 0 } }

/-- R395: the head of the cascade sends 1,024 SYNC words. -/
def headSync (s : State) : State :=
  if s.pins.cascPos ≠ 0 then s
  else { s with basin := { s.basin with cascade := { s.basin.cascade with syncOut := s.basin.cascade.syncOut + 1024 } } }

/-- R519 step 8: BOOT_PHASE reads RUNNING, the admin rings open, and HOST_EVENT tells (R62 step 4). -/
def finishBoot (afterReset : Bool) (s : State) : State :=
  let h := storedHeader s.boot.nor
  let s1 := { s with
    near := []
    err := { s.err with poison := [] }
    boot := { s.boot with
      phase := .running, stage := .running, heartbeat := 0, heartbeatTime := s.time,
      fwRelease := BitVec.ofNat 8 (field h 48 8), svn := field h 64 16, header := h, nextIndex := bootIndex s.boot,
      bucket := 4, bucketTime := s.time } }
  let s2 := raiseAll evBootDone (openPorts (headSync s1))
  if afterReset then raiseAll evResetDone s2 else s2

/-- R519: the boot from stage ROM_START to RUNNING, or to FAILED or RECOVERY_WAIT under R518 and R520. A die that the
boot re-plan retires makes the module boot again (R458, R493); `fuel` bounds that. -/
def runBoot (afterReset : Bool) : Nat → BootInputs → State → State
  | 0, _, s => s
  | fuel + 1, b, s =>
    let s0 := startRom b s
    if b.bootMode = 3 then failBoot .romStart .unsupported 0 s0
    else if bit s0.boot.aonFlags aonBrownout ∧ !b.pufOk then failBoot .puf .internal 1 s0
    else if b.bootMode = 1 then enterRecovery s0
    else
      let s1 := verifyConfig b.norBad s0
      let lost := dieRetired s1 0 || dieRetired s1 1
      if lost ∧ !s1.boot.config.oneDieGrant then failBoot .imageVerify .internal 7 s1
      else match (b.imageBad.map imageStatus).orElse (fun _ => storedImageFails s1) with
        | some st => enterRecovery (noteError .imageVerify st 4 s1)
        | none =>
          let lead := s1.boot.leadDie
          let up (d : Nat) (x : State) : State :=
            { x with boot := if d = 0 then { x.boot with die0Up := true } else { x.boot with die1Up := true } }
          let s2 := up lead { s1 with boot := { s1.boot with imageValid := true, stage := .fwLoad } }
          if !lost ∧ !b.die1Joins ∧ !s2.boot.config.oneDieGrant then failBoot .die1Join .internal 5 s2
          else
            let alone : Bool := lost || !b.die1Joins
            let s3 := if lost then s2 else if b.die1Joins then up (1 - lead) s2 else noteError .die1Join .internal 5 s2
            let s4 := bootReplan b (trainMemory b { s3 with boot := { s3.boot with oneDie := alone } })
            if (dieRetired s4 0 || dieRetired s4 1) ∧ !lost then runBoot afterReset fuel b s4
            else finishBoot afterReset s4

/-- R62: a warm reset as a boot meets it. WATCHDOG is set when it was accepted while FW_ALIVE was 0 (R60). -/
def warmReset (b : BootInputs) (s : State) : State :=
  let s1 := if s.boot.fwAlive then s else setAon aonWatchdog s
  runBoot true 3 b (setAon aonWarmReset (dropWork false s1))

/-- R63: recovery entry on command: steps 1 and 2 of the warm reset, then RECOVERY_WAIT without a look at the image. -/
def recoveryReset (b : BootInputs) (s : State) : State :=
  let s1 := startRom b (dropWork false s)
  enterRecovery (setAon aonRecoveryReq s1)

/-- R55, R62, R63: one reset, WARM or RECOVERY, which takes up the present instant. -/
def resetModule (recovery : Bool) (b : BootInputs) (s : State) : State :=
  let s1 := if recovery then recoveryReset b s else warmReset b s
  { s1 with boot := { s1.boot with resetting := some recovery } }

/-- R61: a reset that arrives during a power transition is held until it ends; RECOVERY wins over WARM (R55, R549). -/
def requestReset (recovery : Bool) (b : BootInputs) (s : State) : State :=
  if s.power.transition.isSome then
    { s with power := { s.power with
        heldReset := some (recovery || ((s.power.heldReset.map (·.1)).getD false), b) } }
  else resetModule recovery b s

/-- What a reset meets that no command gives: the straps as sampled last, and nothing failing but the records of the
NOR that failed last (DESIGN CHOICE, log entry 22). -/
def bootInputsNow (s : State) : BootInputs where
  bootMode := s.boot.bootMode
  twinSide := s.pins.twinSide
  cascPos := s.pins.cascPos
  pufOk := true
  die1Joins := true
  badPositions := []
  wakeFault := none
  islands := []
  norBad := s.boot.norBad
  imageBad := none

end Sys2Proof.Machine
end

