-- ==== Sys2Proof/Machine/Power.lean ====
section
/-!
DEFINITION. Power states: POWER_SET and its transitions, refusals and rollbacks, DORMANT and COLD entry, waking, crater
parking and POWER_QUERY (R465 to R483).
-/

namespace Sys2Proof.Machine

/-! ## Refusals (R468, R470) -/

/-- A refusal: the reason, the block, and the number of groups that had stopped. -/
structure Refuse where
  reason : RefuseReason
  block : BitVec 32
  stopped : Nat
  deriving DecidableEq, Repr

/-- R468: the block ID of a session in a PLAN_ACTIVE refusal, and of the twin. -/
def planBlock (sid : Nat) : BitVec 32 := BitVec.ofNat 32 (0x00FE0000 + sid)
def twinBlock : BitVec 32 := 0x00FF0000

/-- The lowest handle among plans that meet a test. -/
def lowestPlan (s : State) (test : Plan → Bool) : Option Plan :=
  ((s.plans.filter test).map (·.handle.toNat)).min?.bind (fun h => s.plans.find? (fun p => p.handle.toNat = h))

/-- R470: what is checked before anything stops. No test outlives its command in the model, so TEST_ACTIVE does not
arise. -/
def preCheck (s : State) (target : PowerState) : Option Refuse :=
  let deep : Bool := target = .dormant || target = .cold
  match lowestPlan s (fun p => if deep then isLive p else isRunning p) with
  | some p => some { reason := .planActive, block := planBlock p.session, stopped := 0 }
  | none =>
    if deep ∧ s.twin.state ≠ .unpaired then some { reason := .paired, block := twinBlock, stopped := 0 } else none

/-- R468: the Pumice engine of a held slot; which lane took the frame is free (R238), so the engine of the die is. -/
def slotEngine (s : State) (c : CtxHolder) : BitVec 32 := unitId 6 (c.die * 4 + (freshValue s).toNat % 4)

/-- R468 FLOWS_OPEN: the port of an open flow of a plan's open step. -/
def openFlowPort (s : State) : Option (BitVec 32) :=
  if s.plans.any (fun p => p.bin.fabricRanks > 1 && ((p.run.bind (·.openStep)).isSome)) then
    (s.fabric.flowsOut.find? (fun f => decide (f.acked < f.nextSeq))).map (fun f =>
      let adapt := bits ((sget s.fabric.routes f.dest).getD 0) 5 0
      unitId 9 (((List.range 6).find? (fun n => adapt.testBit n)).getD 0))
  else none

/-- R468 UNDRAINED: the position of a row block whose migration is still under way. -/
def undrained (s : State) : Option (BitVec 32) :=
  (s.tables.findSome? (fun t => t.migrations.head?.map (fun m => (t, m)))).map (fun (t, m) =>
    match (sessionPieces s t.session needNothing (storageVa t m.slot m.block) 1).bind List.head? with
    | some pc => unitId 3 (positionOf s pc.1)
    | none => unitId 3 0)

/-- R470: the first block that refuses its sleep request. -/
def groupRefusal (s : State) (target : PowerState) : Option Refuse :=
  match s.contexts.find? (fun c => c.slot.isSome), openFlowPort s, undrained s with
  | some c, _, _ => some { reason := .contextHeld, block := slotEngine s c, stopped := 2 }
  | none, some u, _ => some { reason := .flowsOpen, block := u, stopped := 4 }
  | none, none, u =>
    if target = .simmer then
      (if mirrorLag s > 0 then some { reason := .mirrorLag, block := twinBlock, stopped := 5 } else none)
    else u.map (fun x => { reason := .undrained, block := x, stopped := 6 })

/-! ## Ends of a transition (R467, R471, R483) -/

/-- R483: POWER_DONE. -/
def powerDone (reached from_ target : PowerState) (refused : Option Refuse) (s : State) : State :=
  raiseUp evPowerChange
    (postEvent .powerDone (powerCode reached)
      (powerCode from_ + powerCode target <<< 2 + bitOf refused.isSome <<< 4 +
        (refused.map (fun f => refuseCode f.reason)).getD 0 <<< 8)
      ((refused.map (fun f => f.block.toNat)).getD 0 + s.power.lastWake <<< 32) s)

/-- R467: the reply of a refusal. -/
def refuseReply (f : Refuse) : Reply :=
  { status := .refused, count0 := f.block.toNat, count1 := refuseCode f.reason + f.stopped <<< 8, payload := [] }

/-- R482: a refusal is remembered. -/
def noteRefusal (f : Refuse) (s : State) : State :=
  { s with power := { s.power with
      lastResult := 1, lastReason := refuseCode f.reason, lastStopped := f.stopped, lastBlock := f.block } }

/-- The command that waits for a transition completes. -/
def answer (c : Option CmdRef) (r : Reply) (s : State) : State :=
  match c with
  | some x => complete x r s
  | none => s

/-- R471: a transition is rolled back to the state it started from. -/
def rollBack (t : Transition) (f : Refuse) (s : State) : State :=
  let s1 := noteRefusal f s
  powerDone t.fromState t.fromState t.target (some f)
    (answer t.reply (refuseReply f)
      { s1 with power := { s1.power with state := t.fromState, transition := none, lastTime := s.time, wakeLatched := false } })

/-- R475: SIMMER is left for ACTIVE. -/
def exitSimmer (source : Nat) (s : State) : State :=
  powerDone .active .simmer .active none
    { s with power := { s.power with
        state := .active, transition := none, lastResult := 0, lastWake := source, lastTime := s.time, wakeLatched := false } }

/-! ## DORMANT and COLD (R465, R472 to R479) -/

/-- R472 step 4: the links go to electrical idle; rings and sessions stay (R465), the port's own registers are lost. WAKE_N stays as
it is until PERST deasserts (R71). -/
def sleepPort (q : Port) : Port :=
  { linkDown q with hostEvent := 0, hostEventMask := 0, msix := List.replicate 65 MsixEntry.reset, pba := 0 }

/-- R465: what the main rails carried: Pools, staging buffers, Basin entries, and the cascade. -/
def loseRails (s : State) : State :=
  { s with
    staging := [], pools := [], poolParity := []
    plans := s.plans.map (fun p => { p with pieces := [], localMem := [] })
    basin := { s.basin with entries := [], loads := [], cascade := Cascade.reset }
    fabric := { s.fabric with
      ports := s.fabric.ports.map (fun q => if q.enabled then { q with state := .down, reason := 1 } else q) }
    pins := { s.pins with pwrgdOut := false, thermOut := false } }

/-- R472 step 3: hardware writes the save set to the always-on stores. R473 gives the sizes of its items and no layout of one, so what the
stores then hold there is free. -/
def saveSet (s : State) : State :=
  takeFresh (2 * 0x40000) { s with power := { s.power with savedFrom := some s.freeCount, savedOver := [] } }

/-- R472: DORMANT is entered; module time is saved (R554). -/
def enterDormant (reply : Option CmdRef) (s : State) : State :=
  let s1 := onPorts sleepPort (loseRails (saveSet (answer reply (replyOf .done) s)))
  { s1 with
    power := { s1.power with
      state := .dormant, transition := none, lastResult := 0, lastTime := s.time,
      dormantEntries := s1.power.dormantEntries + 1 }
    boot := { s1.boot with fwAlive := false, fwStalled := false }
    clock := { s1.clock with saved := some s.time } }

/-- R465, R548: nothing outside the NOR, the always-on domain and the pins outlives the main rails. -/
def mainRailsOff (s : State) : State :=
  let s1 := onPorts (fun q => sleepPort (closePort q)) (dropWork false (loseRails s))
  { s1 with
    near := []
    err := { s1.err with poison := [] }
    power := { s1.power with state := .cold }
    boot := { s1.boot with phase := .rom, stage := .romStart, fwAlive := false, fwStalled := false, die0Up := false, die1Up := false }
    clock := { TimeUnit.reset with ignored := 0 } }

/-- R478: the always-on contents are lost: AON_FLAGS and the operating points with them. -/
def loseAon (s : State) : State :=
  { s with
    aonStore := []
    power := { s.power with savedFrom := none, savedOver := [] }
    age := AgeUnit.reset
    boot := { s.boot with aonFlags := 0x01, nextIndex := 0 }
    pins := { s.pins with aonLost := true } }

/-- R472, R479: COLD is entered; the clean-shutdown marker stands in the NOR and PWRGD_OUT is low until PWR_EN falls and
rises again (R548). -/
def enterCold (reply : Option CmdRef) (s : State) : State :=
  let s1 := answer reply (replyOf .done) s
  let s2 := loseAon (mainRailsOff { s1 with boot := { s1.boot with nor := { s1.boot.nor with cleanShutdown := true } } })
  { s2 with pins := { s2.pins with coldLatched := true, eid := 0, smbAlert := false } }

/-- R61: a held reset is performed once the transition has ended; one that ended in DORMANT is followed by it when the module
wakes, since nothing can be reset before (DEDUCED, log entry 18). -/
def runHeldReset (s : State) : State :=
  match s.power.heldReset, s.power.transition with
  | some h, none =>
    if railsUp s then resetModule h.1 h.2 { s with power := { s.power with heldReset := none } } else s
  | _, _ => s

/-- R71: WAKE_N is asserted on every port whose link is down as the module leaves DORMANT; the port whose PERST woke it (cause 2 or 3)
has had its deassertion. -/
def assertWakes (source : Nat) (s : State) : State :=
  { s with ports := s.ports.zipIdx.map (fun (q, p) => { q with wakeOut := !q.linkUp && decide (source ≠ p + 2) }) }

/-- R476, R477: DORMANT is left. Module time resumes from the saved value plus the duration, which the always-on
oscillator counts within 5 per cent (R554): the deviation is free. A failed wake boots cold, and DORMANT_RESUME, which tells of the
last wake, is cleared then (DESIGN CHOICE, log entry 93). -/
def wakeDormant (source : Nat) (b : BootInputs) (s : State) : State :=
  let saved := s.clock.saved.getD s.time
  let dur := (s.time - saved).toNat
  let now := saved + BitVec.ofNat 64 (dur - dur / 20 + (freshValue s).toNat % (dur / 10 + 1))
  let cause : Option Nat := if s.pins.aonLost then some 0 else if s.pins.retentionLost then some 1 else b.wakeFault
  let s0 := takeFresh 1 { s with
    pins := { s.pins with pwrgdOut := true, twinSide := b.twinSide, cascPos := b.cascPos, retentionLost := false, aonLost := false }
    clock := { s.clock with saved := none, firstPending := true, lastEdge := none } }
  match cause with
  | some d =>
    let s1 := dropWork true { s0 with
      time := if d = 0 then 0 else now
      pins := { s0.pins with brownDetail := some d }
      boot := { s0.boot with aonFlags := clearBit s0.boot.aonFlags aonDormantResume } }
    assertWakes source (runBoot false 3 b s1)
  | none =>
    let s1 := setAon aonDormantResume (bootTremor false (dropDebug { s0 with time := now }))
    let s2 := { s1 with
      power := { s1.power with
        state := .active, transition := none, lastResult := 0, lastWake := source, lastTime := now, wakeLatched := false }
      boot := { s1.boot with resetTime := now, heartbeatTime := now, resetting := none }
      fabric := { s1.fabric with
        ports := s1.fabric.ports.map (fun q => if q.enabled ∧ !q.outOfService then
          (if q.cable then { q with state := .training, reason := 0 } else q) else q) } }
    assertWakes source (raiseAll evPowerChange (powerDone .active .dormant .active none (headSync s2)))

/-- A wake, then the links that may train do (R69, R71), and a reset that was held is performed (R61). -/
def wakeUp (source : Nat) (b : BootInputs) (s : State) : State :=
  runHeldReset (startTraining 1 (startTraining 0 (wakeDormant source b s)))

/-! ## The course of a transition (R469, R470) -/

/-- R469: every command that had started has completed; the command that asked for the transition and chains whose
packets are no longer consumed are not waited for (DEDUCED, log entry 28). -/
def drained (s : State) (t : Transition) : Bool :=
  s.ports.zipIdx.all (fun (q, p) => q.rings.zipIdx.all (fun (r, i) =>
    r.outstanding.all (fun o => t.reply = some o ||
      r.chain.any (fun c => decide (c.tag = o.tag ∧ c.opcode = o.opcode ∧ o.port = p ∧ o.ring = i)))))

/-- R470, R471, R472: the groups are asked in order; the transition ends in its target or is rolled back. -/
def runEntry (t : Transition) (s : State) : State :=
  match (preCheck s t.target).orElse (fun _ => groupRefusal s t.target) with
  | some f => takeFresh 1 (rollBack t f s)
  | none =>
    match t.target with
    | .dormant => enterDormant t.reply s
    | .cold => enterCold t.reply s
    | _ =>
      powerDone .simmer t.fromState .simmer none
        (answer t.reply (replyOf .done)
          { s with power := { s.power with state := .simmer, transition := none, lastResult := 0, lastTime := s.time } })

/-- R480: a wake latched during an entry is taken when the entry ends. In a DORMANT entry it wakes the module at once,
with the straps as they stand. -/
def runLatchedWake (s : State) : State :=
  if s.power.wakeLatched ∧ s.power.transition = none then
    match s.power.state with
    | .simmer => exitSimmer 1 s
    | .dormant => wakeUp 1 (bootInputsNow s) { s with power := { s.power with wakeLatched := false } }
    | _ => { s with power := { s.power with wakeLatched := false } }
  else s

/-- R469: a transition whose drain has ended goes on; it is called wherever a command may have completed. -/
def settleTransition (s : State) : State :=
  match s.power.transition with
  | none => s
  | some t => if t.draining ∧ drained s t then runHeldReset (runLatchedWake (runEntry t s)) else s

/-- R466, R470: a transition to SIMMER, DORMANT or COLD is asked for: refused before anything stops, or accepted. A
refusal here starts no transition, so no POWER_DONE tells of it (DEDUCED, log entry 24). -/
def beginTransition (target : PowerState) (reply : Option CmdRef) (s : State) : State :=
  match preCheck s target with
  | some f => answer reply (refuseReply f) (noteRefusal f s)
  | none =>
    settleTransition { s with power := { s.power with
      transition := some { target := target, fromState := s.power.state, reply := reply, draining := true } } }

/-! ## POWER_SET -/

/-- R467: another transition is in progress. -/
def busyReply (t : Transition) : Reply := { replyOf .busy with count0 := powerCode t.target }

/-- POWER_SET to SIMMER, DORMANT or COLD (R466, R470, R472). -/
def powerSetBody (target : PowerState) (r : CmdRef) (c : Chain) (s : State) : State :=
  if parN c 1 ≠ 0 then complete r (replyOf .badPacket) s
  else match s.power.transition with
    | some t => complete r (busyReply t) s
    | none =>
      if s.power.state = target then complete r (replyOf .done) s else beginTransition target (some r) s

/-- POWER_SET ACTIVE (R466, R475). -/
def powerSetActiveBody (r : CmdRef) (c : Chain) (s : State) : State :=
  if parN c 1 ≠ 0 then complete r (replyOf .badPacket) s
  else match s.power.transition with
    | some t => complete r (busyReply t) s
    | none =>
      if s.power.state = .simmer then complete r (replyOf .done) (exitSimmer 0 s) else complete r (replyOf .done) s

/-- R481: the command completes once every plan has been re-placed; it is called after every re-placement. -/
def settleParking (s : State) : State :=
  match s.power.parkReply with
  | none => s
  | some c =>
    if s.plans.any (needsReplace s) then s
    else settleTransition (complete c (replyOf .done) { s with power := { s.power with parkReply := none } })

/-- R481: the state with a parked set. -/
def withParked (mask : BitVec 32) (s : State) : State := { s with power := { s.power with parked := mask } }

/-- POWER_SET with PARK_ONLY (R466, R467, R481). A second one that arrives before the first has completed is BUSY (DESIGN
CHOICE, log entry 23). -/
def powerSetParkBody (r : CmdRef) (c : Chain) (s : State) : State :=
  if parBits c 0 1 0 ≠ 0 then complete r (replyOf .badPacket) s
  else match s.power.transition with
    | some t => complete r (busyReply t) s
    | none =>
      if s.power.state = .simmer ∨ s.power.parkReply.isSome then complete r (replyOf .busy) s
      else
        let mask := (List.range 32).foldl
          (fun m i => if isRetired s (unitId 2 i) then clearBit m i else m) (BitVec.ofNat 32 (parN c 1))
        let s1 := withParked mask s
        if coresActive s1 = 0 ∨ !allPlaceable s1 then complete r (replyOf .noResource) s
        else settleParking (replaceIdle { s1 with power := { s1.power with parkReply := some r } })

/-- R482: the power state record. -/
def powerRecord (s : State) : List Byte :=
  let u := s.power
  record 64 [(0, powerCode u.state), (2, (u.transition.map (fun t => powerCode t.target)).getD 0),
    (4, bitOf u.transition.isSome), (5, bitOf u.wakeLatched), (6, u.lastResult), (8, u.lastReason), (16, u.lastStopped),
    (24, u.lastWake), (32, u.lastBlock.toNat), (64, u.parked.toNat), (96, u.dormantEntries.toNat), (128, u.lastTime.toNat)]

/-- POWER_QUERY (R482). -/
def powerQueryBody (r : CmdRef) (_ : Chain) (s : State) : State := complete r (replyData (powerRecord s)) s

def powerSetRule : CommandRule := { plainRule 0x0090 with adminOnly := true, used := [0x7, 0xFFFFFFFF] }
def powerQueryRule : CommandRule := { plainRule 0x0091 with whenFenced := true }

/-- POWER_SET with TARGET ACTIVE (R466, R475). -/
def execPowerSetActive (r : RingId) (p : Packet) (s : State) : Host.Outcome State Fault Refusal :=
  .next (hostCommand r powerSetRule powerSetActiveBody (fixP0 0x7 0 p) s)

/-- POWER_SET with TARGET SIMMER (R466, R470). -/
def execPowerSetSimmer (r : RingId) (p : Packet) (s : State) : Host.Outcome State Fault Refusal :=
  .next (hostCommand r powerSetRule (powerSetBody .simmer) (fixP0 0x7 1 p) s)

/-- POWER_SET with TARGET DORMANT (R466, R472). -/
def execPowerSetDormant (r : RingId) (p : Packet) (s : State) : Host.Outcome State Fault Refusal :=
  .next (hostCommand r powerSetRule (powerSetBody .dormant) (fixP0 0x7 2 p) s)

/-- POWER_SET with TARGET COLD (R466, R479). -/
def execPowerSetCold (r : RingId) (p : Packet) (s : State) : Host.Outcome State Fault Refusal :=
  .next (hostCommand r powerSetRule (powerSetBody .cold) (fixP0 0x7 3 p) s)

/-- POWER_SET with PARK_ONLY (R481). -/
def execPowerSetPark (r : RingId) (p : Packet) (s : State) : Host.Outcome State Fault Refusal :=
  .next (hostCommand r powerSetRule powerSetParkBody (fixP0 0x4 0x4 p) s)

/-- POWER_QUERY (R482). -/
def execPowerQuery (r : RingId) (p : Packet) (s : State) : Host.Outcome State Fault Refusal :=
  .next (hostCommand r powerQueryRule powerQueryBody p s)

/-! ## SLEEP_NO_ANSWER, WAKE_REQ_N -/

/-- R470: the groups that have stopped when a block of a unit class is asked. -/
def stoppedBefore (u : BitVec 32) : Nat :=
  match unitClass u with
  | 1 | 2 => 0
  | 5 | 7 => 1
  | 6 => 2
  | 4 => 3
  | 9 | 10 => 4
  | 0xFF => 5
  | 3 => 6
  | _ => 0

/-- SLEEP_NO_ANSWER (R468): the transition in progress is refused with NO_ANSWER and rolled back. -/
def execSleepNoAnswer (unit : BitVec 32) (s : State) : Host.Outcome State Fault Refusal :=
  .next (match s.power.transition with
    | none => s
    | some t => runHeldReset (rollBack t { reason := .noAnswer, block := unit, stopped := stoppedBefore unit } s))

/-- WAKE_REQ_N (R475, R480, R549): latched during a transition, the start of an exit in SIMMER and DORMANT, otherwise
ignored; ignored while PWR_EN is low. -/
def execWakeReqN (b : BootInputs) (s : State) : Host.Outcome State Fault Refusal :=
  .next (if !s.pins.pwrEn ∨ !s.pins.vauxUp ∨ s.dbg.pinsTaken ≠ 0 then s
    else if s.power.transition.isSome then { s with power := { s.power with wakeLatched := true } }
    else match s.power.state with
      | .simmer => exitSimmer 1 s
      | .dormant => wakeUp 1 b s
      | _ => s)

end Sys2Proof.Machine
end

