-- ==== Sys2Proof/Machine/Errors.lean ====
section
/-!
DEFINITION. Retiring, restoring and testing units: what the loss of each class of unit does, UNIT_RETIRE, RESTORE,
UNIT_RETIRE QUERY and TEST_RUN (R452 to R464), and the Basin scrub (R446).
-/

namespace Sys2Proof.Machine

/-! ## Sessions of a port (R70, R456) -/

/-- A reply that no ring receives: completions of a reset or retired port are discarded. -/
def nowhere (p : Nat) : CmdRef where
  port := p
  ring := 64
  tag := 0
  ringSeq := 0
  opcode := 0x0011
  noIrq := true

/-- R70: every session that has rings on a port closes as SESSION_CLOSE would, its completions discarded, and the
port's rings are disabled. -/
def closeSessionsOf (p : Nat) (s : State) : State :=
  let s1 := onPort p (fun q => { q with rings := q.rings.map (fun r => { r with cq := none, outstanding := [], chain := none }) }) s
  let mine := (s1.sessions.filter (fun e => e.2.port = p ∧ e.2.rings ≠ [] ∧ e.2.closing.isNone)).map (·.1)
  onPort p closePort (mine.foldl (fun x sid => beginClose sid (some (nowhere p)) x) s1)

/-! ## What a retirement does (R456 to R459) -/

/-- R456: a tap that a plan had reserved is replaced by another of its die. -/
def replaceTap (k : Nat) (s : State) : State :=
  let old := tapAt s k
  let s1 := { s with taps := modAt s.taps k (fun _ => Tap.reset) }
  match old.reserved, (List.range' (tapDie k * 32) 32).find? (fun j => j ≠ k ∧ tapFree s1 j) with
  | some h, some j =>
    onPlan h (fun p => { p with taps := p.taps.map (fun e => if e.2 = k then (e.1, j) else e) })
      { s1 with taps := modAt s1.taps j (fun t => { t with reserved := some h }) }
  | _, _ => s1

/-- R404, R456: a fabric lane leaves service: the port runs at 7/8 width, or goes DOWN with a second lane. -/
def failLane (port lane : Nat) (s : State) : State :=
  { s with fabric := { s.fabric with
      ports := modAt s.fabric.ports port (fun q =>
        let fail := setBit q.laneFail lane
        if q.laneFail ≠ 0 ∧ q.laneFail ≠ fail then { q with laneFail := fail, state := .down, reason := 4 }
        else { q with laneFail := fail, state := if q.state = .up then .up78 else q.state }) } }

/-- R456: the port of a fabric port unit goes DOWN and out of service. -/
def dropFabricPort (n : Nat) (out : Bool) (s : State) : State :=
  { s with fabric := { s.fabric with
      ports := modAt s.fabric.ports n (fun q =>
        { q with outOfService := out, state := if q.enabled then .down else q.state, reason := if q.enabled then 1 else q.reason }) } }

/-- R456, R458: the effect of a retirement on the module. -/
def applyRetired (u : BitVec 32) (s : State) : State :=
  let i := unitIndex u
  match unitClass u with
  | 1 => applyCore i s
  | 2 => applyCrater i s
  | 4 =>
    { s with basin := { s.basin with
        segments := modAt s.basin.segments i (fun g => { g with owner := none })
        entries := sdelRange s.basin.entries (i * 65536) 65536 } }
  | 8 => replaceTap i s
  | 9 => dropFabricPort i true s
  | 10 => failLane (i / 8) (i % 8) s
  | 11 => onPort i (fun q => { q with ringsOpen := false }) (closeSessionsOf i s)
  | 12 | 13 => resetModule false (bootInputsNow s) s
  | _ => s

/-- R459: the unit that a retirement of `u` ends up retiring: a core's crater when the core is the third loss. -/
def retireTarget (s : State) (u : BitVec 32) : BitVec 32 :=
  if unitClass u = 1 ∧ lastStraw s (unitIndex u) then unitId 2 (unitIndex u / 33) else u

/-- R459: the record of a retirement, made when it is decided. -/
def recordUnit (u : BitVec 32) (reason : Nat) (s : State) : State :=
  let v := retireTarget s u
  recordRetired v reason (if unitClass v = 1 then heirOf s (unitIndex v) else none) s

/-- R457, R458, R459: a retirement takes effect at once for a position, a die or the die bridge and while no plan is
live, and otherwise at the next step boundary. -/
def atOnce (s : State) (u : BitVec 32) : Bool :=
  unitClass u = 3 || unitClass u = 12 || unitClass u = 13 || (livePlans s).isEmpty

/-- R459: what follows a recorded retirement: its effect now, or its mark for the next boundary. `u` is the unit that was
recorded. -/
def settleRetired (u : BitVec 32) (s : State) : State :=
  if atOnce s u then replaceIdle (applyRetired u s)
  else { s with err := { s.err with applying := if s.err.applying.contains u then s.err.applying else s.err.applying ++ [u] } }

/-- A unit is retired: recorded, and in effect when R459 says; a unit already retired has only its entry renewed. -/
def retireUnit (u : BitVec 32) (reason : Nat) (s : State) : State :=
  if isRetired s u then recordUnit u reason s else settleRetired (retireTarget s u) (recordUnit u reason s)

/-- R493, R459: every unit of a list is retired. -/
def retireUnits (us : List (BitVec 32)) (reason : Nat) (s : State) : State := us.foldl (fun x u => retireUnit u reason x) s

/-- R463: a restored unit is in service again: a core becomes its crater's spare with a new incarnation; a crater comes
back with the cores whose entries its own had replaced. -/
def applyRestored (u : BitVec 32) (s : State) : State :=
  let i := unitIndex u
  let s1 := { s with err := { s.err with retired := s.err.retired.filter (fun r => r.unit ≠ u) } }
  match unitClass u with
  | 1 => bumpIncarnation i { s1 with err := { s1.err with deadCores := s1.err.deadCores.filter (· ≠ i) } }
  | 2 =>
    let s2 := { s1 with err := { s1.err with deadCores := s1.err.deadCores.filter (fun c =>
      c / 33 ≠ i || s1.err.retired.any (fun r => r.unit = unitId 1 c)) } }
    onIsland i (fun q => { q with retired := false }) s2
  | 9 =>
    { s1 with fabric := { s1.fabric with
        ports := modAt s1.fabric.ports i (fun q => { q with outOfService := false, state := .disabled, enabled := false, reason := 0 }) } }
  | 10 =>
    { s1 with fabric := { s1.fabric with
        ports := modAt s1.fabric.ports (i / 8) (fun q => { q with laneFail := clearBit q.laneFail (i % 8) }) } }
  | _ => s1

/-- R463: units whose RESTORE takes effect at a step boundary: all but positions and dies. -/
def restoreNow (s : State) : State :=
  ((s.err.retired.filter (fun r => r.restoring ∧ unitClass r.unit ≠ 3 ∧ unitClass r.unit ≠ 13)).map (·.unit)).foldl
    (fun x u => applyRestored u x) s

/-- A plan works with a unit of its own: one of its craters or their cores, a segment that it searches, a tap that it holds. -/
def holdsUnit (p : Plan) (u : BitVec 32) : Bool :=
  let i := unitIndex u
  match unitClass u with
  | 1 => p.craters.flatten.contains (i / 33)
  | 2 => p.craters.flatten.contains i
  | 4 => p.bin.ops.any (fun e => e.op = .matchOp && (field e.params 64 32).testBit i)
  | 8 => p.taps.any (fun e => e.2 = i)
  | _ => false

/-- R459: the open step of a plan that works with the unit has still to come to its boundary. -/
def unitHeld (s : State) (u : BitVec 32) : Bool :=
  s.plans.any (fun p => ((p.run.bind (·.openStep)).isSome) && holdsUnit p u)

/-- R452, R459, R463: at a step boundary the RATE rule's units retire, retirements recorded since the last boundary take
effect where no other plan's step holds the unit, and restored units come back. -/
def boundaryUnits (s : State) : State :=
  let s1 := s.err.retiring.foldl
    (fun x u => if isRetired x u then x else
      let v := retireTarget x u
      let y := recordUnit u reasonRate x
      { y with err := { y.err with applying := y.err.applying ++ [v] } }) { s with err := { s.err with retiring := [] } }
  let due := s1.err.applying.filter (fun u => !unitHeld s1 u)
  restoreNow (due.foldl (fun x u => applyRetired u x)
    { s1 with err := { s1.err with applying := s1.err.applying.filter (unitHeld s1) } })

/-! ## UNIT_RETIRE (R463) -/

/-- The packet with bits of P1 replaced, for a row that fixes a selector there. -/
def fixP1 (mask value : BitVec 32) (p : Packet) : Packet := { p with p1 := (p.p1 &&& ~~~ mask) ||| value }

/-- R463: the module could not go on without the unit. -/
def lastOfKind (s : State) (u : BitVec 32) : Bool :=
  let i := unitIndex u
  match unitClass u with
  | 2 => ((List.range' (i / 16 * 16) 16).filter (craterUp s)) = [i]
  | 3 => ((List.range' (i / 6 * 6) 6).filter (fun p => !isRetired s (unitId 3 p))) = [i]
  | 11 => isRetired s (unitId 11 (1 - i)) || !cxlEnabled s (1 - i)
  | 12 | 13 => !s.boot.config.oneDieGrant || s.boot.oneDie
  | _ => false

/-- R463: UNIT_RETIRE cannot be granted. -/
def retireBlocked (s : State) (u : BitVec 32) : Bool :=
  let v := retireTarget s u
  lastOfKind s v ||
    ((unitClass v = 1 || unitClass v = 2) && !allPlaceable (applyRetired v (recordUnit u reasonCommand s)))

/-- UNIT_RETIRE with OP RETIRE (R463): the command completes once the retirement is recorded. -/
def unitRetireBody (r : CmdRef) (c : Chain) (s : State) : State :=
  let u := c.params.getD 0 0
  if parBits c 1 1 0 = 3 ∨ !unitValid u then complete r (replyOf .badPacket) s
  else if isRetired s u then complete r (replyOf .done) (recordUnit u reasonCommand s)
  else if retireBlocked s u then complete r (replyOf .noResource) s
  else settleTransition (settleRetired (retireTarget s u) (complete r (replyOf .done) (recordUnit u reasonCommand s)))

/-- UNIT_RETIRE with OP RESTORE (R463). -/
def restoreBody (r : CmdRef) (c : Chain) (s : State) : State :=
  let u := c.params.getD 0 0
  if !unitValid u then complete r (replyOf .badPacket) s
  else if !s.err.retired.any (fun e => e.unit = u && e.testPassed) then complete r (replyOf .access) s
  else
    let s1 := { s with err := { s.err with
      retired := s.err.retired.map (fun e => if e.unit = u then { e with restoring := true } else e) } }
    complete r (replyOf .done) (if (livePlans s1).isEmpty then restoreNow s1 else s1)

/-- R463: the retirement list as QUERY returns it. -/
def retiredRecord (s : State) : List Byte :=
  record 64 [(0, s.err.retired.length)] ++
    (s.err.retired.map (fun e => record 16 [(0, e.unit.toNat), (32, e.reason), (64, e.time.toNat)])).flatten

/-- UNIT_RETIRE with OP QUERY (R463). -/
def unitRetireQueryBody (r : CmdRef) (c : Chain) (s : State) : State :=
  if parN c 0 ≠ 0 then complete r (replyOf .badPacket) s else complete r (replyData (retiredRecord s)) s

def unitRetireRule : CommandRule := { plainRule 0x00E2 with adminOnly := true, used := [0xFFFFFFFF, 0x3] }

/-- UNIT_RETIRE with OP RETIRE; a packet with the reserved OP completes with BAD_PACKET (R463). -/
def execUnitRetire (r : RingId) (p : Packet) (s : State) : Host.Outcome State Fault Refusal :=
  .next (hostCommand r unitRetireRule unitRetireBody (if p.p1 &&& 3 = 3 then p else fixP1 3 0 p) s)

/-- UNIT_RETIRE with OP RESTORE (R463). -/
def execRestore (r : RingId) (p : Packet) (s : State) : Host.Outcome State Fault Refusal :=
  .next (hostCommand r unitRetireRule restoreBody (fixP1 3 1 p) s)

/-- UNIT_RETIRE with OP QUERY (R463). -/
def execUnitRetireQuery (r : RingId) (p : Packet) (s : State) : Host.Outcome State Fault Refusal :=
  .next (hostCommand r unitRetireRule unitRetireQueryBody (fixP1 3 2 p) s)

/-! ## TEST_RUN (R460 to R462) -/

/-- R461: the class offers no test of that kind. -/
def noTest (cls : Nat) (full : Bool) : Bool := cls = 11 || cls = 12 || (cls = 13 && !full)

/-- R461: classes whose FULL test is one of its own. -/
def hasFull (cls : Nat) : Bool := cls = 1 || cls = 2 || cls = 3 || cls = 13

/-- The module without a unit, for the placement check of R462: its craters parked. -/
def withoutUnit (u : BitVec 32) (s : State) : State :=
  match unitClass u with
  | 2 => withParked (setBit s.power.parked (unitIndex u)) s
  | 13 => (List.range' (unitIndex u * 16) 16).foldl (fun x c => withParked (setBit x.power.parked c) x) s
  | _ => s

/-- R462: the first condition under which TEST_RUN fails without testing. -/
def testCheck (s : State) (u : BitVec 32) (test : Nat) : Option Status :=
  let cls := unitClass u
  let i := unitIndex u
  let full : Bool := test = 1
  if !unitValid u ∨ test > 1 then some .badPacket
  else if noTest cls full then some .unsupported
  else if cls = 4 ∧ (s.basin.segments.getD i { width := 128, owner := none }).owner.isSome then some .access
  else if (cls = 1 ∧ !(rolesAt s (i / 33) (i % 33)).isEmpty ∧ (freeSpare s (i / 33)).isNone) ∨
      (cls = 3 ∧ full ∧ !isRetired s u) ∨ (cls = 13 ∧ !(livePlans s).isEmpty) then some .busy
  else if !allPlaceable (withoutUnit u s) then some .noResource
  else none

/-- R461: what a test leaves behind: a tested segment is free and CLEARed to width 128, a tested port trains again. -/
def testLeaves (u : BitVec 32) (s : State) : State :=
  let i := unitIndex u
  match unitClass u with
  | 4 =>
    { s with basin := { s.basin with
        segments := modAt s.basin.segments i (fun _ => { width := 128, owner := none })
        entries := sdelRange s.basin.entries (i * 65536) 65536 } }
  | 9 =>
    { s with fabric := { s.fabric with
        ports := modAt s.fabric.ports i (fun q =>
          if q.enabled ∧ q.cable ∧ !q.outOfService then { q with state := .training, reason := 0 } else q) } }
  | _ => s

/-- R40, R41: the module address of a byte of a position that the interleave uses. -/
def positionAddress (s : State) (p off : Nat) : Option Nat :=
  let base := if s.boot.config.split ∧ 6 ≤ p then 0xC00000000 else 0
  let n := if s.boot.oneDie ∨ s.boot.config.split then 6 else 12
  (List.range' 0 n).findSome? (fun k =>
    let a := base + (off / 2048 * (n - (s.boot.badAtReset.filter (fun x => n = 12 || x / 6 = p / 6)).length) + k) * 2048 + off % 2048
    if nearOk s a 1 ∧ positionOf s a = p then some a else none)

/-- R461: the bad sectors that a QUICK scrub of a position finds: as many as its errors, and which they are is a free value (log
entry 8). -/
def scrubSectors (s : State) (u : BitVec 32) (full : Bool) (errors : Nat) : List Nat :=
  if unitClass u ≠ 3 ∨ full then []
  else (List.range errors).filterMap (fun k =>
    (positionAddress s (unitIndex u) ((Config.freeValue (s.freeCount + 4 + k)).toNat % 130023424 * 64)).map (· / 64))

/-- R446, R447, R461: a bad sector that a scrub finds is charged outside every step and handled by what it holds; one that is poisoned or
bypassed already is no detection. -/
def scrubSector (sector : Nat) (s : State) : State :=
  if s.err.poison.contains sector || sectorGone s sector then s
  else
    let s1 := chargeRate (unitId 3 (positionOf s (sector * 64))) none s
    match sessionVaOf s (sector * 64) with
    | none => s1
    | some (sid, va) => (heldSector sid va sector s1).1

/-- R462: the result record. -/
def testRecord (u : BitVec 32) (result errors duration addr : Nat) (retired : Bool) : List Byte :=
  record 32 [(0, u.toNat), (32, result), (40, bitOf retired), (64, errors % 2 ^ 32), (96, duration % 2 ^ 32), (128, addr)]

/-- TEST_RUN (R460 to R462). How the test comes out is the unit's own doing: the result, the errors, the time, the first failing
address and the bad sectors of a scrub are free values. -/
def testRunBody (r : CmdRef) (c : Chain) (s : State) : State :=
  let u := c.params.getD 0 0
  let test := parBits c 1 1 0
  match testCheck s u test with
  | some st => complete r (replyOf st) s
  | none =>
    let free (k : Nat) : Nat := (Config.freeValue (s.freeCount + k)).toNat
    let result := free 0 % 3
    let pass := decide (result = 0)
    let retires : Bool := result = 1 && parBits c 1 2 2 = 1
    let errors := if result = 1 then free 1 else 0
    let found := scrubSectors s u (test = 1) errors
    let s1 := found.foldl (fun x n => scrubSector n x) (takeFresh (4 + errors) (testLeaves u s))
    let s2 := if pass ∧ (test = 1 ∨ !hasFull (unitClass u)) then
        { s1 with err := { s1.err with
            retired := s1.err.retired.map (fun e => if e.unit = u then { e with testPassed := true } else e) } }
      else s1
    let rec_ := testRecord u result (if pass then 0 else free 1) (free 2)
      (if pass then 0 else (found.head?.map (· * 64)).getD (free 3)) retires
    if retires then
      let s3 := recordUnit u reasonTest s2
      let s4 := complete r (replyData rec_) s3
      if isRetired s2 u then s4 else settleTransition (settleRetired (retireTarget s2 u) s4)
    else complete r (replyData rec_) s2

def testRunRule : CommandRule :=
  { plainRule 0x00E1 with adminOnly := true, used := [0xFFFFFFFF, 0x7], busyInSimmer := true }

/-- TEST_RUN with TEST QUICK; a packet with a reserved TEST completes with BAD_PACKET (R460). -/
def execTestRunQuick (r : RingId) (p : Packet) (s : State) : Host.Outcome State Fault Refusal :=
  .next (hostCommand r testRunRule testRunBody (if p.p1 &&& 2 = 2 then p else fixP1 3 0 p) s)

/-- TEST_RUN with TEST FULL (R460). -/
def execTestRunFull (r : RingId) (p : Packet) (s : State) : Host.Outcome State Fault Refusal :=
  .next (hostCommand r testRunRule testRunBody (fixP1 3 1 p) s)

end Sys2Proof.Machine
end

