-- ==== Sys2Proof/Machine/Age.lean ====
section
/-!
DEFINITION. Clock islands and ageing, and the crater cap: re-planning, margin samples, MARGIN_REPORT, the input power and
junction samples, and THERM_N (R489 to R497, R537, R538, R549).
-/

namespace Sys2Proof.Machine

/-- The guard band in ps (R489). -/
def guardPs : Int := 40

/-- A day of module time in ns. -/
def dayNs : Nat := 86400000000000

/-- The island of a number. -/
def islandAt (s : State) (i : Nat) : Island := s.age.islands.getD i Island.reset

/-- The module time that a periodic row asserts to have come, at least. -/
def atLeast (t : Nat) (s : State) : State := { s with time := if s.time.toNat < t then BitVec.ofNat 64 t else s.time }

/-! ## DAYS_TO_DERATE and MARGIN_LOW (R496, R497) -/

/-- R496: whole days until a straight line through daily minima, newest first, falls below the guard band. The line is
the least-squares fit over consecutive days (DEDUCED, log entry 30). -/
def projectDays (daily : List Int) : Nat :=
  let pts := daily.reverse.zipIdx.map (fun (y, x) => ((x : Int), y))
  let n : Int := pts.length
  let sx := (pts.map (·.1)).sum
  let sy := (pts.map (·.2)).sum
  let d := n * (pts.map (fun p => p.1 * p.1)).sum - sx * sx
  let a := n * (pts.map (fun p => p.1 * p.2)).sum - sx * sy
  let now := sy * d + a * (n * (n - 1) - sx)
  if pts.length < 3 then 0xFFFF
  else if now < guardPs * n * d then 0
  else if 0 ≤ a then 0xFFFF
  else
    let days := ((now - guardPs * n * d) / (-(a * n))).toNat
    if 65534 < days then 0xFFFF else days

/-- R496: DAYS_TO_DERATE of an island. -/
def daysToDerate (i : Nat) (x : Island) : Nat := if hasRail i then projectDays x.daily else 0

/-- R497: MARGIN_LOW; reasons 1, 2 and 4 at most once in 24 hours for an island. -/
def marginLow (i reason : Nat) (s : State) : State :=
  let x := islandAt s i
  let recent := x.lastLow.any (fun e => e.1 = reason ∧ (s.time - e.2).toNat < dayNs)
  if reason ≠ 3 ∧ recent then s
  else
    postEvent .marginLow i (reason + x.freqMhz <<< 16)
      ((x.marginPs % 65536).toNat + daysToDerate i x <<< 32)
      (onIsland i (fun y => { y with lastLow := (reason, s.time) :: y.lastLow.filter (fun e => e.1 ≠ reason) }) s)

/-! ## Re-plan (R490) and frequency changes (R492) -/

/-- R493: an island that cannot meet the guard band is retired with reason MARGIN. -/
def retireIsland (i : Nat) (s : State) : State :=
  retireUnits (islandUnits i) reasonMargin (onIsland i (fun x => { x with retired := true }) s)

/-- ISLAND_REPLAN (R490): the measured points are put to use, and islands without one are retired. -/
def execIslandReplan (plan : List IslandPlan) (s : State) : Host.Outcome State Fault Refusal :=
  .next (if !fwRunning s then s
    else
      let s0 := atLeast s.age.nextReplan.toNat s
      let s1 := { s0 with age := { s0.age with lastReplan := s0.time, nextReplan := s0.time + BitVec.ofNat 64 dayNs } }
      plan.foldl
        (fun x e =>
          if !replans x e.island then x
          else match e.point with
            | some pt => if pointOk e.island pt then planIsland e.island pt x else x
            | none => retireIsland e.island x) s1)

/-- R492, R537: frequency changes and a cap that waited for a step boundary take effect; a crater's waits on while another plan's step
uses it. -/
def boundaryClocks (s : State) : State :=
  { s with age := { s.age with
    craterCapMhz := s.age.pendingCap.getD s.age.craterCapMhz
    pendingCap := none
    islands := s.age.islands.zipIdx.map (fun (x, i) => match x.pendingPoint with
      | some pt =>
        if islandKind i = .crater ∧ unitHeld s (unitId 2 i) then x
        else { x with freqMhz := pt.1, voltMv := pt.2, pendingPoint := none }
      | none => x) } }

/-! ## Margin samples (R491) -/

/-- R496: the daily minima with one more sample. -/
def noteDaily (sameDay : Bool) (m : Int) (l : List Int) : List Int :=
  match sameDay, l with
  | true, x :: xs => min x m :: xs
  | _, _ => (m :: l).take 30

/-- R491: steps of 5 mV that bring the margin back to the guard band, out of the margins at each higher voltage. -/
def raiseSteps (higher : List Int) : Option Nat := (higher.findIdx? (fun m => guardPs ≤ m)).map (· + 1)

/-- R491, R492: one 25 MHz step down; the voltage goes to the lowest step that then holds the guard band. -/
def derateIsland (i : Nat) (lowered : List Int) (s : State) : State :=
  let x := islandAt s i
  let down := (((List.range lowered.length).filter (fun k => guardPs ≤ lowered.getD k 0)).max?).getD 0
  let volt := max (railFloor i) (800 - 5 * down)
  planIsland i (x.freqMhz - 25, volt)
    (marginLow i 3 (onIsland i (fun y => { y with derates := y.derates + 1 }) s))

/-- R491: what firmware does about one island's sample. -/
def sampleIsland (sameDay : Bool) (e : IslandSample) (s : State) : State :=
  let i := e.island
  let x0 := islandAt s i
  if 45 ≤ i ∨ x0.retired then s
  else
    let before := daysToDerate i x0
    let s1 := onIsland i (fun x => { x with
      marginPs := e.marginPs, shiftPpm := e.shiftPpm,
      daily := if hasRail i then noteDaily sameDay (e.higher.getLast?.getD e.marginPs) x.daily else x.daily }) s
    let s2 := if 30 ≤ before ∧ daysToDerate i (islandAt s1 i) < 30 ∧ hasRail i then marginLow i 1 s1 else s1
    if !hasRail i ∨ guardPs ≤ e.marginPs ∨ !replans s2 i then s2
    else
      match (if x0.voltMv < 800 then raiseSteps e.higher else none) with
      | some k =>
        let s3 := onIsland i (fun x => { x with voltMv := min 800 (x.voltMv + 5 * k) }) s2
        if (islandAt s3 i).voltMv = 800 then marginLow i 2 s3 else s3
      | none =>
        let s3 := onIsland i (fun x => { x with voltMv := 800 }) s2
        let s4 := if x0.voltMv < 800 then marginLow i 2 s3 else s3
        if floorMhz i < x0.freqMhz then derateIsland i e.lowered s4 else retireIsland i s4

/-- R491: a GDDR7 position whose eye is low is retrained at the next boundary; a second retraining within 24 hours is
reported, on the Vent island of its die (DEDUCED, log entry 30). -/
def retrainPosition (p : Nat) (s : State) : State :=
  let recent := s.age.retrained.any (fun e => e.1 = p ∧ (s.time - e.2).toNat < dayNs)
  let s1 := { s with age := { s.age with retrained := (p, s.time) :: s.age.retrained.filter (fun e => e.1 ≠ p) } }
  if recent then marginLow (32 + 6 * (p / 6)) 4 s1 else s1

/-- MARGIN_SAMPLE (R491, R496): every 10 minutes. -/
def execMarginSample (samples : List IslandSample) (eyes : EyeSamples) (s : State) : Host.Outcome State Fault Refusal :=
  .next (if !fwRunning s then s
    else
      let s0 := atLeast (s.age.lastSample.toNat + 600000000000) s
      let sameDay := decide (s0.time.toNat / dayNs = s0.age.lastSample.toNat / dayNs)
      let s1 := samples.foldl (fun x e => sampleIsland sameDay e x) s0
      let s2 := eyes.positions.foldl (fun x p => retrainPosition p x) { s1 with age := { s1.age with lastSample := s0.time } }
      let s3 := eyes.fabricLanes.foldl (fun x l => if l < 48 then retireUnit (unitId 10 l) reasonMargin x else x) s2
      eyes.cxlPorts.foldl (fun x p => if p < 2 then marginLow (37 + 6 * p) 4 x else x) s3)

/-! ## MARGIN_REPORT (R495) -/

/-- R495: STATE of an island. -/
def islandState (s : State) (i : Nat) : Nat :=
  let x := islandAt s i
  if x.retired ∨ !dieUp s (islandDie i) ∨ (islandKind i = .crater ∧ isRetired s (unitId 2 i)) then 2
  else if islandKind i = .crater ∧ bit s.power.parked i then 3
  else if (islandKind i = .crater ∧ derated s i) ∨ x.freqMhz < nominalMhz i then 1
  else 0

/-- R495: the report. -/
def marginRecord (s : State) : List Byte :=
  record 64 [(0, 45), (64, s.age.lastReplan.toNat), (128, s.age.nextReplan.toNat), (192, s.age.lastSample.toNat)] ++
    (List.range 45).flatMap (fun i =>
      let x := islandAt s i
      record 32 [(0, i), (8, islandState s i), (16, shownMhz s i), (32, x.voltMv), (48, (x.marginPs % 65536).toNat),
        (64, 40), (80, daysToDerate i x), (96, x.derates % 65536), (128, (x.shiftPpm % 2 ^ 64).toNat)])

/-- What the command table says of MARGIN_REPORT. -/
def marginReportRule : CommandRule := plainRule 0x00E0

/-- MARGIN_REPORT (R495). -/
def execMarginReport (r : RingId) (p : Packet) (s : State) : Host.Outcome State Fault Refusal :=
  .next (hostCommand r marginReportRule (fun c _ x => complete c (replyData (marginRecord x)) x) p s)

/-! ## The crater cap (R494, R537, R538, R549) -/

/-- The cap that stands or waits. -/
def capAsked (s : State) : Nat := s.age.pendingCap.getD s.age.craterCapMhz

/-- R537: the cap goes to a value at the next step boundary, or at once when no plan runs. -/
def moveCap (mhz : Nat) (s : State) : State :=
  { s with age := { s.age with
    lastCap := s.time
    craterCapMhz := if s.plans.any isRunning then s.age.craterCapMhz else mhz
    pendingCap := if s.plans.any isRunning then some mhz else none } }

/-- R537: the cap drops by one 25 MHz step, never below 700 MHz. -/
def lowerCap (s : State) : State := moveCap (max 700 (capAsked s - 25)) s

/-- The module time since a mark is at least `n` ns. -/
def since (s : State) (mark : Word) (n : Nat) : Bool := decide (n ≤ (s.time - mark).toNat)

/-- POWER_SAMPLE (R537): the averages over 1 ms and 10 ms in W, and whether the excess has lasted 2 ms at the floor of
the cap or without a boundary. -/
def execPowerSample (avg1 avg10 : Nat) (over2ms : Bool) (s : State) : Host.Outcome State Fault Refusal :=
  let limit := s.boot.config.powerLimitW
  .next (if !fwRunning s then s
    else if avg1 > limit then
      let s1 := if capAsked s > 700 ∧ since s s.age.lastCap 1000000 then lowerCap s else s
      if over2ms ∧ since s s.age.lastPace 1000000 then
        { s1 with age := { s1.age with pacing := min 3 (s1.age.pacing + 1), lastPace := s.time } }
      else s1
    else if avg10 * 100 < limit * 95 then
      if s.age.pacing ≠ 0 then
        (if since s s.age.lastPace 1000000 then
          { s with age := { s.age with pacing := s.age.pacing - 1, lastPace := s.time } } else s)
      else if capAsked s < 850 ∧ !s.pins.thermOut ∧ !s.pins.thermIn ∧ since s s.age.lastCap 10000000 then
        moveCap (capAsked s + 25) s
      else s
    else s)

/-- R538: the hottest island and its temperature. -/
def hottest (temps : List Int) : Nat × Int :=
  temps.zipIdx.foldl (fun acc (t, i) => if acc.2 < t then (i, t) else acc) (0, temps.headD 0)

/-- R556: the hottest junction of a die. -/
def dieTemp (temps : List Int) (d : Nat) (old : Int) : Int :=
  (((temps.zipIdx.filter (fun e => islandDie e.2 = d ∧ e.2 < 44)).map (·.1)).max?).getD old

/-- R538: THERMAL. -/
def thermalEvent (unit : Nat) (temp : Int) (what : Nat) (s : State) : State :=
  raiseAll evThermal (postEvent .thermal unit ((temp % 65536).toNat + capAsked s <<< 16) what s)

/-- JUNCTION_SAMPLE (R538): above 100 °C the cap drops, at most once per 1 ms and down to 700 MHz, each of which an event tells of (DEDUCED,
log entry 31), and THERM_N is pulled low; once every junction has been below 95 °C
for 10 ms the hold ends, and the cap lifts under R537 (the event 0x2 tells of the end of the hold: DEDUCED, log entry
31). -/
def execJunctionSample (temps : List Int) (cool10ms : Bool) (s : State) : Host.Outcome State Fault Refusal :=
  let h := hottest temps
  let s0 := { s with pins := { s.pins with temp0 := dieTemp temps 0 s.pins.temp0, temp1 := dieTemp temps 1 s.pins.temp1 } }
  .next (if !fwRunning s then s
    else if 1000 < h.2 then
      let hot (x : State) : State := { x with pins := { x.pins with thermOut := true, smbAlert := true } }
      if since s0 s0.age.lastCap 1000000 ∧ 700 < capAsked s0 then thermalEvent h.1 h.2 1 (hot (lowerCap s0))
      else raiseAll evThermal (hot s0)
    else if cool10ms ∧ h.2 < 950 ∧ s.pins.thermOut then
      postEvent .thermal h.1 ((h.2 % 65536).toNat + capAsked s0 <<< 16) 2 { s0 with pins := { s0.pins with thermOut := false } }
    else s0)

/-- THERM_N (R549): the board pulls THERM_N low; each 1 ms that it stays low the cap drops by a step. -/
def execThermN (s : State) : Host.Outcome State Fault Refusal :=
  let s0 := { s with pins := { s.pins with thermIn := true } }
  .next (if !fwRunning s then s0 else thermalEvent 0xFFFFFFFF 0 3 (lowerCap s0))

/-- THERM_N_RELEASE (R549). -/
def execThermNRelease (s : State) : Host.Outcome State Fault Refusal :=
  .next { s with pins := { s.pins with thermIn := false } }

end Sys2Proof.Machine
end

