-- ==== Sys2Proof/Machine/Numerics.lean ====
section
/-!
DEFINITION. Numbers: the floating-point formats with exact arithmetic rounded to nearest even, conversions between
formats, A8 rows and block-scaled cells (chapter 04, R117 to R129, R182).
-/

namespace Sys2Proof.Machine

/-! ## Values -/

/-- A value of a floating-point format. A finite value is its sign and its magnitude in units of 2^−1074, the smallest
step of any format, so that every value of every format is exact. -/
inductive FVal where
  | nan
  | inf (neg : Bool)
  | fin (neg : Bool) (mag : Nat)
  deriving DecidableEq, Repr

/-- 2^1074: the magnitude of 1. -/
def fUnit : Nat := 2 ^ 1074

/-- A finite value from a signed number of units; a zero is positive. -/
def finOf (n : Int) : FVal := .fin (decide (n < 0)) n.natAbs

/-- An integer as a value. -/
def intVal (n : Int) : FVal := finOf (n * fUnit)

/-- The signed number of units of a finite value; 0 for the others. -/
def unitsOf : FVal → Int
  | .fin neg m => if neg then -(m : Int) else m
  | _ => 0

def isNan (x : FVal) : Bool := x = .nan

/-- The sign of a value. -/
def signOf : FVal → Bool
  | .nan => false
  | .inf n => n
  | .fin n _ => n

/-- R117: a binary format by its exponent bits, mantissa bits and bias. -/
structure FloatFmt where
  expBits : Nat
  manBits : Nat
  bias : Nat
  deriving DecidableEq, Repr

def fmt32 : FloatFmt := { expBits := 8, manBits := 23, bias := 127 }
def fmt64 : FloatFmt := { expBits := 11, manBits := 52, bias := 1023 }
def fmtBf16 : FloatFmt := { expBits := 8, manBits := 7, bias := 127 }
def fmt16 : FloatFmt := { expBits := 5, manBits := 10, bias := 15 }
def fmtE4m3 : FloatFmt := { expBits := 4, manBits := 3, bias := 7 }
def fmtE5m2 : FloatFmt := { expBits := 5, manBits := 2, bias := 15 }

/-- The exponent, in units, of the last place of subnormals. -/
def quantum (f : FloatFmt) : Nat := 1075 - f.bias - f.manBits

/-- The largest exponent field of finite values; E4M3 uses all ones too. -/
def topExp (f : FloatFmt) : Nat := if f = fmtE4m3 then 15 else 2 ^ f.expBits - 2

/-- The largest finite magnitude, in units. -/
def maxMag (f : FloatFmt) : Nat :=
  (2 ^ (f.manBits + 1) - (if f = fmtE4m3 then 2 else 1)) * 2 ^ (quantum f + topExp f - 1)

/-! ## Rounding (R118) -/

/-- `n / d` rounded half to even. -/
def rhe (n d : Nat) : Nat :=
  let q := n / d
  let r := n % d
  if 2 * r > d ∨ (2 * r = d ∧ q % 2 = 1) then q + 1 else q

/-- A signed quotient rounded half to even. -/
def rheInt (n : Int) (d : Nat) : Int := if n < 0 then -(rhe n.natAbs d : Int) else rhe n.natAbs d

/-- The magnitude `n / d` units rounded to a format's precision, not judged for overflow. -/
def roundMag (f : FloatFmt) (n d : Nat) : Nat :=
  let q := max ((n / d).log2 - f.manBits) (quantum f)
  rhe n (d * 2 ^ q) * 2 ^ q

/-- The signed magnitude `n / d` units in a format, overflow giving infinity (FP32, BF16, FP16, FP64). -/
def roundTo (f : FloatFmt) (neg : Bool) (n d : Nat) : FVal :=
  let m := roundMag f n d
  if maxMag f < m then .inf neg else .fin neg m

/-- A signed number of units divided by `d`, in a format; an exact zero is positive. -/
def roundUnits (f : FloatFmt) (n : Int) (d : Nat) : FVal := roundTo f (decide (n < 0)) n.natAbs d

/-- A value in a format, overflow giving infinity. -/
def roundVal (f : FloatFmt) (x : FVal) : FVal :=
  match x with
  | .fin neg m => roundTo f neg m 1
  | y => y

/-! ## Codes -/

/-- The value of a bit pattern. -/
def decodeFloat (f : FloatFmt) (code : Nat) : FVal :=
  let man := code % 2 ^ f.manBits
  let ex := code / 2 ^ f.manBits % 2 ^ f.expBits
  let neg : Bool := code / 2 ^ (f.manBits + f.expBits) % 2 = 1
  if f = fmtE4m3 ∧ ex = 15 ∧ man = 7 then .nan
  else if f ≠ fmtE4m3 ∧ ex = 2 ^ f.expBits - 1 then (if man = 0 then .inf neg else .nan)
  else if ex = 0 then .fin neg (man * 2 ^ quantum f)
  else .fin neg ((2 ^ f.manBits + man) * 2 ^ (quantum f + ex - 1))

/-- R119: the canonical NaN of a format. -/
def nanCode (f : FloatFmt) : Nat :=
  if f = fmtE4m3 then 0x7F else (2 ^ f.expBits - 1) * 2 ^ f.manBits + 2 ^ (f.manBits - 1)

/-- The code of a magnitude that the format holds exactly. -/
def magCode (f : FloatFmt) (m : Nat) : Nat :=
  if m < 2 ^ (quantum f + f.manBits) then m / 2 ^ quantum f
  else
    let e := m.log2
    (e - f.manBits - quantum f + 1) * 2 ^ f.manBits + (m / 2 ^ (e - f.manBits) - 2 ^ f.manBits)

/-- R118, R119: a value converted to a format and encoded; E4M3 and E5M2 saturate, an infinity stays infinite in E5M2. -/
def encodeFloat (f : FloatFmt) (x : FVal) : Nat :=
  let s (neg : Bool) : Nat := bitOf neg * 2 ^ (f.expBits + f.manBits)
  let small : Bool := f = fmtE4m3 || f = fmtE5m2
  match x with
  | .nan => nanCode f
  | .inf neg =>
    if f = fmtE4m3 then s neg + magCode f (maxMag f) else s neg + (2 ^ f.expBits - 1) * 2 ^ f.manBits
  | .fin neg m =>
    let r := roundMag f m 1
    if maxMag f < r then
      s neg + (if small then magCode f (maxMag f) else (2 ^ f.expBits - 1) * 2 ^ f.manBits)
    else s neg + magCode f r

/-- A value as FP32 bits. -/
def toF32 (x : FVal) : Nat := encodeFloat fmt32 x

/-- The value of FP32 bits. -/
def ofF32 (n : Nat) : FVal := decodeFloat fmt32 n

/-! ## Arithmetic: exact, then rounded to nearest even -/

/-- The sign of an exact zero sum: negative only when both terms are. -/
def zeroSum (a b : Bool) : FVal := .fin (a && b) 0

/-- Addition in a format. -/
def fAddIn (f : FloatFmt) (x y : FVal) : FVal :=
  match x, y with
  | .nan, _ => .nan
  | _, .nan => .nan
  | .inf a, .inf b => if a = b then .inf a else .nan
  | .inf a, _ => .inf a
  | _, .inf b => .inf b
  | .fin a m, .fin b n =>
    let t := unitsOf (.fin a m) + unitsOf (.fin b n)
    if t = 0 then (if m = 0 ∧ n = 0 then zeroSum a b else .fin false 0) else roundUnits f t 1

/-- The value with its sign changed. -/
def fNeg : FVal → FVal
  | .nan => .nan
  | .inf a => .inf (!a)
  | .fin a m => .fin (!a) m

/-- The absolute value. -/
def fAbs : FVal → FVal
  | .nan => .nan
  | .inf _ => .inf false
  | .fin _ m => .fin false m

/-- Multiplication in a format. -/
def fMulIn (f : FloatFmt) (x y : FVal) : FVal :=
  match x, y with
  | .nan, _ => .nan
  | _, .nan => .nan
  | .inf a, .inf b => .inf (a != b)
  | .inf a, .fin b n => if n = 0 then .nan else .inf (a != b)
  | .fin a m, .inf b => if m = 0 then .nan else .inf (a != b)
  | .fin a m, .fin b n => roundTo f (a != b) (m * n) fUnit

/-- Division in a format; a finite non-zero value by zero is an infinity, 0 / 0 and ∞ / ∞ are NaN. -/
def fDivIn (f : FloatFmt) (x y : FVal) : FVal :=
  match x, y with
  | .nan, _ => .nan
  | _, .nan => .nan
  | .inf _, .inf _ => .nan
  | .inf a, .fin b _ => .inf (a != b)
  | .fin a _, .inf b => .fin (a != b) 0
  | .fin a m, .fin b n =>
    if n = 0 then (if m = 0 then .nan else .inf (a != b)) else roundTo f (a != b) (m * fUnit) n

/-- Square root in a format; the root of a negative number is NaN, that of −0 is −0. -/
def fSqrtIn (f : FloatFmt) (x : FVal) : FVal :=
  match x with
  | .nan => .nan
  | .inf a => if a then .nan else .inf false
  | .fin a m =>
    if m = 0 then .fin a 0
    else if a then .nan
    else
      let r := m * fUnit * 2 ^ 128
      let q := r.sqrt
      roundTo f false (2 * q + (if q * q = r then 0 else 1)) (2 ^ 65)

/-- Multiply and add with one rounding. -/
def fMaIn (f : FloatFmt) (x y z : FVal) : FVal :=
  match x, y, z with
  | .fin a m, .fin b n, .fin c k =>
    let p : Int := if a != b then -((m * n : Nat) : Int) else ((m * n : Nat) : Int)
    let t := p + unitsOf (.fin c k) * fUnit
    if t = 0 then (if m * n = 0 ∧ k = 0 then zeroSum (a != b) c else .fin false 0) else roundUnits f t fUnit
  | _, _, _ => fAddIn f (fMulIn f x y) z

/-- FP32 operations. -/
def fAdd (x y : FVal) : FVal := fAddIn fmt32 x y
def fSub (x y : FVal) : FVal := fAddIn fmt32 x (fNeg y)
def fMul (x y : FVal) : FVal := fMulIn fmt32 x y
def fDiv (x y : FVal) : FVal := fDivIn fmt32 x y
def fSqrt (x : FVal) : FVal := fSqrtIn fmt32 x
def fMa (x y z : FVal) : FVal := fMaIn fmt32 x y z

/-- A constant `n × 2^(−k)`. -/
def dyadic (n : Int) (k : Nat) : FVal := finOf (n * 2 ^ (1074 - k))

def fZero : FVal := .fin false 0
def fOne : FVal := intVal 1

/-- A key that orders values other than NaN; ±0 are equal. -/
def orderKey : FVal → Int
  | .nan => 0
  | .inf a => if a then -(2 ^ 4000) else 2 ^ 4000
  | .fin a m => unitsOf (.fin a m)

/-- x < y; false with a NaN. -/
def fLt (x y : FVal) : Bool := !isNan x && !isNan y && decide (orderKey x < orderKey y)

/-- x ≤ y; false with a NaN. -/
def fLe (x y : FVal) : Bool := !isNan x && !isNan y && decide (orderKey x ≤ orderKey y)

/-- x = y; false with a NaN, −0 and +0 equal. -/
def fEq (x y : FVal) : Bool := !isNan x && !isNan y && decide (orderKey x = orderKey y)

/-! ## Elements (R117, R118) -/

/-- The binary format of a floating-point element format. -/
def floatFmt : Format → FloatFmt
  | .bf16 => fmtBf16
  | .fp16 => fmt16
  | .e4m3 => fmtE4m3
  | .e5m2 => fmtE5m2
  | _ => fmt32

/-- A signed value saturated to 32 bits. -/
def satInt (lo hi n : Int) : Int := max lo (min hi n)

/-- R118: a value as an integer, rounded half to even; NaN gives 0 and infinities saturate. -/
def toInt (lo hi : Int) (x : FVal) : Int :=
  match x with
  | .nan => 0
  | .inf a => if a then lo else hi
  | .fin a m => satInt lo hi (rheInt (unitsOf (.fin a m)) fUnit)

/-- The value of an element code of an element format; U8 and U64 are unsigned integers. -/
def elemVal (f : Format) (code : Nat) : FVal :=
  if f = .int32 then intVal (signed 32 code)
  else if f = .u8 ∨ f = .u64 then intVal code
  else decodeFloat (floatFmt f) code

/-- R118: the element code of a value in an element format, rounded once; U8 and U64 take an integer as INT32 does. -/
def elemCode (f : Format) (x : FVal) : Nat :=
  match f with
  | .int32 => (BitVec.ofInt 32 (toInt (-(2 ^ 31)) (2 ^ 31 - 1) x)).toNat
  | .u8 => (toInt 0 255 x).toNat
  | .u64 => (toInt 0 (2 ^ 64 - 1) x).toNat
  | g => encodeFloat (floatFmt g) x

/-- R118, R184: a conversion that NAN_COUNT counts: NaN into INT32. -/
def nanToInt (f : Format) (x : FVal) : Nat := if f = .int32 ∧ isNan x then 1 else 0

/-- R118, R119: an element code converted from one format to another; within one format it is copied. -/
def convertCode (src dst : Format) (code : Nat) : Nat := if src = dst then code else elemCode dst (elemVal src code)

/-! ## A8 rows (R120, R182) -/

/-- The elements of an A8 row of `n` elements: code × scale, exact. -/
def a8Vals (row : List Byte) (n : Nat) : List FVal :=
  let scale := ofF32 (leNat (slice row 0 4))
  (List.range n).map (fun i =>
    let c := signed 8 (leNat (slice row (4 + i) 1))
    match scale with
    | .nan => .nan
    | .inf a => if c = 0 then .nan else .inf (a != decide (c < 0))
    | .fin a m => .fin (a != decide (c < 0)) (m * c.natAbs))

/-- The largest finite FP32 value. -/
def maxF32 : Nat := maxMag fmt32

/-- An infinity taken as the largest finite FP32 value. -/
def capInf : FVal → FVal
  | .inf a => .fin a maxF32
  | x => x

/-- R182: an A8 row from its elements, not padded. -/
def packA8 (xs : List FVal) : List Byte :=
  if xs.any isNan then natLE (nanCode fmt32) 4 ++ zeros xs.length
  else
    let ys := xs.map capInf
    let amax := (ys.map (fun y => (unitsOf y).natAbs)).foldl max 0
    if amax = 0 then zeros (4 + xs.length)
    else
      let scale := max (roundMag fmt32 amax 127) (2 ^ quantum fmt32)
      natLE (magCode fmt32 scale) 4 ++
        ys.map (fun y => BitVec.ofInt 8 (satInt (-127) 127 (rheInt (unitsOf y) scale)))

/-! ## Cells (R121 to R129) -/

/-- R121: code bits of a cell format; TN5 packs by base-3 digits. -/
def codeBits : Format → Nat
  | .b8 => 8
  | .b6 => 6
  | .b4 => 4
  | .b3 => 3
  | _ => 2

/-- R122: the symmetric tag of a cell format; the asymmetric tag is one more. -/
def cellTag : Format → Nat
  | .b8 => 1
  | .b6 => 3
  | .b4 => 5
  | .b3 => 7
  | .tn2 => 9
  | _ => 10

/-- B8, B6, B4 and B3 have an asymmetric variant. -/
def hasAsym (f : Format) : Bool := f = .b8 || f = .b6 || f = .b4 || f = .b3

/-- The raw code of element `i` of a cell, as R124 and R125 place it; TN5 codes are trits plus 1. -/
def rawCode (f : Format) (cell : List Byte) (i : Nat) : Nat :=
  if f = .tn5 then (cell.getD (2 + i / 5) 0).toNat / 3 ^ (i % 5) % 3 else field cell (16 + codeBits f * i) (codeBits f)

/-- The signed code of element `i` of a cell. -/
def cellCode (f : Format) (cell : List Byte) (i : Nat) : Int :=
  if f = .tn5 then (rawCode f cell i : Int) - 1 else signed (codeBits f) (rawCode f cell i)

/-- R126: a cell is malformed; only the first `n` of its elements are judged. A TN5 byte that holds a code of any of them is judged
whole (DESIGN CHOICE, log entry 99: the spec does not say which of its trits a byte above 242 spoils). -/
def cellBad (f : Format) (cell : List Byte) (n : Nat) : Bool :=
  let tag := field cell 8 4
  let off := field cell 12 4
  !(tag = cellTag f || (hasAsym f && tag = cellTag f + 1)) || (tag = cellTag f && off ≠ 0) ||
    (f = .tn2 && (List.range n).any (fun i => rawCode f cell i = 2)) ||
    (f = .tn5 && ((List.range (ceilDiv n 5)).any (fun k => decide (243 ≤ (cell.getD (2 + k) 0).toNat)) ||
      (cell.getD 14 0).toNat / 81 ≠ 1))

/-- R128: a NaN cell. -/
def cellNan (cell : List Byte) : Bool := cell.getD 0 0 = 0xFF

/-- R123: the signed offset term of a cell, in code steps. -/
def cellOffset (f : Format) (cell : List Byte) : Int :=
  if hasAsym f ∧ field cell 8 4 = cellTag f + 1 then signed 4 (field cell 12 4) * 2 ^ (codeBits f - 3) else 0

/-- R123: the scale of a cell, in units. -/
def cellScale (cell : List Byte) : Nat := 2 ^ (947 + (cell.getD 0 0).toNat)

/-- R123, R128: the elements of a cell. -/
def cellVals (f : Format) (cell : List Byte) (n : Nat) : List FVal :=
  (List.range n).map (fun i =>
    if cellNan cell then .nan else finOf ((cellCode f cell i + cellOffset f cell) * cellScale cell))

/-- The cells of a row of `n` elements, each with the number of its elements. -/
def cellsOf (f : Format) (row : List Byte) (n : Nat) : List (List Byte × Nat) :=
  (List.range (ceilDiv n 64)).map (fun k => (slice row (k * cellBytes f) (cellBytes f), min 64 (n - 64 * k)))

/-- R126: a packed row holds a malformed cell. -/
def rowBad (f : Format) (row : List Byte) (n : Nat) : Bool := isCell f && (cellsOf f row n).any (fun c => cellBad f c.1 c.2)

/-- An infinity takes part in packing as a value larger than any finite one (R129). -/
def packUnits : FVal → Int
  | .inf a => if a then -(2 ^ 4000) else 2 ^ 4000
  | x => unitsOf x

/-- The smallest `t` with `n ≤ q × 2^t`. -/
def scaleFor (n q : Nat) : Nat := if n ≤ q then 0 else (ceilDiv n q - 1).log2 + 1

/-- R129: the exponent field for a shift of `t` units. -/
def scaleField (t : Nat) : Nat := max 1 (min 254 (t - 947))

/-- R121, R124, R125: a cell from its header and signed codes; codes past the last element are 0. -/
def cellOf (f : Format) (scale tag : Nat) (off : Int) (codes : List Int) : List Byte :=
  let full := codes ++ List.replicate (65 - codes.length) 0
  let payload := if f = .tn5 then
      (List.range 13).map (fun k => BitVec.ofNat 8
        ((List.range 5).map (fun j => (full.getD (5 * k + j) 0 + 1).toNat * 3 ^ j)).sum)
    else natLE (((full.take 64).zipIdx.map (fun (c, i) =>
        (BitVec.ofInt (codeBits f) c).toNat <<< (codeBits f * i))).sum) (cellBytes f - 2)
  [BitVec.ofNat 8 scale, BitVec.ofNat 8 (tag + (BitVec.ofInt 4 off).toNat * 16)] ++ payload

/-- R129: one cell packed from its valid elements; a ternary cell is packed symmetrically whatever is asked. -/
def packCell (f : Format) (asked : Bool) (xs : List FVal) : List Byte :=
  let asym := asked && hasAsym f
  let n := codeBits f
  let qmin : Int := if hasAsym f then -(2 ^ (n - 1)) else -1
  let qmax : Int := if hasAsym f then 2 ^ (n - 1) - 1 else 1
  let tag := cellTag f + bitOf asym
  if xs.any isNan then cellOf f 0xFF (cellTag f) 0 (xs.map (fun _ => 0))
  else
    let us := xs.map packUnits
    let lo := us.foldl min (us.headD 0)
    let hi := us.foldl max (us.headD 0)
    if asym ∧ lo < hi then
      let e := scaleField (scaleFor (hi - lo).toNat (2 ^ n - 1))
      let d := 2 ^ (e + 947)
      let off := satInt (-8) 7 ((rheInt lo d + 2 ^ (n - 1)) / 2 ^ (n - 3))
      cellOf f e tag off (us.map (fun u => satInt qmin qmax (rheInt u d - off * 2 ^ (n - 3))))
    else
      let amax := us.foldl (fun m u => max m u.natAbs) 0
      let e := scaleField (if amax = 0 then 1074 else scaleFor amax qmax.toNat)
      cellOf f e tag 0 (us.map (fun u => satInt qmin qmax (rheInt u (2 ^ (e + 947)))))

/-- A list cut into pieces of `n`. -/
def chunks {α : Type} (n : Nat) : Nat → List α → List (List α)
  | 0, _ => []
  | fuel + 1, xs => if xs = [] then [] else xs.take n :: chunks n fuel (xs.drop n)

/-- R127, R129: a row packed into cells, not padded. -/
def packCells (f : Format) (asym : Bool) (xs : List FVal) : List Byte :=
  ((chunks 64 (ceilDiv xs.length 64) xs).map (packCell f asym)).flatten

/-! ## Rows -/

/-- The values of a packed row: A8 or cells. -/
def packedVals (f : Format) (row : List Byte) (n : Nat) : List FVal :=
  if f = .a8 then a8Vals row n else ((cellsOf f row n).map (fun c => cellVals f c.1 c.2)).flatten

/-- The codes of a row of `n` contiguous elements of an element format. -/
def rowCodes (f : Format) (row : List Byte) (n : Nat) : List Nat :=
  (List.range n).map (fun i => leNat (slice row (i * elemBytes f) (elemBytes f)))

/-- The values of a row of any format. -/
def rowVals (f : Format) (row : List Byte) (n : Nat) : List FVal :=
  if isPacked f then packedVals f row n else (rowCodes f row n).map (elemVal f)

/-- The bytes of element codes. -/
def codesBytes (f : Format) (codes : List Nat) : List Byte := (codes.map (fun c => natLE c (elemBytes f))).flatten

/-- A row of values in any format, not padded. -/
def packRow (f : Format) (asym : Bool) (xs : List FVal) : List Byte :=
  if f = .a8 then packA8 xs else if isCell f then packCells f asym xs else codesBytes f (xs.map (elemCode f))

/-- R118, R182, R184: what NAN_COUNT counts when values are written in a format: NaN into INT32, every element of an A8
row with a NaN, one for each NaN cell. -/
def nansWritten (f : Format) (xs : List FVal) : Nat :=
  if f = .a8 then (if xs.any isNan then xs.length else 0)
  else if isCell f then ((chunks 64 (ceilDiv xs.length 64) xs).filter (fun c => c.any isNan)).length
  else (xs.map (nanToInt f)).sum

end Sys2Proof.Machine
end

