-- ==== Sys2Proof/Machine/Operands.lean ====
section
/-!
DEFINITION. Operands of plan operators: where a descriptor's bytes lie within a step, how rows, elements and masks are
read and written, the page checks made before data moves, merge keys and counters (R25, R29, R36, R131 to R144, R161).
-/

namespace Sys2Proof.Machine

/-! ## The operator at work -/

/-- One operator of the open step of a run. -/
structure Ctx where
  s : State
  p : Plan
  r : Run
  o : OpenStep
  op : Nat
  e : OpEntry
  deriving DecidableEq, Repr

/-- Descriptor `k` of a plan. -/
def descOf (b : PlanBinary) (k : Nat) : Descriptor := b.descs.getD k noDescriptor

def cDesc (c : Ctx) (k : Nat) : Descriptor := descOf c.p.bin k

/-- Field of `width` bits at bit `lo` of the operator's parameter block. -/
def par (c : Ctx) (lo width : Nat) : Nat := field c.e.params lo width

/-- The stage of the operator. -/
def ownStage (c : Ctx) : Nat := stageOfOp c.p.bin c.op

/-- R141: the logical core whose Pools a LOCAL operand is read from: every core of the stage holds the same bytes, and the lowest
one's are taken (log entry 40). -/
def localCore (c : Ctx) : Nat := ((coresOf (c.p.craters.getD (ownStage c) [])).min?).getD 0

/-- The step's machine as the operator sees it: translations, row directory and owner tables as they stood when the step began (R24
to R26). -/
def stepState (c : Ctx) : State :=
  { c.s with
    xlate := c.o.view.xlate
    rowDir := c.o.view.rowDir
    owner := { c.s.owner with active := c.o.view.owner } }

/-! ## Bytes -/

/-- Session bytes as they stood when the step began (R25, R26); an unmapped address reads as zero. -/
def viewRead (s : State) (v : View) (sid va len : Nat) : List Byte :=
  match sget s.sessions sid with
  | none => zeros len
  | some ss =>
    match translateRange v.xlate sid ss needNothing va len with
    | none => zeros len
    | some ps => (ps.map (fun p => moduleRead s.boot.config.windows v.near v.far p.1 p.2)).flatten

/-- Bytes under an overlay of written bytes, from an address. -/
def overlay (base : List Byte) (o : List Host.Cell) (a : Nat) : List Byte :=
  match o.filter (fun x => decide (a ≤ x.1 ∧ x.1 < a + base.length)) with
  | [] => base
  | mine => base.zipIdx.map (fun (b, i) => ((mine.find? (fun x => x.1 == a + i)).map (·.2)).getD b)

/-- R161: the stages whose writes to descriptor `k` the operator sees in the step: those that pass it along an edge to the
operator's own, in ascending order, and its own. -/
def seenStages (c : Ctx) (k : Nat) : List Nat :=
  let g := ownStage c
  ((c.p.bin.edges.filter (fun e => e.desc = k && e.toStage = g)).map (·.fromStage)).dedup.mergeSort (fun a b => decide (a ≤ b)) ++ [g]

/-- Bytes of a memory as the operator sees them under the writes of the step. -/
def seenBytes (c : Ctx) (k : Nat) (m : Memory) (writes : Nat → List Host.Cell) (a n : Nat) : List Byte :=
  (seenStages c k).foldl (fun bs g => overlay bs (writes g) a) (memRead m a n)

/-- R38, R560: where an offset of a STAGING descriptor lies. -/
def stagingKey (p : Plan) (d : Descriptor) (a : Nat) : Nat := stagingAddress p d.stageDie a

/-- Keys of the piece of a descriptor on a core, in the plan and in the writes of a stage. -/
def pieceKey (k core : Nat) : Nat := k * 1024 + core
def pieceWriteKey (g k core : Nat) : Nat := g * 2 ^ 28 + pieceKey k core

/-- R143: where `n` bytes of the padded row layout of a BLOCKED descriptor stand: the owner of the block, if it is of this module,
the offset in its piece, and how many bytes stand there together. -/
def pieceRuns (p : Plan) (k : Nat) (d : Descriptor) : Nat → Nat → Nat → List (Option (Nat × Nat) × Nat)
  | 0, _, _ => []
  | _, _, 0 => []
  | fuel + 1, a, n =>
    let x := spotOf d a
    let m := max 1 (min n x.run)
    let at_ := if x.kept then (blockOwner p k x.blk).map (fun core =>
        (core, (coreBlocks p k core).findIdx (· = x.blk) * blockSize d + x.off)) else none
    (at_, m) :: pieceRuns p k d fuel (a + m) (n - m)

/-- R143, R144: bytes of a BLOCKED descriptor, read from the pieces that its blocks' owners hold. -/
def pieceRead (c : Ctx) (k a n : Nat) : List Byte :=
  (pieceRuns c.p k (cDesc c k) (n + 1) a n).flatMap (fun e =>
    match e.1 with
    | none => zeros e.2
    | some (core, off) =>
      let m := if isEdgeDesc c.p k then [] else (sget c.p.pieces (pieceKey k core)).getD []
      seenBytes c k m (fun g => (sget c.o.pieceWrites (pieceWriteKey g k core)).getD []) off e.2)

/-- R143, R144: bytes of a BLOCKED descriptor, written to the pieces of its blocks' owners. -/
def pieceWrite (k a : Nat) (bs : List Byte) (c : Ctx) : Ctx :=
  let g := ownStage c
  ((pieceRuns c.p k (cDesc c k) (bs.length + 1) a bs.length).foldl
    (fun (acc : Ctx × List Byte) e =>
      let x := acc.1
      ((match e.1 with
        | none => x
        | some (core, off) =>
          let key := pieceWriteKey g k core
          let cells := overWrite ((sget x.o.pieceWrites key).getD []) off (acc.2.take e.2)
          { x with o := { x.o with pieceWrites := sset x.o.pieceWrites key cells } }),
        acc.2.drop e.2)) (c, bs)).1

/-- `n` bytes of descriptor `k` from an address of its space. -/
def dRead (c : Ctx) (k : Nat) (a : Int) (n : Nat) : List Byte :=
  let d := cDesc c k
  match d.space with
  | .session =>
    if isEdgeDesc c.p k then memRead c.o.scratch a.toNat n else viewRead c.s c.o.view c.p.session a.toNat n
  | .staging => seenBytes c k c.s.staging (fun g => (sget c.o.stageWrites g).getD []) (stagingKey c.p d a.toNat) n
  | .blocked => pieceRead c k a.toNat n
  | .localPools =>
    seenBytes c k ((sget c.p.localMem (localCore c)).getD []) (fun g => (sget c.o.localWrites g).getD []) a.toNat n

/-- R141: where a LOCAL descriptor's address lies in a core's Pools: there, or under LANE in each of the 12 lane groups. -/
def laneAddresses (d : Descriptor) (a : Nat) : List Nat :=
  if d.lane then (List.range 12).map (fun i => i * 0x10000 + a) else [a]

/-- R161: bytes written to descriptor `k`: step scratch, the commit buffer, the pieces of the blocks' owners, the staging buffer, or
the Pools of every core of the stage (R141). -/
def dWrite (k : Nat) (a : Int) (bs : List Byte) (c : Ctx) : Ctx :=
  let d := cDesc c k
  let o := c.o
  let g := ownStage c
  match d.space with
  | .session =>
    if isEdgeDesc c.p k then { c with o := { o with scratch := memWrite o.scratch a.toNat bs } }
    else { c with o := { o with commitBuf := overWrite o.commitBuf a.toNat bs } }
  | .staging =>
    let cells := overWrite ((sget o.stageWrites g).getD []) (stagingKey c.p d a.toNat) bs
    { c with o := { o with stageWrites := sset o.stageWrites g cells } }
  | .blocked => pieceWrite k a.toNat bs c
  | .localPools =>
    let cells := (laneAddresses d a.toNat).foldl (fun m x => overWrite m x bs) ((sget o.localWrites g).getD [])
    { c with o := { o with localWrites := sset o.localWrites g cells } }

/-! ## Rows and elements -/

/-- R133: the code of the element at an index vector of an element format. -/
def elemAt (c : Ctx) (k : Nat) (idx : List Int) : Nat :=
  let d := cDesc c k
  leNat (dRead c k (addressOf d idx) (elemBytes d.format))

/-- The data bytes of row `r`: contiguous, or gathered at STRIDE[0] (R131 to R134). -/
def rowRead (c : Ctx) (k r : Nat) : List Byte :=
  let d := cDesc c k
  if isPacked d.format then dRead c k (rowAddress d r) (rowDataBytes d.format (dimOf d 0))
  else if d.rank = 1 then dRead c k (rowAddress d r) (elemBytes d.format)
  else if effStride d 0 = elemBytes d.format then dRead c k (rowAddress d r) (dimOf d 0 * elemBytes d.format)
  else ((List.range (dimOf d 0)).map (fun i =>
    dRead c k (rowAddress d r + (i : Int) * effStride d 0) (elemBytes d.format))).flatten

/-- The values of row `r`. -/
def rowValues (c : Ctx) (k r : Nat) : List FVal := rowVals (cDesc c k).format (rowRead c k r) (rowLen (cDesc c k))

/-- The codes of row `r` of an element format. -/
def rowElems (c : Ctx) (k r : Nat) : List Nat := rowCodes (cDesc c k).format (rowRead c k r) (rowLen (cDesc c k))

/-- R126: a row read holds a malformed cell. -/
def rowMalformed (c : Ctx) (k r : Nat) : Bool := rowBad (cDesc c k).format (rowRead c k r) (rowLen (cDesc c k))

/-- R127: rows are written with their padding; a RANK 1 tensor of an element format has none outside BLOCKED space. -/
def writesPadding (d : Descriptor) : Bool := d.space = .blocked || decide (2 ≤ d.rank) || isPacked d.format

/-- R138, R139: rows of the descriptor written over its own extents meet at the same elements, and REDUCE resolves them. -/
def rowsAlias (d : Descriptor) : Bool :=
  d.space ≠ .blocked && d.aliasOk && !injective (unitBytes d) (ownWriteDims d)

/-- R138: values that meet at one element, in iteration order, combined by MAX: a NaN loses to every number, equal values
resolve to the later one. -/
def combineMax (x y : FVal) : FVal := if isNan y then x else if isNan x ∨ fLe x y then y else x

/-- R138: what an element has gathered, and one more value: in FP32 for floating-point formats, modulo 2^32 for INT32. -/
def gatherValue (red : Nat) (f : Format) (old new : Nat) : Nat :=
  if red = 0 then new
  else if f = .int32 then
    (BitVec.ofInt 32 (if red = 1 then signed 32 old + signed 32 new else max (signed 32 old) (signed 32 new))).toNat
  else toF32 ((if red = 1 then fAdd else combineMax) (ofF32 old) (ofF32 new))

/-- R138: what a value brings to an element: its FP32 pattern, or its code where the format has no other value. -/
def aliasPart (f : Format) (code : Nat) (v : FVal) : Nat := if f = .int32 ∨ !isFloat f then code else toF32 (roundVal fmt32 v)

/-- R118, R138: the code that what has been gathered converts to. -/
def aliasCode (red : Nat) (f : Format) (code gathered : Nat) : Nat :=
  if red = 0 ∨ !isFloat f then (if red = 0 then code else gathered) else elemCode f (ofF32 gathered)

/-- R138: one element of an aliased write; the destination's previous contents take no part. -/
def aliasElem (k : Nat) (a : Int) (code : Nat) (v : FVal) (c : Ctx) : Ctx :=
  let d := cDesc c k
  let key := (c.op, k, a)
  let part := aliasPart d.format code v
  let old := (c.o.aliased.find? (fun e => e.1 = key)).map (·.2)
  let new := match old with
    | none => part
    | some x => gatherValue d.reduce d.format x part
  let out := match old with
    | none => code
    | some _ => aliasCode d.reduce d.format code new
  dWrite k a (natLE out (elemBytes d.format))
    { c with o := { c.o with aliased := (key, new) :: c.o.aliased.filter (fun e => e.1 ≠ key) } }

/-- R127: padding of an aliased row is zero where no element of another row stands. -/
def aliasPad (k : Nat) (a : Int) (n : Nat) (c : Ctx) : Ctx :=
  let w := elemBytes (cDesc c k).format
  (List.range n).foldl
    (fun x i =>
      let b := a + (i : Int)
      if x.o.aliased.any (fun e => e.1.1 = x.op && e.1.2.1 = k && decide (e.1.2.2 ≤ b ∧ b < e.1.2.2 + w)) then x
      else dWrite k b [0] x) c

/-- R133: the address of element `i` of row `r`. -/
def elemAddress (d : Descriptor) (r i : Nat) : Int := rowAddress d r + (i : Int) * effStride d 0

/-- The values of row `r` written where rows may meet at one element (R138), given with their codes. -/
def rowAlias (k r : Nat) (els : List (Nat × FVal)) (c : Ctx) : Ctx :=
  let d := cDesc c k
  let c1 := els.zipIdx.foldl (fun x (e, i) => aliasElem k (elemAddress d r i) e.1 e.2 x) c
  if writesPadding d then
    aliasPad k (rowAddress d r + (els.length * elemBytes d.format : Nat)) (paddedRow d - els.length * elemBytes d.format) c1
  else c1

/-- The data bytes of row `r` written, with its padding (R127), or combined with those of other rows (R138). -/
def rowWrite (k r : Nat) (bs : List Byte) (c : Ctx) : Ctx :=
  let d := cDesc c k
  if rowsAlias d ∧ !isPacked d.format then
    rowAlias k r ((rowCodes d.format bs (rowLen d)).map (fun x => (x, elemVal d.format x))) c
  else
    let full := if writesPadding d then bs.take (paddedRow d) ++ zeros (paddedRow d - bs.length) else bs
    dWrite k (rowAddress d r) full c

/-- R118, R138: the values of row `r` written: converted to the format one by one, or first combined with those of other rows. -/
def valuesWrite (k r : Nat) (vs : List FVal) (c : Ctx) : Ctx :=
  let d := cDesc c k
  if rowsAlias d ∧ !isPacked d.format then rowAlias k r (vs.map (fun v => (elemCode d.format v, v))) c
  else rowWrite k r (codesBytes d.format (vs.map (elemCode d.format))) c

/-- R142, R153: the row's block is worked on here: a FABRIC descriptor's rows in the blocks of other modules are not. -/
def rowHere (c : Ctx) (k r : Nat) : Bool :=
  let d := cDesc c k
  !(d.space = .blocked && d.fabric) || (blockOwner c.p k (blockOf d 0 r)).isSome

/-- The rows of a descriptor that this module works on. -/
def rowsOf (c : Ctx) (k : Nat) : List Nat := (List.range (rowCount (cDesc c k))).filter (rowHere c k)

/-- Rows of a descriptor written, each at its index. -/
def rowsWriteAt (k : Nat) (rows : List (Nat × List Byte)) (c : Ctx) : Ctx := rows.foldl (fun x e => rowWrite k e.1 e.2 x) c

/-- The rows of a descriptor written from a list of rows. -/
def rowsWrite (k : Nat) (rows : List (List Byte)) (c : Ctx) : Ctx := rowsWriteAt k ((rowsOf c k).zip rows) c

/-- What belongs to the rows that this module works on, laid out over all rows of the descriptor. -/
def spreadRows {α : Type} (c : Ctx) (k : Nat) (other : Nat → α) (l : List α) : List α :=
  if (cDesc c k).fabric then
    (List.range (rowCount (cDesc c k))).map (fun r => ((((rowsOf c k).zip l).find? (fun e => e.1 = r)).map (·.2)).getD (other r))
  else l

/-- A linear byte tensor read whole: U8 or INT32 rows in row order. -/
def bytesOf (c : Ctx) (k : Nat) : List Byte := ((rowsOf c k).map (rowRead c k)).flatten

/-- Bytes of a linear byte tensor written from its first byte. -/
def bytesWrite (k : Nat) (bs : List Byte) (c : Ctx) : Ctx :=
  let d := cDesc c k
  let n := rowLen d * elemBytes d.format
  if d.rank = 1 ∧ effStride d 0 = elemBytes d.format then dWrite k (rowAddress d 0) bs c
  else ((chunks n (ceilDiv bs.length (max n 1)) bs).zipIdx).foldl (fun x (row, r) => rowWrite k r row x) c

/-- `n` bytes of a RANK 1 byte tensor from element `off`. -/
def linearRead (c : Ctx) (k off n : Nat) : List Byte :=
  let d := cDesc c k
  if effStride d 0 = 1 then dRead c k (addressOf d [(off : Int)]) n
  else ((List.range n).map (fun i => dRead c k (addressOf d [((off + i : Nat) : Int)]) 1)).flatten

/-- Bytes of a RANK 1 byte tensor written from element `off`. -/
def linearWrite (k off : Nat) (bs : List Byte) (c : Ctx) : Ctx :=
  let d := cDesc c k
  if effStride d 0 = 1 then dWrite k (addressOf d [(off : Int)]) bs c
  else bs.zipIdx.foldl (fun x (b, i) => dWrite k (addressOf d [((off + i : Nat) : Int)]) [b] x) c

/-! ## Masks (R264) -/

/-- The row is selected by a mask operand, or there is none. -/
def maskBit (c : Ctx) (mask : Option Nat) (r : Nat) : Bool :=
  match mask with
  | none => true
  | some k => (leNat (rowRead c k (r / 64))).testBit (r % 64)

/-- A mask is written; bits past the last row are zero. -/
def maskWrite (k : Nat) (sel : List Bool) (c : Ctx) : Ctx :=
  ((chunks 64 (ceilDiv sel.length 64) sel).zipIdx).foldl
    (fun x (w, i) => rowWrite k i (natLE ((w.zipIdx.map (fun (b, j) => bitOf b <<< j)).sum) 8) x) c

/-! ## Checks before data moves (R36, R188, R449) -/

/-- The address ranges that the rows of a descriptor touch over its own extents; writes touch their padding too (R127). -/
def touchedRows (write : Bool) (d : Descriptor) : List (Int × Nat) :=
  (List.range (rowCount d)).flatMap (fun r =>
    if d.rank = 1 ∨ isPacked d.format ∨ effStride d 0 = elemBytes d.format then
      [(rowAddress d r, if d.rank = 1 ∧ !isPacked d.format then elemBytes d.format
        else if write ∧ writesPadding d then paddedRow d else rowDataBytes d.format (dimOf d 0))]
    else (List.range (dimOf d 0)).map (fun i => (rowAddress d r + (i : Int) * effStride d 0, elemBytes d.format)))

/-- A touched range translates with a permission and its far-tier pieces are reachable. -/
def rangeOk (s : State) (v : View) (sid : Nat) (n : Need) (a : Int) (len : Nat) : Bool :=
  match sget s.sessions sid with
  | none => false
  | some ss =>
    decide (0 ≤ a) &&
      (match translateRange v.xlate sid ss n a.toNat len with
      | none => false
      | some ps => farPiecesOk s ps n.write)

/-- R36: every page that a descriptor's rows touch is checked, whatever space it is translated in. -/
def descPagesOk (c : Ctx) (k : Nat) (n : Need) : Bool :=
  let d := cDesc c k
  d.space ≠ .session || (touchedRows n.write d).all (fun t => rangeOk c.s c.o.view c.p.session n t.1 t.2)

/-- R36: READ for the inputs and WRITE for the outputs of the operator. -/
def operandPagesOk (c : Ctx) : Bool :=
  ([c.e.in0, c.e.in1, c.e.in2].filterMap id).all (fun k => descPagesOk c k needRead) &&
    ([c.e.out0, c.e.out1].filterMap id).all (fun k => descPagesOk c k needWrite)

/-- R449: a sector that a module range covers in part or whole is poisoned. -/
def poisonedIn (ps : List Nat) (a n : Nat) : Bool := ps.any (fun p => overlaps a n (p * 64) 64)

/-- R321, R449: a session range meets a poisoned sector. -/
def sessionPoisoned (s : State) (v : View) (sid va len : Nat) : Bool :=
  match sget s.sessions sid with
  | none => false
  | some ss =>
    ((translateRange v.xlate sid ss needNothing va len).getD []).any (fun p => poisonedIn v.poison p.1 p.2)

/-- R457: sectors of a session range that lie on bypassed positions. -/
def sessionGone (s : State) (v : View) (sid va len : Nat) : List Nat :=
  if bypassed s = [] then []
  else match sget s.sessions sid with
  | none => []
  | some ss => ((translateRange v.xlate sid ss needNothing va len).getD []).flatMap (fun p => goneSectors s p.1 p.2)

/-- R447, R449, R457: a session range cannot be read: a sector of it is poisoned, or lies on a bypassed position. -/
def sessionBad (s : State) (v : View) (sid va len : Nat) : Bool := sessionPoisoned s v sid va len || sessionGone s v sid va len != []

/-- R446, R447, R449: an input that is neither an edge nor a table holds a poisoned sector. -/
def inputPoisoned (c : Ctx) (k : Nat) : Bool :=
  let d := cDesc c k
  match d.space with
  | .session =>
    !isEdgeDesc c.p k &&
      (touchedRows false d).any (fun t => sessionBad c.s c.o.view c.p.session t.1.toNat t.2)
  | .staging =>
    (touchedRows false d).any (fun t => poisonedIn c.s.err.poison (0x210000000000 + stagingKey c.p d t.1.toNat) t.2)
  | _ => false

/-- An input of the operator is poisoned. -/
def anyPoisoned (c : Ctx) : Bool := ([c.e.in0, c.e.in1, c.e.in2].filterMap id).any (inputPoisoned c)

/-! ## Counters -/

/-- An extension counter of the operator counts up (R173). -/
def bump (id n : Nat) (c : Ctx) : Ctx :=
  { c with o := { c.o with counters := { c.o.counters with ext := addExt c.op id n c.o.counters.ext } } }

/-- Several extension counters. -/
def bumps (l : List (Nat × Nat)) (c : Ctx) : Ctx := l.foldl (fun x e => bump e.1 e.2 x) c

/-- An extension counter of the operator is set (R241, R250, R261). -/
def setExt (id n : Nat) (c : Ctx) : Ctx :=
  { c with o := { c.o with counters := { c.o.counters with
      ext := addExt c.op id n (c.o.counters.ext.filter (fun e => e.1 ≠ (c.op, id))) } } }

/-- Several extension counters are set. -/
def setExts (l : List (Nat × Nat)) (c : Ctx) : Ctx := l.foldl (fun x e => setExt e.1 e.2 x) c

/-- The operator's own extension counter as it stands. -/
def extOf (c : Ctx) (id : Nat) : Nat := ((c.o.counters.ext.find? (fun e => e.1 = (c.op, id))).map (·.2)).getD 0

/-- NAN_COUNT counts up. -/
def countNans (n : Nat) (c : Ctx) : Ctx :=
  { c with o := { c.o with counters := { c.o.counters with nanCount := c.o.counters.nanCount + n } } }

/-- IDX_DROPPED counts up. -/
def countDrops (n : Nat) (c : Ctx) : Ctx :=
  { c with o := { c.o with counters := { c.o.counters with idxDropped := c.o.counters.idxDropped + n } } }

/-- ROWS_POISONED counts up. -/
def countPoisoned (n : Nat) (c : Ctx) : Ctx :=
  { c with o := { c.o with counters := { c.o.counters with rowsPoisoned := c.o.counters.rowsPoisoned + n } } }

/-- SAMPLES_REJECTED counts up. -/
def countRejected (n : Nat) (c : Ctx) : Ctx :=
  { c with o := { c.o with counters := { c.o.counters with samplesRejected := c.o.counters.samplesRejected + n } } }

/-! ## Ranks and merge keys (R29, R31, R416) -/

/-- R416: the ranks below a plan's FABRIC_RANKS that this module holds. -/
def ranksHeld (s : State) (n : Nat) : List Nat :=
  (List.range n).filter (fun r => (sget s.owner.active.ranks r).any (fun e => e.module = s.fabric.moduleId))

/-- R416: the rank that a module acts under with what no block's owner entry gives a rank: its own number, which RANK starts out
equal to (R21), or the lowest rank it holds (DEDUCED, log entry 97). -/
def selfRank (s : State) (n : Nat) : Nat :=
  let l := ranksHeld s n
  if l.contains s.fabric.moduleId then s.fabric.moduleId else l.headD 0

/-- R29, R31: the rank of the block that holds a row: its fabric owner entry, the module's own rank, or 0 on one module. -/
def rankOf (c : Ctx) (k r : Nat) : Nat :=
  let d := cDesc c k
  if c.p.bin.fabricRanks ≤ 1 then 0
  else if d.fabric then ((sget c.o.view.owner.fabric (d.fabricMapBase + blockOf d 0 r)).map (·.rank)).getD 0
  else selfRank (stepState c) c.p.bin.fabricRanks

/-- R29: the source core of a row. -/
def sourceCore (c : Ctx) (k r : Nat) : Nat :=
  let d := cDesc c k
  if d.space = .blocked then ownerOfBlock c.p k (blockOf d 0 r) else r / 2 ^ 32 % 1024

/-- R29: slots of the batch in order of position: valid ones by sample ID, then the others by slot. -/
def positionOrder (b : Batch) : List Nat :=
  let slots := b.slots.zipIdx
  ((slots.filter (fun e => e.1.valid)).mergeSort (fun x y => decide (x.1.ident.toNat ≤ y.1.ident.toNat))).map (·.2) ++
    ((slots.filter (fun e => !e.1.valid)).map (·.2))

/-- R29: the index of a row within its source block. -/
def rowInBlock (d : Descriptor) (r : Nat) : Nat := if d.block2d then r % dimOf d 1 % 64 else r % 64

/-- R29: the position of a row: of its sample in the batch where the operand has a row for each slot (DEDUCED, log entry
41), else its index in its block, or in the tensor. -/
def sourcePos (c : Ctx) (k r : Nat) : Nat :=
  let d := cDesc c k
  match c.o.batch with
  | some b =>
    if b.slots.length = rowCount d then (positionOrder b).findIdx (· = r)
    else if d.space = .blocked then rowInBlock d r else r % 2 ^ 32
  | none => if d.space = .blocked then rowInBlock d r else r % 2 ^ 32

/-- Where a row's kept key components stand. -/
def rowKeyAt (k r : Nat) : Nat := k * 2 ^ 41 + r

/-- R29, R295: source rank, source core and position of a row: those it kept across an exchange, or its own. -/
def keyParts (c : Ctx) (k r : Nat) : Nat × Nat × Nat :=
  (sget c.o.rowKeys (rowKeyAt k r)).getD (rankOf c k r, sourceCore c k r, sourcePos c k r)

/-- R29, R323: the key of a contribution of row `r`. -/
def mergeKey (c : Ctx) (k r j : Nat) : MergeKey where
  step := c.p.nextStep
  rank := (keyParts c k r).1
  core := (keyParts c k r).2.1
  pos := (keyParts c k r).2.2
  op := c.op
  j := j

/-- R295: the rows of a descriptor take key components, in place of all that it had. -/
def putKeys (k : Nat) (l : List (Nat × Nat × Nat × Nat)) (c : Ctx) : Ctx :=
  let rest := c.o.rowKeys.filter (fun (e : Nat × Nat × Nat × Nat) => decide (e.1 / 2 ^ 41 ≠ k))
  { c with o := { c.o with rowKeys := l.foldl (fun m e => sset m (rowKeyAt k e.1) e.2) rest } }

/-- R295: rows that an operator takes one by one to another descriptor keep what they had kept. -/
def keepKeys (i o : Nat) (c : Ctx) : Ctx :=
  if i = o ∨ c.o.rowKeys.isEmpty then c
  else putKeys o ((rowsOf c i).filterMap (fun r => (sget c.o.rowKeys (rowKeyAt i r)).map (fun x => (r, x)))) c

/-- The lexicographic order of lists of numbers. -/
def lexLe : List Nat → List Nat → Bool
  | [], _ => true
  | _ :: _, [] => false
  | a :: as, b :: bs => decide (a < b) || (decide (a = b) && lexLe as bs)

/-- The order of R29, and of R323 among equal keys. -/
def keyLe (a b : MergeKey) : Bool :=
  lexLe [a.step, a.rank, a.core, a.pos, a.op, a.j] [b.step, b.rank, b.core, b.pos, b.op, b.j]

/-- The rows of an operand in canonical order (R29). -/
def canonicalRows (c : Ctx) (k : Nat) : List Nat :=
  (rowsOf c k).mergeSort (fun a b => keyLe (mergeKey c k a 0) (mergeKey c k b 0))

/-- R218: a row of a tensor with a row for each slot of the batch is invalid. -/
def rowInvalid (c : Ctx) (k r : Nat) : Bool :=
  match c.o.batch with
  | some b =>
    b.slots.length = rowCount (cDesc c k) && !((b.slots[r]?).map (·.valid)).getD true
  | none => false

/-! ## What an operator leaves -/

/-- How an operator command ends: done, failed with a status, suspended on output, waiting for a partner, or with a
detection that replays the step. -/
inductive OpEnd where
  | done (c : Ctx)
  | fail (st : Status)
  /-- failed, with extension counters of its own that tell of the failure (R239, R261) -/
  | failWith (c : Ctx) (st : Status)
  | suspend (c : Ctx)
  /-- SCAN finds no record left: the step does not run and the run ends (R213) -/
  | noInput
  | hold (c : Ctx)
  | detected (c : Ctx) (unit : Option (BitVec 32))

end Sys2Proof.Machine
end

