-- ==== Sys2Proof/Machine/OpRun.lean ====
section
/-!
DEFINITION. How an operator of the open step runs: when it is ready, what the faults that its reads meet do, halts,
breakpoints and watchpoints, what check taps see of it, and how it ends (R150, R161, R166, R253, R254, R446 to R450, R511,
R513).
-/

namespace Sys2Proof.Machine

/-! ## Bad sectors (R447, R448) -/

/-- R446, R447: a bad sector that a read of a plan's step met: it is charged to its position, or in the weight staging
buffer to the die, and handled by what it holds. -/
def badSector (h : Word) (a : Nat) (s : State) : State × SectorEnd :=
  let sector := a / 64
  let step := (planOf s h).map (fun p => (h, p.nextStep))
  if 0x210000000000 ≤ a then
    (poisonSector sector (chargeRate (unitId 13 ((a - 0x210000000000) / 0x4000000)) step s), .endRun)
  else
    let unit := unitId 3 (positionOf s a)
    match sessionVaOf s a with
    | none => (detect h (some unit) s, .replay)
    | some (sid, va) => heldSector sid va sector (chargeRate unit step s)

/-- What the faults of an operator's reads leave: the state, whether the attempt drains, whether the reader waits, and
whether the run ends POISONED. -/
structure FaultsLeft where
  s : State
  replay : Bool
  wait : Bool
  poisoned : Bool

/-- R443 to R448: the faults that the reads of an operator or of a commit met. -/
def applyFaults (h : Word) (f : ReadFaults) (s : State) : FaultsLeft :=
  let s0 := { s with err := { s.err with sectorRereads := s.err.sectorRereads + f.rereads, linkRetries := s.err.linkRetries + f.linkRetries } }
  let s1 := f.units.foldl (fun x u => if unitValid u then detect h (some u) x else x) s0
  let s2 := if f.farFail then detect h none s1 else s1
  let start : FaultsLeft :=
    { s := s2, replay := f.farFail || f.units.any unitValid, wait := false, poisoned := false }
  f.badSectors.foldl
    (fun acc n =>
      let r := badSector h (n * 64) acc.s
      { s := r.1
        replay := acc.replay || r.2 = .replay
        wait := acc.wait || r.2 = .refetch
        poisoned := acc.poisoned || r.2 = .endRun }) start

/-- R449: marks that this step's reads set are seen in the step. -/
def refreshPoison (h : Word) (s : State) : State :=
  onStep h (fun o => { o with view := { o.view with poison := (o.view.poison ++ s.err.poison).dedup } }) s

/-! ## When an operator is ready -/

/-- R448: a sector of the plan's tables is being refetched, and its readers wait for the answer. -/
def waitsRefetch (s : State) (p : Plan) : Bool :=
  !p.bin.binds.isEmpty && s.twin.refetches.any (fun x =>
    (sessionVaOf s (x.sector * 64)).any (fun e => decide (e.1 = p.session)))

/-- R23: an operator whose requests were dropped is marked in the step's inbox: nothing is returned to it. -/
def droppedKind : Nat := 0x2FE

def opDropped (o : OpenStep) (op : Nat) : Bool := o.inbox.any (fun a => a.kind = droppedKind && a.op = op)

/-- R153: two CORE stages share cores. -/
def stagesShare (p : Plan) (j k : Nat) : Bool :=
  let craters (i : Nat) : List Nat := ((stageOps (stageAt p.bin i)).flatMap (fun o => (((p.bin.ops[o]?).map opDescs).getD []).flatMap
    (fun d => ((sget p.owners d).getD []).map (fun (x : Nat × Nat × Nat) => x.1 / 32)))) ++ p.craters.getD i []
  (stageAt p.bin j).cls = .core && (stageAt p.bin k).cls = .core && (craters j).any (craters k).contains

/-- R147, R153, R161: the operators before it in its stage are done, and so is every stage with an edge to it and every lower CORE
stage that shares its cores. -/
def opFree (p : Plan) (o : OpenStep) (op : Nat) : Bool :=
  let k := stageOfOp p.bin op
  !o.done.contains op && o.detections.isEmpty && !o.committed && !opDropped o op &&
    (stageOps (stageAt p.bin k)).all (fun j => decide (op ≤ j) || o.done.contains j) &&
    (List.range k).all (fun j => !stagesShare p j k || (stageOps (stageAt p.bin j)).all o.done.contains) &&
    p.bin.edges.all (fun e => decide (e.toStage ≠ k) || (stageOps (stageAt p.bin e.fromStage)).all o.done.contains)

/-- R347: an operator whose weights go over the Lava tree. -/
def usesTree (p : Plan) (op : Nat) : Bool := (p.bin.ops[op]?).any (fun e => e.op = .dense || e.op = .denseGrad)

/-- The dies that a stage runs on. -/
def treeDies (p : Plan) (k : Nat) : List Nat := ((p.craters.getD k []).map (· / 16)).dedup

/-- R347: no operator that comes before it is ready for the Lava tree of a die that it needs. -/
def treeTurn (p : Plan) (o : OpenStep) (op : Nat) : Bool :=
  !usesTree p op || (List.range op).all (fun j =>
    !(usesTree p j && opFree p o j && (treeDies p (stageOfOp p.bin j)).any (treeDies p (stageOfOp p.bin op)).contains))

/-- R147, R153, R161, R347: an operator may start. -/
def opReady (p : Plan) (o : OpenStep) (op : Nat) : Bool := opFree p o op && treeTurn p o op

/-- Crater and slot of every core that runs a CORE stage of a plan. -/
def stageSlots (s : State) (p : Plan) (k : Nat) : List (Nat × Nat) :=
  if (stageAt p.bin k).cls ≠ .core then []
  else (stageCores p k).map (fun l =>
    let host := hostCore p l
    (host / 32, slotOfRole s (host / 32) (host % 32)))

/-! ## Requests for blocks (R16, R23) -/

/-- The descriptors of an operator's BLOCKED operands. -/
def blockedOperands (c : Ctx) : List Nat := (opDescs c.e).filter (fun k => (cDesc c k).space = .blocked)

/-- R16: an operator asks for a block with no valid owner entry. -/
def blocksRefused (c : Ctx) : Bool := (blockedOperands c).any (blocksLost c.s.fabric.moduleId c.o.view.owner c.p)

/-- R23: the requests of an operator's cores that the crater drops: a core of a CORE stage asks once for each of its blocks. -/
def requestsDropped (c : Ctx) : Nat :=
  if (stageAt c.p.bin (ownStage c)).cls ≠ .core then 0
  else ((blockedOperands c).map (staleRequests c.s.fabric.moduleId c.o.view c.p)).sum

/-- R23: dropped requests return nothing: they are counted, and the operator does not go on in this attempt. -/
def dropRequests (h : Word) (op n : Nat) (s : State) : State :=
  onStep h (fun o => { o with inbox := o.inbox ++
    [{ kind := droppedKind, op := op, phase := 0, src := 0, dst := 0, total := 0, data := [] }] }) (countStale h n s)

/-- A slot bit of one of the debug registers. -/
def slotBit (m : Sparse (BitVec 33)) (x : Nat × Nat) : Bool := bit ((sget m x.1).getD 0) x.2

/-- A slot bit written. -/
def putSlot (b : Bool) (x : Nat × Nat) (m : Sparse (BitVec 33)) : Sparse (BitVec 33) :=
  sset m x.1 (putBit ((sget m x.1).getD 0) x.2 b)

/-- R511, R513: a core that takes part is halted. -/
def anyHalted (s : State) (l : List (Nat × Nat)) : Bool := l.any (slotBit s.dbg.halted)

/-- R511: breakpoints that stop the cores of a stage before an operator; a core that has been resumed passes the one it
stopped at (DESIGN CHOICE, log entry 42). -/
def breakHits (s : State) (p : Plan) (k op : Nat) : List (Nat × Nat) :=
  s.dbg.breakpoints.flatMap (fun e =>
    let b := e.2
    if b.enable ∧ b.plan = p.handle ∧ b.stage = k ∧ b.op = op then
      ((stageSlots s p k).filter (fun x => x.1 / 16 = e.1 / 4 && !slotBit s.dbg.resumed x)).map (fun x => (e.1, x.1 * 33 + x.2))
    else [])

/-- R511: the cores halt at a breakpoint, which records the hit. -/
def applyBreaks (hits : List (Nat × Nat)) (s : State) : State :=
  { s with dbg := { s.dbg with
      halted := hits.foldl (fun m e => putSlot true (e.2 / 33, e.2 % 33) m) s.dbg.halted
      breakpoints := s.dbg.breakpoints.map (fun b =>
        if hits.any (fun e => e.1 = b.1) then (b.1, { b.2 with hit := true }) else b) } }

/-- R511: cores resumed for one operator halt again after it, and so do those with a halt request; every core that ran is past its
breakpoint. -/
def afterOp (l : List (Nat × Nat)) (s : State) : State :=
  let stop := l.filter (fun x => slotBit s.dbg.stepping x || slotBit s.dbg.haltReq x)
  { s with dbg := { s.dbg with
      halted := stop.foldl (fun m x => putSlot true x m) s.dbg.halted
      stepping := l.foldl (fun m x => if slotBit m x then putSlot false x m else m) s.dbg.stepping
      resumed := l.foldl (fun m x => if slotBit m x then putSlot false x m else m) s.dbg.resumed } }

/-! ## Watchpoints (R511) -/

/-- R511: an operator's accesses match a watchpoint of crater `e.1 / 4`: a LOCAL operand by its addresses; where firmware
places the pieces of BLOCKED operands is not stated, so a match with one is a free value. -/
def watchHit (c : Ctx) (l : List (Nat × Nat)) (e : Nat × Watch) : Bool :=
  let w := e.2
  let here := l.filter (fun x => x.1 = e.1 / 4)
  let ins := [c.e.in0, c.e.in1, c.e.in2].filterMap id
  let outs := [c.e.out0, c.e.out1].filterMap id
  let hitLocal (k : Nat) : Bool :=
    (cDesc c k).space = .localPools &&
      (touchedRows true (cDesc c k)).any (fun t => here.any (fun x =>
        overlaps (0x200000000000 + (x.1 * 33 + x.2) * 0x100000 + t.1.toNat) t.2 w.addr.toNat (2 ^ w.lenLog2)))
  let hitPiece (k : Nat) : Bool :=
    (cDesc c k).space = .blocked && bit (Config.freeValue (c.s.freeCount + e.1)) 0
  w.enable && !here.isEmpty &&
    ((w.read && ins.any (fun k => hitLocal k || hitPiece k)) || (w.write && outs.any (fun k => hitLocal k || hitPiece k)))

/-- R511: watchpoints that match record it, halt the core that owns the Pool, or fire the trigger. -/
def applyWatches (c : Ctx) (l : List (Nat × Nat)) (s : State) : State :=
  let hits := s.dbg.watches.filter (fun e => watchHit c l e)
  let s1 := if s.dbg.watches.isEmpty then s else takeFresh 128 s
  hits.foldl
    (fun x e =>
      let owner := (e.2.addr.toNat - 0x200000000000) / 0x100000
      let y := { x with dbg := { x.dbg with
        watches := sset x.dbg.watches e.1 { e.2 with hit := true }
        halted := if e.2.action = 1 then x.dbg.halted else putSlot true (owner / 33, owner % 33) x.dbg.halted } }
      if e.2.action = 0 then y else fire srcDebug y) s1

/-! ## Where a stage runs (R152) -/

/-- R152: the dies that DIES names. -/
def planDies (s : State) (b : PlanBinary) : List Nat :=
  if s.boot.oneDie ∧ b.dies = 0 then [s.boot.leadDie] else [0, 1].filter (fun d => b.dies = 0 || d + 1 = b.dies)

/-- R456: the dies whose Spring runs a plan's SPRING stages; a retired Spring's stages run on the other die's. -/
def springDies (s : State) (b : PlanBinary) : List Nat :=
  let works (d : Nat) : Bool := !isRetired s (unitId 7 d)
  let l := (planDies s b).filter works
  if l = [] then [0, 1].filter works else l

/-- A piece of an operand cut where the interleave moves on: virtual address, module address and length of each grain. -/
def grains : Nat → Nat → Nat → Nat → List (Nat × Nat × Nat)
  | 0, _, _, _ => []
  | _, _, _, 0 => []
  | fuel + 1, va, a, n =>
    let k := min n (2048 - a % 2048)
    (va, a, k) :: grains fuel (va + k) (a + k) (n - k)

/-- The grains of address ranges of a session under a translation. -/
def rangeGrains (s : State) (xlate : Sparse XlateEntry) (sid : Nat) (l : List (Nat × Nat)) : List (Nat × Nat × Nat) :=
  match sget s.sessions sid with
  | none => []
  | some ss =>
    l.flatMap (fun t => (piecesOf t.1 t.2).flatMap (fun pc =>
      match translate xlate sid ss needNothing pc.1 with
      | none => []
      | some a => grains (pc.2 / 2048 + 2) pc.1 a pc.2))

/-- The session addresses that the rows of a descriptor touch. -/
def sessionRanges (d : Descriptor) : List (Nat × Nat) :=
  if d.space = .session then (touchedRows false d).map (fun t => (t.1.toNat, t.2)) else []

/-- R152: the dies of the Vents that hold bytes of an operator's operands; where step scratch lies is not stated, so an edge descriptor
may have a Vent of either die work (DESIGN CHOICE, log entry 64). -/
def ventDies (s : State) (p : Plan) (e : OpEntry) : List Nat :=
  ((opDescs e).flatMap (fun k =>
    if isEdgeDesc p k then planDies s p.bin
    else ((rangeGrains s s.xlate p.session (sessionRanges (descOf p.bin k))).filter (fun g => decide (g.2.1 < nearEnd))).map
      (fun g => positionOf s g.2.1 / 6))).dedup

/-- R152: the dies of the fabric ports that the routes to the modules of a plan's ranks take. -/
def routeDies (s : State) (b : PlanBinary) : List Nat :=
  let modules := ((List.range b.fabricRanks).filterMap (fun r => (sget s.owner.active.ranks r).map (·.module))).filter
    (fun m => decide (m ≠ s.fabric.moduleId))
  (modules.flatMap (fun m =>
    let r : BitVec 16 := (sget s.fabric.routes m).getD 0
    if bit r 15 then ((List.range 6).filter (bit r)).map (· / 3) else [])).dedup

/-- R152: the dies that operator `op` of a plan runs on. -/
def opDies (s : State) (p : Plan) (op : Nat) : List Nat :=
  match (stageAt p.bin (stageOfOp p.bin op)).cls with
  | .core => ((stageCores p (stageOfOp p.bin op)).map (fun l => hostCore p l / 512)).dedup
  | .vent => ((p.bin.ops[op]?).map (ventDies s p)).getD []
  | .spring => springDies s p.bin
  | .host => [s.boot.leadDie]
  | .fabric => routeDies s p.bin
  | _ => planDies s p.bin

/-! ## Check taps (R253, R254) -/

/-- R253: ranges of a session's addresses that a unit reads pass the Vent of their position, and far-tier ones their CXL port, with the
bytes that `bytes` gives. -/
def foldRanges (c : Ctx) (vent : Bool) (bytes : Nat → Nat → List Byte) (l : List (Nat × Nat)) (s : State) : State :=
  (rangeGrains c.s c.o.view.xlate c.p.session l).foldl
    (fun x g =>
      let bs := bytes g.1 g.2.2
      if g.2.1 < nearEnd then
        if vent then foldStream 1 (positionOf x g.2.1 / 6) (positionOf x g.2.1) c.p.session g.1 bs x else x
      else match farWindow x.boot.config.windows g.2.1 with
        | none => x
        | some w => foldStream 6 (farPort x w g.2.1) (farPort x w g.2.1) c.p.session g.1 bs x) s

/-- R152: the class of the operator's stage. -/
def classOf (c : Ctx) : StageClass := (stageAt c.p.bin (ownStage c)).cls

/-- R253: what an operator reads of a session operand that is no edge, in row order (DEDUCED, log entry 64). -/
def foldReads (c : Ctx) (k : Nat) (s : State) : State :=
  if isEdgeDesc c.p k then s
  else foldRanges c (classOf c = .vent) (fun va n => dRead c k va n) (sessionRanges (cDesc c k)) s

/-- Bytes of address ranges that lie in a tap's window. -/
def windowBytes (t : Tap) (l : List (Nat × Nat)) : Nat :=
  (l.map (fun x => min (x.1 + x.2) (t.va + t.len) - max x.1 t.va)).sum

/-- R254: a tap that may have seen up to so many bytes, in an order that is not stated: free values, but a tap whose SEQ_FAULT is set
folds nothing. -/
def freeTap (v : Nat → Word) (most : Nat) (t : Tap) : Tap :=
  if t.seqFault ∨ most = 0 then t
  else
    { t with
      running := BitVec.ofNat 64 ((v 0).toNat % 2 ^ tapWidth t.poly)
      byteCount := t.byteCount + (v 1).toNat % (most + 1)
      seqFault := !t.arrival && bit (v 2) 0 }

/-- R253, R254: which unit takes a beat, or in which order beats pass it, is not stated: the taps of the session that `sees` gives some
bytes hold free values (DESIGN CHOICE, log entry 64). -/
def freeTaps (sid : Nat) (sees : Nat → Tap → Nat) (s : State) : State :=
  if !s.taps.any (fun t => t.attached && decide (t.session = sid)) then s
  else
    takeFresh 192 { s with
      taps := s.taps.zipIdx.map (fun (t, i) =>
        if t.attached ∧ t.session = sid then freeTap (fun j => Config.freeValue (s.freeCount + 3 * i + j)) (sees i t) t else t) }

/-- R253: the streams whose unit or order the hardware chooses, by the class of the stage, and the operands that pass them; edge
descriptors lie in step scratch, whose positions are not stated. -/
def freeStreams (c : Ctx) : List (Nat × List Nat) :=
  let ins := [c.e.in0, c.e.in1, c.e.in2].filterMap id
  let outs := [c.e.out0, c.e.out1].filterMap id
  match classOf c with
  | .vent => [(1, ins.filter (isEdgeDesc c.p)), (2, outs)]
  | .pumice => [(3, ins), (4, outs)]
  | .spring => [(5, ins)]
  | .layout => [(8, outs)]
  | _ => []

/-- R253: addresses of the storage, the indexes and the hot frames of the tables that a plan binds. -/
def tableRanges (s : State) (p : Plan) : List (Nat × Nat) :=
  (boundSlots p).flatMap (fun b => ((tableOf s b.1).map (fun e =>
    ((slotOf e b.2.1).storeVa.toNat, e.rows * rowBytesOf e) ::
      ((if e.hashed then [((slotOf e b.2.1).indexVa.toNat, 64 + 16 * 2 ^ e.log2Index)] else []) ++
        (e.policy.map (fun q => (q.hotVa, q.hotFrames * (2 ^ e.log2Block * rowBytesOf e)))).toList))).getD [])

/-- R317, R319: operators that look up rows of bound tables. -/
def looksUp (c : Ctx) : Bool := c.e.op = .gather || c.e.op = .poolGather || c.e.op = .scatterUpdate

/-- R253: a unit of the stream stands on a die that the operator runs on. -/
def tapOnDies (dies : List Nat) (stream i : Nat) : Bool := (streamDie stream 0).isSome || dies.contains (tapDie i)

/-- R253, R254: what the taps of a session see of an operator that is done, its own streams aside for those that have them. -/
def foldTaps (c : Ctx) (s : State) : State :=
  let own : Bool := c.e.op = .check || c.e.op = .scan || c.e.op = .relayout
  if own ∨ !s.taps.any (fun t => t.attached && decide (t.session = c.p.session)) then s
  else
    let dies := opDies c.s c.p c.op
    let s1 := ([c.e.in0, c.e.in1, c.e.in2].filterMap id).foldl (fun x k => foldReads c k x) s
    let s2 := freeTaps c.p.session (fun i t =>
      ((freeStreams c).map (fun e => if e.1 = t.stream ∧ tapOnDies dies e.1 i then
        windowBytes t (e.2.flatMap (fun k => sessionRanges (cDesc c k))) else 0)).sum) s1
    if looksUp c then
      freeTaps c.p.session (fun _ t => if t.stream = 1 ∨ t.stream = 6 then windowBytes t (tableRanges c.s c.p) else 0) s2
    else s2

/-- R253, R254: an operator that does not finish has read and written what it had come to, which is not stated: taps that watch its
operands hold free values (DESIGN CHOICE, log entry 64). -/
def foldBroken (c : Ctx) (s : State) : State :=
  let dies := opDies c.s c.p c.op
  let streams := match classOf c with
    | .vent => [1, 2, 6]
    | .pumice => [3, 4, 6]
    | .spring => [5, 6]
    | .layout => [6, 8]
    | _ => [6]
  freeTaps c.p.session (fun i t =>
    if streams.contains t.stream && tapOnDies dies t.stream i then
      windowBytes t ((opDescs c.e).flatMap (fun k => sessionRanges (cDesc c k)) ++ (if looksUp c then tableRanges c.s c.p else []))
    else 0) s

/-! ## Running -/

/-- The context of an operator of the open step. -/
def ctxOf (s : State) (h : Word) (op : Nat) : Option Ctx :=
  (planOf s h).bind (fun p => p.run.bind (fun r => r.openStep.bind (fun o => (p.bin.ops[op]?).map (fun e =>
    { s := s, p := p, r := r, o := o, op := op, e := e }))))

/-- The operator's context becomes the state: its step, and what it changed beside it. -/
def installStep (h : Word) (c : Ctx) : State := onStep h (fun _ => c.o) c.s

/-- The operator is marked done; what the twin delivered to it is not kept (R457). -/
def markDone (c : Ctx) : Ctx := { c with o := { c.o with done := c.op :: c.o.done, fetched := [] } }

/-- An operator that has begun and waits, for another module or for room, is marked in the step's inbox. -/
def heldKind : Nat := 0x2FF

def opHeld (o : OpenStep) (op : Nat) : Bool := o.inbox.any (fun a => a.kind = heldKind && a.op = op)

def heldStep (op : Nat) (o : OpenStep) : OpenStep :=
  if opHeld o op then o
  else { o with inbox := o.inbox ++ [{ kind := heldKind, op := op, phase := 0, src := 0, dst := 0, total := 0, data := [] }] }

/-- No fault. -/
def noFaults : ReadFaults := { units := [], badSectors := [], rereads := 0, linkRetries := 0, farFail := false, flips := [], secondRead := 0 }

/-- An operator that waits is marked, with the faults that its reads are still to meet. -/
def heldWith (op : Nat) (f : ReadFaults) (o : OpenStep) : OpenStep :=
  heldStep op { o with heldFaults := sset o.heldFaults op f }

/-- The faults of an operator that waits are met, or have been. -/
def faultsTaken (op : Nat) (o : OpenStep) : OpenStep :=
  if (sget o.heldFaults op).isNone then o else { o with heldFaults := sdel o.heldFaults op }

/-- The faults that the reads of an operator that waits are still to meet. -/
def faultsHeld (o : OpenStep) (op : Nat) : ReadFaults := (sget o.heldFaults op).getD noFaults

/-- What is left of the faults of reads once their detections have been handled: what they show of check values (R259). -/
def checksOnly (f : ReadFaults) : ReadFaults := { f with units := [], badSectors := [], rereads := 0, linkRetries := 0, farFail := false }

def markHeld (c : Ctx) : Ctx := { c with o := heldStep c.op c.o }

/-- R254, R259: CHECK tells its taps itself what a failing segment let them see. -/
def leaveTaps (c0 : Ctx) (s : State) : State := if c0.e.op = .check then s else foldBroken c0 s

/-- R156, R166, R169: how an operator command leaves the machine; `c0` is the operator as it began. -/
def endOp (h : Word) (l : List (Nat × Nat)) (c0 : Ctx) (r : OpEnd) (s : State) : State :=
  match r with
  | .done c => afterOp l (applyWatches c l (foldTaps c (installStep h (markDone c))))
  | .fail st => endRun h st (foldBroken c0 s)
  | .failWith c st => endRun h st (onRun h (fun r => withOpenExt c.p r c.op) (leaveTaps c0 (installStep h c)))
  | .suspend c => suspendRun h .outputSpace c.op (foldBroken c0 (installStep h c))
  | .noInput => finishRun h (onRun h (fun r => { r with inputEnded := true }) s)
  | .hold c => installStep h (markHeld c)
  | .detected c u => detect h u (foldBroken c0 (installStep h c))

/-- R36, R449: the checks over whole operands: every page they touch, and poison in what is read. -/
def wholeOperands (c : Ctx) : Option Status :=
  if !operandPagesOk c then some .access else if anyPoisoned c then some .poisoned else none

/-- R138: an operator that starts, or starts again, has written no element yet. -/
def startWrites (c : Ctx) : Ctx :=
  if c.o.aliased.isEmpty then c
  else { c with o := { c.o with aliased := c.o.aliased.filter (fun e => e.1.1 ≠ c.op) } }

/-- R245, R259: what the reads of an operator that suspends are still to show is kept until it goes on. -/
def keepChecks (f : ReadFaults) (r : OpEnd) : OpEnd :=
  match r with
  | .suspend c => .suspend { c with o := { c.o with heldFaults := sset c.o.heldFaults c.op (checksOnly f) } }
  | _ => r

/-- An operator command: the module begins the operator when it is ready in the open step of a running plan; otherwise
nothing happens; one that is ready and must wait (for a halted core, a row being refetched, another module) is marked, and goes on
by itself (`resumeOp`). The faults its reads meet come first, then the lookups of its blocks (R16, R23), then its page checks
(R36), then its own effect. -/
def runOp (h : Word) (op : Nat) (kind : Operator) (f : ReadFaults) (pre : Ctx → Option Status)
    (body : Ctx → OpEnd) (s : State) : State :=
  match ctxOf s h op with
  | none => s
  | some c =>
    let k := stageOfOp c.p.bin op
    let l := stageSlots s c.p k
    if c.e.op ≠ kind ∨ !isRunning c.p ∨ s.power.state ≠ .active ∨ !opReady c.p c.o op then s
    else if anyHalted s l ∨ waitsRefetch s c.p then onStep h (heldWith op f) s
    else
      let hits := breakHits s c.p k op
      if !hits.isEmpty then onStep h (heldWith op f) (applyBreaks hits s)
      else
        let r := applyFaults h f (onStep h (faultsTaken op) s)
        if r.replay then foldBroken c (refreshPoison h r.s)
        else if r.poisoned then endRun h .poisoned (foldBroken c r.s)
        else if r.wait then onStep h (heldWith op (checksOnly f)) (refreshPoison h r.s)
        else
          let s1 := refreshPoison h r.s
          match ctxOf s1 h op with
          | none => s1
          | some c1 =>
            if blocksRefused c1 then endRun h .access s1
            else if 0 < requestsDropped c1 then dropRequests h op (requestsDropped c1) s1
            else match pre c1 with
              | some st => endRun h st s1
              | none => endOp h l c1 (keepChecks f (body (startWrites c1))) s1

end Sys2Proof.Machine
end

