-- ==== Sys2Proof/Machine/Fabric.lean ====
section
/-!
DEFINITION. The fabric: links, messages, flows, routing, epochs, and the commands that configure them (chapter 15, R401
to R416).
-/

namespace Sys2Proof.Machine

/-! ## Messages (R408) -/

def kindRowRead : Nat := 0x01
def kindRowData : Nat := 0x02
def kindUpdate : Nat := 0x03
def kindAck : Nat := 0x04
def kindStale : Nat := 0x05
def kindFence : Nat := 0x06
def kindUnreachable : Nat := 0x07
def kindArrive : Nat := 0x10
def kindRelease : Nat := 0x11
def kindExchange : Nat := 0x12
def kindReduce : Nat := 0x13
def kindGather : Nat := 0x14
def kindTopk : Nat := 0x15
def kindRelay : Nat := 0x16
def kindSearch : Nat := 0x17
def kindSearchResult : Nat := 0x18

def classRequest : Nat := 0
def classResponse : Nat := 1
def classCollective : Nat := 2

/-- R408: a message of this module; FLOW and SEQ are given by its flow. -/
def fabricMessage (s : State) (dest : Nat) (dstEpoch : BitVec 32) (cls kind : Nat) (step : BitVec 32) (op rank : Nat)
    (payload : List Byte) : Message where
  dest := BitVec.ofNat 12 dest
  hops := 0
  src := BitVec.ofNat 12 s.fabric.moduleId
  cls := BitVec.ofNat 2 cls
  escape := false
  kind := BitVec.ofNat 8 kind
  srcEpoch := s.fabric.epoch
  dstEpoch := dstEpoch
  flow := 0
  seq := 0
  step := step
  opIndex := BitVec.ofNat 16 op
  srcRank := BitVec.ofNat 12 rank
  payload := payload

/-- R408: the bytes of a message: its header and its payload. -/
def messageBytes (m : Message) : List Byte :=
  record 32 [(0, m.dest.toNat), (12, m.hops.toNat), (16, m.src.toNat), (28, m.cls.toNat), (30, bitOf m.escape), (32, m.payload.length),
    (48, m.kind.toNat), (64, m.srcEpoch.toNat), (96, m.dstEpoch.toNat), (128, m.flow.toNat), (144, m.seq.toNat), (160, m.step.toNat),
    (192, m.opIndex.toNat), (208, m.srcRank.toNat)] ++ m.payload

/-! ## Flits (R401, R409) -/

/-- R409: the virtual channel of a message: an adaptive and an escape one for each class. -/
def channelOf (m : Message) : Nat := 2 * m.cls.toNat + bitOf m.escape

/-- R409, R424: the messages that have left by a port, oldest first: those of the fabric, and on a twin link those of the twin. -/
def portMessages (s : State) (n : Nat) : List Message :=
  ((s.fabric.sent.filter (fun x => x.port = n)).map (·.msg)) ++
    ((s.twin.sent.filter (fun x => s.twin.record.any (fun r => decide ((if x.1 = 0 then r.link0 else r.link1) = n)))).map (·.2))

/-- R401: the bytes that a virtual channel of a port has carried: its messages, packed without gaps. -/
def channelBytes (s : State) (n v : Nat) : List Byte :=
  ((portMessages s n).filter (fun m => channelOf m = v)).flatMap messageBytes

/-- R401: a flit: a link header of 12 bytes, 240 bytes of message data, and the CRC-32C over both. -/
def flitOf (header : BitVec 96) (data : List Byte) : List Byte :=
  let body := natLE header.toNat 12 ++ data
  body ++ natLE (crc32c body).toNat 4

/-- R401: the flits that a virtual channel of a port has carried. What fills the last one past the last message is not stated (log entry
100). -/
def channelFlits (s : State) (n v : Nat) : List (List Byte) :=
  let bs := channelBytes s n v
  (List.range (ceilDiv bs.length 240)).map (fun k =>
    let data := slice bs (240 * k) 240
    flitOf (Config.linkHeader n v k)
      (data ++ (List.range (240 - data.length)).map (fun i => BitVec.ofNat 8 (Config.unstated 6 [n, v, k, data.length + i]))))

/-- R403: a flit whose CRC fails is not delivered. -/
def flitDelivered (b : List Byte) : Bool := decide (b.length = 256) && leNat (b.drop 252) = (crc32c (b.take 252)).toNat

/-! ## Routing (R405, R411) -/

/-- The route of a destination: ADAPT, ESCAPE and VALID. -/
def routeOf (s : State) (dest : Nat) : BitVec 16 := (sget s.fabric.routes dest).getD 0

def routeValid (s : State) (dest : Nat) : Bool := bit (routeOf s dest) 15

/-- A port that routes: UP or UP_7_8 and no recovery link (R402). -/
def portRoutes (s : State) (n : Nat) : Bool := portUp s n && !(s.fabric.ports.getD n FabricPort.reset).recovery

/-- R411: the adaptive port with the most credits, the lower one on a tie. -/
def adaptivePort (s : State) (dest : Nat) (credits : List Nat) : Option Nat :=
  let ok := (List.range 6).filter (fun n => routeValid s dest && bit (routeOf s dest) n && portRoutes s n && decide (0 < credits.getD n 0))
  let top := (ok.map (fun n => credits.getD n 0)).foldl max 0
  ok.find? (fun n => credits.getD n 0 = top)

/-- R411: the escape port of a destination. -/
def escapePort (s : State) (dest : Nat) : Option Nat :=
  let n := bits (routeOf s dest) 8 6
  if n ≤ 5 ∧ routeValid s dest ∧ portRoutes s n then some n else none

/-- A message leaves by a port. -/
def leaveBy (port : Nat) (m : Message) (s : State) : State :=
  { s with fabric := { s.fabric with sent := s.fabric.sent ++ [{ port := port, escape := m.escape, msg := m }] } }

/-- A message waits for a credit or its window. -/
def holdMessage (m : Message) (s : State) : State :=
  { s with fabric := { s.fabric with waiting := s.fabric.waiting ++ [m] } }

/-- R411: a message chooses its port, or waits for one. -/
def routeMessage (credits : List Nat) (m : Message) (s : State) : State :=
  match (if m.escape then escapePort s m.dest.toNat else adaptivePort s m.dest.toNat credits) with
  | some n => leaveBy n m s
  | none => holdMessage m s

/-- The module's own messages find credits on every port; how many a port holds is its link's business. -/
def ownCredits : List Nat := List.replicate 6 1

/-! ## Flows (R410) -/

/-- R410: the flow of an operator instance to a module within a step. -/
def isFlow (m : Message) (f : FlowOut) : Bool :=
  decide (f.dest = m.dest.toNat ∧ f.step = m.step ∧ f.op = m.opIndex.toNat)

/-- A number that no open flow to the module has. -/
def freeFlow (s : State) (dest : Nat) : Nat :=
  ((List.range 65536).find? (fun n => !s.fabric.flowsOut.any (fun f => f.dest = dest && f.flow = n))).getD 0

/-- R410: a waiting message may leave: its flow's window is open. -/
def windowOpen (s : State) (m : Message) : Bool :=
  match s.fabric.flowsOut.find? (fun f => decide (f.dest = m.dest.toNat ∧ f.flow = m.flow.toNat)) with
  | none => true
  | some f => decide ((m.seq.toNat + 65536 - f.acked % 65536) % 65536 < 256)

/-- R412, R413: the module may send messages that are neither link nor TWIN traffic. -/
def mayTalk (s : State) : Bool := decide (s.fabric.epoch ≠ 0) && !isFenced s

/-- R416: the one plan that takes part in the fabric. -/
def fabricPlan (s : State) : Option Plan := (livePlans s).find? (fun p => decide (1 < p.bin.fabricRanks))

/-- A message joins its flow, which opens with the first one, and leaves, or waits for its window or a credit. -/
def sendIn (m : Message) (s : State) : State :=
  let old := s.fabric.flowsOut.find? (isFlow m)
  let f : FlowOut := old.getD
    { dest := m.dest.toNat, flow := freeFlow s m.dest.toNat, step := m.step, op := m.opIndex.toNat, nextSeq := 0, acked := 0 }
  let m1 : Message := { m with flow := BitVec.ofNat 16 f.flow, seq := BitVec.ofNat 16 f.nextSeq }
  let f1 : FlowOut := { f with nextSeq := f.nextSeq + 1 }
  let s1 := { s with fabric := { s.fabric with
    flowsOut := if old.isSome then s.fabric.flowsOut.map (fun g => if isFlow m g then f1 else g) else s.fabric.flowsOut ++ [f1] } }
  if windowOpen s1 m1 then routeMessage ownCredits m1 s1 else holdMessage m1 s1

/-- R410: a flow that has nothing more to carry: all is acknowledged, and its operator is done. -/
def flowSpent (s : State) (f : FlowOut) : Bool :=
  decide (f.nextSeq ≤ f.acked) && (fabricPlan s).all (fun p => decide (f.step ≠ BitVec.ofNat 32 p.nextStep) ||
    (p.run.bind (·.openStep)).all (fun o => o.done.contains f.op))

/-- R410: at most 16,384 flows are open: where no other fits, the spent ones close. -/
def makeFlowRoom (s : State) : State :=
  if s.fabric.flowsOut.length < 16384 then s
  else { s with fabric := { s.fabric with flowsOut := s.fabric.flowsOut.filter (fun f => !flowSpent s f) } }

/-- Two messages of one flow. -/
def sameInstance (m n : Message) : Bool := decide (m.dest = n.dest ∧ m.step = n.step ∧ m.opIndex = n.opIndex)

/-- R410: a message is sent in its flow, or waits for the flow to open. While the epoch is 0, and while FENCED, nothing is sent. -/
def sendFlow (m : Message) (s : State) : State :=
  if !mayTalk s then s
  else if s.fabric.flowsOut.any (isFlow m) then sendIn m s
  else
    let x := makeFlowRoom s
    if x.fabric.flowsOut.length < 16384 ∧ !x.fabric.unopened.any (sameInstance m) then sendIn m x
    else { x with fabric := { x.fabric with unopened := x.fabric.unopened ++ [m] } }

/-- Messages that waited for a flow leave where it can open. -/
def openFlows (s : State) : State :=
  s.fabric.unopened.foldl (fun x m => sendFlow m x) { s with fabric := { s.fabric with unopened := [] } }

/-- A response outside every flow: ACK, STALE, FENCE, UNREACHABLE. -/
def sendPlain (m : Message) (s : State) : State := if mayTalk s then routeMessage ownCredits m s else s

/-- Messages that waited leave where their window and a port are open, and then those whose flow can open. -/
def retryWaiting (s : State) : State :=
  openFlows (s.fabric.waiting.foldl
    (fun x m => if windowOpen x m then routeMessage ownCredits m x else holdMessage m x)
    { s with fabric := { s.fabric with waiting := [] } })

/-- Flows close once their step is finished and everything sent in them has been acknowledged. -/
def closeFlows (s : State) : State :=
  openFlows { s with fabric := { s.fabric with
      flowsOut := s.fabric.flowsOut.filter (fun f => decide (f.acked < f.nextSeq))
      flowsIn := s.fabric.flowsIn.filter (fun f => !f.early.isEmpty || decide (0 < f.unacked)) } }

/-- R410: a cumulative ACK of a receiving flow; its SEQ is that of the next message expected (DESIGN CHOICE, log entry 52). -/
def sendAck (f : FlowIn) (s : State) : State :=
  let m := fabricMessage s f.src 0 classResponse kindAck f.step f.op 0 []
  sendPlain { m with flow := BitVec.ofNat 16 f.flow, seq := BitVec.ofNat 16 f.nextSeq } s

/-- A receiving flow is the one of a message. -/
def flowOf (m : Message) (f : FlowIn) : Bool :=
  decide (f.src = m.src.toNat ∧ f.flow = m.flow.toNat ∧ f.step = m.step ∧ f.op = m.opIndex.toNat)

/-- The receiving flow of a message. -/
def flowInOf (s : State) (m : Message) : FlowIn :=
  (s.fabric.flowsIn.find? (flowOf m)).getD
    { src := m.src.toNat, flow := m.flow.toNat, step := m.step, op := m.opIndex.toNat, nextSeq := 0, early := [], unacked := 0 }

/-- Two records of one receiving flow. -/
def sameFlow (f g : FlowIn) : Bool := decide (f.src = g.src ∧ f.flow = g.flow ∧ f.step = g.step ∧ f.op = g.op)

/-- A receiving flow written, in the order in which flows were first met. -/
def putFlowIn (g : FlowIn) (s : State) : State :=
  { s with fabric := { s.fabric with
      flowsIn := if s.fabric.flowsIn.any (sameFlow g) then s.fabric.flowsIn.map (fun f => if sameFlow g f then g else f)
        else s.fabric.flowsIn ++ [g] } }

/-- R410, R11: a message joins its receiving flow; one delivered before is dropped. -/
def joinFlow (m : Message) (s : State) : State :=
  let f := flowInOf s m
  let ahead := (m.seq.toNat + 65536 - f.nextSeq % 65536) % 65536
  if 32768 ≤ ahead ∨ f.early.any (fun x => x.seq = m.seq) then s else putFlowIn { f with early := f.early ++ [m] } s

/-! ## Receiving (R412, R413) -/

/-- R413: a message dropped for its epoch. -/
def dropStale (s : State) : State :=
  let s1 := { s with fabric := { s.fabric with staleDrops := s.fabric.staleDrops + 1 } }
  match fabricPlan s1 with
  | none => s1
  | some p => countStale p.handle 1 s1

/-- R402, R408: a message for this module has come by a port that carries messages. -/
def reaches (link : Nat) (m : Message) (kind : Nat) (s : State) : Bool :=
  portRoutes s link && fwRunning s && decide (m.dest.toNat = s.fabric.moduleId ∧ m.kind.toNat = kind ∧ m.payload.length ≤ 4096) &&
    s.power.state = .active

/-- R413: the epoch checks of a message of a class other than TWIN: the state after them, and whether it is delivered. -/
def epochCheck (m : Message) (s : State) : State × Bool :=
  let least := (sget s.fabric.minEpoch m.src.toNat).getD 0
  let back (kind : Nat) (bs : List Byte) : Message :=
    fabricMessage s m.src.toNat 0 classResponse kind m.step m.opIndex.toNat 0 bs
  if m.srcEpoch < least then (sendPlain (back kindFence (natLE least.toNat 4)) (dropStale s), false)
  else if m.dstEpoch ≠ 0 ∧ m.dstEpoch ≠ s.fabric.epoch then
    let s1 := dropStale s
    (if m.cls = 0 then sendPlain (back kindStale []) s1 else s1, false)
  else (s, true)

/-- A message that is not part of a flow: received if it reaches the module and passes the epoch checks. -/
def receivePlain (link kind : Nat) (m : Message) (act : State → State) (s : State) : State :=
  if !reaches link m kind s then s
  else
    let r := epochCheck m s
    if r.2 then act r.1 else r.1

/-! ## Link commands (R401 to R404) -/

/-- A fabric port changed. -/
def onFabricPort (n : Nat) (f : FabricPort → FabricPort) (s : State) : State :=
  { s with fabric := { s.fabric with ports := modAt s.fabric.ports n f } }

/-- R456: lanes of a port on the retirement list. -/
def retiredLanes (s : State) (port : Nat) : BitVec 8 :=
  (List.range 8).foldl (fun b l => if isRetired s (unitId 10 (port * 8 + l)) then setBit b l else b) 0

def laneCount (b : BitVec 8) : Nat := (List.range 8).countP (fun i => bit b i)

/-- R402: the far end of a recovery link presents another identity, with which the port trains again. -/
def leavesRecovery (s : State) (q : FabricPort) (peer : PeerOutcome) : Bool :=
  q.recovery && (q.state = .up || q.state = .up78) && s.boot.phase ≠ .recovery && (match peer with
    | .noSignal => false
    | .exchanged fid mid _ _ _ => decide (fid ≠ 0xFFFF ∨ mid ≠ 0))

/-- FABRIC_LINK_UP (R402, R528): training ends, also that of a recovery link whose far end has left recovery. The failed lanes are
those of this end, of the far end and of the retirement list. -/
def execFabricLinkUp (port : Fin 6) (peer : PeerOutcome) (s : State) : Host.Outcome State Fault Refusal :=
  let q := s.fabric.ports.getD port FabricPort.reset
  .next (if (q.state ≠ .training ∧ !leavesRecovery s q peer) ∨ s.dbg.pinsTaken ≠ 0 then s
    else match peer with
    | .noSignal => onFabricPort port (fun x => { x with state := .down, reason := 1 }) s
    | .exchanged fid mid pp _ lanes =>
      let fail := q.laneFail ||| lanes ||| retiredLanes s port
      let far : Bool := decide (fid = 0xFFFF ∧ mid = 0)
      let inRom : Bool := s.boot.phase = .recovery
      let x : FabricPort := { q with laneFail := fail, neighbor := mid.toNat, neighborPort := pp, flitFails := 0, recovery := false }
      let up : FabricPort := { x with state := if fail = 0 then .up else .up78, reason := 0, recovery := far || inRom }
      let y : FabricPort :=
        if 2 ≤ laneCount fail then { x with state := .down, reason := 4 }
        else if far || inRom then up
        else if fid ≠ s.fabric.fabricId then { x with state := .down, reason := 2 }
        else if mid.toNat = s.fabric.moduleId then { x with state := .down, reason := 3 }
        else up
      retryWaiting (onFabricPort port (fun _ => y) s))

/-- FLIT_RETRY (R403, R404): the flit is replayed; the eighth failure in a row costs the lane with the most symbol errors
and the port retrains. -/
def execFlitRetry (port : Fin 6) (lane : Fin 8) (s : State) : Host.Outcome State Fault Refusal :=
  .next (if !portUp s port then s
    else onFabricPort port
      (fun q =>
        let n := { q with retries := q.retries + 1, flitFails := q.flitFails + 1 }
        if n.flitFails < 8 then n
        else
          let fail := setBit q.laneFail lane
          if 2 ≤ laneCount fail then { n with laneFail := fail, flitFails := 0, state := .down, reason := 4 }
          else { n with laneFail := fail, flitFails := 0, state := .training, retrains := q.retrains + 1 }) s)

/-- RETRAIN_TIMEOUT (R404). -/
def execRetrainTimeout (port : Fin 6) (s : State) : Host.Outcome State Fault Refusal :=
  .next (onFabricPort port (fun q => if q.state = .training then { q with state := .down, reason := 5 } else q) s)

/-- FABRIC_SIGNAL_LOSS (R407): the far end is silent. -/
def execFabricSignalLoss (port : Fin 6) (s : State) : Host.Outcome State Fault Refusal :=
  .next (onFabricPort port (fun q => if q.enabled ∧ q.state ≠ .disabled then { q with state := .down, reason := 1 } else q) s)

/-! ## Transit (R411) -/

/-- FABRIC_FORWARD (R411): transit checks no epoch; TWIN messages and recovery links are not routed. -/
def execFabricForward (port : Fin 6) (m : Message) (credits : List Nat) (s : State) : Host.Outcome State Fault Refusal :=
  .next (if !portRoutes s port ∨ m.dest.toNat = s.fabric.moduleId ∨ m.cls = 3 then s
    else
      let n : Message := { m with hops := m.hops + 1 }
      if n.hops = 15 ∨ !routeValid s m.dest.toNat then
        let s1 := onFabricPort port (fun q => { q with unroutable := q.unroutable + 1 }) s
        if m.cls = 0 then
          sendPlain (fabricMessage s1 m.src.toNat 0 classResponse kindUnreachable m.step m.opIndex.toNat 0 []) s1
        else s1
      else routeMessage credits n s)

/-- ESCAPE_WAIT (R411): a message that found no adaptive credit travels on escape channels from here on. -/
def execEscapeWait (m : Message) (s : State) : Host.Outcome State Fault Refusal :=
  .next (if s.fabric.waiting.contains m && !m.escape && windowOpen s m then
      routeMessage ownCredits { m with escape := true }
        { s with fabric := { s.fabric with waiting := s.fabric.waiting.erase m } }
    else s)

/-! ## Flow and epoch messages (R410, R413) -/

/-- ACK (R410): the sender's window opens. -/
def execAck (link : Nat) (m : Message) (s : State) : Host.Outcome State Fault Refusal :=
  .next (receivePlain link kindAck m
    (fun x =>
      retryWaiting { x with fabric := { x.fabric with
        flowsOut := x.fabric.flowsOut.map (fun f =>
          if f.dest = m.src.toNat ∧ f.flow = m.flow.toNat then
            let n := (m.seq.toNat + 65536 - f.acked % 65536) % 65536
            if f.acked + n ≤ f.nextSeq then { f with acked := f.acked + n } else f
          else f) } }) s)

/-- ACK_TIMER (R410): what was delivered and not acknowledged is acknowledged. -/
def execAckTimer (src flow : Nat) (s : State) : Host.Outcome State Fault Refusal :=
  .next ((s.fabric.flowsIn.filter (fun f => f.src = src && f.flow = flow && decide (0 < f.unacked))).foldl
    (fun x f => putFlowIn { f with unacked := 0 } (sendAck f x)) s)

/-- R413, R411: the operator that sent a request ends the run with a status. -/
def failRequester (m : Message) (st : Status) (s : State) : State :=
  match fabricPlan s with
  | some p =>
    if BitVec.ofNat 32 p.nextStep = m.step ∧ (p.run.bind (·.openStep)).isSome then endRun p.handle st s else s
  | none => s

/-- STALE (R413): the request's operator fails; the step does not commit and is not replayed. -/
def execStale (link : Nat) (m : Message) (s : State) : Host.Outcome State Fault Refusal :=
  .next (receivePlain link kindStale m (failRequester m .staleEpoch) s)

/-- UNREACHABLE (R411). -/
def execUnreachable (link : Nat) (m : Message) (s : State) : Host.Outcome State Fault Refusal :=
  .next (receivePlain link kindUnreachable m (failRequester m .fabricTimeout) s)

/-- FENCE (R413, R414): honoured when it carries an epoch higher than the module's own. -/
def execFence (link : Nat) (m : Message) (s : State) : Host.Outcome State Fault Refusal :=
  .next (receivePlain link kindFence m
    (fun x =>
      let e : BitVec 32 := BitVec.ofNat 32 (field m.payload 0 32)
      if x.fabric.epoch < e ∧ !isFenced x then enterFenced (some e) x else x) s)

/-- REQ_TIMEOUT (R421): the request's operator fails with no replay. -/
def execReqTimeout (plan : Word) (op : Nat) (s : State) : Host.Outcome State Fault Refusal :=
  .next (match ctxOf s plan op with
    | some c => if isRunning c.p ∧ 1 < c.p.bin.fabricRanks ∧ !c.o.done.contains op then endRun plan .fabricTimeout s else s
    | none => s)

/-- COLL_TIMEOUT (R421): a barrier, collective, merge or relay makes no progress; `op` past the last operator is the
step barrier. -/
def execCollTimeout (plan : Word) (op : Nat) (s : State) : Host.Outcome State Fault Refusal :=
  .next (match planOf s plan with
    | some p =>
      if isRunning p ∧ 1 < p.bin.fabricRanks ∧ (p.run.bind (·.openStep)).any (fun o => !o.done.contains op) then
        endRun plan .fabricTimeout s
      else s
    | none => s)

/-! ## FABRIC_CONFIG (R405 to R407, R414) -/

/-- R405: the header and the route table of a payload are well formed. -/
def fabricPayloadOk (b : List Byte) : Bool :=
  let route (i : Nat) : BitVec 16 := BitVec.ofNat 16 (leNat (slice b (64 + 2 * i) 2))
  b.length = 8256 && field b 12 4 = 0 && field b 70 26 = 0 && field b 176 336 = 0 && field b 16 16 ≠ 0xFFFF &&
    (List.range 4096).all (fun i =>
      let r := route i
      bits r 14 9 = 0 && (!bit r 15 || bits r 8 6 = 7 || (decide (bits r 8 6 ≤ 5) && bit r (bits r 8 6))))

/-- R405: the timeouts are 0 or in range, and the epoch is a number from 1. -/
def fabricRangeOk (b : List Byte) : Bool :=
  let inRange (n lo hi : Nat) : Bool := n = 0 || decide (lo ≤ n ∧ n ≤ hi)
  inRange (field b 96 32) 1 60000 && inRange (field b 128 32) 10 1000000 && inRange (field b 160 16) 100 65535 &&
    field b 32 32 ≠ 0

/-- R405: a port under a new PORT_ENABLE. -/
def enablePort (s : State) (n : Nat) (on : Bool) (q : FabricPort) : FabricPort :=
  if !on then { q with enabled := false, state := .disabled, reason := 0, recovery := false }
  else if q.enabled ∧ q.state ≠ .down then q
  else
    let x : FabricPort := { q with enabled := true, laneFail := retiredLanes s n, retrains := 0, flitFails := 0, recovery := false }
    if !q.cable ∨ q.outOfService then { x with state := .down, reason := 1 } else { x with state := .training, reason := 0 }

/-- R405: a configuration applied. -/
def applyFabricConfig (b : List Byte) (s : State) : State :=
  { s with fabric := { s.fabric with
      moduleId := field b 0 12
      fabricId := BitVec.ofNat 16 (field b 16 16)
      epoch := BitVec.ofNat 32 (field b 32 32)
      collTimeoutMs := field b 96 32
      reqTimeoutUs := field b 128 32
      escWaitNs := field b 160 16
      routes := ((List.range 4096).map (fun i => (i, BitVec.ofNat 16 (leNat (slice b (64 + 2 * i) 2))))).filter (fun e => e.2 ≠ 0)
      ports := s.fabric.ports.zipIdx.map (fun (q, n) => enablePort s n (field b (64 + n) 1 = 1) q)
      fencedBy := none } }

/-- R414: an UNPAIRED module that a FENCE had fenced serves again once its epoch is raised. -/
def leaveFenced (s : State) : State :=
  if isFenced s ∧ s.fabric.fencedBy.isSome ∧ s.twin.fencedFromUnpaired then
    { s with twin := { s.twin with state := .unpaired, fencedFromUnpaired := false } }
  else s

/-- FABRIC_CONFIG with QUERY clear (R405, R406, R414); the enables of CONFIG bound the ports (chapter 21). -/
def fabricConfigBody (r : CmdRef) (c : Chain) (s : State) : State :=
  let b := c.payload
  let e := field b 32 32
  let fabricLoaded := s.plans.any (fun p => decide (1 < p.bin.fabricRanks))
  let moved : Bool := field b 0 12 ≠ s.fabric.moduleId || field b 16 16 ≠ s.fabric.fabricId.toNat
  let st : Option Status :=
    if !fabricPayloadOk b then some .badPacket
    else if !fabricRangeOk b then some .limit
    else if (List.range 6).any (fun n => field b (64 + n) 1 = 1 && !bit s.boot.config.fabricEn n) then some .access
    else if e < s.fabric.epoch.toNat ∨ (s.fabric.fencedBy.map (fun f => decide (e ≤ f.toNat))).getD false then some .staleEpoch
    else if moved ∧ fabricLoaded then some .busy
    else none
  match st with
  | some f => complete r (replyOf f) s
  | none => complete r (replyOf .done) (retryWaiting (applyFabricConfig b (leaveFenced s)))

/-- R407: the state code of a port. -/
def portStateCode : PortState → Nat
  | .disabled => 0
  | .training => 1
  | .up => 2
  | .up78 => 3
  | .down => 4

/-- R407: a port record. -/
def portRecord (q : FabricPort) : List Byte :=
  record 32 [(0, portStateCode q.state), (8, if q.state = .down then q.reason else 0), (16, q.laneFail.toNat),
    (24, q.neighbor), (36, q.neighborPort % 8), (64, q.corrected % 2 ^ 64), (128, q.retries % 2 ^ 64),
    (192, q.retrains % 2 ^ 32), (224, q.unroutable % 2 ^ 32)]

/-- R405, R407: the header in force. -/
def fabricHeader (s : State) : List Byte :=
  let f := s.fabric
  record 64 [(0, f.moduleId), (16, f.fabricId.toNat), (32, f.epoch.toNat),
    (64, (f.ports.zipIdx.map (fun (q, n) => bitOf q.enabled <<< n)).sum), (96, f.collTimeoutMs), (128, f.reqTimeoutUs),
    (160, f.escWaitNs)]

/-- R403: what the FEC of the enabled ports has corrected since CORRECTED was read last: no command tells of a correction, and how many
there were is free (log entry 8). -/
def countCorrections (s : State) : State :=
  takeFresh 6 { s with fabric := { s.fabric with ports := s.fabric.ports.zipIdx.map (fun (q, n) =>
    if q.enabled then { q with corrected := q.corrected + (Config.freeValue (s.freeCount + n)).toNat } else q) } }

/-- FABRIC_CONFIG with QUERY set (R407). -/
def fabricQueryBody (r : CmdRef) (c : Chain) (s : State) : State :=
  if c.payload ≠ [] then complete r (replyOf .badPacket) s
  else
    let x := countCorrections s
    completeData r (replyData (fabricHeader x ++ (x.fabric.ports.map portRecord).flatten)) x

def fabricConfigRule : CommandRule :=
  { plainRule 0x00C0 with adminOnly := true, used := [1], whenFenced := true }

/-- FABRIC_CONFIG (R405). -/
def execFabricConfig (r : RingId) (p : Packet) (s : State) : Host.Outcome State Fault Refusal :=
  .next (hostCommand r fabricConfigRule fabricConfigBody (fixP0 1 0 p) s)

/-- FABRIC_CONFIG QUERY (R407). -/
def execFabricConfigQuery (r : RingId) (p : Packet) (s : State) : Host.Outcome State Fault Refusal :=
  .next (hostCommand r fabricConfigRule fabricQueryBody (fixP0 1 1 p) s)

/-! ## OWNER_TABLE_SET (R415) -/

/-- R415: an entry of the payload. -/
structure OwnerSet where
  kind : Nat
  index : Nat
  value : Nat
  deriving DecidableEq, Repr

def ownerEntries (b : List Byte) : List OwnerSet :=
  (List.range (b.length / 16)).map (fun i =>
    let z := slice b (16 * i) 16
    { kind := field z 0 2, index := field z 32 32, value := field z 64 64 })

/-- R415, R21: reserved bits of an entry. -/
def ownerReservedOk (z : List Byte) : Bool :=
  field z 2 30 = 0 &&
    (match field z 0 2 with
    | 0 => field z 108 4 = 0 && field z 124 3 = 0
    | 1 => field z 76 19 = 0
    | 2 => field z 96 32 = 0
    | _ => false)

/-- R415: the index of an entry is in range. -/
def ownerIndexOk (e : OwnerSet) : Bool := if e.kind = 0 then decide (e.index < 524288) else decide (e.index < 4096)

/-- R21, R415: an OWNER entry, or its removal. -/
def ownerValue (v : Nat) : Option FabricEntry :=
  if v.testBit 63 then some { rank := v / 2 ^ 48 % 4096, module := v / 2 ^ 32 % 4096, epoch := BitVec.ofNat 32 v } else none

/-- R415: a RANK entry, or its removal. -/
def rankValue (v : Nat) : Option FabricEntry :=
  if v.testBit 31 then some { rank := 0, module := v % 4096, epoch := BitVec.ofNat 32 (v / 2 ^ 32) } else none

/-- R415: MIN_EPOCH never falls. -/
def raiseMinEpoch (es : List OwnerSet) (s : State) : State :=
  { s with fabric := { s.fabric with
      minEpoch := (es.filter (fun e => e.kind = 2)).foldl (fun m e =>
        let v : BitVec 32 := BitVec.ofNat 32 e.value
        if (sget m e.index).getD 0 < v then sset m e.index v else m) s.fabric.minEpoch } }

/-- OWNER_TABLE_SET (R415). -/
def ownerTableBody (r : CmdRef) (c : Chain) (s : State) : State :=
  let b := c.payload
  let es := ownerEntries b
  let plan := planOf s c.handle
  let st : Option Status :=
    if b.length % 16 ≠ 0 ∨ !(List.range es.length).all (fun i => ownerReservedOk (slice b (16 * i) 16)) then some .badPacket
    else if !es.all ownerIndexOk ∨ 1048576 < es.length then some .limit
    else none
  match st with
  | some f => complete r (replyOf f) s
  | none =>
    let l : OwnerLoad :=
      { plan := c.handle, atStep := par64 c 0
        owners := (es.filter (fun e => e.kind = 0)).map (fun e => (e.index, ownerValue e.value))
        ranks := (es.filter (fun e => e.kind = 1)).map (fun e => (e.index, rankValue e.value)) }
    let s1 := raiseMinEpoch es s
    let s2 := if (plan.map isLive).getD false then
        { s1 with owner := { s1.owner with shadow := loadBank l s1.owner.shadow, loads := s1.owner.loads ++ [l] } }
      else applyOwnerLoad l s1
    complete r { replyOf .done with count0 := es.length } s2

def ownerTableRule : CommandRule :=
  { plainRule 0x00C1 with adminOnly := true, handle := .planOrNone, chainable := true, used := [0xFFFFFFFF, 0xFFFFFFFF] }

/-- OWNER_TABLE_SET (R415). -/
def execOwnerTableSet (r : RingId) (p : Packet) (s : State) : Host.Outcome State Fault Refusal :=
  .next (hostCommand r ownerTableRule ownerTableBody p s)

end Sys2Proof.Machine
end

