-- ==== Sys2Proof/Machine/Hashing.lean ====
section
/-!
DEFINITION. The hash functions of HASH, of tables and of HyperLogLog, bit for bit (R275).
-/

namespace Sys2Proof.Machine

/-- Words of `n` bytes of a byte string, the last one zero-padded. -/
def keyWords (n : Nat) (key : List Byte) : List Nat :=
  (List.range (ceilDiv key.length n)).map (fun i => leNat (slice key (n * i) n))

/-! ## FM64 -/

/-- FM64 (R275). -/
def fm64 (seed : Word) (key : List Byte) : Word :=
  let start := seed ^^^ (BitVec.ofNat 64 key.length * 0x9E3779B97F4A7C15)
  let h := (keyWords 8 key).foldl
    (fun (h : Word) w =>
      let x := (h ^^^ BitVec.ofNat 64 w) * 0xB7E151628AED2A6B
      x ^^^ (x >>> 29)) start
  let h1 := (h ^^^ (h >>> 32)) * 0xE817FB2D5A3C9B61
  h1 ^^^ (h1 >>> 29)

/-! ## MurmurHash3_x86_32 -/

def murmur32Mix (k : BitVec 32) : BitVec 32 := ((k * 0xCC9E2D51).rotateLeft 15) * 0x1B873593

def murmur32Final (h : BitVec 32) : BitVec 32 :=
  let a := (h ^^^ (h >>> 16)) * 0x85EBCA6B
  let b := (a ^^^ (a >>> 13)) * 0xC2B2AE35
  b ^^^ (b >>> 16)

/-- MurmurHash3_x86_32. -/
def murmur32 (seed : BitVec 32) (key : List Byte) : BitVec 32 :=
  let full := key.length / 4
  let h := ((keyWords 4 key).take full).foldl
    (fun (h : BitVec 32) w => ((h ^^^ murmur32Mix (BitVec.ofNat 32 w)).rotateLeft 13) * 5 + 0xE6546B64) seed
  let h1 := if key.length % 4 = 0 then h else h ^^^ murmur32Mix (BitVec.ofNat 32 (leNat (key.drop (4 * full))))
  murmur32Final (h1 ^^^ BitVec.ofNat 32 key.length)

/-! ## MurmurHash3_x64_128, low half -/

def murmurC1 : Word := 0x87C37B91114253D5
def murmurC2 : Word := 0x4CF5AD432745937F

def murmurMix1 (k : Word) : Word := ((k * murmurC1).rotateLeft 31) * murmurC2
def murmurMix2 (k : Word) : Word := ((k * murmurC2).rotateLeft 33) * murmurC1

def murmur64Final (h : Word) : Word :=
  let a := (h ^^^ (h >>> 33)) * 0xFF51AFD7ED558CCD
  let b := (a ^^^ (a >>> 33)) * 0xC4CEB9FE1A85EC53
  b ^^^ (b >>> 33)

/-- The first half of MurmurHash3_x64_128. -/
def murmur128 (seed : BitVec 32) (key : List Byte) : Word :=
  let full := key.length / 16
  let s := seed.setWidth 64
  let hh := (List.range full).foldl
    (fun (h : Word × Word) i =>
      let k1 := BitVec.ofNat 64 (leNat (slice key (16 * i) 8))
      let k2 := BitVec.ofNat 64 (leNat (slice key (16 * i + 8) 8))
      let h1 := ((h.1 ^^^ murmurMix1 k1).rotateLeft 27 + h.2) * 5 + 0x52DCE729
      let h2 := ((h.2 ^^^ murmurMix2 k2).rotateLeft 31 + h1) * 5 + 0x38495AB5
      (h1, h2)) (s, s)
  let tail := key.drop (16 * full)
  let h2 := if 8 < tail.length then hh.2 ^^^ murmurMix2 (BitVec.ofNat 64 (leNat (tail.drop 8))) else hh.2
  let h1 := if 0 < tail.length then hh.1 ^^^ murmurMix1 (BitVec.ofNat 64 (leNat (tail.take 8))) else hh.1
  let n := BitVec.ofNat 64 key.length
  let a := (h1 ^^^ n) + (h2 ^^^ n)
  let b := (h2 ^^^ n) + a
  let fa := murmur64Final a
  let fb := murmur64Final b
  fa + fb

/-! ## xxHash64 -/

def xxP1 : Word := 0x9E3779B185EBCA87
def xxP2 : Word := 0xC2B2AE3D27D4EB4F
def xxP3 : Word := 0x165667B19E3779F9
def xxP4 : Word := 0x85EBCA77C2B2AE63
def xxP5 : Word := 0x27D4EB2F165667C5

def xxRound (acc input : Word) : Word := ((acc + input * xxP2).rotateLeft 31) * xxP1
def xxMerge (acc v : Word) : Word := (acc ^^^ xxRound 0 v) * xxP1 + xxP4

/-- The last 31 bytes at most: words of 8, one of 4, then bytes. -/
def xxTail : Nat → List Byte → Word → Word
  | 0, _, h => h
  | fuel + 1, bs, h =>
    if 8 ≤ bs.length then
      xxTail fuel (bs.drop 8) (((h ^^^ xxRound 0 (BitVec.ofNat 64 (leNat (bs.take 8)))).rotateLeft 27) * xxP1 + xxP4)
    else if 4 ≤ bs.length then
      xxTail fuel (bs.drop 4) (((h ^^^ (BitVec.ofNat 64 (leNat (bs.take 4)) * xxP1)).rotateLeft 23) * xxP2 + xxP3)
    else match bs with
      | [] => h
      | b :: rest => xxTail fuel rest (((h ^^^ (b.setWidth 64 * xxP5)).rotateLeft 11) * xxP1)

/-- xxHash64. -/
def xxHash64 (seed : Word) (key : List Byte) : Word :=
  let full := key.length / 32
  let start :=
    if full = 0 then seed + xxP5
    else
      let v := (List.range full).foldl
        (fun (v : Word × Word × Word × Word) i =>
          let w (j : Nat) : Word := BitVec.ofNat 64 (leNat (slice key (32 * i + 8 * j) 8))
          (xxRound v.1 (w 0), xxRound v.2.1 (w 1), xxRound v.2.2.1 (w 2), xxRound v.2.2.2 (w 3)))
        (seed + xxP1 + xxP2, seed + xxP2, seed, seed - xxP1)
      let h := v.1.rotateLeft 1 + v.2.1.rotateLeft 7 + v.2.2.1.rotateLeft 12 + v.2.2.2.rotateLeft 18
      xxMerge (xxMerge (xxMerge (xxMerge h v.1) v.2.1) v.2.2.1) v.2.2.2
  let h := xxTail 40 (key.drop (32 * full)) (start + BitVec.ofNat 64 key.length)
  let a := (h ^^^ (h >>> 33)) * xxP2
  let b := (a ^^^ (a >>> 29)) * xxP3
  b ^^^ (b >>> 32)

/-- R275: CRC-32C with its register starting at the complement of a seed. -/
def crcHash (seed : BitVec 32) (key : List Byte) : BitVec 32 := ~~~ crc32cRun (~~~ seed) key

/-- R273, R275: the function of FUNC. -/
def hashKey (func : Nat) (seed : Word) (key : List Byte) : Nat :=
  match func with
  | 0 => (murmur32 (seed.setWidth 32) key).toNat
  | 1 => (murmur128 (seed.setWidth 32) key).toNat
  | 2 => (xxHash64 seed key).toNat
  | 3 => (crcHash (seed.setWidth 32) key).toNat
  | _ => (fm64 seed key).toNat

end Sys2Proof.Machine
end

