-- ==== Sys2Proof/Machine/Layout.lean ====
section
/-!
DEFINITION. What PLAN_LOAD's operator checks share, and RELAYOUT (chapter 06, R176 to R202).
-/

namespace Sys2Proof.Machine

/-! ## Checks of an operator entry (R148, R151 check 9) -/

/-- A check that must hold, with the status of its failure. -/
def need (ok : Bool) (st : Status) : Option Status := if ok then none else some st

/-- The first failure of a list of checks in order. -/
def firstFail (l : List (Option Status)) : Option Status := l.findSome? id

/-- How a slot of an operator is used (R148). -/
inductive Slot where
  | unused | wanted | optional
  deriving DecidableEq, Repr

/-- A slot holds what its use asks. -/
def slotOk (u : Slot) (v : Option Nat) : Bool :=
  match u with
  | .unused => v.isNone
  | .wanted => v.isSome
  | .optional => true

/-- R148: the slots that an operator uses, in the order IN0, IN1, IN2, OUT0, OUT1. -/
def slotsOk (e : OpEntry) (in0 in1 in2 out0 out1 : Slot) : Bool :=
  slotOk in0 e.in0 && slotOk in1 e.in1 && slotOk in2 e.in2 && slotOk out0 e.out0 && slotOk out1 e.out1

/-- The descriptor in a slot. -/
def slotDesc (b : PlanBinary) (v : Option Nat) : Descriptor := descOf b (v.getD b.descs.length)

/-- A field of the operator's parameter block. -/
def pf (e : OpEntry) (lo width : Nat) : Nat := field e.params lo width

/-! ## RELAYOUT's parameters (R177) -/

/-- PERM, EXT, IN_ORG and OUT_ORG of an entry whose tensors have RANK `r`; EXT 0 stands for DIM of OUT0. -/
def rlPerm (e : OpEntry) (d : Nat) : Nat := pf e (8 + 3 * d) 3
def rlExtent (e : OpEntry) (out : Descriptor) (d : Nat) : Nat :=
  let x := pf e (128 + 32 * d) 32
  if x = 0 then dimOf out d else x
def rlInOrg (e : OpEntry) (d : Nat) : Int := signed 32 (pf e (320 + 32 * d) 32)
def rlOutOrg (e : OpEntry) (d : Nat) : Int := signed 32 (pf e (512 + 32 * d) 32)

/-- R179: the copy transposes, or permutes. -/
def rlTransposes (e : OpEntry) : Bool := rlPerm e 0 = 1
def rlPermutes (e : OpEntry) (r : Nat) : Bool := (List.range r).any (fun d => decide (rlPerm e d ≠ d))

/-- R177: reserved fields of the parameter block. -/
def rlReservedBad (e : OpEntry) (r : Nat) : Bool :=
  e.params.length ≠ 96 || pf e 2 6 ≠ 0 || pf e 26 102 ≠ 0 || pf e 704 64 ≠ 0 ||
    (List.range 6).any (fun d => decide (r ≤ d) &&
      (rlPerm e d ≠ 0 || pf e (128 + 32 * d) 32 ≠ 0 || pf e (320 + 32 * d) 32 ≠ 0 || pf e (512 + 32 * d) 32 ≠ 0))

/-- Formats that convert into one another, that pack, and that transpose (R181, R183). -/
def convFormat (f : Format) : Bool := isFloat f || f = .int32
def wideFormat (f : Format) : Bool := f = .fp32 || f = .bf16 || f = .fp16
def transFormat (f : Format) : Bool := convFormat f || f = .u8

/-- R181: the pair of formats is supported. -/
def pairOk (i o : Format) : Bool :=
  i = o || (convFormat i && convFormat o) || (wideFormat i && isPacked o) || (isPacked i && wideFormat o) ||
    (isCell i && isCell o)

/-- The iteration space on OUT0 (R136, R178). -/
def rlWriteDims (e : OpEntry) (out : Descriptor) : List WriteDim :=
  (addressedDims out).map (fun d =>
    { stride := effStride out d, extent := rlExtent e out d, origin := rlOutOrg e d, dim := dimOf out d,
      wrap := out.bound.testBit d })

/-- R133: lowest and highest index that a range resolves to. -/
def resolvedSpan (wrap : Bool) (dim : Nat) (lo : Int) (n : Nat) : Nat × Nat :=
  if !wrap then (resolveIndex false dim lo, resolveIndex false dim (lo + n - 1))
  else if dim ≤ n then (0, dim - 1)
  else
    let a := (lo % dim).toNat
    if a + n ≤ dim then (a, a + n - 1) else (0, dim - 1)

/-- R192: the bytes of a unit that a range of indices of dimension 0 touches: an element; a whole row of a packed destination; of a
packed source row the cells that are read, or its A8 scale and codes. -/
def unitPart (write : Bool) (d : Descriptor) (r : Int × Nat) : Nat × Nat :=
  let sp := resolvedSpan (d.bound.testBit 0) (dimOf d 0) r.1 r.2
  if !isPacked d.format ∨ write then (0, unitBytes d)
  else if d.format = .a8 then (0, 5 + sp.2)
  else (sp.1 / 64 * cellBytes d.format, (sp.2 / 64 + 1) * cellBytes d.format)

/-- R192: lowest and one past the highest byte that index ranges touch. -/
def spanFootprint (write : Bool) (d : Descriptor) (ranges : List (Int × Nat)) : Int × Int :=
  let ends := (addressedDims d).foldl
    (fun (acc : Int × Int) k =>
      let r := ranges.getD k (0, 1)
      let sp := resolvedSpan (d.bound.testBit k) (dimOf d k) r.1 r.2
      let x := (sp.1 : Int) * effStride d k
      let y := (sp.2 : Int) * effStride d k
      (acc.1 + min x y, acc.2 + max x y)) ((d.base : Int), (d.base : Int))
  let part := unitPart write d (ranges.getD 0 (0, 1))
  (ends.1 + part.1, ends.2 + part.2)

/-- The index ranges of the iteration space on OUT0, and on IN0 by input dimension. -/
def rlOutRanges (e : OpEntry) (out : Descriptor) : List (Int × Nat) :=
  (List.range out.rank).map (fun d => (rlOutOrg e d, rlExtent e out d))
def rlInRanges (e : OpEntry) (out : Descriptor) : List (Int × Nat) :=
  (List.range out.rank).map (fun k =>
    let d := ((List.range out.rank).find? (fun d => rlPerm e d = k)).getD 0
    (rlInOrg e d, rlExtent e out d))

/-- R192: the footprints of source and destination. -/
def rlFootprints (e : OpEntry) (i o : Descriptor) : (Int × Int) × (Int × Int) :=
  (spanFootprint false i (rlInRanges e o), spanFootprint true o (rlOutRanges e o))

/-- R192: source and destination overlap on the addresses they name; BLOCKED descriptors only where they are the same. -/
def rlOverlaps (e : OpEntry) (b : PlanBinary) : Bool :=
  let i := slotDesc b e.in0
  let o := slotDesc b e.out0
  if i.space ≠ o.space ∨ (i.space = .staging ∧ i.stageDie ≠ o.stageDie) then false
  else if i.space = .blocked ∧ e.in0 ≠ e.out0 then false
  else
    let x := rlFootprints e i o
    decide (x.1.1 < x.2.2 ∧ x.2.1 < x.1.2)

/-- R195: an exact in-place square transposition, its side aside; a descriptor in STAGING is none. -/
def rlSquare (e : OpEntry) (b : PlanBinary) : Bool :=
  let d := slotDesc b e.out0
  e.in0 = e.out0 && transFormat d.format && decide (2 ≤ d.rank) &&
    (List.range d.rank).all (fun k => rlPerm e k = (if k = 0 then 1 else if k = 1 then 0 else k)) &&
    (List.range d.rank).all (fun k => rlInOrg e k = 0 && rlOutOrg e k = 0 && rlExtent e d k = dimOf d k) &&
    dimOf d 0 = dimOf d 1 && d.space ≠ .staging && (b.edges.any (fun x => some x.desc = e.out0) || d.space = .session)

/-- R193 to R195: overlap on named addresses. -/
def rlOverlapCheck (e : OpEntry) (b : PlanBinary) : Option Status :=
  let i := slotDesc b e.in0
  let o := slotDesc b e.out0
  if pf e 1 1 = 1 then
    (if !rlSquare e b then some .overlap else if 4096 < dimOf o 0 then some .limit else none)
  else if !rlOverlaps e b then none
  else if rlPermutes e o.rank then some .overlap
  else if i.format = o.format ∧ i.strides = o.strides ∧ i.strides.all (fun x => decide (0 ≤ x)) ∧
      (List.range o.rank).all (fun d => rlInOrg e d = rlOutOrg e d) then none
  else some .overlap

/-- R187 checks 1 to 5, the checks of R135 aside, which come before those of any operator (R151). PACK_ASYM where R177 does not allow it
fails with BAD_PLAN (DESIGN CHOICE, log entry 99: R187 gives check 2 two statuses, and R202 names neither for it). -/
def relayoutCheck (b : PlanBinary) (e : OpEntry) : Option Status :=
  let i := slotDesc b e.in0
  let o := slotDesc b e.out0
  let r := o.rank
  let ws := rlWriteDims e o
  firstFail
    [ need (slotsOk e .wanted .unused .unused .wanted .unused && i.rank = r && i.space ≠ .localPools &&
        o.space ≠ .localPools) .badPlan,
      need (!rlReservedBad e r && (List.range r).all (fun k => (List.range r).any (fun d => rlPerm e d = k))) .badPlan,
      need (rlPerm e 0 = 0 || (rlPerm e 0 = 1 && rlPerm e 1 = 0)) .unsupported,
      need (pairOk i.format o.format) .unsupported,
      need (!rlTransposes e || (transFormat i.format && transFormat o.format)) .unsupported,
      need (pf e 0 1 = 0 || (hasAsym o.format && !isCell i.format)) .badPlan,
      need (!isPacked o.format || (rlExtent e o 0 = dimOf o 0 && rlOutOrg e 0 = 0)) .badPlan,
      need ((List.range r).all (fun d => decide (rlExtent e o d ≤ 2 ^ 24)) &&
        decide ((List.range r).foldl (fun n d => n * rlExtent e o d) 1 ≤ 2 ^ 40)) .limit,
      need (injective (unitBytes o) ws || (o.aliasOk && unitsCoincide (unitBytes o) ws)) .aliasWrite,
      rlOverlapCheck e b ]

/-! ## The move (R178) -/

/-- The indices of an iteration space in iteration order (R138), dimension 0 varying fastest. -/
def iterSpace : List Nat → List (List Nat)
  | [] => [[]]
  | n :: ns => (iterSpace ns).flatMap (fun rest => (List.range n).map (fun i => i :: rest))

/-- R178: input and output indices of an iteration index. -/
def rlOutIndex (e : OpEntry) (j : List Nat) : List Int := j.zipIdx.map (fun (x, d) => (x : Int) + rlOutOrg e d)
def rlInIndex (e : OpEntry) (j : List Nat) : List Int :=
  (List.range j.length).map (fun k =>
    let d := ((List.range j.length).find? (fun d => rlPerm e d = k)).getD 0
    (j.getD d 0 : Int) + rlInOrg e d)

/-- An index leaves a tensor and is resolved by CLAMP or WRAP. -/
def outside (d : Descriptor) (idx : List Int) : Bool :=
  (idx.zipIdx).any (fun (i, k) => decide (i < 0 ∨ (dimOf d k : Int) ≤ i))

/-- R133: every index brought inside. -/
def resolved (d : Descriptor) (idx : List Int) : List Int :=
  idx.zipIdx.map (fun (i, k) => (resolveIndex (d.bound.testBit k) (dimOf d k) i : Int))

/-- The row of a packed tensor at an index vector. -/
def packedRowAt (c : Ctx) (k : Nat) (idx : List Int) : List Byte :=
  let d := cDesc c k
  dRead c k (addressOf d idx) (rowDataBytes d.format (dimOf d 0))

/-- The value that an index vector of IN0 reads. -/
def valueAt (c : Ctx) (k : Nat) (idx : List Int) : FVal :=
  let d := cDesc c k
  if isPacked d.format then
    (packedVals d.format (packedRowAt c k idx) (dimOf d 0)).getD ((resolved d idx).headD 0).toNat .nan
  else elemVal d.format (elemAt c k idx)

/-- R181: a value on its way to a format; from one cell format to another it passes through FP32. -/
def throughFp32 (src dst : Format) (x : FVal) : FVal := if isCell src ∧ isCell dst then roundVal fmt32 x else x

/-- R118, R138: the element code that contributions to one element leave, each given with its own code in the
destination's format, and the NaN conversions counted. -/
def reduceElem (red : Nat) (dst : Format) (l : List (Nat × FVal)) : Nat × Nat :=
  let nans := (l.map (fun x => nanToInt dst x.2)).sum
  if l.length ≤ 1 ∨ red = 0 then ((l.getLastD (0, .nan)).1, nans)
  else if dst = .int32 then
    let ns := l.map (fun x => signed 32 x.1)
    ((BitVec.ofInt 32 (if red = 1 then ns.foldl (· + ·) 0 else ns.tail.foldl max (ns.headD 0))).toNat, nans)
  else
    let vs := l.map (fun x => roundVal fmt32 x.2)
    (elemCode dst (if red = 1 then vs.tail.foldl fAdd (vs.headD .nan) else vs.tail.foldl combineMax (vs.headD .nan)), 0)

/-- The first places of a list of keys, in order, each with what stands there. -/
def groupByKey {α : Type} (l : List (Int × α)) : List (Int × List α) :=
  (l.map (·.1)).dedup.map (fun a => (a, (l.filter (fun e => e.1 = a)).map (·.2)))

/-- R180: the output rows of the iteration space: index vectors without dimension 0. -/
def rlRows (e : OpEntry) (o : Descriptor) : List (List Nat) :=
  iterSpace ((List.range o.rank).tail.map (rlExtent e o))

/-- The source index of element `j0` of an output row. -/
def rlSource (e : OpEntry) (j0 : Nat) (row : List Nat) : List Int := rlInIndex e (j0 :: row)

/-- R133, R178: the places along dimension 0 of IN0 that an output row reads, where the copy does not transpose. -/
def rlPlaces (e : OpEntry) (i o : Descriptor) : List Nat :=
  (List.range (rlExtent e o 0)).map (fun j => resolveIndex (i.bound.testBit 0) (dimOf i 0) ((j : Int) + rlInOrg e 0))

/-- The cells of a source row that an output row reads. -/
def rlCells (e : OpEntry) (i o : Descriptor) : List Nat := ((rlPlaces e i o).map (· / 64)).dedup

/-- R126: a source cell that the copy reads is malformed. -/
def rlMalformed (c : Ctx) (i o : Descriptor) : Bool :=
  isCell i.format && (rlRows c.e o).any (fun row =>
    let bs := packedRowAt c (c.e.in0.getD 0) (rlSource c.e 0 row)
    (rlCells c.e i o).any (fun t =>
      cellBad i.format (slice bs (t * cellBytes i.format) (cellBytes i.format)) (min 64 (dimOf i 0 - 64 * t))))

/-- R181, R127: the first `n` elements of a cell as it stands, the codes after them zero. -/
def trimCell (f : Format) (cell : List Byte) (n : Nat) : List Byte :=
  if n = 64 then cell else cell.take 2 ++ (cellOf f 0 0 0 ((List.range n).map (cellCode f cell))).drop 2

/-- R181: a cell of a copy between equal cell formats: moved whole where it takes the elements of one source cell from its first on;
else unpacked and packed anew (DESIGN CHOICE, log entry 43). -/
def rlCell (f : Format) (src : List Byte) (n : Nat) (places : List Nat) : List Byte :=
  let p := places.headD 0
  if p % 64 = 0 ∧ places = List.range' p places.length then
    trimCell f (slice src (p / 64 * cellBytes f) (cellBytes f)) places.length
  else
    let vs := packedVals f src n
    packCell f false (places.map (fun x => vs.getD x .nan))

/-- R181: a packed row of a copy between equal formats: cells, or an A8 scale with the codes read. -/
def rlSameRow (f : Format) (src : List Byte) (n : Nat) (places : List Nat) : List Byte :=
  if f = .a8 then slice src 0 4 ++ places.flatMap (fun x => slice src (4 + x) 1)
  else (chunks 64 (ceilDiv places.length 64) places).flatMap (rlCell f src n)

/-- Packed output rows: where each lies, its bytes, and the NaNs that NAN_COUNT counts (R184). -/
def rlPackedRows (c : Ctx) (i o : Descriptor) : List (Int × List Byte × Nat) :=
  let k := c.e.in0.getD 0
  (rlRows c.e o).map (fun row =>
    let at_ := addressOf o (rlOutIndex c.e (0 :: row))
    if i.format = o.format then
      let bs := rlSameRow i.format (packedRowAt c k (rlSource c.e 0 row)) (dimOf i 0) (rlPlaces c.e i o)
      (at_, bs, if isCell i.format then ((cellsOf i.format bs (dimOf o 0)).filter (fun x => cellNan x.1)).length else 0)
    else
      let vs := (List.range (dimOf o 0)).map (fun j => throughFp32 i.format o.format (valueAt c k (rlSource c.e j row)))
      (at_, packRow o.format (pf c.e 0 1 = 1) vs, nansWritten o.format vs))

/-- Element writes of the copy, in iteration order: destination address, code and value. -/
def rlElements (c : Ctx) (i o : Descriptor) : List (Int × Nat × FVal) :=
  let k := c.e.in0.getD 0
  (iterSpace ((List.range o.rank).map (rlExtent c.e o))).map (fun j =>
    let v := valueAt c k (rlInIndex c.e j)
    (addressOf o (rlOutIndex c.e j), if i.format = o.format then elemAt c k (rlInIndex c.e j) else elemCode o.format v, v))

/-- R190: later contributions to one destination. -/
def collisions {α : Type} (l : List (Int × α)) : Nat := l.length - (l.map (·.1)).dedup.length

/-- R201: beats of 64 bytes that address ranges lie in, each counted once. -/
def beatsOf (l : List (Int × Nat)) : Nat :=
  ((l.flatMap (fun t => (List.range' (t.1.toNat / 64) ((t.1.toNat + t.2 + 63) / 64 - t.1.toNat / 64)))).dedup).length

/-- R201: pages that a descriptor's touched bytes lie in. -/
def pagesTouched (d : Descriptor) (at_ : List (Int × Nat)) : Nat :=
  if d.space ≠ .session then 0
  else ((at_.flatMap (fun t => (piecesOf t.1.toNat t.2).map (fun p => p.1 / pageSize p.1 * pageSize p.1))).dedup).length

/-- R188: the bytes that an output row reads and those that it writes. -/
def rlRowIn (e : OpEntry) (i o : Descriptor) (row : List Nat) : List (Int × Nat) :=
  if i.format = .a8 then
    let a := addressOf i (rlSource e 0 row)
    (a, 4) :: (rlPlaces e i o).dedup.map (fun x => (a + 4 + (x : Int), 1))
  else if isPacked i.format then
    (rlCells e i o).map (fun t =>
      (addressOf i (rlSource e 0 row) + ((t * cellBytes i.format : Nat) : Int), cellBytes i.format))
  else (List.range (rlExtent e o 0)).map (fun j => (addressOf i (rlSource e j row), elemBytes i.format))
def rlRowOut (e : OpEntry) (o : Descriptor) (row : List Nat) : List (Int × Nat) :=
  if isPacked o.format then [(addressOf o (rlOutIndex e (0 :: row)), paddedRow o)]
  else (List.range (rlExtent e o 0)).map (fun j => (addressOf o (rlOutIndex e (j :: row)), elemBytes o.format))

/-- R188: the byte ranges that the iteration space touches in IN0 and in OUT0. -/
def rlTouchedIn (e : OpEntry) (i o : Descriptor) : List (Int × Nat) := (rlRows e o).flatMap (rlRowIn e i o)
def rlTouchedOut (e : OpEntry) (o : Descriptor) : List (Int × Nat) := (rlRows e o).flatMap (rlRowOut e o)

/-- R187 check 7: overlap on module addresses (DEDUCED, log entry 43): the footprints' pages meet there; of a copy that R194 or R195
performs, a byte is reached under two addresses. -/
def rlModuleOverlap (c : Ctx) (i o : Descriptor) : Bool :=
  match sget c.s.sessions c.p.session with
  | none => false
  | some ss =>
    let places (x : Int × Int) : List (Nat × Nat × Nat) :=
      (piecesOf x.1.toNat (x.2 - x.1).toNat).filterMap (fun pc =>
        (translate c.o.view.xlate c.p.session ss needNothing pc.1).map (fun a => (pc.1, a, pc.2)))
    let fp := rlFootprints c.e i o
    let named : Bool := rlOverlaps c.e c.p.bin
    i.space = .session && o.space = .session && !isEdgeDesc c.p (c.e.in0.getD 0) && !isEdgeDesc c.p (c.e.out0.getD 0) &&
      (places fp.1).any (fun x => (places fp.2).any (fun y =>
        overlaps x.2.1 x.2.2 y.2.1 y.2.2 && (!named || decide (x.1 + y.2.1 ≠ y.1 + x.2.1))))

/-- R187 checks 6 and 7, and poison in what is read (R447). -/
def relayoutPre (c : Ctx) : Option Status :=
  let k := c.e.in0.getD 0
  let i := cDesc c k
  let o := cDesc c (c.e.out0.getD 0)
  let pages (d : Descriptor) (n : Need) (l : List (Int × Nat)) : Bool :=
    d.space ≠ .session || l.all (fun t => rangeOk c.s c.o.view c.p.session n t.1 t.2)
  if !pages i needRead (rlTouchedIn c.e i o) ∨ !pages o needWrite (rlTouchedOut c.e o) then some .access
  else if rlModuleOverlap c i o then some .overlap
  else if i.space = .session ∧ !isEdgeDesc c.p k ∧
      (rlTouchedIn c.e i o).any (fun t => sessionBad c.s c.o.view c.p.session t.1.toNat t.2) then some .poisoned
  else if i.space = .staging ∧ (rlTouchedIn c.e i o).any (fun t =>
      poisonedIn c.s.err.poison (0x210000000000 + stagingKey c.p i t.1.toNat) t.2) then some .poisoned
  else none

/-- R127: an element row that the copy writes whole is written with its padding. -/
def rlPads (e : OpEntry) (o : Descriptor) : Bool :=
  !isPacked o.format && writesPadding o && decide (2 ≤ o.rank) && rlOutOrg e 0 = 0 && rlExtent e o 0 = dimOf o 0

/-- Where the padding of an output row lies. -/
def rlPadding (e : OpEntry) (o : Descriptor) (row : List Nat) : List (Int × Nat) :=
  if rlPads e o then
    let n := dimOf o 0 * elemBytes o.format
    [(addressOf o (rlOutIndex e (0 :: row)) + (n : Int), paddedRow o - n)]
  else []

/-! ## Tiles and counters (R185, R201) -/

/-- The tiles of a transposing copy, in iteration order: first index and count along dimensions 0 and 1 of the destination, and the
outer indices. The tiles are laid out from the first index of the iteration space (DEDUCED, log entry 43). -/
def rlTiles (e : OpEntry) (i o : Descriptor) : List ((Nat × Nat) × (Nat × Nat) × List Nat) :=
  let w := 64 / max (elemBytes i.format) 1
  let x := rlExtent e o
  (iterSpace (((List.range o.rank).drop 2).map x)).flatMap (fun outer =>
    (List.range (ceilDiv (x 1) w)).flatMap (fun t1 => (List.range (ceilDiv (x 0) 64)).map (fun t0 =>
      ((64 * t0, min 64 (x 0 - 64 * t0)), (w * t1, min w (x 1 - w * t1)), outer))))

/-- R185: the bytes that a tile reads, by source row, and those that it writes, by destination row. -/
def tileIn (e : OpEntry) (i : Descriptor) (t : (Nat × Nat) × (Nat × Nat) × List Nat) : List (List (Int × Nat)) :=
  (List.range' t.1.1 t.1.2).map (fun j0 => (List.range' t.2.1.1 t.2.1.2).map (fun j1 =>
    (addressOf i (rlSource e j0 (j1 :: t.2.2)), elemBytes i.format)))
def tileOut (e : OpEntry) (o : Descriptor) (t : (Nat × Nat) × (Nat × Nat) × List Nat) : List (List (Int × Nat)) :=
  (List.range' t.2.1.1 t.2.1.2).map (fun j1 => (List.range' t.1.1 t.1.2).map (fun j0 =>
    (addressOf o (rlOutIndex e (j0 :: j1 :: t.2.2)), elemBytes o.format)))

/-- Side of an in-place block in elements, and blocks along a side (R196). -/
def blockSide (o : Descriptor) : Nat := 64 / max (elemBytes o.format) 1
def blocksAlong (o : Descriptor) : Nat := ceilDiv (dimOf o 0) (blockSide o)

/-- R183, R201: what the copy has read and written in beats, tiles, edge reads and pages. -/
def rlCounts (c : Ctx) (i o : Descriptor) : List (Nat × Nat) :=
  let e := c.e
  let outer2 := ((List.range o.rank).drop 2).foldl (fun n d => n * rlExtent e o d) 1
  let beats (l : List (List (Int × Nat))) : Nat := (l.map beatsOf).sum * 64
  let tiles := rlTiles e i o
  let used := if pf e 1 1 = 1 then blocksAlong o * blocksAlong o * outer2 else if rlTransposes e then tiles.length else 0
  [(1, if rlTransposes e then beats (tiles.flatMap (tileIn e i)) else beats ((rlRows e o).map (rlRowIn e i o))),
    (2, if rlTransposes e then beats (tiles.flatMap (tileOut e o))
      else beats ((rlRows e o).map (fun row => rlRowOut e o row ++ rlPadding e o row))), (3, used),
    (4, ((iterSpace ((List.range o.rank).map (rlExtent e o))).filter (fun j => outside i (rlInIndex e j))).length),
    (6, pagesTouched i (rlTouchedIn e i o) + pagesTouched o (rlTouchedOut e o))]

/-! ## Work division (R190, R191, R194, R196) -/

/-- R456: the layout engines of a die that are in service. -/
def enginesOn (s : State) (die : Nat) : List Nat := (List.range 8).filter (fun n => !isRetired s (unitId 5 (die * 8 + n)))

/-- R190: the engine that runs a copy alone. -/
def loneEngine (s : State) (b : PlanBinary) : Option (Nat × Nat) :=
  (planDies s b).findSome? (fun d => (enginesOn s d).head?.map (fun n => (d, n)))

/-- R191: units dealt to engines in contiguous ascending runs of equal length, the first ones taking one more. -/
def dealRuns (n : Nat) (engines : List Nat) : List Nat :=
  engines.zipIdx.flatMap (fun (g, i) => List.replicate (n / engines.length + bitOf (decide (i < n % engines.length))) g)

/-- R191: the work units: what each writes, row by row. -/
def rlUnits (e : OpEntry) (i o : Descriptor) : List (List (Int × Nat)) :=
  if rlTransposes e then (rlTiles e i o).map (fun t => (tileOut e o t).flatten)
  else (chunks 64 (ceilDiv (rlRows e o).length 64) (rlRows e o)).map (fun rows =>
    rows.flatMap (fun row => rlRowOut e o row ++ rlPadding e o row))

/-- R152, R191: the die whose crater owns the block of a byte of a BLOCKED destination. -/
def blockDie (c : Ctx) (o : Descriptor) (a : Int) : Nat :=
  hostCore c.p (ownerOfBlock c.p (c.e.out0.getD 0) (spotOf o a.toNat).blk) / 512

/-- R191: which die takes each unit: that of the first block it writes, or the halves of the units. -/
def unitDies (c : Ctx) (o : Descriptor) (units : List (List (Int × Nat))) : List Nat :=
  let dies := (planDies c.s c.p.bin).filter (fun d => enginesOn c.s d ≠ [])
  if o.space = .blocked then units.map (fun u => blockDie c o ((u.headD (0, 0)).1))
  else match dies with
    | [d] => units.map (fun _ => d)
    | _ => (List.range units.length).map (fun k => if k < ceilDiv units.length 2 then 0 else 1)

/-- R191: the units that each engine takes, in order. -/
def dealUnits (c : Ctx) (o : Descriptor) (units : List (List (Int × Nat))) : List ((Nat × Nat) × List (Int × Nat)) :=
  let at_ := units.zip (unitDies c o units)
  [0, 1].flatMap (fun d =>
    let mine := (at_.filter (fun x => x.2 = d)).map (·.1)
    (mine.zip (dealRuns mine.length (enginesOn c.s d))).map (fun (u, n) => ((d, n), u)))

/-- R196: the pairs of blocks of an in-place transposition with the rows that each writes, block (j, i) before block (i, j). -/
def rlPairs (o : Descriptor) (outer : List Nat) : List (List (Int × Nat)) :=
  let b := blockSide o
  let n := dimOf o 0
  let rows (i j : Nat) : List (Int × Nat) := (List.range' (b * i) (min b (n - b * i))).map (fun r =>
    (addressOf o (((b * j : Nat) : Int) :: (r : Int) :: outer.map (fun (x : Nat) => (x : Int))), min b (n - b * j) * elemBytes o.format))
  (List.range (blocksAlong o)).flatMap (fun i => (List.range' i (blocksAlong o - i)).map (fun j =>
    rows j i ++ (if j ≠ i then rows i j else [])))

/-- R196: the pairs dealt to the engines of the owning die by their number; outside BLOCKED space that is the lone engine's die (DESIGN
CHOICE, log entry 43). -/
def dealPairs (c : Ctx) (o : Descriptor) : List ((Nat × Nat) × List (Int × Nat)) :=
  (iterSpace (((List.range o.rank).drop 2).map (dimOf o))).flatMap (fun outer =>
    (rlPairs o outer).zipIdx.map (fun (u, k) =>
      let d := if o.space = .blocked then blockDie c o ((u.headD (0, 0)).1)
        else ((loneEngine c.s c.p.bin).map (·.1)).getD 0
      ((d, (enginesOn c.s d).getD (k % (enginesOn c.s d).length) 0), u)))

/-- A row's writes cut at multiples of 64 bytes, the last first. -/
def beatsDown (l : List (Int × Nat)) : List (Int × Nat) :=
  let lo := ((l.map (·.1)).min?).getD 0
  let hi := ((l.map (fun t => t.1 + (t.2 : Int))).max?).getD 0
  let first := lo.toNat / 64
  let last := ceilDiv hi.toNat 64
  ((List.range' first (last - first)).map (fun q =>
    let a := max lo ((q * 64 : Nat) : Int)
    (a, (min hi ((q * 64 + 64 : Nat) : Int) - a).toNat))).reverse

/-- R191, R194, R196: what each engine writes, in its order, in a copy that R190 does not cover. -/
def rlWork (c : Ctx) (i o : Descriptor) : List ((Nat × Nat) × List (Int × Nat)) :=
  let lone := loneEngine c.s c.p.bin
  if pf c.e 1 1 = 1 then dealPairs c o
  else if rlOverlaps c.e c.p.bin then
    (match lone with
      | none => []
      | some g =>
        let rows := (rlRows c.e o).map (fun row => rlRowOut c.e o row ++ rlPadding c.e o row)
        if i.base < o.base then [(g, rows.reverse.flatMap beatsDown)] else [(g, rows.flatten)])
  else dealUnits c o (rlUnits c.e i o)

/-- R190: the copy runs on one engine and combines contributions. -/
def rlAliases (e : OpEntry) (o : Descriptor) : Bool := !injective (unitBytes o) (rlWriteDims e o)

/-- Bytes of a session destination as the step has written them. -/
def writtenBytes (c : Ctx) (k a n : Nat) : List Byte :=
  if isEdgeDesc c.p k then memRead c.o.scratch a n else overlay (zeros n) c.o.commitBuf a

/-- R253, R254: what taps see of a RELAYOUT: what each engine writes; far-tier bytes that several units read arrive in an order that is
not stated (log entry 64). -/
def rlTapsSee (i o : Descriptor) (c : Ctx) : Ctx :=
  if !c.s.taps.any (fun t => t.attached && decide (t.session = c.p.session)) then c
  else
    let k := c.e.out0.getD 0
    let ranges (l : List (Int × Nat)) : List (Nat × Nat) := l.map (fun t => (t.1.toNat, t.2))
    let far := if i.space = .session ∧ !isEdgeDesc c.p (c.e.in0.getD 0) then
        ((rangeGrains c.s c.o.view.xlate c.p.session (ranges (rlTouchedIn c.e i o))).filter (fun g => decide (nearEnd ≤ g.2.1))).map
          (fun g => (g.1, g.2.2))
      else []
    let s1 := if far = [] then c.s else freeTaps c.p.session (fun _ t => if t.stream = 6 then windowBytes t far else 0) c.s
    let s2 :=
      if o.space ≠ .session then s1
      else if rlAliases c.e o then
        freeTaps c.p.session (fun n t =>
          if t.stream = 8 ∧ loneEngine c.s c.p.bin = some (tapDie n, t.unit) then windowBytes t (ranges (rlTouchedOut c.e o)) else 0) s1
      else (rlWork c i o).foldl (fun x w => w.2.foldl (fun y t =>
        foldStream 8 w.1.1 w.1.2 c.p.session t.1.toNat (writtenBytes c k t.1.toNat t.2) y) x) s1
    { c with s := s2 }

/-! ## RELAYOUT -/

/-- RELAYOUT (R178, R190, R194 to R196): every value is read before any is written. -/
def relayoutBody (c : Ctx) : OpEnd :=
  let k := c.e.out0.getD 0
  let i := cDesc c (c.e.in0.getD 0)
  let o := cDesc c k
  if rlMalformed c i o then .fail .implausible
  else if isPacked o.format then
    let rows := rlPackedRows c i o
    let c1 := rows.foldl (fun x r => dWrite k r.1 (r.2.1 ++ zeros (paddedRow o - r.2.1.length)) x) c
    .done (rlTapsSee i o (bumps (rlCounts c i o ++ [(5, collisions rows * dimOf o 0)]) (countNans (rows.map (·.2.2)).sum c1)))
  else
    let els := rlElements c i o
    let red := if rlAliases c.e o then o.reduce else 0
    let out := (groupByKey els).map (fun g => (g.1, reduceElem red o.format g.2))
    let c1 := ((rlRows c.e o).flatMap (rlPadding c.e o)).foldl (fun x t => dWrite k t.1 (zeros t.2) x) c
    let c2 := out.foldl (fun x r => dWrite k r.1 (natLE r.2.1 (elemBytes o.format)) x) c1
    .done (rlTapsSee i o (bumps (rlCounts c i o ++ [(5, collisions els)]) (countNans (out.map (fun r => r.2.2)).sum c2)))

/-- RELAYOUT (R178). -/
def execRelayout (plan : Word) (op : Nat) (f : ReadFaults) (s : State) : Host.Outcome State Fault Refusal :=
  .next (runOp plan op .relayout f relayoutPre relayoutBody s)

end Sys2Proof.Machine
end

