-- ==== Sys2Proof/Machine/Codec.lean ====
section
/-!
DEFINITION. The Pumice codec: frames, the decoder and the encoder, DECODE, ENCODE, suspended contexts and their two
commands; and CHECK with the procedure that measures twice (chapter 08, R227 to R250; R258 to R261).
-/

namespace Sys2Proof.Machine

/-! ## Frames (R227 to R229) -/

def pumiMagic : Nat := 0x494D5550

/-- The fields of a frame header. -/
structure FrameHeader where
  dims : Bool
  rank : Nat
  format : Nat
  origLen : Nat
  dimM1 : List Nat
  deriving DecidableEq, Repr

/-- R227: the header in the first 32 bytes of a frame. -/
def parseFrameHeader (b : List Byte) : FrameHeader where
  dims := field b 40 1 = 1
  rank := field b 48 3
  format := field b 56 8
  origLen := field b 64 40
  dimM1 := (List.range 5).map (fun d => field b (104 + 24 * d) 24)

/-- R227, R259: MAGIC and HDR_CRC are right; `flip` is what the read path changed in the first RESULT. -/
def frameHeaderOk (b : List Byte) (flip : Word) : Bool :=
  field b 0 32 = pumiMagic && decide ((crc32c (b.take 28) ^^^ flip.setWidth 32).toNat = field b 224 32)

/-- R227: a header from its fields, its check included. -/
def frameHeader (h : FrameHeader) : List Byte :=
  let body := record 28 ([(0, pumiMagic), (32, 1), (40, bitOf h.dims), (48, h.rank), (56, h.format), (64, h.origLen)] ++
    h.dimM1.zipIdx.map (fun (n, d) => (104 + 24 * d, n)))
  body ++ natLE (crc32c body).toNat 4

/-- R227, R237 check 4: reserved header fields are zero, and RANK and FORMAT agree with DIMS. -/
def frameFieldsOk (b : List Byte) : Bool :=
  let h := parseFrameHeader b
  field b 41 7 = 0 && field b 51 5 = 0 &&
    (if h.dims then
      decide (1 ≤ h.rank ∧ h.rank ≤ 6) && ((formatOf h.format).map (fun f => !isPacked f)).getD false &&
        (List.range 5).all (fun d => decide (d + 1 < h.rank) || h.dimM1.getD d 0 = 0)
    else h.rank = 0 && h.format = 0 && h.dimM1.all (· = 0))

/-- R228: the outermost extent that ORIG_LEN implies is whole and from 1 to 2^24. -/
def outerExtentOk (h : FrameHeader) : Bool :=
  let unit := ((formatOf h.format).map elemBytes).getD 1 *
    ((h.dimM1.take (h.rank - 1)).map (· + 1)).foldl (· * ·) 1
  !h.dims || (h.origLen % unit = 0 && decide (1 ≤ h.origLen / unit ∧ h.origLen / unit ≤ 2 ^ 24))

/-- R234: the expansion bound of a frame of a length. -/
def expansionBound (len : Nat) : Nat := ceilDiv (8 * (len - 48)) 9 * 256

/-! ## Codes and dictionary (R230 to R232) -/

def codeClear : Nat := 256
def codeEnd : Nat := 257
def codeAlign : Nat := 258

/-- R231: the width of the next code after `k` data codes. -/
def codeWidth (k : Nat) : Nat := max 9 (min 16 ((258 + k).log2 + 1))

/-- R230: the string of a code, the dictionary listing codes from 259 upward. -/
def codeString (dict : List (List Byte)) (c : Nat) : List Byte :=
  if c < 256 then [BitVec.ofNat 8 c] else dict.getD (c - 259) []

/-- The decoder within a body (R232). -/
structure Decoder where
  bitPos : Nat
  k : Nat
  prev : Option Nat
  produced : Nat
  /-- the CRC-32C register over the bytes produced -/
  crc : BitVec 32
  codes : Nat
  clears : Nat
  dict : List (List Byte)
  /-- prefix code of each dictionary string (R242) -/
  links : List Nat
  /-- bytes produced since the decoder was started or restored -/
  out : List Byte
  deriving DecidableEq, Repr

/-- The decoder at the start of a body. -/
def Decoder.start : Decoder where
  bitPos := 0
  k := 0
  prev := none
  produced := 0
  crc := 0xFFFFFFFF
  codes := 0
  clears := 0
  dict := []
  links := []
  out := []

/-- How decoding a body ends: END read, output space full (R240), or part BODY failed. -/
inductive BodyEnd where
  | ended | full | failed
  deriving DecidableEq, Repr

/-- The string of a data code as R232 forms it; `none` for an undefined code. -/
def decodeString (d : Decoder) (c : Nat) : Option (List Byte) :=
  let next := 259 + d.dict.length
  if c < 256 ∨ (259 ≤ c ∧ c < next) then some (codeString d.dict c)
  else match d.prev with
    | some p => if c = next then some (codeString d.dict p ++ (codeString d.dict p).take 1) else none
    | none => none

/-- R232: the entry that a data code adds, with its prefix code. -/
def growDict (d : Decoder) (s : List Byte) : List (List Byte) × List Nat :=
  match d.prev with
  | none => (d.dict, d.links)
  | some p =>
    let w := codeString d.dict p
    if 259 + d.dict.length < 65536 ∧ w.length < 256 then (d.dict ++ [w ++ s.take 1], d.links ++ [p]) else (d.dict, d.links)

/-- R232: one data code taken. -/
def takeString (d : Decoder) (c : Nat) (pos : Nat) (s : List Byte) : Decoder where
  bitPos := pos
  k := d.k + 1
  prev := some c
  produced := d.produced + s.length
  crc := crc32cRun d.crc s
  codes := d.codes + 1
  clears := d.clears
  dict := (growDict d s).1
  links := (growDict d s).2
  out := d.out ++ s

/-- R232, R238, R240: codes are read until END, until `stop` bytes have been produced, or until the body fails. -/
def decodeBody (body : List Byte) (bodyBits origLen : Nat) (stop : Option Nat) : Nat → Decoder → Decoder × BodyEnd
  | 0, d => (d, .failed)
  | fuel + 1, d =>
    if (stop.map (fun n => decide (n ≤ d.produced))).getD false then (d, .full)
    else
      let w := codeWidth d.k
      let pos := d.bitPos + w
      let next := roundUp pos 8
      if bodyBits < pos then (d, .failed)
      else
        let c := field body d.bitPos w
        if c = codeClear then
          decodeBody body bodyBits origLen stop fuel
            { d with bitPos := pos, k := 0, prev := none, dict := [], links := [], clears := d.clears + 1 }
        else if c = codeEnd then
          if field body pos (next - pos) ≠ 0 ∨ d.produced ≠ origLen then (d, .failed) else ({ d with bitPos := next }, .ended)
        else if c = codeAlign then
          if field body pos (next - pos) ≠ 0 then (d, .failed)
          else decodeBody body bodyBits origLen stop fuel { d with bitPos := next }
        else match decodeString d c with
          | none => (d, .failed)
          | some s =>
            let d1 := takeString d c pos s
            if origLen < d1.produced then (d1, .failed) else decodeBody body bodyBits origLen stop fuel d1

/-- R239: the parts of a frame. -/
inductive FramePart where
  | header | body | trailer
  deriving DecidableEq, Repr

def partCode : FramePart → Nat
  | .header => 1
  | .body => 2
  | .trailer => 3

/-- What decoding one frame gives. -/
inductive FrameEnd where
  | finished (d : Decoder)
  | full (d : Decoder)
  | failed (d : Decoder) (part : FramePart) (checked : Bool)
  deriving DecidableEq, Repr

/-- R229, R238: a frame decoded from a decoder state to its end, or to `stop` bytes; `checked` tells a failure of ORIG_CRC,
which the recompute procedure judges; `flip` is what the read path changed in the first RESULT (R259). -/
def decodeFrame (frame : List Byte) (start : Decoder) (stop : Option Nat) (flip : Word) : FrameEnd :=
  let origLen := field frame 64 40
  let bodyBits := 8 * (frame.length - 48)
  match decodeBody (frame.drop 32) bodyBits origLen stop (bodyBits / 9 + 2) start with
  | (d, .full) => .full d
  | (d, .failed) => .failed d .body false
  | (d, .ended) =>
    let t := frame.drop (32 + d.bitPos / 8)
    if frame.length ≠ 48 + d.bitPos / 8 ∨ field t 64 64 ≠ origLen ∨ field t 32 32 ≠ 0 then .failed d .trailer false
    else if (~~~ d.crc ^^^ flip.setWidth 32).toNat ≠ field t 0 32 then .failed d .body true
    else .finished d

/-! ## The encoder (R233) -/

/-- The encoder: codes with their widths, newest first, and the dictionary. -/
structure Encoder where
  k : Nat
  dict : List (List Byte)
  emitted : List (Nat × Nat)
  codes : Nat
  clears : Nat
  deriving DecidableEq, Repr

/-- The code of a string, if it has one. -/
def stringCode (dict : List (List Byte)) (s : List Byte) : Option Nat :=
  match s with
  | [b] => some b.toNat
  | _ => (dict.findIdx? (· = s)).map (· + 259)

/-- R232, R233: the match is emitted; with a next byte the match and that byte are added, or the full dictionary handled. -/
def emitMatch (clearFull : Bool) (m : List Byte) (next : Option Byte) (e : Encoder) : Encoder :=
  let c := (stringCode e.dict m).getD 0
  let e1 := { e with emitted := (c, codeWidth e.k) :: e.emitted, k := e.k + 1, codes := e.codes + 1 }
  match next with
  | none => e1
  | some b =>
    if 259 + e.dict.length < 65536 then
      (if m.length < 256 then { e1 with dict := e.dict ++ [m ++ [b]] } else e1)
    else if clearFull then
      { e1 with k := 0, dict := [], emitted := (codeClear, codeWidth e1.k) :: e1.emitted, clears := e.clears + 1 }
    else e1

/-- R233: greedy longest match over the input. -/
def encodeBytes (clearFull : Bool) : List Byte → List Byte → Encoder → Encoder
  | [], m, e => if m = [] then e else emitMatch clearFull m none e
  | b :: bs, m, e =>
    if m = [] then encodeBytes clearFull bs [b] e
    else if (stringCode e.dict (m ++ [b])).isSome then encodeBytes clearFull bs (m ++ [b]) e
    else encodeBytes clearFull bs [b] (emitMatch clearFull m (some b) e)

/-- Codes packed into a bit string, lowest bit first (R229). -/
def packCodes (cs : List (Nat × Nat)) : List Byte :=
  let packed := cs.foldl (fun (acc : Nat × Nat) c => (acc.1 + c.1 <<< acc.2, acc.2 + c.2)) (0, 0)
  natLE packed.1 (ceilDiv packed.2 8)

/-- R227, R229, R233: the frame of a byte string, with what the encoder counted. -/
def encodeFrame (clearFull : Bool) (h : FrameHeader) (bs : List Byte) : List Byte × Encoder :=
  let e := encodeBytes clearFull bs [] { k := 0, dict := [], emitted := [], codes := 0, clears := 0 }
  let body := packCodes (e.emitted.reverse ++ [(codeEnd, codeWidth e.k)])
  (frameHeader { h with origLen := bs.length } ++ body ++ record 16 [(0, (crc32c bs).toNat), (64, bs.length)], e)

/-! ## DECODE (R235 to R243) -/

/-- R235, R247: a SESSION descriptor or an edge descriptor. -/
def sessionOrEdge (b : PlanBinary) (slot : Option Nat) : Bool :=
  slot.isNone || (slotDesc b slot).space = .session || b.edges.any (fun x => slot = some x.desc)

/-- R235, R135, R140: PLAN_LOAD's checks of a DECODE entry. -/
def decodeCheck (b : PlanBinary) (e : OpEntry) : Option Status :=
  let i := slotDesc b e.in0
  let j := slotDesc b e.in1
  let o := slotDesc b e.out0
  firstFail
    [ need (slotsOk e .wanted .wanted .unused .wanted .unused && e.params.length = 32 && pf e 64 192 = 0 &&
        [i, j, o].all (fun d => d.format = .u8 && d.rank = 1) && [i, j].all (fun d => d.space = .session) &&
        sessionOrEdge b e.out0) .badPlan,
      need (dimOf o 0 % 64 = 0) .align,
      need (decide (1 ≤ pf e 0 32 ∧ pf e 0 32 ≤ 1048576 ∧ 16 * pf e 0 32 ≤ dimOf j 0)) .limit ]

/-- R235: offset and length of a frame in the directory. -/
def frameEntry (c : Ctx) (f : Nat) : Nat × Nat :=
  let b := linearRead c (c.e.in1.getD 0) (16 * f) 16
  (field b 0 64, field b 64 32)

/-- The bytes of a frame. -/
def frameAt (c : Ctx) (f : Nat) : List Byte :=
  linearRead c (c.e.in0.getD 0) (frameEntry c f).1 (frameEntry c f).2

/-- R259: what the read path changed in a first RESULT. -/
def firstFlip (f : ReadFaults) (k : Nat) : Word := ((f.flips.find? (fun e => e.1 = k)).map (·.2)).getD 0

/-- R259: a failed check of the data is CHECK_MISMATCH when the second read differs, else CHECK_SUSPECT. -/
def checkStatus (second : Word) : Status := if second = 0 then .checkSuspect else .checkMismatch

/-- R237: the pre-pass of one frame: the status it fails with, and whether part HEADER failed. -/
def prepassFrame (c : Ctx) (faults : ReadFaults) (f : Nat) : Option (Status × Bool) :=
  let d := cDesc c (c.e.in0.getD 0)
  let at_ := frameEntry c f
  let limit := if par c 32 32 = 0 then 268435456 else par c 32 32
  let rsv := field (linearRead c (c.e.in1.getD 0) (16 * f) 16) 96 32
  if at_.2 < 48 ∨ dimOf d 0 < at_.1 + at_.2 then some (.limit, false)
  else
    let b := linearRead c (c.e.in0.getD 0) at_.1 32
    let h := parseFrameHeader b
    if !frameHeaderOk b (firstFlip faults (2 * f)) then some (checkStatus faults.secondRead, true)
    else if field b 32 8 ≠ 1 then some (.version, false)
    else if !frameFieldsOk b ∨ rsv ≠ 0 then some (.implausible, false)
    else if limit < h.origLen then some (.limit, false)
    else if expansionBound at_.2 < h.origLen ∨ !outerExtentOk h then some (.implausible, false)
    else none

/-- R236: the extents given to the operator in this step, in order. -/
def opExtents (c : Ctx) : List (Nat × Nat) := (c.o.extents.filter (fun x => x.1 = c.op)).map (·.2)

/-- R236: where the supplied output space lies: OUT0, then the added extents; address, length, and the position of its
first byte in the logical output. -/
def outputPieces (c : Ctx) : List (Bool × Nat × Nat × Nat) :=
  let n := dimOf (cDesc c (c.e.out0.getD 0)) 0
  ((opExtents c).foldl (fun (acc : List (Bool × Nat × Nat × Nat) × Nat) x => (acc.1 ++ [(false, x.1, x.2, acc.2)], acc.2 + x.2))
    ([(true, 0, n, 0)], n)).1

/-- The output space supplied so far. -/
def outputSpace (c : Ctx) : Nat := dimOf (cDesc c (c.e.out0.getD 0)) 0 + ((opExtents c).map (·.2)).sum

/-- R236: bytes of the logical output written; bytes past the supplied space are not. -/
def writeLogical (pos : Nat) (bs : List Byte) (c : Ctx) : Ctx :=
  (outputPieces c).foldl
    (fun x p =>
      let lo := max pos p.2.2.2
      let hi := min (pos + bs.length) (p.2.2.2 + p.2.2.1)
      if hi ≤ lo then x
      else
        let part := (bs.drop (lo - pos)).take (hi - lo)
        if p.1 then linearWrite (c.e.out0.getD 0) lo part x
        else { x with o := { x.o with commitBuf := overWrite x.o.commitBuf (p.2.1 + (lo - p.2.2.2)) part } }) c

/-- The context that a suspended run holds for an operator. -/
def heldContext (c : Ctx) : Option CtxHolder :=
  c.r.ctx.bind (fun h => c.s.contexts.find? (fun x => x.handle = h ∧ x.ctx.plan = c.p.handle ∧ x.ctx.op = c.op))

/-- R242: the dictionary image of a decoder. -/
def dictImage (d : Decoder) : List DictEntry :=
  (d.dict.zip d.links).map (fun e => { pre := e.2, last := e.1.getLast?.getD 0, lenM1 := e.1.length - 1 })

/-- R242: the strings that a dictionary image holds. -/
def imageStrings (l : List DictEntry) : List (List Byte) :=
  l.foldl (fun acc e => acc ++ [codeString acc e.pre ++ [e.last]]) []

/-- R245: a decoder restored from a context. -/
def restoreDecoder (x : CodecContext) : Decoder where
  bitPos := x.bitPos
  k := x.k
  prev := x.prevCode
  produced := x.produced
  crc := ~~~ x.runCrc
  codes := x.codes
  clears := x.clears
  dict := imageStrings (x.dict.take (x.nextCode - 259))
  links := (x.dict.take (x.nextCode - 259)).map (·.pre)
  out := x.carry

/-- R240, R242: the context of a decoder that stopped at the end of the space. -/
def contextOf (c : Ctx) (frame carry : Nat) (d : Decoder) : CodecContext where
  plan := c.p.handle
  op := c.op
  frame := frame
  bitPos := d.bitPos
  nextCode := 259 + d.dict.length
  prevCode := d.prev
  k := d.k
  produced := d.produced
  carry := d.out.drop (d.out.length - carry)
  runCrc := ~~~ d.crc
  codes := d.codes
  clears := d.clears
  dict := dictImage d

/-- What DECODE has counted over finished frames. -/
structure DecodeTally where
  frames : Nat
  consumed : Nat
  codes : Nat
  clears : Nat
  deriving DecidableEq, Repr

/-- R239, R240: how a pass over the frames ends. -/
inductive PassEnd where
  | all
  | stopped (frame : Nat) (d : Option Decoder)
  | failed (frame : Nat) (part : FramePart) (checked : Bool)
  deriving DecidableEq, Repr

/-- R238: the frames in directory order, each written at its place, until one fails or the space ends. -/
def decodeFrames (faults : ReadFaults) (c0 : Ctx) : List Nat → Nat → Ctx → DecodeTally → Ctx × DecodeTally × PassEnd
  | [], _, c, t => (c, t, .all)
  | f :: fs, start, c, t =>
    let space := outputSpace c0
    if space ≤ start then (c, t, .stopped f none)
    else
      let frame := frameAt c0 f
      let origLen := field frame 64 40
      let held := (heldContext c0).filter (fun h => h.ctx.frame = f)
      let d0 := (held.map (fun h => restoreDecoder h.ctx)).getD Decoder.start
      let from_ := start + d0.produced - d0.out.length
      let stop := if space < start + origLen then some (space - start) else none
      match decodeFrame frame d0 stop (firstFlip faults (2 * f + 1)) with
      | .failed _ part checked => (c, t, .failed f part checked)
      | .full d => (writeLogical from_ d.out c, { t with codes := t.codes + d.codes, clears := t.clears + d.clears }, .stopped f (some d))
      | .finished d =>
        decodeFrames faults c0 fs (start + origLen) (writeLogical from_ d.out c)
          { frames := t.frames + 1, consumed := t.consumed + frame.length, codes := t.codes + d.codes,
            clears := t.clears + d.clears }

/-- R242, R243: a free slot for a context: the die of the lane and the slot are the hardware's choice. -/
def pickSlot (c : Ctx) : Nat × Option Nat :=
  let die := if c.s.boot.oneDie then c.s.boot.leadDie
    else match c.p.bin.dies with
      | 0 => bits (Config.freeValue c.s.freeCount) 0 0
      | n => n - 1
  let start := bits (Config.freeValue (c.s.freeCount + 1)) 9 0
  let taken := (c.s.contexts.filter (fun x => x.die = die)).filterMap (·.slot)
  (die, ((List.range 1024).map (fun k => (start + k) % 1024)).find? (fun k => !taken.contains k))

/-- R242: the handle of a context. -/
def contextHandle (sid serial die slot : Nat) : Word :=
  BitVec.ofNat 64 (sid <<< 56 + serial <<< 11 + die <<< 10 + slot)

/-- R240 to R243: the straddling frame's context takes a slot, or is discarded when none is free; handle 0 then stands for
it. -/
def saveContext (x : CodecContext) (c : Ctx) : Ctx :=
  let pick := pickSlot c
  let s1 := takeFresh 2 c.s
  match pick.2 with
  | none => bump 14 1 (setExt 9 0 { c with s := onRun c.p.handle (fun r => { r with ctx := some 0 }) s1 })
  | some slot =>
    let h := contextHandle c.p.session (s1.ctxSerial + 1) pick.1 slot
    let s2 := { s1 with
      ctxSerial := s1.ctxSerial + 1
      contexts := s1.contexts ++ [{ handle := h, session := c.p.session, die := pick.1, slot := some slot, spilled := none, ctx := x }] }
    setExt 9 h.toNat { c with s := onRun c.p.handle (fun r => { r with ctx := some h }) s2 }

/-- The context that the operator has taken up again is no longer held. -/
def dropHeld (c : Ctx) : Ctx :=
  let s1 := match heldContext c with
    | none => c.s
    | some h => { c.s with contexts := c.s.contexts.filter (fun x => x.handle ≠ h.handle) }
  { c with s := onRun c.p.handle (fun r => { r with ctx := none }) s1 }

/-- R239, R250: FAIL_FRAME and FAIL_PART. -/
def failExts (frame part : Nat) : List (Nat × Nat) := [(10, frame), (11, part)]

/-- R250: no frame failed. -/
def noFrame : Nat := 0xFFFFFFFFFFFFFFFF

/-- Counters 1 to 8 of a pass. -/
def tallyExts (t : DecodeTally) (consumed produced carry susp bit : Nat) : List (Nat × Nat) :=
  [(1, t.frames), (2, consumed), (3, produced), (4, t.codes), (5, t.clears), (6, carry), (7, susp), (8, bit)]

/-- DECODE (R236 to R243). SUSP_FRAME keeps the frame of the last suspension (R250). -/
def decodeOp (faults : ReadFaults) (c : Ctx) : OpEnd :=
  let n := par c 0 32
  let susp := extOf c 7
  match (List.range n).findSome? (fun f => (prepassFrame c faults f).map (fun x => (f, x))) with
  | some (f, st, hdr) =>
    .failWith (setExts (tallyExts { frames := 0, consumed := 0, codes := 0, clears := 0 } 0 0 0 susp 0 ++
      [(9, 0)] ++ failExts f (if hdr then partCode .header else 0)) c) st
  | none =>
    let lens := (List.range n).map (fun f => field (linearRead c (c.e.in0.getD 0) (frameEntry c f).1 32) 64 40)
    match decodeFrames faults c (List.range n) 0 c { frames := 0, consumed := 0, codes := 0, clears := 0 } with
    | (c1, t, .failed f part checked) =>
      .failWith (setExts (tallyExts t t.consumed (lens.take t.frames).sum 0 susp 0 ++ failExts f (partCode part)) (dropHeld c1))
        (if checked then checkStatus faults.secondRead else .implausible)
    | (c1, t, .all) =>
      .done (setExts (tallyExts t t.consumed lens.sum 0 susp 0 ++ [(9, 0)] ++ failExts noFrame 0) (dropHeld c1))
    | (c1, t, .stopped f d) =>
      let space := outputSpace c
      match d with
      | none =>
        .suspend (setExts (tallyExts t t.consumed (lens.take f).sum 0 susp 0 ++ [(9, 0)] ++ failExts noFrame 0) (dropHeld c1))
      | some d =>
        let carry := (lens.take f).sum + d.produced - space
        let c2 := saveContext (contextOf c f carry d) (dropHeld c1)
        .suspend (setExts (tallyExts t (t.consumed + 32 + d.bitPos / 8) space carry f (d.bitPos % 8) ++ failExts noFrame 0) c2)

/-- DECODE (R238). -/
def execDecode (plan : Word) (op : Nat) (f : ReadFaults) (s : State) : Host.Outcome State Fault Refusal :=
  .next (runOp plan op .decode f wholeOperands (decodeOp f) s)

/-! ## ENCODE (R247, R248) -/

/-- Data bytes of one row of a descriptor. -/
def rowBytesIn (d : Descriptor) : Nat := if d.rank = 1 ∧ !isPacked d.format then elemBytes d.format else rowDataBytes d.format (dimOf d 0)

/-- R247: frames of an ENCODE. -/
def encodeCount (i : Descriptor) (rows : Nat) : Nat := ceilDiv (rowCount i) (max rows 1)

/-- R247, R248: PLAN_LOAD's checks of an ENCODE entry. -/
def encodeCheck (b : PlanBinary) (e : OpEntry) : Option Status :=
  let i := slotDesc b e.in0
  let o := slotDesc b e.out0
  let q := slotDesc b e.out1
  let rows := pf e 0 32
  let len := rows * rowBytesIn i
  firstFail
    [ need (slotsOk e .wanted .unused .unused .wanted .wanted && e.params.length = 32 && pf e 34 222 = 0 &&
        o.format = .u8 && o.rank = 2 && sessionOrEdge b e.out0 && q.format = .u8 && q.rank = 1) .badPlan,
      need (dimOf o 0 % 64 = 0) .align,
      need (decide (1 ≤ rows ∧ rows ≤ 2 ^ 24)) .limit,
      need (decide (50 + 2 * len + 2 * ceilDiv len 65277 ≤ dimOf o 0)) .limit,
      need (pf e 33 1 = 0 || !isPacked i.format) .badPlan,
      need (decide (encodeCount i rows ≤ dimOf o 1 ∧ 16 * encodeCount i rows ≤ dimOf q 0)) .limit ]

/-- R247: the frame of rows `f × FRAME_ROWS` upward, its directory entry, its input bytes and the encoder. -/
def encodeOne (c : Ctx) (f : Nat) : List Byte × List Byte × Nat × Encoder :=
  let i := cDesc c (c.e.in0.getD 0)
  let n := par c 0 32
  let bs := ((List.range' (f * n) (min n (rowCount i - f * n))).map (rowRead c (c.e.in0.getD 0))).flatten
  let h : FrameHeader :=
    if par c 33 1 = 1 then
      { dims := true, rank := 2, format := formatCode i.format, origLen := 0, dimM1 := [dimOf i 0 - 1] }
    else { dims := false, rank := 0, format := 0, origLen := 0, dimM1 := [] }
  let r := encodeFrame (par c 32 1 = 1) h bs
  (r.1, record 16 [(0, r.1.length), (32, (crc32c bs).toNat), (64, bs.length)], bs.length, r.2)

/-- ENCODE (R247, R250). -/
def encodeOp (c : Ctx) : OpEnd :=
  let i := cDesc c (c.e.in0.getD 0)
  let slot := dimOf (cDesc c (c.e.out0.getD 0)) 0
  let fs := (List.range (encodeCount i (par c 0 32))).map (encodeOne c)
  let c1 := fs.zipIdx.foldl (fun x (r, f) => rowWrite (c.e.out0.getD 0) f (r.1 ++ zeros (slot - r.1.length)) x) c
  let c2 := linearWrite (c.e.out1.getD 0) 0 ((fs.map (·.2.1)).flatten) c1
  .done (bumps [(1, fs.length), (2, (fs.map (·.2.2.1)).sum), (3, (fs.map (·.1.length)).sum),
      (4, (fs.map (·.2.2.2.codes)).sum), (5, (fs.map (·.2.2.2.clears)).sum)] (setExt 10 noFrame c2))

/-- ENCODE (R247). -/
def execEncode (plan : Word) (op : Nat) (f : ReadFaults) (s : State) : Host.Outcome State Fault Refusal :=
  .next (runOp plan op .encode f wholeOperands encodeOp s)

/-! ## CODEC_CTX_SPILL and CODEC_CTX_FREE (R242, R244) -/

/-- R242: the state block of a context. -/
def stateBlock (x : CodecContext) : List Byte :=
  let body := record 508 [(0, x.plan.toNat), (64, x.op), (96, x.frame), (128, 32 + x.bitPos / 8), (168, x.bitPos % 8),
    (176, x.nextCode), (208, x.prevCode.getD 0xFFFF), (224, x.k), (256, x.produced), (296, x.carry.length),
    (320, x.runCrc.toNat), (384, leNat x.carry)]
  body ++ natLE (crc32c body).toNat 4

/-- R245: the context that a spilled state block gives, beside the dictionary image and what the block does not hold;
`none` when its check or its owner fields are wrong. -/
def readBlock (x : CodecContext) (b : List Byte) : Option CodecContext :=
  if (crc32c (b.take 508)).toNat ≠ field b 4064 32 ∨ field b 0 64 ≠ x.plan.toNat ∨ field b 64 32 ≠ x.op ∨
      field b 96 32 ≠ x.frame then none
  else some { x with
    bitPos := (field b 128 40 - 32) * 8 + field b 168 3
    nextCode := field b 176 17
    prevCode := if field b 208 16 = 0xFFFF then none else some (field b 208 16)
    k := field b 224 32
    produced := field b 256 40
    carry := slice b 48 (min 256 (field b 296 9))
    runCrc := BitVec.ofNat 32 (field b 320 32) }

/-- The context of a handle. -/
def contextOfHandle (s : State) (h : Word) : Option CtxHolder := s.contexts.find? (fun x => x.handle = h)

/-- R244: a PLAN_RESUME of the context's plan is in progress. -/
def contextBusy (s : State) (x : CtxHolder) : Bool := ((planOf s x.ctx.plan).map isRunning).getD false

/-- R244: the session's memory grants WRITE on a range. -/
def writable (s : State) (sid va len : Nat) : Bool :=
  match sessionPieces s sid needWrite va len with
  | none => false
  | some ps => farPiecesOk s ps true

/-- CODEC_CTX_SPILL (R244). -/
def ctxSpillBody (r : CmdRef) (c : Chain) (s : State) : State :=
  match contextOfHandle s c.handle with
  | none => complete r (replyOf .access) s
  | some x =>
    let va := par64 c 0
    if va % 64 ≠ 0 then complete r (replyOf .align) s
    else if !writable s x.session va 512 ∨ x.spilled.isSome then complete r (replyOf .access) s
    else if contextBusy s x then complete r (replyOf .busy) s
    else
      complete r (replyOf .done)
        (storeSession x.session va (stateBlock x.ctx)
          { s with contexts := s.contexts.map (fun y =>
              if y.handle = c.handle then { y with slot := none, spilled := some va } else y) })

/-- CODEC_CTX_FREE (R244). -/
def ctxFreeBody (r : CmdRef) (c : Chain) (s : State) : State :=
  match contextOfHandle s c.handle with
  | none => complete r (replyOf .access) s
  | some x =>
    if contextBusy s x then complete r (replyOf .busy) s
    else complete r (replyOf .done) { s with contexts := s.contexts.filter (fun y => y.handle ≠ c.handle) }

/-- What the command table says of CODEC_CTX_SPILL. -/
def ctxSpillRule : CommandRule :=
  { plainRule 0x0080 with used := [0xFFFFFFFF, 0xFFFFFFFF], handle := .context, needsSession := true }

/-- What the command table says of CODEC_CTX_FREE. -/
def ctxFreeRule : CommandRule := { plainRule 0x0081 with handle := .context, needsSession := true }

/-- CODEC_CTX_SPILL (R244). -/
def execCodecCtxSpill (r : RingId) (p : Packet) (s : State) : Host.Outcome State Fault Refusal :=
  .next (hostCommand r ctxSpillRule ctxSpillBody p s)

/-- CODEC_CTX_FREE (R244). -/
def execCodecCtxFree (r : RingId) (p : Packet) (s : State) : Host.Outcome State Fault Refusal :=
  .next (hostCommand r ctxFreeRule ctxFreeBody p s)

/-! ## CHECK (R258 to R261) -/

/-- The class of the stage of operator `k`. -/
def classOfOp (b : PlanBinary) (k : Nat) : StageClass := (stageAt b (stageOfOp b k)).cls

/-- R140: the width that a class's mover reads and writes with. -/
def moverWidth (cls : StageClass) (write : Bool) : Nat :=
  match cls with
  | .core => 16
  | .spring | .pumice => if write then 64 else 1
  | _ => 64

/-- Segments of a CHECK. -/
def segmentCount (n len : Nat) : Nat := ceilDiv n (max len 1)

/-- R258: PLAN_LOAD's checks of a CHECK entry, operator `k`. -/
def checkCheck (b : PlanBinary) (k : Nat) (e : OpEntry) : Option Status :=
  let i := slotDesc b e.in0
  let j := slotDesc b e.in1
  let o := slotDesc b e.out0
  let n := 8 * segmentCount (dimOf i 0) (pf e 32 32)
  let room (d : Descriptor) : Bool := decide (n ≤ dimOf d 0 * elemBytes d.format)
  firstFail
    [ need (slotsOk e .wanted .wanted .unused .optional .unused && e.params.length = 16 && pf e 2 30 = 0 &&
        pf e 64 64 = 0 && i.format = .u8 && [i, j].all (fun d => d.rank = 1 && !isPacked d.format) &&
        (e.out0.isNone || (o.rank = 1 && !isPacked o.format))) .badPlan,
      need (decide (1 ≤ pf e 32 32)) .limit,
      need (room j && (e.out0.isNone || room o)) .limit ]

/-- Bytes `off` to `off + n - 1` of a RANK 1 tensor of any element format. -/
def flatBytes (c : Ctx) (k off n : Nat) : List Byte := slice (bytesOf c k) off n

/-- R251: the bits of a difference that lie in the check's width. -/
def cutCheck (c : Ctx) (w : Word) : Word := BitVec.ofNat 64 (w.toNat % 2 ^ tapWidth (par c 0 2))

/-- R258, R259: the first RESULT of every segment. -/
def segmentValues (faults : ReadFaults) (c : Ctx) : List Word :=
  let k := c.e.in0.getD 0
  let n := dimOf (cDesc c k) 0
  let len := par c 32 32
  (List.range (segmentCount n len)).map (fun g => 
    tapCheck (par c 0 2) (linearRead c k (g * len) (min len (n - g * len))) ^^^ cutCheck c (firstFlip faults g))

/-- R258: the stored value of a segment. -/
def storedValue (c : Ctx) (g : Nat) : Nat := leNat (flatBytes c (c.e.in1.getD 0) (8 * g) 8) % 2 ^ tapWidth (par c 0 2)

/-- R253, R254, R259: what CHECK reads: segments up to `last`, a second read of the segment `again`, and the stored values. -/
def checkReads (c : Ctx) (last : Nat) (again : Option Nat) : List (Nat × Nat) :=
  let k := c.e.in0.getD 0
  let d := cDesc c k
  let len := par c 32 32
  let bytes (g : Nat) : List (Nat × Nat) :=
    (List.range (min len (dimOf d 0 - g * len))).map (fun i => ((addressOf d [((g * len + i : Nat) : Int)]).toNat, 1))
  let seg (g : Nat) : List (Nat × Nat) :=
    if effStride d 0 = 1 then [((addressOf d [((g * len : Nat) : Int)]).toNat, min len (dimOf d 0 - g * len))] else bytes g
  if d.space = .session ∧ !isEdgeDesc c.p k then
    (List.range last).flatMap seg ++ ((again.map seg).getD [])
  else []

/-- R253, R254: what taps see of a CHECK: its reads of IN0, in order and with the second read, and of IN1; streams whose unit the
hardware chooses hold free values. -/
def checkTapsSee (last : Nat) (again : Option Nat) (c : Ctx) : Ctx :=
  if !c.s.taps.any (fun t => t.attached && decide (t.session = c.p.session)) then c
  else
    let k := c.e.in0.getD 0
    let s1 := foldRanges c (classOf c = .vent) (fun va n => dRead c k va n) (checkReads c last again) c.s
    let s2 := foldReads c (c.e.in1.getD 0) s1
    let dies := opDies c.s c.p c.op
    { c with s := freeTaps c.p.session (fun i t =>
        ((freeStreams c).map (fun e => if e.1 = t.stream ∧ tapOnDies dies e.1 i then
          windowBytes t (e.2.flatMap (fun k => sessionRanges (cDesc c k))) else 0)).sum) s2 }

/-- CHECK (R258 to R261): the lowest segment that disagrees is read a second time. -/
def checkOp (faults : ReadFaults) (c : Ctx) : OpEnd :=
  let vs := segmentValues faults c
  let c1 := match c.e.out0 with
    | none => c
    | some k => bytesWrite k ((vs.map (fun v => natLE v.toNat 8)).flatten) c
  match vs.zipIdx.find? (fun (v, g) => decide (v.toNat ≠ storedValue c g)) with
  | none => .done (checkTapsSee vs.length none (setExts [(2, noFrame), (3, noFrame), (4, noFrame), (5, noFrame)] (bump 1 vs.length c1)))
  | some (v, g) =>
    let w := cutCheck c faults.secondRead
    .failWith
      (checkTapsSee (g + 1) (some g)
        (setExts [(2, g), (3, v.toNat), (4, (v ^^^ w).toNat), (5, storedValue c g)] (bump 1 (g + 1) c1))) (checkStatus w)

/-- CHECK (R259). -/
def execCheck (plan : Word) (op : Nat) (f : ReadFaults) (s : State) : Host.Outcome State Fault Refusal :=
  .next (runOp plan op .check f wholeOperands (checkOp f) s)

end Sys2Proof.Machine
end

