-- ==== Sys2Proof/Machine/Records.lean ====
section
/-!
DEFINITION. What the ingest pipeline shares over its input formats: SCAN's parameters, source values and their conversion,
augmentation, the batch row, and CSV records (R204 to R206, R210, R214 to R216, R223, R224).
-/

namespace Sys2Proof.Machine

/-! ## Parameters (R204) -/

/-- A field entry. -/
structure ScanField where
  src : Nat
  kind : Nat
  fmt : Format
  dstOff : Nat
  capacity : Nat
  deriving DecidableEq, Repr

def kindScalar : Nat := 0
def kindTensor : Nat := 1
def kindString : Nat := 2
def kindList : Nat := 3

/-- The parameter block. -/
structure ScanParams where
  inputFormat : Nat
  hole : Bool
  augPass : Bool
  csvHeader : Bool
  idFromField : Bool
  csvDelim : Byte
  idField : Nat
  batchRows : Nat
  timeoutUs : Nat
  schemaId : Nat
  idBase : Nat
  maxString : Nat
  maxList : Nat
  maxDepth : Nat
  maxRejects : Nat
  fields : List ScanField
  deriving DecidableEq, Repr

/-- R204: the parameter block of a SCAN entry. -/
def scanParams (p : List Byte) : ScanParams where
  inputFormat := field p 0 4
  hole := field p 4 1 = 1
  augPass := field p 5 1 = 1
  csvHeader := field p 6 1 = 1
  idFromField := field p 7 1 = 1
  csvDelim := if field p 8 8 = 0 then 0x2C else BitVec.ofNat 8 (field p 8 8)
  idField := field p 24 6
  batchRows := field p 32 32
  timeoutUs := field p 64 32
  schemaId := field p 96 32
  idBase := field p 128 64
  maxString := field p 192 32
  maxList := field p 224 32
  maxDepth := field p 256 3
  maxRejects := field p 288 32
  fields := (List.range (field p 16 7)).map (fun i =>
    let b := slice p (64 + 16 * i) 16
    { src := field b 0 16, kind := field b 16 4, fmt := (formatOf (field b 24 8)).getD .a8, dstOff := field b 32 32,
      capacity := field b 64 32 })

/-- Bytes of one element of a field: a STRING holds bytes. -/
def fieldElem (f : ScanField) : Nat := if f.kind = kindString then 1 else elemBytes f.fmt

/-- R205: the footprint of a field in the batch row. -/
def fieldSpan (f : ScanField) : Nat × Nat :=
  (f.dstOff, f.dstOff + (if f.kind = kindString ∨ f.kind = kindList then 8 else 0) + f.capacity * fieldElem f)

/-! ## Source values and conversion (R206) -/

/-- A number of a source record: an integer, a value, a decimal `n × 10^e`, or an element code of a format. -/
inductive Num where
  | int (n : Int)
  | real (x : FVal)
  | decimal (neg : Bool) (digits : Nat) (exp : Int)
  | code (f : Format) (n : Nat)
  deriving DecidableEq, Repr

/-- A field's value in a source record: its kind and its elements, or bytes, or why it cannot be read. -/
inductive Value where
  | nums (kind : Nat) (l : List Num)
  | bytes (l : List Byte)
  | bad (r : RejectReason)
  deriving DecidableEq, Repr

/-- R118: a non-negative ratio of units in an element format, rounded once. -/
def ratioCode (f : Format) (neg : Bool) (n d : Nat) : Nat :=
  match f with
  | .int32 => (BitVec.ofInt 32 (satInt (-(2 ^ 31)) (2 ^ 31 - 1) ((if neg then -1 else 1) * (rhe n (d * fUnit) : Int)))).toNat
  | .u8 => if neg then 0 else min 255 (rhe n (d * fUnit))
  | .u64 => if neg then 0 else min (2 ^ 64 - 1) (rhe n (d * fUnit))
  | g =>
    let b := floatFmt g
    let r := roundMag b n d
    encodeFloat b (if maxMag b < r then (if g = .e5m2 then .fin neg (maxMag b) else .inf neg) else .fin neg r)

/-- The decimal exponent kept where the value neither overflows nor vanishes in any format. -/
def clampExp (digits : Nat) (e : Int) : Int :=
  let len : Int := (toString digits).length
  max (-1200 - len) (min e 400)

/-- R206: a source number in a destination format, and what NAN_COUNT counts for it. -/
def numCode (dst : Format) (x : Num) : Nat × Nat :=
  match x with
  | .int n => (ratioCode dst (decide (n < 0)) (n.natAbs * fUnit) 1, 0)
  | .real v => (elemCode dst v, nanToInt dst v)
  | .decimal neg n e =>
    let k := clampExp n e
    (if 0 ≤ k then ratioCode dst neg (n * 10 ^ k.toNat * fUnit) 1 else ratioCode dst neg (n * fUnit) (10 ^ (-k).toNat), 0)
  | .code f n => (convertCode f dst n, if f = dst then 0 else nanToInt dst (elemVal f n))

/-- A converted field: its element codes and the NaNs counted. -/
structure FieldVal where
  codes : List Nat
  nans : Nat
  deriving DecidableEq, Repr

/-- R214: elements and bytes of a source value: strings by their bytes, numbers in their own format, or in the destination's. -/
def valueSize (f : ScanField) (v : Value) : Nat × Nat :=
  match v with
  | .bad _ => (0, 0)
  | .bytes l => (l.length, l.length)
  | .nums _ l => (l.length, (l.map (fun x => match x with
      | .code g _ => elemBytes g
      | _ => fieldElem f)).sum)

/-- R214: the sums over a sample's fields stay within their limits. -/
def sumsWithin (sizes : List (Nat × Nat)) : Bool :=
  decide ((sizes.map (·.1)).sum ≤ 2 ^ 32 ∧ (sizes.map (·.2)).sum ≤ 268435456)

/-- R215, R216: a value taken for a field entry: of its kind, a tensor with exactly CAPACITY elements. -/
def takeValue (f : ScanField) (v : Value) : Except RejectReason FieldVal :=
  match v with
  | .bad r => .error r
  | .bytes l => if f.kind = kindString then .ok { codes := l.map (·.toNat), nans := 0 } else .error .shape
  | .nums kind l =>
    if kind ≠ f.kind ∨ (kind = kindTensor ∧ l.length ≠ f.capacity) then .error .shape
    else
      let cs := l.map (numCode f.fmt)
      .ok { codes := cs.map (·.1), nans := (cs.map (·.2)).sum }

/-! ## Augmentation (R223, R224) -/

/-- The index entries of IN1: sample ID, offset, operation count; `none` when the header, the length or the order of the
IDs is wrong. -/
def augIndex (b : List Byte) : Option (List (Nat × Nat × Nat)) :=
  let n := field b 0 32
  let l := (List.range n).map (fun i => (field b (512 + 128 * i) 64, field b (576 + 128 * i) 32, field b (608 + 128 * i) 32))
  if b.length < 64 + 16 * n ∨ field b 32 480 ≠ 0 then none
  else if (l.zip l.tail).all (fun (x, y) => decide (x.1 < y.1)) then some l else none

/-- The exact sum of two values. -/
def fAddExact (x y : FVal) : FVal :=
  match x, y with
  | .fin a m, .fin b n =>
    let t := unitsOf (.fin a m) + unitsOf (.fin b n)
    if t = 0 then (if m = 0 ∧ n = 0 then zeroSum a b else .fin false 0) else finOf t
  | _, _ => fAddIn fmt64 x y

/-- R223: the operation applies to the field. -/
def augApplies (op : Nat) (f : ScanField) : Bool :=
  let nums : Bool := f.kind ≠ kindString
  match op with
  | 1 => true
  | 2 => f.kind = kindScalar || f.kind = kindTensor
  | 3 | 4 => isFloat f.fmt && nums
  | 5 => f.kind = kindString || f.kind = kindList
  | 6 => f.fmt = .u64 && nums
  | 7 => (f.fmt = .int32 || f.fmt = .u64) && nums
  | _ => false

/-- R223: one operation on a field's elements, A and B being its operands. -/
def augElems (op : Nat) (f : ScanField) (a b : Nat) (v : Option FieldVal) : Option FieldVal :=
  let each (g : Nat → Nat) : Option FieldVal := v.map (fun x => { x with codes := x.codes.map g })
  match op with
  | 1 => none
  | 2 => some { codes := List.replicate f.capacity (b % 2 ^ (8 * elemBytes f.fmt)), nans := (v.map (·.nans)).getD 0 }
  | 3 => each (fun x => elemCode f.fmt (fMulIn fmt64 (elemVal f.fmt x) (ofF32 a)))
  | 4 => each (fun x => elemCode f.fmt (fAddExact (elemVal f.fmt x) (ofF32 a)))
  | 5 => v.map (fun x => { x with codes := (x.codes.take (min (a + b) x.codes.length)).drop a })
  | 6 => each (fun x => (x + b) % 2 ^ 64)
  | _ => each (fun x => if x = a then b % 2 ^ (8 * elemBytes f.fmt) else x)

/-- R223: one 16-byte operation applied to a sample's fields. -/
def augApply (fs : List ScanField) (b : List Byte) (vs : List (Option FieldVal)) : Except RejectReason (List (Option FieldVal)) :=
  let i := field b 16 6
  match fs[i]? with
  | none => .error .augBad
  | some f =>
    if field b 8 8 ≠ 0 ∨ field b 22 10 ≠ 0 ∨ !augApplies (field b 0 8) f then .error .augBad
    else .ok (vs.modify i (augElems (field b 0 8) f (field b 32 32) (field b 64 64)))

/-- R224: a sample's operations in stored order; whether it passes without its record. -/
def augment (pr : ScanParams) (aug : Option (List Byte)) (id : Nat) (vs : List (Option FieldVal)) :
    Except RejectReason (List (Option FieldVal) × Bool) :=
  match aug with
  | none => .ok (vs, false)
  | some b =>
    match ((augIndex b).getD []).find? (fun e => e.1 = id) with
    | none => if pr.augPass then .ok (vs, true) else .error .augMissing
    | some e =>
      if e.2.1 % 16 ≠ 0 ∨ e.2.2 = 0 ∨ 64 < e.2.2 ∨ b.length < e.2.1 + 16 * e.2.2 then .error .augBad
      else
        ((List.range e.2.2).foldlM (fun acc k => augApply pr.fields (slice b (e.2.1 + 16 * k) 16) acc) vs).map
          (fun x => (x, false))

/-! ## The batch row (R205) -/

/-- R205, R216: a row of `width` bytes from a sample's fields; one over its CAPACITY is rejected (SHAPE). -/
def batchRow (fs : List ScanField) (width : Nat) (vs : List (Option FieldVal)) : Except RejectReason (List Byte) :=
  let presence := ((vs.zipIdx.map (fun (v, i) => bitOf v.isSome <<< i))).sum
  (fs.zip vs).foldlM
    (fun row (f, v) =>
      match v with
      | none => .ok row
      | some x =>
        if f.capacity < x.codes.length then .error .shape
        else
          let data := (x.codes.map (fun c => natLE c (fieldElem f))).flatten
          let bs := if f.kind = kindString ∨ f.kind = kindList then natLE x.codes.length 8 ++ data else data
          .ok (row.take f.dstOff ++ bs ++ row.drop (f.dstOff + bs.length)))
    (natLE presence 8 ++ zeros (width - 8))

/-- What a record comes to when it is accepted. -/
structure Accepted where
  row : List Byte
  nans : Nat
  passed : Bool
  deriving DecidableEq, Repr

/-- R206, R216, R224: values of a record to its batch row: types, conversion, augmentation, capacity. -/
def acceptRecord (pr : ScanParams) (aug : Option (List Byte)) (width id : Nat) (vals : List (Option Value)) :
    Except RejectReason Accepted :=
  let taken : Except RejectReason (List (Option FieldVal)) := (pr.fields.zip vals).mapM (fun (f, v) =>
    match v with
    | none => .ok none
    | some x => (takeValue f x).map some)
  taken.bind (fun vs => (augment pr aug id vs).bind (fun r =>
    (batchRow pr.fields width r.1).map (fun row =>
      { row := row, nans := ((r.1.filterMap (fun x => x)).map (·.nans)).sum, passed := r.2 })))

/-! ## Rows of the formats other than FALBIN -/

/-- A record of a CSV, ARROW or PARQUET input: a status that ends the operator when discovery reaches it, a fault that
rejects it, its values by field entry, and where it lies. -/
structure SourceRow where
  stop : Option Status
  fault : Option RejectReason
  vals : List (Option Value)
  offset : Nat
  next : Nat
  deriving DecidableEq, Repr

/-! ## CSV (R206, R210) -/

/-- R210: the bytes of records: each ends with LF outside quotes, the last one at the end of the input; with the record
its length with its line end, and whether the input ends inside quotes. -/
def csvSplit : List Byte → List Byte → Bool → Nat → List (List Byte × Nat × Bool)
  | [], cur, q, n => if n = 0 then [] else [(cur.reverse, n, q)]
  | b :: bs, cur, q, n =>
    if b = 0x0A ∧ !q then
      (((if cur.head? = some 0x0D then cur.tail else cur).reverse), n + 1, false) :: csvSplit bs [] false 0
    else csvSplit bs (b :: cur) (if b = 0x22 then !q else q) (n + 1)

/-- How a field of a CSV record is read. -/
inductive CsvState where
  | start | plain | quoted | closed
  deriving DecidableEq, Repr

/-- R210: the fields of a record; `none` for a quoting fault. -/
def csvFields (delim : Byte) : List Byte → CsvState → List Byte → Option (List (List Byte))
  | [], _, cur => some [cur.reverse]
  | b :: bs, st, cur =>
    match st with
    | .quoted => if b = 0x22 then csvFields delim bs .closed cur else csvFields delim bs .quoted (b :: cur)
    | .closed =>
      if b = 0x22 then csvFields delim bs .quoted (b :: cur)
      else if b = delim then (csvFields delim bs .start []).map (cur.reverse :: ·) else none
    | .start =>
      if b = 0x22 then csvFields delim bs .quoted []
      else if b = delim then (csvFields delim bs .start []).map (cur.reverse :: ·) else csvFields delim bs .plain (b :: cur)
    | .plain =>
      if b = 0x22 then none
      else if b = delim then (csvFields delim bs .start []).map (cur.reverse :: ·) else csvFields delim bs .plain (b :: cur)

/-- Decimal digits at the head of a text: their value, their number and the rest. -/
def takeDigits : List Byte → Nat → Nat → Nat × Nat × List Byte
  | [], acc, n => (acc, n, [])
  | b :: bs, acc, n =>
    if 0x30 ≤ b.toNat ∧ b.toNat ≤ 0x39 then takeDigits bs (acc * 10 + (b.toNat - 0x30)) (n + 1) else (acc, n, b :: bs)

/-- A sign at the head of a text. -/
def takeSign : List Byte → Bool × List Byte
  | 0x2D :: bs => (true, bs)
  | 0x2B :: bs => (false, bs)
  | bs => (false, bs)

/-- R206: a decimal integer, or a decimal or exponent number; `none` for unreadable text. -/
def csvNumber (t : List Byte) : Option Num :=
  let sg := takeSign t
  let whole := takeDigits sg.2 0 0
  let frac := match whole.2.2 with
    | 0x2E :: bs => takeDigits bs whole.1 0
    | bs => (whole.1, 0, bs)
  if whole.2.1 + frac.2.1 = 0 then none
  else match frac.2.2 with
    | [] => some (.decimal sg.1 frac.1 (-(frac.2.1 : Int)))
    | b :: bs =>
      if b = 0x65 ∨ b = 0x45 then
        let es := takeSign bs
        let ex := takeDigits es.2 0 0
        if ex.2.1 = 0 ∨ ex.2.2 ≠ [] then none
        else some (.decimal sg.1 frac.1 ((if es.1 then -(ex.1 : Int) else ex.1) - frac.2.1))
      else none

/-- R206, R214: one CSV field read for a field entry; an empty one is absent. -/
def csvValue (pr : ScanParams) (f : ScanField) (t : List Byte) : Option Value :=
  if t = [] then none
  else if f.kind = kindString then some (if pr.maxString < t.length then .bad .limit else .bytes t)
  else match csvNumber t with
    | some n => some (.nums kindScalar [n])
    | none => some (.bad .parse)

/-- R210, R216: a CSV record from its bytes; `count` is the field count that it must have. -/
def csvRow (pr : ScanParams) (count off : Nat) (r : List Byte × Nat × Bool) : SourceRow :=
  let none_ : List (Option Value) := pr.fields.map (fun _ => none)
  let base : SourceRow := { stop := none, fault := none, vals := none_, offset := off, next := off + r.2.1 }
  if r.2.2 then { base with fault := some .truncated }
  else match csvFields pr.csvDelim r.1 .start [] with
    | none => { base with fault := some .parse }
    | some l =>
      if l.length ≠ count ∨ pr.fields.any (fun f => decide (l.length ≤ f.src)) then { base with fault := some .parse }
      else { base with vals := pr.fields.map (fun f => csvValue pr f (l.getD f.src [])) }

/-- Records laid end to end from an offset. -/
def csvPlaced (pr : ScanParams) (count : Nat) : List (List Byte × Nat × Bool) → Nat → List SourceRow
  | [], _ => []
  | r :: rs, off => csvRow pr count off r :: csvPlaced pr count rs (off + r.2.1)

/-- R210: the records of a CSV input; with CSV_HEADER the first one is skipped and takes no ordinal. The field count that every record must
have is that of the first one without a quoting fault (DESIGN CHOICE, log entry 47). -/
def csvRows (pr : ScanParams) (data : List Byte) : List SourceRow :=
  let l := csvSplit data [] false 0
  let count := ((l.findSome? (fun r => csvFields pr.csvDelim r.1 .start [])).map List.length).getD 0
  let rows := csvPlaced pr count l 0
  if pr.csvHeader then rows.drop 1 else rows

end Sys2Proof.Machine
end

