-- ==== Sys2Proof/Machine/Transcend.lean ====
section
/-!
DEFINITION. Exponential and logarithm to far more than FP32 accuracy, and results that are stated only within an error
bound: the nearest FP32 value moved by a free number of places within the bound (R285, R351 to R357).
-/

namespace Sys2Proof.Machine

/-- One, in fixed point with 160 fraction bits. -/
def fxOne : Nat := 2 ^ 160

/-- A product in fixed point. -/
def fxMul (a b : Int) : Int := a * b / fxOne

/-- The series of atanh: odd powers of `t` over their exponents; `p` is the next power. -/
def atanhSeries (t2 : Int) : Nat → Nat → Int → Int
  | 0, _, _ => 0
  | n + 1, k, p => p / (2 * k + 1 : Int) + atanhSeries t2 n (k + 1) (fxMul p t2)

/-- The natural logarithm of a fixed-point number between 1/2 and 2. -/
def lnNear (f : Int) : Int :=
  let t := (f - fxOne) * fxOne / (f + fxOne)
  2 * atanhSeries (fxMul t t) 80 0 t

/-- ln 2. -/
def fxLn2 : Int := lnNear (2 * fxOne)

/-- The natural logarithm of the positive ratio `n / d`, in fixed point. -/
def lnRatio (n d : Nat) : Int :=
  let k : Int := (n.log2 : Int) - d.log2
  let f : Nat := if 0 ≤ k then n * fxOne / (d * 2 ^ k.toNat) else n * 2 ^ (-k).toNat * fxOne / d
  k * fxLn2 + lnNear f

/-- The series of the exponential. -/
def expSeries (r : Int) : Nat → Nat → Int → Int
  | 0, _, _ => 0
  | n + 1, k, p => p + expSeries r n (k + 1) (fxMul p r / (k + 1 : Int))

/-- e^x as a ratio of units of 2^−1074, for a fixed-point `x`. -/
def expRatio (x : Int) : Nat × Nat :=
  let k := (2 * x + fxLn2) / (2 * fxLn2)
  let m := (expSeries (x - k * fxLn2) 60 0 fxOne).toNat
  let e : Int := 914 + max (-3000) (min 2000 k)
  if 0 ≤ e then (m * 2 ^ e.toNat, 1) else (m, 2 ^ (-e).toNat)

/-- A finite value in fixed point. -/
def fxOf (x : FVal) : Int := unitsOf x * fxOne / fUnit

/-- A fixed-point number rounded to FP32; a result below 2^−60 has lost its last places and is not rounded here. -/
def f32OfFx (n : Int) : FVal := roundTo fmt32 (decide (n < 0)) (n.natAbs * 2 ^ 914) 1

/-- e^x in FP32, correctly rounded, for a finite or infinite `x`. -/
def exp32 (x : FVal) : FVal :=
  match x with
  | .nan => .nan
  | .inf a => if a then fZero else .inf false
  | y => let r := expRatio (fxOf y); roundTo fmt32 false r.1 r.2

/-- ln(1 + a) in FP32 for a finite `a ≥ 0`; below 2^−40 it is `a` to the last place. -/
def log1p32 (x : FVal) : FVal :=
  match x with
  | .fin _ m => if m < 2 ^ 1034 then roundTo fmt32 false m 1 else f32OfFx (lnRatio (fUnit + m) fUnit)
  | y => y

/-- ln(x) in FP32: −∞ at zero, NaN below it. -/
def ln32 (x : FVal) : FVal :=
  match x with
  | .nan => .nan
  | .inf a => if a then .nan else .inf false
  | .fin a m => if m = 0 then .inf true else if a then .nan else f32OfFx (lnRatio m fUnit)

/-- The FP32 code `k` places above (or, negative, below) a finite value of the same sign, not crossing zero or overflowing. -/
def stepPlaces (x : FVal) (k : Int) : FVal :=
  match x with
  | .fin neg m =>
    let c : Int := magCode fmt32 (roundMag fmt32 m 1)
    let e := max 0 (min 0x7F7FFFFF (c + k))
    match ofF32 e.toNat with
    | .fin _ r => .fin neg r
    | y => y
  | y => y

/-- A result stated within `ulp` FP32 places of the exact one: function code, operands, and the nearest value. -/
def within (ulp fn a b : Nat) (x : FVal) : FVal :=
  stepPlaces x ((Config.approx fn a b % (2 * ulp + 1) : Nat) - (ulp : Int))

end Sys2Proof.Machine
end

