-- ==== Sys2Proof/Machine/RowOps.lean ====
section
/-!
DEFINITION. What the record operators share: forms of rows operands, field references, presence, element arithmetic and
keys (chapter 10, R262 to R268, R274).
-/

namespace Sys2Proof.Machine

/-! ## Forms (R263, R264) -/

/-- The forms of a rows operand. -/
inductive RowForm where
  | record | elements | column
  deriving DecidableEq, Repr

/-- R263: the form of a descriptor. -/
def formOf (d : Descriptor) : Option RowForm :=
  if d.rank = 2 ∧ d.format = .u8 then (if dimOf d 0 % 16 = 0 then some .record else none)
  else if d.rank = 2 ∧ (d.format = .fp32 ∨ d.format = .bf16 ∨ d.format = .fp16 ∨ d.format = .int32 ∨ d.format = .u64) then
    some .elements
  else if d.rank = 1 ∧ (d.format = .fp32 ∨ d.format = .int32 ∨ d.format = .u64) then some .column
  else none

/-- Bytes of one row. -/
def rowWidth (d : Descriptor) : Nat := rowBytesIn d

/-- R264: a mask descriptor for a number of rows. -/
def maskOk (d : Descriptor) (rows : Nat) : Bool := d.format = .u64 && d.rank = 1 && dimOf d 0 = ceilDiv rows 64

/-- R263: a U8 or INT32 tensor of RANK 1 or 2 in SESSION space, or on an edge. -/
def flatOk (b : PlanBinary) (slot : Option Nat) : Bool :=
  let d := slotDesc b slot
  (d.format = .u8 || d.format = .int32) && decide (d.rank ≤ 2) && sessionOrEdge b slot

/-- Bytes of a flat tensor. -/
def flatLen (d : Descriptor) : Nat := rowCount d * rowWidth d

/-! ## Field references (R265) -/

/-- A field of a row. -/
structure FieldRef where
  off : Nat
  fmt : Format
  pbit : Nat
  hasP : Bool
  var : Bool
  count : Nat
  deriving DecidableEq, Repr

/-- R265: the formats of a field. -/
def refFormat (n : Nat) : Option Format :=
  (formatOf n).filter (fun f => f = .fp32 || f = .bf16 || f = .fp16 || f = .int32 || f = .u8 || f = .u64)

/-- R265: a 16-byte field reference. -/
def parseRef (b : List Byte) : FieldRef where
  off := field b 0 32
  fmt := (refFormat (field b 32 8)).getD .a8
  pbit := field b 40 6
  hasP := field b 46 1 = 1
  var := field b 47 1 = 1
  count := field b 64 32

/-- First byte and one past the last byte of a field's footprint. -/
def refSpan (f : FieldRef) : Nat × Nat := (f.off, f.off + (if f.var then 8 else 0) + f.count * elemBytes f.fmt)

/-- R265: a field reference fits the rows of a descriptor; a count of 0 is no field (DESIGN CHOICE, log entry 48). -/
def refOk (d : Descriptor) (f : FieldRef) : Bool :=
  !isPacked f.fmt && decide (1 ≤ f.count) && decide ((refSpan f).2 ≤ rowWidth d) &&
    f.off % (if f.var then 8 else max 1 (elemBytes f.fmt)) = 0 && (!f.hasP || formOf d = some .record) &&
    (formOf d ≠ some .column || (f.off = 0 && f.count = 1 && !f.var && f.fmt = d.format))

/-- Two fields share a byte of the row. -/
def refsMeet (a b : FieldRef) : Bool := decide ((refSpan a).1 < (refSpan b).2 ∧ (refSpan b).1 < (refSpan a).2)

/-- R268: an operator that writes one field writes bytes that it reads of another: elements, or the presence word that holds the
other's elements or bit; two presence bits do not meet (DEDUCED, log entry 49). -/
def writeMeets (r w : FieldRef) : Bool :=
  refsMeet r w || (w.hasP && decide (r.off < 8)) || (r.hasP && decide (w.off < 8))

/-- R266: the field is present. -/
def present (row : List Byte) (f : FieldRef) : Bool := !f.hasP || (leNat (slice row 0 8)).testBit f.pbit

/-- The element count stored in a field. -/
def storedCount (row : List Byte) (f : FieldRef) : Nat := if f.var then leNat (slice row f.off 4) else f.count

/-- The elements of a field, at most COUNT of them. -/
def refCodes (row : List Byte) (f : FieldRef) : List Nat :=
  let at_ := f.off + (if f.var then 8 else 0)
  rowCodes f.fmt (slice row at_ (f.count * elemBytes f.fmt)) (min f.count (storedCount row f))

/-- A row with bytes replaced. -/
def putBytes (off : Nat) (bs row : List Byte) : List Byte := row.take off ++ bs ++ row.drop (off + bs.length)

/-- The presence bit of a field written. -/
def putPresence (f : FieldRef) (v : Bool) (row : List Byte) : List Byte :=
  if !f.hasP then row
  else
    let w := BitVec.ofNat 64 (leNat (slice row 0 8))
    putBytes 0 (natLE (putBit w f.pbit v).toNat 8) row

/-- R266: elements written to a field, the rest of its footprint zero, its presence bit set. -/
def putCodes (f : FieldRef) (codes : List Nat) (row : List Byte) : List Byte :=
  let data := (codes.map (fun c => natLE c (elemBytes f.fmt))).flatten
  let bs := (if f.var then natLE codes.length 8 else []) ++ data
  putPresence f true (putBytes f.off (bs ++ zeros ((refSpan f).2 - f.off - bs.length)) row)

/-- R266: absence: the presence bit is cleared and the field zeroed. -/
def putAbsent (f : FieldRef) (row : List Byte) : List Byte :=
  putPresence f false (putBytes f.off (zeros ((refSpan f).2 - f.off)) row)

/-- R266: absence, or where the field has no presence bit a value in every element; how many elements of that value a VAR field holds then
is not stated (a free value; log entry 49). -/
def putDefault (f : FieldRef) (code : Nat) (row : List Byte) : List Byte :=
  if f.hasP then putAbsent f row
  else
    putCodes f (List.replicate (if f.var then Config.unstated 5 [f.count, code] % (f.count + 1) else f.count) code) row

/-! ## Element arithmetic (R267) -/

/-- An element as an FP32 value: an integer is converted once. -/
def asF32 (f : Format) (code : Nat) : FVal := if isFloat f then elemVal f code else roundVal fmt32 (elemVal f code)

/-- R267: −0 equals +0, and a comparison with NaN is false except NE. -/
def elemLt (f : Format) (a b : Nat) : Bool :=
  match f with
  | .int32 => decide (signed 32 a < signed 32 b)
  | .u8 | .u64 => decide (a < b)
  | g => fLt (elemVal g a) (elemVal g b)
def elemEq (f : Format) (a b : Nat) : Bool :=
  match f with
  | .int32 | .u8 | .u64 => decide (a = b)
  | g => fEq (elemVal g a) (elemVal g b)

/-- A constant in a format, from the low bytes of a word. -/
def constCode (f : Format) (w : Nat) : Nat := w % 2 ^ (8 * elemBytes f)

/-! ## Keys (R274) -/

/-- The stored bytes of a field's elements. -/
def refBytes (row : List Byte) (f : FieldRef) : List Byte := codesBytes f.fmt (refCodes row f)

/-- R274: the key of several fields: a VAR field gives its count first. -/
def joinedKey (row : List Byte) (fs : List FieldRef) : List Byte :=
  match fs with
  | [f] => refBytes row f
  | _ => (fs.map (fun f => (if f.var then natLE (refCodes row f).length 4 else []) ++ refBytes row f)).flatten

/-! ## Rows of an operator -/

/-- R262, R263, R268: what the operators ask of their rows and mask: forms, BLOCKED space in a CORE stage. -/
def rowsOk (b : PlanBinary) (core : Bool) (v : Option Nat) : Bool :=
  let d := slotDesc b v
  (formOf d).isSome && (if core then d.space = .blocked else d.space = .blocked || d.space = .session)

/-- R268: a row of IN0 as it is copied to OUT0: one of the same form and DIM[0] takes its elements, converted where the element format
differs (DEDUCED, log entry 49); a row of another form starts from zeros. -/
def copiedRow (i o : Descriptor) (src : List Byte) : List Byte :=
  if formOf i = formOf o ∧ dimOf i 0 = dimOf o 0 then
    if i.format = o.format then src
    else codesBytes o.format ((rowCodes i.format src (rowLen i)).map (convertCode i.format o.format))
  else zeros (rowWidth o)

/-- What an operator does to one row: its new bytes, its counters, and its NaN count. -/
abbrev RowResult := List Byte × List (Nat × Nat) × Nat

/-- The rows of IN0 taken one by one to OUT0: `f` gets whether the row is selected, the source row, and the row as OUT0
starts with it. -/
def mapRows (c : Ctx) (f : Bool → List Byte → List Byte → RowResult) : Ctx :=
  let i := c.e.in0.getD 0
  let o := c.e.out0.getD 0
  let same : Bool := i = o
  (rowsOf c i).foldl
    (fun x r =>
      let sel := maskBit c c.e.in1 r
      if same ∧ !sel then x
      else
        let src := rowRead c i r
        let res := f sel src (if same then src else copiedRow (cDesc c i) (cDesc c o) src)
        bumps res.2.1 (countNans res.2.2 (rowWrite o r res.1 x))) (keepKeys i o c)

/-- R268: the result of a row that is not selected: the written fields are zero. -/
def unselected (fs : List FieldRef) (row : List Byte) : RowResult := (fs.foldl (fun x f => putAbsent f x) row, [], 0)

end Sys2Proof.Machine
end

