-- ==== Sys2Proof/Machine/Record.lean ====
section
/-!
DEFINITION. FILTER, PROJECT, HASH, BUCKET, NORMALISE and SORT (chapter 10, R262 to R278, R284, R285, R296, R297).
-/

namespace Sys2Proof.Machine

/-! ## Checks that the CORE operators share (R262, R263, R268) -/

/-- R262 to R264: rows in, an optional mask, rows out, in a CORE stage. -/
def coreRowsOk (b : PlanBinary) (e : OpEntry) (in2 out1 : Slot) : Bool :=
  let i := slotDesc b e.in0
  let o := slotDesc b e.out0
  slotsOk e .wanted .optional in2 .wanted out1 && rowsOk b true e.in0 && rowsOk b true e.out0 &&
    rowCount i = rowCount o && (e.in1.isNone || maskOk (slotDesc b e.in1) (rowCount i))

/-- R268: another row tensor has the form and DIM[0] of IN0. -/
def sameForm (b : PlanBinary) (e : OpEntry) : Bool :=
  let i := slotDesc b e.in0
  let o := slotDesc b e.out0
  e.in0 = e.out0 || (formOf i = formOf o && dimOf i 0 = dimOf o 0)

/-- R268: in place, no written field shares a byte with a field that is read. -/
def noSelfOverlap (e : OpEntry) (reads writes : List FieldRef) : Bool :=
  e.in0 ≠ e.out0 || writes.all (fun w => reads.all (fun r => !writeMeets r w))

/-! ## FILTER (R269 to R271) -/

/-- R269: a term. -/
structure FilterTerm where
  ref : FieldRef
  op : Nat
  group : Nat
  negate : Bool
  a : Nat
  b : Nat

/-- Term `t` of a FILTER. -/
def filterTerm (e : OpEntry) (t : Nat) : FilterTerm :=
  let z := slice e.params (16 + 32 * t) 32
  { ref := { parseRef z with var := false, count := 1 }
    op := field z 48 4
    group := field z 52 2
    negate := field z 54 1 = 1
    a := field z 64 64
    b := field z 128 64 }

def filterTerms (e : OpEntry) : List FilterTerm := (List.range (pf e 0 5)).map (filterTerm e)

/-- R269: PLAN_LOAD's checks of a FILTER entry. -/
def filterCheck (b : PlanBinary) (e : OpEntry) : Option Status :=
  let i := slotDesc b e.in0
  let n := pf e 0 5
  let termOk (t : Nat) : Bool :=
    let x := filterTerm e t
    let z := slice e.params (16 + 32 * t) 32
    field z 47 1 = 0 && field z 55 9 = 0 && field z 192 64 = 0 && decide (x.op ≤ 9) && refOk i x.ref &&
      (x.op ≠ 7 || x.ref.fmt = .int32 || x.ref.fmt = .u64) && (x.op ≠ 6 || x.ref.fmt ≠ .u8)
  firstFail
    [ need (slotsOk e .wanted .optional .unused .wanted .unused && rowsOk b true e.in0 &&
        (e.in1.isNone || maskOk (slotDesc b e.in1) (rowCount i)) && maskOk (slotDesc b e.out0) (rowCount i) &&
        decide (1 ≤ n ∧ n ≤ 16) && e.params.length = 16 + 32 * n && pf e 5 123 = 0 &&
        (List.range n).all termOk) .badPlan ]

/-- R267, R269, R270: a term on a row. -/
def termTrue (row : List Byte) (t : FilterTerm) : Bool :=
  let f := t.ref.fmt
  let x := (refCodes row t.ref).headD 0
  let a := constCode f t.a
  let v : Bool :=
    if t.op = 8 then present row t.ref
    else if t.op = 9 then !present row t.ref
    else if !present row t.ref then false
    else match t.op with
      | 0 => elemEq f x a
      | 1 => !elemEq f x a
      | 2 => elemLt f x a
      | 3 => elemLt f x a || elemEq f x a
      | 4 => elemLt f a x
      | 5 => elemLt f a x || elemEq f x a
      | 6 => (elemLt f a x || elemEq f x a) && elemLt f x (constCode f t.b)
      | _ => x &&& a ≠ 0
  v != t.negate

/-- R270: every term of some group that holds terms is true. -/
def groupsPass (ts : List FilterTerm) (row : List Byte) : Bool :=
  (List.range 4).any (fun g =>
    let l := ts.filter (fun t => t.group = g)
    !l.isEmpty && l.all (termTrue row))

/-- FILTER (R270, R271, R300). -/
def filterBody (c : Ctx) : OpEnd :=
  let k := c.e.in0.getD 0
  let ts := filterTerms c.e
  let sel := (rowsOf c k).map (maskBit c c.e.in1)
  let out := (rowsOf c k).map (fun r => maskBit c c.e.in1 r && groupsPass ts (rowRead c k r))
  let d := cDesc c k
  let inPool : Bool := formOf d = some .column && (d.format = .fp32 || d.format = .int32)
  let pool := if inPool then (ts.filter (fun t => t.op ≤ 6)).length else 0
  .done (bumps [(1, sel.countP id), (2, out.countP id), (3, rowCount d * pool)] (maskWrite (c.e.out0.getD 0) (spreadRows c (c.e.in0.getD 0) (fun _ => false) out) c))

/-- FILTER (R269). -/
def execFilter (plan : Word) (op : Nat) (f : ReadFaults) (s : State) : Host.Outcome State Fault Refusal :=
  .next (runOp plan op .filter f wholeOperands filterBody s)

/-! ## PROJECT (R272) -/

/-- R272: an entry. -/
structure ProjectEntry where
  src : FieldRef
  src2 : FieldRef
  dst : FieldRef
  op : Nat
  const : Nat
  dflt : Nat

/-- Format of a field, A8 standing for none. -/
def fieldFmt (n : Nat) : Format := (refFormat n).getD .a8

/-- Entry `i` of a PROJECT. -/
def projectEntry (e : OpEntry) (i : Nat) : ProjectEntry :=
  let z := slice e.params (16 + 32 * i) 32
  let op := field z 168 4
  let n := field z 96 32
  let var : Bool := field z 151 1 = 1
  { src := { off := field z 0 32, fmt := fieldFmt (field z 128 8), pbit := field z 144 6, hasP := field z 150 1 = 1,
             var := var, count := n }
    src2 := { off := field z 32 32, fmt := fieldFmt (field z 128 8), pbit := field z 152 6, hasP := field z 158 1 = 1,
              var := false, count := n }
    dst := { off := field z 64 32, fmt := fieldFmt (field z 136 8), pbit := field z 160 6, hasP := field z 166 1 = 1,
             var := var && op = 0, count := if op = 10 then 1 else n }
    op := op
    const := field z 192 32
    dflt := field z 224 32 }

def projectEntries (e : OpEntry) : List ProjectEntry := (List.range (pf e 0 9)).map (projectEntry e)

/-- R272: the operation takes two sources. -/
def binaryOp (op : Nat) : Bool := decide (3 ≤ op ∧ op ≤ 8)

/-- R272: the operation and the formats agree. -/
def projectFormats (x : ProjectEntry) : Bool :=
  decide (x.op ≤ 11) && (!x.src.var || x.op = 0 || x.op = 10) && (x.src.fmt ≠ .u64 || x.op = 0 || x.op = 11) &&
    (x.op ≠ 10 || x.dst.fmt = .int32)

/-- R272: PLAN_LOAD's checks of a PROJECT entry. OUT0 may be of another form (R272's element rows). -/
def projectCheck (b : PlanBinary) (e : OpEntry) : Option Status :=
  let i := slotDesc b e.in0
  let o := slotDesc b e.out0
  let n := pf e 0 9
  let entryOk (t : Nat) : Bool :=
    let x := projectEntry e t
    let z := slice e.params (16 + 32 * t) 32
    field z 159 1 = 0 && field z 167 1 = 0 && field z 172 20 = 0 && projectFormats x && refOk i x.src &&
      (!binaryOp x.op || refOk i x.src2) && refOk o x.dst
  firstFail
    [ need (coreRowsOk b e .unused .unused && decide (1 ≤ n ∧ n ≤ 256) && e.params.length = 16 + 32 * n &&
        pf e 9 119 = 0 && (List.range n).all entryOk) .badPlan ]

/-- R267: an integer-only operation, modulo 2^32. -/
def intOp (op : Nat) (x y k : Int) : Nat :=
  let v : Int := match op with
    | 1 => x + k
    | 2 => x * k
    | 3 => x + y
    | 4 => x - y
    | 5 => x * y
    | 7 => min x y
    | 8 => max x y
    | _ => |x|
  (BitVec.ofInt 32 v).toNat

/-- The code of the exact quotient of two values rounded into a format. -/
def quotient (f : Format) (x y : FVal) : Nat :=
  if isFloat f then elemCode f (fDivIn (floatFmt f) x y)
  else match x, y with
    | .fin a m, .fin b n =>
      if n = 0 then elemCode f (fDivIn fmt64 x y)
      else
        let q : Int := rhe m n
        elemCode f (intVal (if a != b then -q else q))
    | _, _ => elemCode f (fDivIn fmt64 x y)

/-- R267, R272: an operation with a floating-point operand, exact but for the one rounding into the destination. -/
def floatOp (op : Nat) (f : Format) (x y k : FVal) : Nat :=
  match op with
  | 1 => elemCode f (fAddExact x k)
  | 2 => mulCode f x k
  | 3 => elemCode f (fAddExact x y)
  | 4 => elemCode f (fAddExact x (fNeg y))
  | 5 => mulCode f x y
  | 6 => quotient f x y
  | 7 => elemCode f (if isNan x ∨ isNan y then .nan else if fLe x y then x else y)
  | 8 => elemCode f (if isNan x ∨ isNan y then .nan else if fLe x y then y else x)
  | _ => elemCode f (fAbs x)
where
  /-- The exact product rounded into a format; the product of two FP32 values is a whole number of FP64 units or lies
  below every destination's smallest step. -/
  mulCode (f : Format) (x y : FVal) : Nat :=
    if isFloat f then elemCode f (fMulIn (floatFmt f) x y) else elemCode f (fMulIn fmt64 x y)

/-- One element's code under an operation on its source codes, and its NAN_COUNT. -/
def projectElem (x : ProjectEntry) (a b : Nat) : Nat × Nat :=
  if x.op = 0 then (convertCode x.src.fmt x.dst.fmt a, if x.src.fmt = x.dst.fmt then 0 else nanToInt x.dst.fmt (elemVal x.src.fmt a))
  else if !isFloat x.src.fmt ∧ x.op ≠ 6 then
    let int (v : Nat) : Int := if x.src.fmt = .u8 then v else signed 32 v
    (convertCode .int32 x.dst.fmt (intOp x.op (int a) (int b) (signed 32 x.const)), 0)
  else
    let va := asF32 x.src.fmt a
    let vb := asF32 x.src.fmt b
    let probe := floatOp x.op .fp32 va vb (ofF32 x.const)
    (floatOp x.op x.dst.fmt va vb (ofF32 x.const), nanToInt x.dst.fmt (ofF32 probe))

/-- R272: one entry on a row: `src` is the row read, `row` the row written. -/
def projectOne (src row : List Byte) (x : ProjectEntry) : RowResult :=
  let here := present src x.src && (!binaryOp x.op || present src x.src2)
  if !here ∧ x.op ≠ 11 then
    (putDefault x.dst (constCode x.dst.fmt x.dflt) row, if x.dst.hasP then [] else [(2, 1)], 0)
  else
    let a := refCodes src x.src
    let cut : Nat := if x.op = 0 ∧ x.src.count < storedCount src x.src then 1 else 0
    let out : List (Nat × Nat) :=
      if x.op = 10 then [(if x.src.var then storedCount src x.src else x.src.count, 0)]
      else if x.op = 11 then List.replicate x.dst.count (elemCode x.dst.fmt (if here then fOne else fZero), 0)
      else a.zipIdx.map (fun (v, i) => projectElem x v ((refCodes src x.src2).getD i 0))
    (putCodes x.dst (out.map (·.1)) row, [(1, out.length), (3, cut)], (out.map (·.2)).sum)

/-- PROJECT (R268, R272). -/
def projectBody (c : Ctx) : OpEnd :=
  let es := projectEntries c.e
  let same : Bool := c.e.in0 = c.e.out0
  .done (mapRows c (fun sel src row =>
    if !sel then (row, [], 0)
    else es.foldl (fun acc x =>
      let r := projectOne (if same then acc.1 else src) acc.1 x
      (r.1, acc.2.1 ++ r.2.1, acc.2.2 + r.2.2)) (row, [], 0)))

/-- PROJECT (R272). -/
def execProject (plan : Word) (op : Nat) (f : ReadFaults) (s : State) : Host.Outcome State Fault Refusal :=
  .next (runOp plan op .project f wholeOperands projectBody s)

/-! ## HASH (R273 to R275) -/

/-- The key fields of a HASH. -/
def hashRefs (e : OpEntry) : List FieldRef := (List.range (pf e 4 3)).map (fun i => parseRef (slice e.params (64 + 16 * i) 16))

/-- The destination of a HASH: under PER_ELEMENT with the layout and capacity of the source. -/
def hashDst (e : OpEntry) : FieldRef :=
  let per : Bool := pf e 7 1 = 1
  let k := (hashRefs e).headD (parseRef [])
  { off := pf e 32 32, fmt := fieldFmt (pf e 64 8), pbit := pf e 72 6, hasP := pf e 78 1 = 1,
    var := per && k.var, count := if per then k.count else 1 }

/-- R265: the reserved bits of a field reference. -/
def refReservedOk (z : List Byte) : Bool := field z 48 16 = 0 && field z 96 32 = 0

/-- R273: PLAN_LOAD's checks of a HASH entry. -/
def hashCheck (b : PlanBinary) (e : OpEntry) : Option Status :=
  let i := slotDesc b e.in0
  let o := slotDesc b e.out0
  let fn := pf e 0 4
  let n := pf e 4 3
  let d := hashDst e
  firstFail
    [ need (coreRowsOk b e .unused .unused && sameForm b e && decide (fn ≤ 4 ∧ 1 ≤ n ∧ n ≤ 4) &&
        e.params.length = 64 + 16 * n && pf e 8 24 = 0 && pf e 79 49 = 0 && pf e 192 320 = 0 &&
        (pf e 7 1 = 0 || n = 1) && (d.fmt = .u64 || (d.fmt = .int32 && (fn = 0 || fn = 3))) &&
        (fn = 2 || fn = 4 || pf e 160 32 = 0) &&
        (List.range n).all (fun t => refReservedOk (slice e.params (64 + 16 * t) 16)) &&
        (hashRefs e).all (refOk i) && refOk o d) .badPlan,
      need (noSelfOverlap e (hashRefs e) [d]) .overlap ]

/-- R274, R275: the hashes of one row. -/
def rowHashes (e : OpEntry) (row : List Byte) : List Nat :=
  let refs := hashRefs e
  let keys := if pf e 7 1 = 1 then (refs.flatMap (fun f => (refCodes row f).map (fun v => natLE v (elemBytes f.fmt))))
    else [joinedKey row refs]
  keys.map (hashKey (pf e 0 4) (BitVec.ofNat 64 (pf e 128 64)))

/-- HASH (R266, R268, R274): where the destination has no presence bit, absence is written as zero (DESIGN CHOICE, log
entry 49). -/
def hashBody (c : Ctx) : OpEnd :=
  let d := hashDst c.e
  .done (mapRows c (fun sel src row =>
    if !sel then unselected [d] row
    else if (hashRefs c.e).all (present src) then
      let hs := rowHashes c.e src
      (putCodes d hs row, [(1, hs.length)], 0)
    else (putAbsent d row, [(2, 1)], 0)))

/-- HASH (R273). -/
def execHash (plan : Word) (op : Nat) (f : ReadFaults) (s : State) : Host.Outcome State Fault Refusal :=
  .next (runOp plan op .hash f wholeOperands hashBody s)

/-! ## BUCKET (R276 to R278) -/

/-- R276: an entry. -/
structure BucketEntry where
  src : FieldRef
  dst : FieldRef
  mulShift : Bool
  row : Nat
  count : Nat
  m : Nat
  missing : Nat

def bucketEntry (e : OpEntry) (i : Nat) : BucketEntry :=
  let z := slice e.params (16 + 32 * i) 32
  let var : Bool := field z 87 1 = 1
  let n := field z 128 32
  { src := { off := field z 0 32, fmt := fieldFmt (field z 64 8), pbit := field z 80 6, hasP := field z 86 1 = 1,
             var := var, count := n }
    dst := { off := field z 32 32, fmt := .int32, pbit := field z 88 6, hasP := field z 94 1 = 1, var := var, count := n }
    mulShift := field z 95 1 = 1
    row := field z 96 12
    count := field z 109 13
    m := field z 122 6
    missing := field z 160 32 }

def bucketEntries (e : OpEntry) : List BucketEntry := (List.range (pf e 0 8)).map (bucketEntry e)

/-- R277: bytes of the boundary rows that a BUCKET loads, each row once. -/
def boundaryBytes (es : List BucketEntry) : Nat :=
  ((es.map (·.row)).dedup.map (fun r => 4 * ((es.filter (fun x => x.row = r)).map (·.count)).foldl max 0)).sum

/-- R276 to R278: PLAN_LOAD's checks of a BUCKET entry. -/
def bucketCheck (b : PlanBinary) (e : OpEntry) : Option Status :=
  let i := slotDesc b e.in0
  let o := slotDesc b e.out0
  let q := slotDesc b e.in2
  let n := pf e 0 8
  let es := bucketEntries e
  let bs := es.filter (fun x => !x.mulShift)
  let entryOk (t : Nat) : Bool :=
    let x := bucketEntry e t
    let z := slice e.params (16 + 32 * t) 32
    let f := x.src.fmt
    field z 72 8 = 0 && field z 108 1 = 0 && field z 192 64 = 0 && refOk i x.src && refOk o x.dst &&
      (if x.mulShift then (f = .int32 || f = .u64) && decide (1 ≤ x.m ∧ x.m ≤ 31)
       else (f = .fp32 || f = .bf16 || f = .fp16 || f = .int32) && decide (1 ≤ x.count ∧ x.count ≤ 4096) &&
        (q.format ≠ .int32 || f = .int32) && decide (x.row < rowCount q ∧ x.count ≤ rowLen q))
  firstFail
    [ need (coreRowsOk b e .optional .unused && sameForm b e && decide (1 ≤ n ∧ n ≤ 64) && e.params.length = 16 + 32 * n &&
        pf e 8 56 = 0 && (bs.isEmpty || (e.in2.isSome && (q.format = .fp32 || q.format = .int32) && q.rank = 2 &&
        sessionOrEdge b e.in2)) && (bs.length = es.length || pf e 64 64 % 2 = 1) && (List.range n).all entryOk) .badPlan,
      need (noSelfOverlap e (es.map (·.src)) (es.map (·.dst))) .overlap,
      need (decide (boundaryBytes bs ≤ 196608)) .limit ]

/-- R277: a boundary row ascends strictly and holds no NaN. -/
def boundaryOk (f : Format) (codes : List Nat) : Bool :=
  codes.all (fun v => elemEq f v v) && (codes.zip codes.tail).all (fun (a, b) => elemLt f a b)

/-- R277, R278: the bucket of one element, with its NaN count. -/
def bucketOf (mult : Nat) (bf : Format) (bounds : List Nat) (x : BucketEntry) (v : Nat) : Nat × Nat :=
  if x.mulShift then (v * mult % 2 ^ 64 / 2 ^ (64 - x.m), 0)
  else if bf = .int32 then (bounds.countP (fun b => decide (signed 32 b ≤ signed 32 v)), 0)
  else
    let y := asF32 x.src.fmt v
    if isNan y then (x.count + 1, 1) else (bounds.countP (fun b => fLe (ofF32 b) y), 0)

/-- The boundaries of an entry. -/
def boundsOf (c : Ctx) (x : BucketEntry) : List Nat :=
  if x.mulShift then [] else (rowElems c (c.e.in2.getD 0) x.row).take x.count

/-- BUCKET (R266, R268, R277, R278). -/
def bucketBody (c : Ctx) : OpEnd :=
  let es := (bucketEntries c.e).map (fun x => (x, boundsOf c x))
  let bf := (cDesc c (c.e.in2.getD 0)).format
  let mult := par c 64 64
  if !es.all (fun p => boundaryOk bf p.2) then .fail .implausible
  else .done (mapRows c (fun sel src row =>
    if !sel then unselected (es.map (fun p => p.1.dst)) row
    else es.foldl (fun acc p =>
      let x := p.1
      if !present src x.src then
        (putDefault x.dst x.missing acc.1, acc.2.1 ++ (if x.dst.hasP then [] else [(2, 1)]), acc.2.2)
      else
        let vs := (refCodes src x.src).map (bucketOf mult bf p.2 x)
        let nans := (vs.map (·.2)).sum
        (putCodes x.dst (vs.map (·.1)) acc.1, acc.2.1 ++ [(1, vs.length), (3, nans)], acc.2.2 + nans)) (row, [], 0)))

/-- BUCKET (R276). -/
def execBucket (plan : Word) (op : Nat) (f : ReadFaults) (s : State) : Host.Outcome State Fault Refusal :=
  .next (runOp plan op .bucket f wholeOperands bucketBody s)

/-! ## NORMALISE (R284, R285) -/

/-- R284: an entry. -/
structure NormEntry where
  src : FieldRef
  dst : FieldRef
  mode : Nat
  fromStats : Bool
  nanToDefault : Bool
  stat : Nat
  a : Nat
  b : Nat
  dflt : Nat

def normEntry (e : OpEntry) (i : Nat) : NormEntry :=
  let z := slice e.params (16 + 32 * i) 32
  let n := field z 64 32
  { src := { off := field z 0 32, fmt := fieldFmt (field z 96 8), pbit := field z 112 6, hasP := field z 118 1 = 1,
             var := false, count := n }
    dst := { off := field z 32 32, fmt := fieldFmt (field z 104 8), pbit := field z 120 6, hasP := field z 126 1 = 1,
             var := false, count := n }
    mode := field z 128 2
    fromStats := field z 130 1 = 1
    nanToDefault := field z 131 1 = 1
    stat := field z 144 16
    a := field z 160 32
    b := field z 192 32
    dflt := field z 224 32 }

def normEntries (e : OpEntry) : List NormEntry := (List.range (pf e 0 8)).map (normEntry e)

/-- R285: the entry takes its pair from the statistics record. -/
def usesStats (x : NormEntry) : Bool := x.fromStats && decide (x.mode ≤ 1)

/-- R284: in place, a destination may be exactly its own source. -/
def normOverlapOk (e : OpEntry) : Bool :=
  let es := normEntries e
  e.in0 ≠ e.out0 || es.zipIdx.all (fun (x, i) => es.zipIdx.all (fun (y, j) =>
    (i = j && x.src.off = y.dst.off) || !writeMeets x.src y.dst))

/-- R284: PLAN_LOAD's checks of a NORMALISE entry. -/
def normaliseCheck (b : PlanBinary) (e : OpEntry) : Option Status :=
  let i := slotDesc b e.in0
  let o := slotDesc b e.out0
  let q := slotDesc b e.in2
  let n := pf e 0 8
  let es := normEntries e
  let entryOk (t : Nat) : Bool :=
    let x := normEntry e t
    let z := slice e.params (16 + 32 * t) 32
    let f := x.src.fmt
    let g := x.dst.fmt
    field z 119 1 = 0 && field z 127 1 = 0 && field z 132 12 = 0 && refOk i x.src && refOk o x.dst &&
      (f = .fp32 || f = .bf16 || f = .fp16 || f = .int32) && (g = .fp32 || g = .bf16 || g = .fp16)
  let st := es.filter usesStats
  firstFail
    [ need (coreRowsOk b e .optional .unused && sameForm b e && decide (1 ≤ n ∧ n ≤ 64) && e.params.length = 16 + 32 * n &&
        pf e 8 120 = 0 && (List.range n).all entryOk && (e.in2.isNone || flatOk b e.in2) && (st.isEmpty || e.in2.isSome)) .badPlan,
      need (normOverlapOk e) .overlap,
      need (st.all (fun x => decide ((x.stat + x.src.count) * 24704 ≤ flatLen q))) .limit ]

/-- R285: the pair of a feature from its statistics, rounded to FP32; none where there are no statistics for it. -/
def statPair (rec : List Byte) (mode a : Nat) : Option (FVal × FVal) :=
  let w (i : Nat) : Nat := leNat (slice rec (8 * i) 8)
  let f64 (i : Nat) : FVal := decodeFloat fmt64 (w i)
  if w 0 = 0 then none
  else if mode = 0 then
    let var := fDivIn fmt64 (f64 2) (roundVal fmt64 (intVal (w 0)))
    some (roundVal fmt32 (f64 1), roundVal fmt32 (fDivIn fmt64 fOne (fSqrtIn fmt64 (fAddIn fmt64 var (ofF32 a)))))
  else if fEq (f64 4) (f64 3) then none
  else
    some (roundVal fmt32 (f64 3), roundVal fmt32 (fDivIn fmt64 fOne (fAddIn fmt64 (f64 4) (fNeg (f64 3)))))

/-- R285: LOG1P, within 2 FP32 places. -/
def log1pOf (x : FVal) : FVal :=
  let y := within 2 1 (toF32 (fAbs x)) 0 (log1p32 (fAbs x))
  if signOf x then fNeg y else y

/-- R285: one element: its result, or none where DEFAULT is written for want of statistics. -/
def normElem (x : NormEntry) (pair : Option (FVal × FVal)) (v : FVal) : Option FVal :=
  if x.mode = 2 then some (log1pOf v)
  else if x.mode = 3 then
    let lo := if fLe v (ofF32 x.a) then ofF32 x.a else v
    some (if fLe (ofF32 x.b) lo then ofF32 x.b else lo)
  else pair.map (fun p => fMul (fSub v p.1) p.2)

/-- NORMALISE of one field of a row. -/
def normOne (stats : Nat → List Byte) (src row : List Byte) (x : NormEntry) : RowResult :=
  let g := x.dst.fmt
  let dflt := elemCode g (ofF32 x.dflt)
  if !present src x.src then (putDefault x.dst dflt row, if x.dst.hasP then [] else [(2, 1)], 0)
  else
    let out := (refCodes src x.src).zipIdx.map (fun (v, j) =>
      let y := asF32 x.src.fmt v
      let nan := bitOf (isNan y)
      let pair := if x.fromStats then statPair (stats (x.stat + j)) x.mode x.a else some (ofF32 x.a, ofF32 x.b)
      if x.mode ≤ 1 ∧ pair.isNone then (dflt, 0, 1, nan)
      else if isNan y then (if x.nanToDefault then dflt else elemCode g .nan, 1, 0, nan)
      else (elemCode g ((normElem x pair y).getD .nan), 1, 0, nan))
    (putCodes x.dst (out.map (·.1)) row, [(1, (out.map (·.2.1)).sum), (3, (out.map (·.2.2.1)).sum)],
      (out.map (·.2.2.2)).sum)

/-- NORMALISE (R268, R285). -/
def normaliseBody (c : Ctx) : OpEnd :=
  let es := normEntries c.e
  let rec_ : List Byte := match c.e.in2 with
    | some k => bytesOf c k
    | none => []
  let stats (i : Nat) : List Byte := slice rec_ (24704 * i) 64
  .done (mapRows c (fun sel src row =>
    if !sel then unselected (es.map (·.dst)) row
    else es.foldl (fun acc x =>
      let r := normOne stats src acc.1 x
      (r.1, acc.2.1 ++ r.2.1, acc.2.2 + r.2.2)) (row, [], 0)))

/-- NORMALISE (R284). -/
def execNormalise (plan : Word) (op : Nat) (f : ReadFaults) (s : State) : Host.Outcome State Fault Refusal :=
  .next (runOp plan op .normalise f wholeOperands normaliseBody s)

/-! ## SORT (R296, R297) -/

/-- The keys of a SORT: the field and whether it descends. -/
def sortKeys (e : OpEntry) : List (FieldRef × Bool) :=
  let key (lo : Nat) : FieldRef × Bool :=
    ({ off := pf e lo 32, fmt := fieldFmt (pf e (lo + 32) 8), pbit := pf e (lo + 40) 6, hasP := pf e (lo + 46) 1 = 1,
       var := false, count := 1 }, pf e (lo + 47) 1 = 1)
  if pf e 112 1 = 1 then [key 0, key 64] else [key 0]

/-- R296: PLAN_LOAD's checks of a SORT entry. -/
def sortCheck (b : PlanBinary) (e : OpEntry) : Option Status :=
  let i := slotDesc b e.in0
  let q := slotDesc b e.out1
  let stage : Bool := pf e 113 1 = 1
  firstFail
    [ need (coreRowsOk b e .unused .optional && e.params.length = 32 && pf e 48 16 = 0 && pf e 114 142 = 0 &&
        formOf i = formOf (slotDesc b e.out0) && dimOf i 0 = dimOf (slotDesc b e.out0) 0 &&
        (e.out1.isNone || (flatOk b e.out1 && q.format = .int32 && rowCount q * rowLen q = rowCount i)) &&
        (sortKeys e).all (fun k => refOk i k.1 && k.1.fmt ≠ .u8)) .badPlan,
      need (!stage || decide (b.fabricRanks ≤ 1)) .unsupported,
      need (!stage || decide (rowCount i ≤ 2 ^ 24)) .limit,
      need (e.in0 ≠ e.out0) .overlap ]

/-- R297: where a key stands: numbers, then NaN, then absent. -/
def keyClass (row : List Byte) (f : FieldRef) : Nat :=
  if !present row f then 2
  else if isFloat f.fmt && isNan (elemVal f.fmt ((refCodes row f).headD 0)) then 1 else 0

/-- R297: one key's order between two rows. -/
def keyOrder (k : FieldRef × Bool) (x y : List Byte) : Ordering :=
  let a := keyClass x k.1
  let b := keyClass y k.1
  if a < b then .lt else if b < a then .gt
  else if a ≠ 0 then .eq
  else
    let u := (refCodes x k.1).headD 0
    let v := (refCodes y k.1).headD 0
    let o : Ordering := if elemLt k.1.fmt u v then .lt else if elemLt k.1.fmt v u then .gt else .eq
    if k.2 then o.swap else o

/-- R297: the order of a list of keys. -/
def keysOrder (ks : List (FieldRef × Bool)) (x y : List Byte) : Ordering :=
  match ks with
  | [] => .eq
  | k :: rest => (keyOrder k x y).then (keysOrder rest x y)

/-- R297: the rows of one piece in order, selected ones first. -/
def sortedRows (c : Ctx) (rows : List Nat) : List Nat :=
  let k := c.e.in0.getD 0
  let sel := rows.filter (maskBit c c.e.in1)
  let pairs := sel.map (fun r => (r, rowRead c k r))
  (pairs.mergeSort (fun a b => keysOrder (sortKeys c.e) a.2 b.2 ≠ .gt)).map (·.1) ++
    rows.filter (fun r => !maskBit c c.e.in1 r)

/-- SORT (R296, R297): each core's rows stay on it under SCOPE CORE. How many levels a merge took is not stated. -/
def sortBody (c : Ctx) : OpEnd :=
  let k := c.e.in0.getD 0
  let rows := rowsOf c k
  let owner (r : Nat) : Nat := ownerOfBlock c.p k (blockOf (cDesc c k) 0 r)
  let pieces := if par c 113 1 = 1 then [rows]
    else ((rows.map owner).dedup).map (fun g => rows.filter (fun r => owner r = g))
  let placed := pieces.flatMap (fun l => l.zip (sortedRows c l))
  let c1 := placed.foldl (fun x (to_, from_) => rowWrite (c.e.out0.getD 0) to_ (rowRead c k from_) x) c
  let perm := spreadRows c k id (rows.map (fun r => ((placed.find? (fun x => x.1 = r)).map (·.2)).getD r))
  let c2 := match c.e.out1 with
    | none => c1
    | some q => bytesWrite q ((perm.map (fun r => natLE r 4)).flatten) c1
  .done (bumps [(1, rows.countP (maskBit c c.e.in1)), (2, Config.unstated 1 [rows.length])] c2)

/-- SORT (R296). -/
def execSort (plan : Word) (op : Nat) (f : ReadFaults) (s : State) : Host.Outcome State Fault Refusal :=
  .next (runOp plan op .sort f wholeOperands sortBody s)

end Sys2Proof.Machine
end

