-- ==== Sys2Proof/Machine/Stats.lean ====
section
/-!
DEFINITION. STATS: partials, their merge and the statistics record (R279 to R283).
-/

namespace Sys2Proof.Machine

/-! ## Entries (R279) -/

/-- R279: an entry. -/
structure StatEntry where
  ref : FieldRef
  hist : Bool
  hll : Bool
  index : Nat
  deriving DecidableEq, Repr

def statEntry (e : OpEntry) (i : Nat) : StatEntry :=
  let z := slice e.params (48 + 16 * i) 16
  { ref := parseRef z, hist := field z 48 1 = 1, hll := field z 49 1 = 1, index := field z 96 16 }

def statEntries (e : OpEntry) : List StatEntry := (List.range (pf e 16 8)).map (statEntry e)

/-- R279: a U8 or VAR field is one feature, any other field one for each element. -/
def statWidth (x : StatEntry) : Nat := if x.ref.fmt = .u8 ∨ x.ref.var then 1 else x.ref.count

/-- R281: bytes of one core's partials. -/
def partialBytes (es : List StatEntry) : Nat :=
  (es.map (fun x => statWidth x * (64 + (if x.hist then 4096 else 0) + (if x.hll then 16384 else 0)))).sum

def statFeatures (e : OpEntry) : Nat := pf e 32 32

/-- R279: features of two entries do not overlap. -/
def featuresApart (es : List StatEntry) : Bool :=
  es.zipIdx.all (fun (x, i) => es.zipIdx.all (fun (y, j) =>
    i = j || decide (x.index + statWidth x ≤ y.index) || decide (y.index + statWidth y ≤ x.index)))

/-- R279: a quantile is a number from 0.0 to 1.0. -/
def quantileOk (q : Nat) : Bool := fLe fZero (ofF32 q) && fLe (ofF32 q) fOne

/-- R279, R281: PLAN_LOAD's checks of a STATS entry. -/
def statsCheck (b : PlanBinary) (e : OpEntry) : Option Status :=
  let i := slotDesc b e.in0
  let n := pf e 16 8
  let nf := statFeatures e
  let es := statEntries e
  let nq := pf e 8 4
  let flats := ([e.in2, e.out0].filterMap id).map (descOf b)
  let entryOk (t : Nat) : Bool :=
    let x := statEntry e t
    let z := slice e.params (48 + 16 * t) 16
    field z 50 14 = 0 && field z 112 16 = 0 && refOk i x.ref && (x.ref.fmt ≠ .u8 || (x.hll && !x.hist)) &&
      decide (x.index + statWidth x ≤ nf)
  firstFail
    [ need (slotsOk e .wanted .optional .optional .wanted .unused && rowsOk b true e.in0 &&
        (e.in1.isNone || maskOk (slotDesc b e.in1) (rowCount i)) && [e.in2, e.out0].all (fun v => v.isNone || flatOk b v) &&
        decide (1 ≤ n ∧ n ≤ 64 ∧ 1 ≤ nf ∧ nf ≤ 65536 ∧ nq ≤ 8) && e.params.length = 48 + 16 * n && pf e 2 6 = 0 &&
        pf e 12 4 = 0 && pf e 24 8 = 0 && pf e 320 64 = 0 && (List.range n).all entryOk && featuresApart es &&
        (List.range 8).all (fun k => if k < nq then quantileOk (pf e (64 + 32 * k) 32) else pf e (64 + 32 * k) 32 = 0))
        .badPlan,
      need (flats.all (fun d => decide (nf * 24704 ≤ flatLen d))) .limit,
      need (decide (partialBytes es ≤ 262144)) .limit ]

/-! ## Partials (R281 to R283) -/

/-- FP64 bits of a value. -/
def f64Bits (x : FVal) : Word := BitVec.ofNat 64 (encodeFloat fmt64 x)

/-- The value of FP64 bits. -/
def ofF64 (w : Word) : FVal := decodeFloat fmt64 w.toNat

/-- R280: nothing accumulated. -/
def emptyPartial : StatPartial where
  count := 0
  mean := 0
  m2 := 0
  min := f64Bits (.inf false)
  max := f64Bits (.inf true)
  absent := 0
  nans := 0
  hist := []
  hll := []

/-- R282: the histogram bin of an FP32 value. -/
def histBin (x : FVal) : Nat :=
  let idx : Nat := match x with
    | .fin _ m =>
      if m < 2 ^ 1042 then 0 else if 2 ^ 1106 ≤ m then 511
      else (m.log2 - 1042) * 8 + m / 2 ^ (m.log2 - 3) % 8
    | _ => 511
  if fLt x fZero then 511 - idx else 512 + idx

/-- R283: leading zero bits of a 64-bit number. -/
def leadingZeros64 (n : Nat) : Nat := if n = 0 then 64 else 63 - n.log2

/-- R283: a value's register and what it holds at least. -/
def hllOf (key : List Byte) : Nat × Nat :=
  let h := (xxHash64 0 key).toNat
  (h / 2 ^ 50, min (leadingZeros64 (h * 2 ^ 14 % 2 ^ 64)) 50 + 1)

/-- R283: the bytes that a value is hashed as. -/
def hllKey (f : Format) (code : Nat) : List Byte :=
  if isFloat f then
    let x := elemVal f code
    natLE (toF32 (if fEq x fZero then fZero else x)) 4
  else natLE code (elemBytes f)

/-- A register raised to a value. -/
def raiseReg (m : Sparse Nat) (e : Nat × Nat) : Sparse Nat := sset m e.1 (max ((sget m e.1).getD 0) e.2)

/-- The smaller and the larger of two values, the first where they are equal. -/
def fMin (x y : FVal) : FVal := if fLt y x then y else x
def fMax (x y : FVal) : FVal := if fLt x y then y else x

/-- R281: Welford's update in FP64, with minimum, maximum, histogram and registers. -/
def addStat (x : StatEntry) (p : StatPartial) (code : Nat) : StatPartial :=
  let f := x.ref.fmt
  let v := elemVal f code
  if isNan v then { p with nans := p.nans + 1 }
  else
    let y := roundVal fmt64 v
    let n := p.count + 1
    let d := fAddIn fmt64 y (fNeg (ofF64 p.mean))
    let mean := fAddIn fmt64 (ofF64 p.mean) (fDivIn fmt64 d (roundVal fmt64 (intVal n)))
    let m2 := fAddIn fmt64 (ofF64 p.m2) (fMulIn fmt64 d (fAddIn fmt64 y (fNeg mean)))
    let b := histBin (roundVal fmt32 v)
    { p with
      count := n
      mean := f64Bits mean
      m2 := f64Bits m2
      min := f64Bits (fMin (ofF64 p.min) y)
      max := f64Bits (fMax (ofF64 p.max) y)
      hist := if x.hist then sset p.hist b ((sget p.hist b).getD 0 + 1) else p.hist
      hll := if x.hll then raiseReg p.hll (hllOf (hllKey f code)) else p.hll }

/-- One row's part in feature `j` of an entry. -/
def addRow (x : StatEntry) (j : Nat) (p : StatPartial) (row : List Byte) : StatPartial :=
  if !present row x.ref then { p with absent := p.absent + 1 }
  else if x.ref.fmt = .u8 then { p with count := p.count + 1, hll := raiseReg p.hll (hllOf (refBytes row x.ref)) }
  else
    let cs := refCodes row x.ref
    if x.ref.var then cs.foldl (addStat x) p else addStat x p (cs.getD j 0)

/-- R29, R281: the partials of every core that owns rows, of each rank that its blocks have, over its selected rows in ascending
order. -/
def statPartials (c : Ctx) : List StagedStat :=
  let k := c.e.in0.getD 0
  let d := cDesc c k
  let owner (r : Nat) : Nat := ownerOfBlock c.p k (blockOf d 0 r)
  let rows := rowsOf c k
  ((rows.map (fun r => (rankOf c k r, owner r))).dedup).flatMap (fun g =>
    let mine := ((rows.filter (fun r => (rankOf c k r, owner r) = g ∧ maskBit c c.e.in1 r)).map (rowRead c k))
    (statEntries c.e).flatMap (fun x => (List.range (statWidth x)).map (fun j =>
      { op := c.op, rank := g.1, core := g.2, feature := x.index + j,
        part := mine.foldl (addRow x j) emptyPartial })))

/-! ## The merge (R281) -/

/-- R281: two partials merged, each operation rounded in FP64; with nothing in either the moments stay 0. -/
def mergePartial (a b : StatPartial) : StatPartial :=
  let n := a.count + b.count
  let num (k : Nat) : FVal := roundVal fmt64 (intVal k)
  let mul := fMulIn fmt64
  let add := fAddIn fmt64
  let d := add (ofF64 b.mean) (fNeg (ofF64 a.mean))
  { count := n
    mean := if n = 0 then 0 else f64Bits (add (ofF64 a.mean) (fDivIn fmt64 (mul d (num b.count)) (num n)))
    m2 := if n = 0 then 0 else
      f64Bits (add (add (ofF64 a.m2) (ofF64 b.m2))
        (fDivIn fmt64 (mul (mul (mul d d) (num a.count)) (num b.count)) (num n)))
    min := f64Bits (fMin (ofF64 a.min) (ofF64 b.min))
    max := f64Bits (fMax (ofF64 a.max) (ofF64 b.max))
    absent := a.absent + b.absent
    nans := a.nans + b.nans
    hist := b.hist.foldl (fun m e => sset m e.1 ((sget m e.1).getD 0 + e.2)) a.hist
    hll := b.hll.foldl raiseReg a.hll }

/-- R29, R281: staged partials in canonical order. -/
def statOrder (l : List StagedStat) : List StagedStat :=
  l.mergeSort (fun a b => lexLe [a.rank, a.core, a.feature] [b.rank, b.core, b.feature])

/-- R281: a feature merged from what it starts with. -/
def mergeFeature (start : StatPartial) (l : List StagedStat) (i : Nat) : StatPartial :=
  ((statOrder l).filter (fun x => x.feature = i)).foldl (fun p x => mergePartial p x.part) start

/-! ## The record (R280, R282, R283) -/

/-- The non-zero entries of an array of little-endian numbers. -/
def nonZero (bs : List Byte) (size n : Nat) : Sparse Nat :=
  ((List.range n).map (fun i => (i, leNat (slice bs (size * i) size)))).filter (fun e => e.2 ≠ 0)

/-- R280: a feature record read. -/
def parseFeature (b : List Byte) : StatPartial :=
  let w (i : Nat) : Nat := leNat (slice b (8 * i) 8)
  { count := w 0, mean := BitVec.ofNat 64 (w 1), m2 := BitVec.ofNat 64 (w 2), min := BitVec.ofNat 64 (w 3),
    max := BitVec.ofNat 64 (w 4), absent := w 5, nans := w 6,
    hist := nonZero (slice b 128 8192) 8 1024, hll := nonZero (slice b 8320 16384) 1 16384 }

/-- R282: the midpoint of a bin, in FP64. -/
def binMidpoint (bin : Nat) : FVal :=
  let idx := if bin < 512 then 511 - bin else bin - 512
  .fin (decide (bin < 512)) ((17 + 2 * (idx % 8)) * 2 ^ (1038 + idx / 8))

/-- R282: the quantile of a histogram. -/
def quantileOf (hist : Sparse Nat) (q : Nat) : FVal :=
  let n := (hist.map (·.2)).sum
  if n = 0 then .nan
  else
    let r := max 1 (ceilDiv ((unitsOf (ofF32 q)).toNat * n) fUnit)
    let cum (b : Nat) : Nat := ((hist.filter (fun e => e.1 ≤ b)).map (·.2)).sum
    binMidpoint (((hist.map (·.1)).find? (fun b => decide (r ≤ cum b))).getD 1023)

/-- R283: the estimate. The sum of the registers is exact before it is rounded, and the logarithm is rounded once (DESIGN CHOICE, log
entry 50). -/
def hllEstimate (hll : Sparse Nat) : FVal :=
  if hll.isEmpty then fZero
  else
    let dec (n d : Nat) : FVal := roundTo fmt64 false (n * fUnit) d
    let v := 16384 - hll.length
    let sum := roundTo fmt64 false (v * fUnit + (hll.map (fun e => 2 ^ (1074 - e.2))).sum) 1
    let alpha := fDivIn fmt64 (dec 7213 10000) (fAddIn fmt64 fOne (fDivIn fmt64 (dec 1079 1000) (intVal 16384)))
    let est := fDivIn fmt64 (fMulIn fmt64 alpha (intVal (2 ^ 28))) sum
    if fLe est (intVal 40960) ∧ 0 < v then
      fMulIn fmt64 (intVal 16384) (roundTo fmt64 false ((lnRatio 16384 v).toNat * 2 ^ 914) 1)
    else est

/-- An array of little-endian numbers from its non-zero entries. -/
def arrayBytes (m : Sparse Nat) (size n : Nat) : List Byte :=
  ((List.range n).map (fun i => natLE ((sget m i).getD 0) size)).flatten

/-- R280: a feature record. -/
def featureRecord (quants : List Nat) (p : StatPartial) : List Byte :=
  let qs := quants.map (fun q => encodeFloat fmt64 (quantileOf p.hist q))
  ([p.count % 2 ^ 64, p.mean.toNat, p.m2.toNat, p.min.toNat, p.max.toNat, p.absent % 2 ^ 64, p.nans % 2 ^ 64,
      encodeFloat fmt64 (hllEstimate p.hll)] ++ qs ++ List.replicate (8 - qs.length) 0).flatMap (fun w => natLE w 8) ++
    arrayBytes p.hist 8 1024 ++ arrayBytes p.hll 1 16384

/-- R279: the quantiles of a STATS. -/
def statQuantiles (e : OpEntry) : List Nat := (List.range (pf e 8 4)).map (fun k => pf e (64 + 32 * k) 32)

/-- R281: a STATS merges into its earlier record. -/
def statAccum (e : OpEntry) : Bool := pf e 0 1 = 1
def statGlobal (e : OpEntry) : Bool := pf e 1 1 = 1

/-- R281: what each feature starts from: IN2 under ACCUM, nothing otherwise. -/
def statStart (c : Ctx) : List StatPartial :=
  match c.e.in2 with
  | some k =>
    if statAccum c.e then
      let bs := bytesOf c k
      (List.range (statFeatures c.e)).map (fun i => parseFeature (slice bs (24704 * i) 24704))
    else List.replicate (statFeatures c.e) emptyPartial
  | none => List.replicate (statFeatures c.e) emptyPartial

/-- R280, R281: the record that partials merge into. -/
def statRecord (l : List StagedStat) (c : Ctx) : List Byte :=
  ((statStart c).zipIdx.map (fun (p, i) => featureRecord (statQuantiles c.e) (mergeFeature p l i))).flatten

/-- R300: a merged record is written, with the counts of the partials that this module brought to it. -/
def putStats (l : List StagedStat) (bs : List Byte) (c : Ctx) : Ctx :=
  let cores := (l.map (fun x => (x.rank, x.core))).dedup.length
  bumps [(2, l.length), (3, ceilDiv (cores * partialBytes (statEntries c.e)) 64)] (bytesWrite (c.e.out0.getD 0) bs c)

/-- R281, R300: the merge of a STATS on one module. -/
def mergeStats (l : List StagedStat) (c : Ctx) : Ctx := putStats l (statRecord l c) c

/-- R281: the partials of a STATS, with the values they accumulated. -/
def statLocal (c : Ctx) : List StagedStat × Ctx :=
  let l := statPartials c
  (l, bump 1 ((l.map (fun x => x.part.count)).sum) c)

end Sys2Proof.Machine
end

