-- ==== Sys2Proof/Machine/Join.lean ====
section
/-!
DEFINITION. Hash tables in the near tier: JOIN_BUILD, JOIN_PROBE and GROUP_AGG (R286 to R295).
-/

namespace Sys2Proof.Machine

/-! ## The table (R286, R287, R288) -/

/-- R286: a used slot: hash, key bytes, P_MASK and payload. -/
structure TableSlot where
  hash : Nat
  key : List Byte
  mask : Nat
  payload : List Byte
  deriving DecidableEq, Repr

/-- R286: a table read: its header and how its slots are read. -/
structure TableHead where
  magic : Nat
  kind : Nat
  log2 : Nat
  sectors : Nat
  entries : Nat
  /-- FIELD_BYTES or AGG_FUNC as the raw 64 bits at bit 128 -/
  fields : Nat
  deriving DecidableEq, Repr

/-- Bytes of a slot's payload. -/
def payloadRoom (sectors : Nat) : Nat := if sectors = 2 then 96 else 32

/-- R286: bytes of a table. -/
def tableBytes (log2 sectors : Nat) : Nat := 64 + 2 ^ log2 * 64 * sectors

/-- R286: the header of a table. -/
def parseTable (b : List Byte) : TableHead where
  magic := field b 0 32
  kind := field b 32 4
  log2 := field b 36 6
  sectors := 1 + field b 42 1
  entries := field b 64 64
  fields := field b 128 64

/-- R286: "RFTH". -/
def tableMagic : Nat := 0x48544652

/-- R286: the bytes of a header, with the step that commits it. -/
def tableHeader (h : TableHead) (step : Nat) : List Byte :=
  record 64 [(0, h.magic + h.kind <<< 32 + h.log2 <<< 36 + (h.sectors - 1) <<< 42), (64, h.entries), (128, h.fields),
    (192, step % 2 ^ 64)]

/-- R286: a slot read; none where it is empty. -/
def parseSlot (b : List Byte) : Option TableSlot :=
  let n := field b 64 5
  if n = 0 then none
  else some { hash := field b 0 64, key := slice b 16 (min n 16), mask := field b 72 12, payload := b.drop 32 }

/-- R286: the bytes of a slot. -/
def slotBytes (sectors : Nat) (x : TableSlot) : List Byte :=
  record 32 [(0, x.hash), (64, x.key.length), (72, x.mask), (128, leNat x.key)] ++
    (x.payload ++ zeros (payloadRoom sectors - x.payload.length))

/-- R287: the slots visited for a key from a slot upward: where it ends, what it finds, and how many slots it read. -/
def probe (get : Nat → Option TableSlot) (n hash : Nat) (key : List Byte) : Nat → Nat → Nat → Nat × Option TableSlot × Nat
  | 0, i, seen => (i, none, seen)
  | fuel + 1, i, seen =>
    match get i with
    | none => (i, none, seen + 1)
    | some x =>
      if x.hash = hash ∧ x.key = key then (i, some x, seen + 1)
      else probe get n hash key fuel ((i + 1) % n) (seen + 1)

/-- R287: a lookup. -/
def lookup (get : Nat → Option TableSlot) (log2 : Nat) (key : List Byte) : Nat × Option TableSlot × Nat :=
  let h := (fm64 0 key).toNat
  probe get (2 ^ log2) h key (2 ^ log2) (h / 2 ^ (64 - log2)) 0

/-- R287: the key of a row; none where it is absent, empty or longer than 16 bytes. -/
def tableKey (row : List Byte) (f : FieldRef) : Option (List Byte) :=
  if !present row f then none
  else
    let b := refBytes row f
    if b = [] ∨ 16 < b.length then none else some b

/-- R288: one more entry would pass 3/4 of the slots. -/
def tableFull (log2 used : Nat) : Bool := decide (3 * 2 ^ log2 < 4 * (used + 1))

/-- A whole table as bytes. -/
def tableImage (h : TableHead) (step : Nat) (slots : Sparse TableSlot) : List (Nat × List Byte) :=
  (0, tableHeader { h with entries := slots.length } step) ::
    slots.map (fun e => (64 + e.1 * 64 * h.sectors, slotBytes h.sectors e.2))

/-- A table written: every byte, empty slots zero. -/
def tableWrite (k : Nat) (h : TableHead) (step : Nat) (slots : Sparse TableSlot) (c : Ctx) : Ctx :=
  let size := tableBytes h.log2 h.sectors
  let bs := (tableImage h step slots).foldl (fun m p => memWrite m p.1 p.2) ([] : Memory)
  bytesWrite k (memRead bs 0 size) c

/-- The slots of a table held in bytes. -/
def slotAt (b : List Byte) (sectors i : Nat) : Option TableSlot :=
  parseSlot (slice b (64 + i * 64 * sectors) (64 * sectors))

/-- The used slots of a table. -/
def usedSlots (b : List Byte) (h : TableHead) : Sparse TableSlot :=
  (List.range (2 ^ h.log2)).filterMap (fun i => (slotAt b h.sectors i).map (fun x => (i, x)))

/-- R286: a session table with a byte in the far tier. -/
def tableFar (c : Ctx) (k : Nat) : Bool :=
  let d := cDesc c k
  d.space = .session &&
    (match sget c.s.sessions c.p.session with
    | none => false
    | some ss =>
      (touchedRows false d).any (fun t =>
        ((translateRange c.o.view.xlate c.p.session ss needNothing t.1.toNat t.2).getD []).any (fun p =>
          decide (nearEnd ≤ p.1))))

/-! ## Parameters (R289, R293) -/

/-- R289: the key field. -/
def joinKey (e : OpEntry) : FieldRef where
  off := pf e 0 32
  fmt := fieldFmt (pf e 32 8)
  pbit := pf e 40 6
  hasP := pf e 46 1 = 1
  var := pf e 47 1 = 1
  count := pf e 64 32

def joinLog2 (e : OpEntry) : Nat := pf e 48 6
def joinSectors (e : OpEntry) : Nat := 1 + pf e 54 1
def joinFlag (e : OpEntry) : Bool := pf e 55 1 = 1
def joinCount (e : OpEntry) : Nat := pf e 56 4

/-- R289: the payload references. -/
def joinRefs (e : OpEntry) : List FieldRef := (List.range (joinCount e)).map (fun i => parseRef (slice e.params (32 + 16 * i) 16))

/-- Bytes of a payload field. -/
def refLen (f : FieldRef) : Nat := f.count * elemBytes f.fmt

/-- R289: the key field fits the rows. -/
def joinKeyOk (d : Descriptor) (e : OpEntry) : Bool :=
  let f := joinKey e
  refOk d f && (f.fmt = .u8 || f.fmt = .int32 || f.fmt = .u64)

/-- R262: rows, an optional mask, in a VENT stage. -/
def ventRowsOk (b : PlanBinary) (e : OpEntry) : Bool :=
  rowsOk b false e.in0 && (e.in1.isNone || maskOk (slotDesc b e.in1) (rowCount (slotDesc b e.in0)))

/-- R289: PLAN_LOAD's checks of a JOIN_BUILD entry. -/
def joinBuildCheck (b : PlanBinary) (e : OpEntry) : Option Status :=
  let i := slotDesc b e.in0
  let o := slotDesc b e.out0
  firstFail
    [ need (slotsOk e .wanted .optional .unused .wanted .unused && ventRowsOk b e && flatOk b e.out0 && joinKeyOk i e &&
        decide (10 ≤ joinLog2 e ∧ joinCount e ≤ 8) && e.params.length = 32 + 16 * joinCount e &&
        pf e 60 4 = 0 && pf e 96 160 = 0 &&
        (List.range (joinCount e)).all (fun t => refReservedOk (slice e.params (32 + 16 * t) 16)) &&
        (joinRefs e).all (fun f => refOk i f && !f.var)) .badPlan,
      need (decide (joinLog2 e ≤ 34)) .limit,
      need (decide (((joinRefs e).map refLen).sum ≤ payloadRoom (joinSectors e))) .limit,
      need (decide (tableBytes (joinLog2 e) (joinSectors e) ≤ flatLen o)) .limit ]

/-- R289: PLAN_LOAD's checks of a JOIN_PROBE entry. -/
def joinProbeCheck (b : PlanBinary) (e : OpEntry) : Option Status :=
  let i := slotDesc b e.in0
  let o := slotDesc b e.out0
  firstFail
    [ need (slotsOk e .wanted .optional .wanted .wanted .optional && ventRowsOk b e && flatOk b e.in2 &&
        rowsOk b false e.out0 && rowCount i = rowCount o && sameForm b e &&
        (e.out1.isNone || maskOk (slotDesc b e.out1) (rowCount i)) && joinKeyOk i e && pf e 48 7 = 0 &&
        decide (joinCount e ≤ 8) && e.params.length = 32 + 16 * joinCount e && pf e 60 4 = 0 && pf e 96 160 = 0 &&
        (List.range (joinCount e)).all (fun t => refReservedOk (slice e.params (32 + 16 * t) 16)) &&
        (joinRefs e).all (fun f => refOk o f && !f.var)) .badPlan,
      need (noSelfOverlap e [joinKey e] (joinRefs e)) .overlap ]

/-- R293: an aggregate. -/
structure AggEntry where
  ref : FieldRef
  func : Nat
  deriving DecidableEq, Repr

def aggEntries (e : OpEntry) : List AggEntry :=
  (List.range (joinCount e)).map (fun i =>
    let z := slice e.params (32 + 16 * i) 16
    { ref := { parseRef z with var := false, count := 1 }, func := field z 48 4 })

/-- R293: PLAN_LOAD's checks of a GROUP_AGG entry. -/
def groupAggCheck (b : PlanBinary) (e : OpEntry) : Option Status :=
  let i := slotDesc b e.in0
  let flats := ([e.in2, e.out0].filterMap id).map (descOf b)
  let top := if joinSectors e = 2 then 12 else 4
  let aggOk (t : Nat) : Bool :=
    let z := slice e.params (32 + 16 * t) 16
    field z 47 1 = 0 && field z 52 76 = 0 &&
      (match field z 48 4 with
      | 0 => field z 0 47 = 0
      | 1 | 2 | 3 => refOk i { parseRef z with var := false, count := 1 } && refFormat (field z 32 8) ≠ some .u8
      | _ => false)
  firstFail
    [ need (slotsOk e .wanted .optional .optional .wanted .unused && ventRowsOk b e && [e.in2, e.out0].all (fun v => v.isNone || flatOk b v) && joinKeyOk i e &&
        decide (10 ≤ joinLog2 e ∧ 1 ≤ joinCount e ∧ joinCount e ≤ top) && !joinFlag e &&
        e.params.length = 32 + 16 * joinCount e && pf e 60 4 = 0 && pf e 96 160 = 0 &&
        (List.range (joinCount e)).all aggOk) .badPlan,
      need (decide (joinLog2 e ≤ 34)) .limit,
      need (flats.all (fun d => decide (tableBytes (joinLog2 e) (joinSectors e) ≤ flatLen d))) .limit ]

/-! ## JOIN_BUILD (R290) -/

/-- A table being built, with its counters. -/
structure Building where
  slots : Sparse TableSlot
  full : Bool
  inserted : Nat
  dups : Nat
  skipped : Nat
  reads : Nat

/-- R290: the payload of a row and its P_MASK. -/
def payloadOf (fs : List FieldRef) (row : List Byte) : List Byte × Nat :=
  ((fs.map (fun f => if present row f then refBytes row f else zeros (refLen f))).flatten,
    ((fs.zipIdx.map (fun (f, i) => bitOf (present row f) <<< i)).sum))

/-- R287, R288, R290: one row inserted. -/
def buildRow (e : OpEntry) (t : Building) (row : List Byte) : Building :=
  if t.full then t
  else match tableKey row (joinKey e) with
    | none => { t with skipped := t.skipped + 1 }
    | some key =>
      let r := lookup (sget t.slots) (joinLog2 e) key
      let p := payloadOf (joinRefs e) row
      let x : TableSlot := { hash := (fm64 0 key).toNat, key := key, mask := p.2, payload := p.1 }
      match r.2.1 with
      | some _ =>
        { t with
          slots := if joinFlag e then sset t.slots r.1 x else t.slots
          dups := t.dups + 1
          reads := t.reads + r.2.2 }
      | none =>
        if tableFull (joinLog2 e) t.slots.length then { t with full := true }
        else
          { t with
            slots := sset t.slots r.1 x
            inserted := t.inserted + 1
            reads := t.reads + r.2.2 }

/-- JOIN_BUILD (R286, R288, R290). -/
def joinBuildBody (c : Ctx) : OpEnd :=
  let k := c.e.in0.getD 0
  let o := c.e.out0.getD 0
  if tableFar c o then .fail .unsupported
  else
    let rows := ((canonicalRows c k).filter (maskBit c c.e.in1)).map (rowRead c k)
    let t := rows.foldl (buildRow c.e) { slots := [], full := false, inserted := 0, dups := 0, skipped := 0, reads := 0 }
    if t.full then .fail .limit
    else
      let h : TableHead :=
        { magic := tableMagic, kind := 1, log2 := joinLog2 c.e, sectors := joinSectors c.e, entries := 0,
          fields := (joinRefs c.e).zipIdx.map (fun (f, i) => refLen f <<< (8 * i)) |>.sum }
      .done (bumps [(1, t.inserted), (2, t.dups), (3, t.skipped), (4, t.reads)] (tableWrite o h c.p.nextStep t.slots c))

/-- JOIN_BUILD (R289). -/
def execJoinBuild (plan : Word) (op : Nat) (f : ReadFaults) (s : State) : Host.Outcome State Fault Refusal :=
  .next (runOp plan op .joinBuild f wholeOperands joinBuildBody s)

/-! ## JOIN_PROBE (R291) -/

/-- R289: the header fits the probe. A table longer than its operand does not (DESIGN CHOICE, log entry 51). -/
def probeHeadOk (e : OpEntry) (len : Nat) (h : TableHead) : Bool :=
  let lens := (List.range 8).map (fun i => h.fields / 2 ^ (8 * i) % 256)
  let want := (joinRefs e).map refLen
  h.magic = tableMagic && h.kind = 1 && decide (10 ≤ h.log2 ∧ h.log2 ≤ 34 ∧ tableBytes h.log2 h.sectors ≤ len) &&
    lens = want ++ List.replicate (8 - want.length) 0

/-- R291: the payload of a slot written to the destinations, absence for the fields it does not hold. -/
def writePayload (fs : List FieldRef) (hit : Option TableSlot) (row : List Byte) : List Byte :=
  (fs.zipIdx.foldl
    (fun acc (f, i) =>
      let row' := match hit with
        | none => putAbsent f acc.1
        | some x =>
          if x.mask.testBit i then
            putCodes f (rowCodes f.fmt (slice x.payload acc.2 (refLen f)) f.count) acc.1
          else putAbsent f acc.1
      (row', acc.2 + refLen f)) (row, 0)).1

/-- R287, R291: what a probe of one row finds and how many slots it reads. -/
def probeRow (e : OpEntry) (t : List Byte) (h : TableHead) (row : List Byte) : Option (Option TableSlot × Nat) :=
  (tableKey row (joinKey e)).map (fun key => (lookup (slotAt t h.sectors) h.log2 key).2)

/-- JOIN_PROBE (R268, R289, R291). -/
def joinProbeBody (c : Ctx) : OpEnd :=
  let k := c.e.in0.getD 0
  let q := c.e.in2.getD 0
  let t := bytesOf c q
  let h := parseTable t
  let fs := joinRefs c.e
  if tableFar c q then .fail .unsupported
  else if !probeHeadOk c.e t.length h then .fail .implausible
  else
    let c1 := mapRows c (fun sel src row =>
      if !sel then unselected fs row
      else
        match probeRow c.e t h src with
        | none => (writePayload fs none row, [(1, 1), (2, 1), (3, 1)], 0)
        | some (hit, n) => (writePayload fs hit row, [(1, 1), (2, bitOf hit.isNone), (4, n)], 0))
    .done (match c.e.out1 with
      | none => c1
      | some m =>
        maskWrite m (spreadRows c k (fun _ => false) <| (rowsOf c k).map (fun r => maskBit c c.e.in1 r &&
          (joinFlag c.e || ((probeRow c.e t h (rowRead c k r)).map (fun x => x.1.isSome)).getD false))) c1)

/-- JOIN_PROBE (R289). -/
def execJoinProbe (plan : Word) (op : Nat) (f : ReadFaults) (s : State) : Host.Outcome State Fault Refusal :=
  .next (runOp plan op .joinProbe f wholeOperands joinProbeBody s)

/-! ## GROUP_AGG (R293, R294) -/

/-- R293: a source element as its aggregate stores it: FP64, INT64 or U64. -/
def aggValue (row : List Byte) (x : AggEntry) : Option Word :=
  if x.func = 0 then some 1
  else if !present row x.ref then none
  else
    let v := (refCodes row x.ref).headD 0
    some (match x.ref.fmt with
      | .int32 => BitVec.ofInt 64 (signed 32 v)
      | .u64 => BitVec.ofNat 64 v
      | f => f64Bits (elemVal f v))

/-- R293: an aggregate of floating-point elements. -/
def aggFloat (x : AggEntry) : Bool := x.func ≠ 0 && isFloat x.ref.fmt

/-- R293, R294: a value taken into an aggregate. -/
def aggStep (x : AggEntry) (a v : Word) : Word :=
  if aggFloat x then
    match x.func with
    | 1 => f64Bits (fAddIn fmt64 (ofF64 a) (ofF64 v))
    | 2 => f64Bits (fMin (ofF64 a) (ofF64 v))
    | _ => f64Bits (fMax (ofF64 a) (ofF64 v))
  else if x.func ≤ 1 then a + v
  else
    let lt : Bool := if x.ref.fmt = .int32 then v.slt a else v.ult a
    let gt : Bool := if x.ref.fmt = .int32 then a.slt v else a.ult v
    if x.func = 2 then (if lt then v else a) else if gt then v else a

/-- R294: the geometry of a GROUP_AGG's table. -/
def groupHead (e : OpEntry) : TableHead where
  magic := tableMagic
  kind := 2
  log2 := joinLog2 e
  sectors := joinSectors e
  entries := 0
  fields := ((aggEntries e).zipIdx.map (fun (x, i) => x.func <<< (4 * i))).sum

/-- R294: the contributions of an operator's selected rows, and how many keys it skips. -/
def groupStage (c : Ctx) : List Staged × Nat :=
  let k := c.e.in0.getD 0
  let rows := (rowsOf c k).filter (maskBit c c.e.in1)
  let l := rows.map (fun r =>
    let row := rowRead c k r
    (tableKey row (joinKey c.e)).map (fun key =>
      { op := c.op, key := mergeKey c k r 0, target := 0, admits := false, ident := key,
        values := (aggEntries c.e).map (aggValue row) : Staged }))
  (l.filterMap id, l.countP (·.isNone))

/-- GROUP_AGG (R294): the rows are staged; the merge applies them at the step boundary. -/
def groupAggBody (c : Ctx) : OpEnd :=
  let old := match c.e.in2 with
    | none => { groupHead c.e with entries := 0 }
    | some q => parseTable (bytesOf c q)
  if tableFar c (c.e.out0.getD 0) ∨ (c.e.in2.map (tableFar c)).getD false then .fail .unsupported
  else if { old with entries := 0 } ≠ groupHead c.e then .fail .implausible
  else
    let st := groupStage c
    .done (bumps [(1, st.1.length), (3, st.2)] { c with o := { c.o with staged := c.o.staged ++ st.1 } })

/-- GROUP_AGG (R293). -/
def execGroupAgg (plan : Word) (op : Nat) (f : ReadFaults) (s : State) : Host.Outcome State Fault Refusal :=
  .next (runOp plan op .groupAgg f wholeOperands groupAggBody s)

/-- A group table under its merge, with its counters. -/
structure Grouping where
  slots : Sparse TableSlot
  full : Bool
  fresh : Nat
  reads : Nat
  nans : Nat

/-- R294: one aggregate of a slot takes a value. -/
def takeAgg (x : AggEntry) (i : Nat) (v : Option Word) (t : TableSlot) : TableSlot × Nat :=
  match v with
  | none => (t, 0)
  | some w =>
    if aggFloat x && isNan (ofF64 w) then (t, 1)
    else
      let old := BitVec.ofNat 64 (leNat (slice t.payload (8 * i) 8))
      let new_ := if t.mask.testBit i then aggStep x old w else w
      ({ t with payload := putBytes (8 * i) (natLE new_.toNat 8) t.payload, mask := t.mask ||| 1 <<< i }, 0)

/-- R294: one contribution applied. -/
def applyGroup (e : OpEntry) (t : Grouping) (g : Staged) : Grouping :=
  if t.full then t
  else
    let r := lookup (sget t.slots) (joinLog2 e) g.ident
    let blank : TableSlot :=
      { hash := (fm64 0 g.ident).toNat, key := g.ident, mask := 0, payload := zeros (payloadRoom (joinSectors e)) }
    if r.2.1.isNone ∧ tableFull (joinLog2 e) t.slots.length then { t with full := true }
    else
      let res := ((aggEntries e).zip g.values).zipIdx.foldl
        (fun acc (p, i) => let y := takeAgg p.1 i p.2 acc.1; (y.1, acc.2 + y.2)) (r.2.1.getD blank, 0)
      { slots := sset t.slots r.1 res.1
        full := false
        fresh := t.fresh + bitOf r.2.1.isNone
        reads := t.reads + r.2.2
        nans := t.nans + res.2 }

/-- R294: the merge of a GROUP_AGG: none where the table is too full (R288). -/
def mergeGroup (c : Ctx) : Option Ctx :=
  let start : Sparse TableSlot := match c.e.in2 with
    | none => []
    | some q => usedSlots (bytesOf c q) (groupHead c.e)
  let l := (c.o.staged.filter (fun g => g.op = c.op)).mergeSort (fun a b => keyLe a.key b.key)
  let t := l.foldl (applyGroup c.e) { slots := start, full := false, fresh := 0, reads := 0, nans := 0 }
  if t.full then none
  else some (bumps [(2, t.fresh), (4, t.reads)]
    (countNans t.nans (tableWrite (c.e.out0.getD 0) (groupHead c.e) c.p.nextStep t.slots c)))

end Sys2Proof.Machine
end

