-- ==== Sys2Proof/Machine/Tables.lean ====
section
/-!
DEFINITION. Commands on embedding tables: create, publish, retire, the migration policy, and the migration of hot row
blocks (R302, R303, R310 to R312, R328 to R333).
-/

namespace Sys2Proof.Machine

/-! ## TABLE_CREATE (R302, R303) -/

/-- R302: no storage or no index. -/
def noVa : Nat := 0xFFFFFFFFFFFFFFFF

/-- R302: the storage and the index of version slot `k` in a descriptor. -/
def tdStore (b : List Byte) (k : Nat) : Nat := field b (256 + 64 * k) 64
def tdIndex (b : List Byte) (k : Nat) : Nat := field b (512 + 64 * k) 64

/-- R302: the row formats. -/
def tdFormat (b : List Byte) : Option Format :=
  (formatOf (field b 4 8)).filter (fun f => f = .fp32 || f = .bf16 || f = .e4m3 || f = .b8 || f = .b4)

/-- R302: the table that a descriptor describes; its handle and directory entries are given at creation. -/
def tdTable (b : List Byte) (sid : Nat) : EmbTable where
  handle := 0
  session := sid
  hashed := field b 0 4 = 1
  rowFormat := (tdFormat b).getD .fp32
  merge := field b 12 3
  sharded := field b 15 1 = 1
  log2Block := field b 16 5
  log2Index := field b 21 6
  rowElems := field b 32 32
  rows := field b 64 64
  lr := BitVec.ofNat 32 (field b 128 32)
  eps := BitVec.ofNat 32 (field b 160 32)
  fabricMapBase := field b 192 19
  slots := (List.range 4).map (fun k =>
    { state := if tdStore b k = noVa then .empty else .loaded
      storeVa := BitVec.ofNat 64 (tdStore b k)
      indexVa := BitVec.ofNat 64 (tdIndex b k)
      dirBase := 0
      refs := 0 })
  policy := none
  frames := []
  migrations := []
  aborted := []
  decided := none
  promotions := 0
  demotions := 0
  aborts := 0
  writebackBytes := 0

/-- R303 row 1. -/
def tdFormed (b : List Byte) : Bool :=
  let kind := field b 0 4
  let ks := List.range 4
  b.length = 128 && field b 27 5 = 0 && field b 211 45 = 0 && field b 768 256 = 0 && decide (kind ≤ 1) &&
    decide (field b 12 3 ≤ 4) && ks.any (fun k => tdStore b k ≠ noVa) &&
    (if kind = 1 then ks.all (fun k => (tdStore b k = noVa) = (tdIndex b k = noVa))
     else ks.all (fun k => tdIndex b k = noVa) && field b 21 6 = 0) &&
    (field b 12 3 = 4 || (field b 128 32 = 0 && field b 160 32 = 0)) && (field b 15 1 = 1 || field b 192 19 = 0)

/-- R303 row 3. -/
def tdRange (t : EmbTable) : Bool :=
  decide (1 ≤ t.rows ∧ t.rows ≤ 2 ^ 40 ∧ 1 ≤ t.rowElems ∧ t.rowElems ≤ 4096 ∧ 6 ≤ t.log2Block ∧ t.log2Block ≤ 24) &&
    (!t.hashed || decide (10 ≤ t.log2Index ∧ t.log2Index ≤ 34)) && (!t.sharded || decide (ceilDiv t.rows 64 ≤ 524288))

/-- R303: bytes of an ID index. -/
def indexBytes (t : EmbTable) : Nat := 64 + 16 * 2 ^ t.log2Index

/-- READ, WRITE and TABLE. -/
def needTableAll : Need := { read := true, write := true, table := true, weights := false }

/-- R15, R327: the rows of a sharded table that this module owns, as first row and count of each block. -/
def ownedBlocks (s : State) (t : EmbTable) : List (Nat × Nat) :=
  (List.range (ceilDiv t.rows 64)).filterMap (fun b =>
    if (sget s.owner.active.fabric (t.fabricMapBase + b)).any (fun e => e.module = s.fabric.moduleId) then
      some (64 * b, min 64 (t.rows - 64 * b)) else none)

/-- R303, R327, R36: the storage ranges of a slot that must be mapped. -/
def storageRanges (s : State) (t : EmbTable) (k : Nat) : List (Nat × Nat) :=
  let va := (slotOf t k).storeVa.toNat
  if t.sharded then (ownedBlocks s t).map (fun e => (va + e.1 * rowBytesOf t, e.2 * rowBytesOf t))
  else [(va, t.rows * rowBytesOf t)]

/-- R303, R36: the storage and index pages of a slot with storage grant what is needed. -/
def slotPagesOk (s : State) (t : EmbTable) (n : Need) (k : Nat) : Bool :=
  let ranges := storageRanges s t k ++ (if t.hashed then [((slotOf t k).indexVa.toNat, indexBytes t)] else [])
  ranges.all (fun r => match sessionPieces s t.session n r.1 r.2 with
    | none => false
    | some ps => farPiecesOk s ps n.write)

/-- Slots with storage. -/
def storedSlots (t : EmbTable) : List Nat := (List.range 4).filter (fun k => (slotOf t k).state ≠ .empty)

/-- R306: directory entries in use, as first entry and count. -/
def dirUsed (s : State) : List (Nat × Nat) :=
  s.tables.flatMap (fun t => (storedSlots t).map (fun k => ((slotOf t k).dirBase, tableBlocks t)))

/-- R306: the lowest run of free directory entries (DESIGN CHOICE, log entry 53: firmware's choice is not stated). -/
def dirRun (used : List (Nat × Nat)) (n : Nat) : Option Nat :=
  let starts := (0 :: used.map (fun e => e.1 + e.2)).mergeSort (fun a b => decide (a ≤ b))
  starts.find? (fun a => decide (a + n ≤ 262144) && used.all (fun e => decide (a + n ≤ e.1 ∨ e.1 + e.2 ≤ a)))

/-- R306: runs for the slots of a table, in slot order. -/
def dirRuns (n : Nat) : List Nat → List (Nat × Nat) → Option (List (Nat × Nat))
  | [], _ => some []
  | k :: ks, used =>
    match dirRun used n with
    | none => none
    | some a => (dirRuns n ks ((a, n) :: used)).map (fun l => (k, a) :: l)

/-- R303: the first check that a descriptor fails. -/
def tableCreateCheck (s : State) (b : List Byte) (sid : Nat) : Option Status :=
  let t := tdTable b sid
  let aligned : Bool := (storedSlots t).all (fun k =>
    (slotOf t k).storeVa.toNat % 64 = 0 && (!t.hashed || (slotOf t k).indexVa.toNat % 64 = 0))
  if !tdFormed b then some .badPacket
  else if (tdFormat b).isNone ∨ (t.sharded ∧ t.hashed) then some .unsupported
  else if !tdRange t then some .limit
  else if !aligned then some .align
  else if !(storedSlots t).all (slotPagesOk s t needTableAll) then some .access
  else if 4096 ≤ s.tables.length ∨ (dirRuns (tableBlocks t) (storedSlots t) (dirUsed s)).isNone then some .noResource
  else none

/-- R302: a table's handle. -/
def tableHandle (sid serial number : Nat) : Word := BitVec.ofNat 64 ((sid <<< 56) + ((serial % 2 ^ 44) <<< 12) + number)

/-- TABLE_CREATE (R302, R303, R306, R310). -/
def tableCreateBody (r : CmdRef) (c : Chain) (s : State) : State :=
  let sid := c.session.toNat
  match tableCreateCheck s c.payload sid with
  | some st => complete r (replyOf st) s
  | none =>
    let t := tdTable c.payload sid
    let runs := (dirRuns (tableBlocks t) (storedSlots t) (dirUsed s)).getD []
    let number := ((List.range 4096).find? (fun n => !s.tables.any (fun x => tableNumber x = n))).getD 0
    let h := tableHandle sid s.tableSerial number
    let t1 : EmbTable := { t with
      handle := h
      slots := t.slots.zipIdx.map (fun (v, k) => { v with dirBase := ((runs.find? (fun e => e.1 = k)).map (·.2)).getD 0 }) }
    let s1 := { s with
      tables := s.tables ++ [t1]
      tableSerial := s.tableSerial + 1
      rowDir := runs.foldl (fun m e => sdelRange m e.2 (tableBlocks t)) s.rowDir }
    completeData r
      { replyData (natLE h.toNat 8) with count0 := rowBytesOf t, count1 := runs.length * tableBlocks t } s1

def tableCreateRule : CommandRule := { plainRule 0x0050 with needsSession := true }

/-- TABLE_CREATE (R302). -/
def execTableCreate (r : RingId) (p : Packet) (s : State) : Host.Outcome State Fault Refusal :=
  .next (hostCommand r tableCreateRule tableCreateBody p s)

/-! ## TABLE_PUBLISH and TABLE_RETIRE (R311, R312) -/

/-- R331: every migration of a slot is aborted. -/
def abortSlot (h : Word) (k : Nat) (s : State) : State :=
  abortMigrations h (((governing s h k).map (·.nextStep)).getD 0) (fun m => m.slot = k) s

/-- R308, R311: the header of a slot's ID index. -/
def indexHeaderOk (s : State) (t : EmbTable) (k : Nat) : Bool :=
  let b := sessionRead s t.session (slotOf t k).indexVa.toNat 64
  field b 0 32 = 0x44495846 && field b 32 6 = t.log2Index && decide (4 * field b 64 64 ≤ 3 * 2 ^ t.log2Index) &&
    decide (field b 128 64 ≤ t.rows)

/-- TABLE_PUBLISH (R311, R331). -/
def tablePublishBody (r : CmdRef) (c : Chain) (s : State) : State :=
  let k := parBits c 0 1 0
  match tableOf s c.handle with
  | none => complete r (replyOf .access) s
  | some t =>
    match (slotOf t k).state with
    | .empty => complete r (replyOf .access) s
    | .retiring => complete r (replyOf .busy) s
    | .current => complete r (replyOf .done) s
    | .loaded =>
      if t.hashed ∧ !indexHeaderOk s t k then complete r (replyOf .implausible) s
      else
        let s1 := match currentSlot t with
          | none => s
          | some j => onTable t.handle (onSlot j (fun v => { v with state := .loaded })) (abortSlot t.handle j s)
        complete r (replyOf .done) (onTable t.handle (onSlot k (fun v => { v with state := .current })) s1)

/-- TABLE_RETIRE (R312). -/
def tableRetireBody (r : CmdRef) (c : Chain) (s : State) : State :=
  let k := parBits c 0 1 0
  match tableOf s c.handle with
  | none => complete r (replyOf .access) s
  | some t =>
    match (slotOf t k).state with
    | .empty => complete r (replyOf .access) s
    | .retiring | .current => complete r (replyOf .busy) s
    | .loaded =>
      let s1 := onTable t.handle (onSlot k (fun v => { v with state := .retiring })) (abortSlot t.handle k s)
      complete r { replyOf .done with count0 := (slotOf t k).refs } (settleSlot t.handle k s1)

def tableSlotRule (op : BitVec 16) : CommandRule := { plainRule op with handle := .table, used := [3] }

/-- TABLE_PUBLISH (R311). -/
def execTablePublish (r : RingId) (p : Packet) (s : State) : Host.Outcome State Fault Refusal :=
  .next (hostCommand r (tableSlotRule 0x0051) tablePublishBody p s)

/-- TABLE_RETIRE (R312). -/
def execTableRetire (r : RingId) (p : Packet) (s : State) : Host.Outcome State Fault Refusal :=
  .next (hostCommand r (tableSlotRule 0x0052) tableRetireBody p s)

/-! ## TABLE_MIGRATE_POLICY (R328) -/

/-- R328: a policy record read. -/
def parsePolicy (b : List Byte) : Policy where
  hotVa := field b 0 64
  hotFrames := field b 64 32
  promoteMin := field b 96 32
  maxPerStep := field b 128 8
  decayShift := field b 136 5
  enable := field b 141 1 = 1
  intervalSteps := field b 144 16
  retrySteps := field b 160 16

/-- R328: a policy record. -/
def policyRecord (p : Policy) : List Byte :=
  record 64 [(0, p.hotVa), (64, p.hotFrames), (96, p.promoteMin), (128, p.maxPerStep), (136, p.decayShift),
    (141, bitOf p.enable), (144, p.intervalSteps), (160, p.retrySteps)]

/-- R328: the pages of a hot area are near-tier pages with READ, WRITE and TABLE. -/
def hotPagesOk (s : State) (t : EmbTable) (p : Policy) : Bool :=
  match sessionPieces s t.session needTableAll p.hotVa (p.hotFrames * frameBytes t) with
  | none => false
  | some ps => ps.all (fun x => decide (x.1 < nearEnd))

/-- TABLE_MIGRATE_POLICY (R328). MAX_PER_STEP or INTERVAL_STEPS out of range is LIMIT, an unaligned HOT_VA ALIGN (DESIGN
CHOICE, log entry 53). -/
def policyBody (r : CmdRef) (c : Chain) (s : State) : State :=
  let b := c.payload
  let p := parsePolicy b
  match tableOf s c.handle with
  | none => complete r (replyOf .access) s
  | some t =>
    let used : Bool := !t.frames.isEmpty
    let old := t.policy
    let st : Option Status :=
      if b.length ≠ 64 ∨ field b 142 2 ≠ 0 ∨ field b 176 336 ≠ 0 then some .badPacket
      else if 16 < p.maxPerStep ∨ p.intervalSteps = 0 then some .limit
      else if p.hotVa % 64 ≠ 0 then some .align
      else if !hotPagesOk s t p then some .access
      else if used ∧ (old.map (fun q => q.hotVa ≠ p.hotVa || decide (p.hotFrames < q.hotFrames))).getD false then some .busy
      else none
    match st with
    | some f => complete r (replyOf f) s
    | none => complete r (replyOf .done) (onTable t.handle (fun x => { x with policy := some p }) s)

/-- R328: the policy before one is set. -/
def noPolicy : Policy where
  hotVa := 0
  hotFrames := 0
  promoteMin := 0
  maxPerStep := 0
  decayShift := 0
  enable := false
  intervalSteps := 0
  retrySteps := 0

/-- TABLE_MIGRATE_POLICY with QUERY set (R328). -/
def policyQueryBody (r : CmdRef) (c : Chain) (s : State) : State :=
  if c.payload ≠ [] then complete r (replyOf .badPacket) s
  else match tableOf s c.handle with
    | none => complete r (replyOf .access) s
    | some t =>
      completeData r (replyData (policyRecord (t.policy.getD noPolicy) ++
        record 64 [(0, t.promotions % 2 ^ 64), (64, t.demotions % 2 ^ 64), (128, t.aborts % 2 ^ 64),
          (192, (t.frames.filter (fun f => (dirEntry s t f.2.1 f.2.2).hot)).length), (224, t.migrations.length),
          (256, t.writebackBytes % 2 ^ 64)])) s

def policyRule : CommandRule := { plainRule 0x0053 with adminOnly := true, handle := .table, used := [1] }

/-- TABLE_MIGRATE_POLICY (R328). -/
def execTableMigratePolicy (r : RingId) (p : Packet) (s : State) : Host.Outcome State Fault Refusal :=
  .next (hostCommand r policyRule policyBody (fixP0 1 0 p) s)

/-- TABLE_MIGRATE_POLICY QUERY (R328). -/
def execTableMigratePolicyQuery (r : RingId) (p : Packet) (s : State) : Host.Outcome State Fault Refusal :=
  .next (hostCommand r policyRule policyQueryBody (fixP0 1 1 p) s)

/-! ## Decisions and copies (R329, R330, R332) -/

/-- The summed access count of a block. -/
def blockCount (s : State) (t : EmbTable) (k blk : Nat) : Nat :=
  (dirEntry s t k blk).count0 + (dirEntry s t k blk).count1

/-- R329: the storage of a block lies in the far tier. -/
def storedFar (s : State) (t : EmbTable) (k blk : Nat) : Bool :=
  ((sessionPieces s t.session needNothing (storageVa t k blk) 1).getD []).any (fun p => decide (nearEnd ≤ p.1))

/-- R329: the candidates of a decision, in the order they are taken. -/
def candidates (s : State) (t : EmbTable) (pol : Policy) (k step : Nat) : List Nat :=
  let ok (b : Nat) : Bool :=
    storedFar s t k b && !(dirEntry s t k b).hot && !(dirEntry s t k b).migrating &&
      !t.migrations.any (fun m => m.slot = k && m.next = some b) &&
      decide (pol.promoteMin ≤ blockCount s t k b) &&
      t.aborted.all (fun a => !(a.1 = k && a.2.1 = b) || decide (a.2.2 + pol.retrySteps ≤ step))
  ((List.range (tableBlocks t)).filter ok).mergeSort (fun a b =>
    decide (blockCount s t k b < blockCount s t k a) || (blockCount s t k a = blockCount s t k b && decide (a ≤ b)))

/-- R329: the HOT block with the lowest count, the higher number first on a tie, that is not already leaving. -/
def coldestHot (s : State) (t : EmbTable) (k : Nat) : Option (Nat × Nat) :=
  let l := (t.frames.filter (fun f => f.2.1 = k && (dirEntry s t k f.2.2).hot && !(dirEntry s t k f.2.2).migrating)).map
    (fun f => (f.2.2, f.1))
  (l.mergeSort (fun a b =>
    decide (blockCount s t k a.1 < blockCount s t k b.1) || (blockCount s t k a.1 = blockCount s t k b.1 && decide (b.1 ≤ a.1)))).head?

/-- R329: one candidate taken, if a migration may start and a frame can be had for it: a free one, or that of a colder block, which is
demoted first, the candidate's own migration starting when that has flipped (DEDUCED, log entry 53). -/
def takeCandidate (h : Word) (pol : Policy) (k blk : Nat) (s : State) : State :=
  match tableOf s h with
  | none => s
  | some t =>
    if pol.maxPerStep ≤ t.migrations.length then s
    else match (List.range pol.hotFrames).find? (fun f => !t.frames.any (fun x => x.1 = f)) with
      | some f => startMigration h k blk f false none s
      | none =>
        match coldestHot s t k with
        | none => s
        | some (v, f) =>
          if blockCount s t k v < blockCount s t k blk then startMigration h k v f true (some blk) s else s

/-- R329: every count of the table is shifted right. -/
def decayCounts (t : EmbTable) (shift : Nat) (s : State) : State :=
  (storedSlots t).foldl
    (fun x k => (List.range (tableBlocks t)).foldl
      (fun y b => if (sget y.rowDir ((slotOf t k).dirBase + b)).isSome then
          setDir t k b (fun e => { e with count0 := e.count0 >>> shift, count1 := e.count1 >>> shift }) y
        else y) x) s

/-- MIGRATION_DECISION (R329, R332): once at every INTERVAL_STEPS-th step boundary of the governing plan. -/
def execMigrationDecision (table : Word) (s : State) : Host.Outcome State Fault Refusal :=
  .next (match tableOf s table with
    | none => s
    | some t =>
      match t.policy, currentSlot t with
      | some pol, some k =>
        match governing s table k with
        | none => s
        | some p =>
          let at_ := some (p.handle, p.nextStep)
          if p.nextStep % max pol.intervalSteps 1 ≠ 0 ∨ t.decided = at_ ∨ p.nextStep = 0 ∨
              s.power.state ≠ .active then s
          else
            let s1 := if pol.enable then
                (candidates s t pol k p.nextStep).foldl (fun x b => takeCandidate table pol k b x) s
              else s
            onTable table (fun x => { x with decided := at_ }) (decayCounts t pol.decayShift s1)
      | _, _ => s)

/-- R330: session addresses of row `i` of a migrating block at its source and at its destination. -/
def migrationSource (s : State) (t : EmbTable) (m : Migration) (i : Nat) : Nat :=
  (dirEntry s t m.slot m.block).addr * 64 + i * rowBytesOf t

def migrationTarget (t : EmbTable) (m : Migration) (i : Nat) : Nat :=
  (if m.demote then storageVa t m.slot m.block else frameVa t m.frame) + i * rowBytesOf t

/-- R330: rows of a block. -/
def rowsOfBlock (t : EmbTable) (blk : Nat) : Nat := blockBytes t blk / max (rowBytesOf t) 1

/-- R330 step 2: the copy goes on for so many rows. -/
def copyRows (t : EmbTable) (m : Migration) (n : Nat) (s : State) : State :=
  onTable t.handle (fun x => { x with
    migrations := x.migrations.map (fun y =>
      if y = m then { y with copied := decide (rowsOfBlock t m.block ≤ m.pointer + n), pointer := m.pointer + n } else y) })
    (copySession t.session (migrationSource s t m m.pointer) (migrationTarget t m m.pointer) (n * rowBytesOf t) s)

/-- MIGRATION_COPY (R330 step 2): the copy of a block reaches its end. -/
def execMigrationCopy (table : Word) (block : Nat) (s : State) : Host.Outcome State Fault Refusal :=
  .next (match tableOf s table with
    | none => s
    | some t =>
      match t.migrations.find? (fun m => m.block = block && !m.copied) with
      | none => s
      | some m =>
        if (governing s table m.slot).isNone ∨ s.power.state ≠ .active then s
        else copyRows t m (rowsOfBlock t m.block - m.pointer) s)

/-- R330 step 2: how far the copies of a slot's blocks have come when a merge meets them is not stated: a free number of rows short of
the block's end (log entry 53); none moves while the migrations are paused (R332). -/
def advanceCopies (h : Word) (k : Nat) (s : State) : State :=
  match tableOf s h with
  | none => s
  | some t =>
    if (governing s h k).isNone then s
    else
      (t.migrations.filter (fun m => m.slot = k && !m.copied)).foldl
        (fun x m => takeFresh 1 (copyRows t m ((freshValue x).toNat % max (rowsOfBlock t m.block - m.pointer) 1) x)) s

/-- R330 step 4: hold entries are replayed in arrival order. -/
def drainHold (t : EmbTable) (m : Migration) (s : State) : State :=
  m.hold.foldl (fun x row =>
    let i := row - m.block * 2 ^ t.log2Block
    copySession t.session (migrationSource s t m i) (migrationTarget t m i) (rowBytesOf t) x) s

/-- R330 steps 4 to 6: at a boundary of the governing plan, every migration of its slots whose copy is done is drained and
flips. -/
def flipMigrations (h : Word) (k : Nat) (s : State) : State :=
  match tableOf s h with
  | none => s
  | some t =>
    (t.migrations.filter (fun m => m.slot = k && m.copied)).foldl (fun x m => finishMigration h m (drainHold t m x)) s

end Sys2Proof.Machine
end

