-- ==== Sys2Proof/Machine/Embed.lean ====
section
/-!
DEFINITION. GATHER, POOL_GATHER and SCATTER_UPDATE: lookups, staged contributions, their merge into table rows, and the
lookups and contributions that cross the fabric (R307 to R309, R315 to R327).
-/

namespace Sys2Proof.Machine

/-! ## Messages that carry data (R408, R410) -/

/-- The head of a payload: destination rank, phase (a row, a barrier's number) and whole length. The manual gives no
layout (DESIGN CHOICE, log entry 52). -/
def dataHead (dst phase total : Nat) : List Byte := record 32 [(0, dst), (64, phase % 2 ^ 64), (128, total)]

/-- A contribution cut into payloads of at most 4,096 bytes. -/
def dataPieces (dst phase : Nat) (bs : List Byte) : List (List Byte) :=
  (cut 4064 bs.length bs).map (fun x => dataHead dst phase bs.length ++ x)

/-- The pieces of a contribution leave for a module in the flow of an operator. -/
def sendData (dest : Nat) (epoch : BitVec 32) (cls kind : Nat) (c : Ctx) (op rank dst phase : Nat) (bs : List Byte) : Ctx :=
  let s := (dataPieces dst phase bs).foldl
    (fun x pl => sendFlow (fabricMessage x dest epoch cls kind (BitVec.ofNat 32 c.p.nextStep) op rank pl) x) c.s
  { c with s := s }

/-- A piece that arrives joins its contribution. -/
def takeArrival (kind op src : Nat) (pl : List Byte) (l : List Arrival) : List Arrival :=
  let dst := field pl 0 16
  let phase := field pl 64 64
  let same (a : Arrival) : Bool :=
    a.kind = kind && a.op = op && a.phase = phase && a.src = src && a.dst = dst && decide (a.data.length < a.total)
  if l.any same then l.map (fun a => if same a then { a with data := a.data ++ pl.drop 32 } else a)
  else l ++ [{ kind := kind, op := op, phase := phase, src := src, dst := dst, total := field pl 128 64, data := pl.drop 32 }]

/-- A contribution that has arrived whole. -/
def arrivedData (o : OpenStep) (kind op phase src dst : Nat) : Option (List Byte) :=
  ((o.inbox.find? (fun a => decide (a.kind = kind ∧ a.op = op ∧ a.phase = phase ∧ a.src = src ∧ a.dst = dst ∧
    a.total ≤ a.data.length))).map (·.data))

/-- What this module has itself done in an operator is marked in the step's inbox. -/
def markKind : Nat := 0x100

def isMarked (o : OpenStep) (op phase src dst : Nat) : Bool := (arrivedData o markKind op phase src dst).isSome

def mark (op phase src dst : Nat) (c : Ctx) : Ctx :=
  { c with o := { c.o with inbox := c.o.inbox ++
      [{ kind := markKind, op := op, phase := phase, src := src, dst := dst, total := 0, data := [] }] } }

/-! ## Parameters (R316, R318, R322) -/

/-- The fields that the three operators share. -/
structure EmbedParams where
  idx : FieldRef
  binding : Nat
  count : Nat
  poisonFail : Bool
  hasWeight : Bool
  weight : FieldRef

def embedParams (op : Operator) (e : OpEntry) : EmbedParams :=
  let var : Bool := pf e 47 1 = 1 && op ≠ .gather
  let n := pf e 64 32
  { idx := { off := pf e 0 32, fmt := fieldFmt (pf e 32 8), pbit := pf e 40 6, hasP := pf e 46 1 = 1, var := var, count := n }
    binding := pf e 48 6
    count := n
    poisonFail := pf e 54 1 = 1 && op ≠ .scatterUpdate
    hasWeight := match op with
      | .gather => false
      | .poolGather => pf e 55 1 = 1
      | _ => pf e 56 1 = 1
    weight := { off := pf e 128 32, fmt := .fp32, pbit := pf e 160 6, hasP := pf e 166 1 = 1, var := var, count := n } }

/-- The table of a binding. -/
def boundTable (s : State) (b : PlanBinary) (k : Nat) : Option EmbTable :=
  (b.binds[k]?).bind (fun x => tableOf s x.table)

/-- R315, R316, R318, R322, R338: the checks that the three operators share. -/
def embedFields (s : State) (b : PlanBinary) (op : Operator) (e : OpEntry) : Bool :=
  let i := slotDesc b e.in0
  let p := embedParams op e
  ventRowsOk b e && decide (p.binding < b.binds.length) && refOk i p.idx && (p.idx.fmt = .int32 || p.idx.fmt = .u64) &&
    (!p.hasWeight || refOk i p.weight) &&
    (match boundTable s b p.binding with
    | none => false
    | some t => !t.hashed || p.idx.fmt = .u64)

/-- R316: OUT_FORMAT of a GATHER: none for RAW. -/
def gatherFormat (e : OpEntry) : Option Format := if pf e 56 8 = 0 then none else formatOf (pf e 56 8)

/-- R316, R338: PLAN_LOAD's checks of a GATHER entry. -/
def gatherCheck (s : State) (b : PlanBinary) (e : OpEntry) : Option Status :=
  let i := slotDesc b e.in0
  let o := slotDesc b e.out0
  let n := pf e 64 32
  let fmtOk : Bool := pf e 56 8 = 0 || gatherFormat e = some .fp32 || gatherFormat e = some .bf16
  let shape (t : EmbTable) : Bool := match gatherFormat e with
    | none => o.format = .u8 && dimOf o 0 = n * rowBytesOf t
    | some f => o.format = f && dimOf o 0 = n * t.rowElems
  firstFail
    [ need (slotsOk e .wanted .optional .unused .wanted .optional && e.params.length = 32 && pf e 47 1 = 0 && pf e 55 1 = 0 &&
        pf e 128 128 = 0 && fmtOk && o.rank = 2 && rowCount o = rowCount i && (n = 0 || embedFields s b .gather e) &&
        (boundTable s b (pf e 48 6)).any shape &&
        (e.out1.isNone || maskOk (slotDesc b e.out1) (rowCount i * n))) .badPlan,
      need (decide (1 ≤ n ∧ n ≤ 256)) .limit ]

/-- R318, R338: PLAN_LOAD's checks of a POOL_GATHER entry. -/
def poolGatherCheck (s : State) (b : PlanBinary) (e : OpEntry) : Option Status :=
  let i := slotDesc b e.in0
  let o := slotDesc b e.out0
  let n := pf e 64 32
  let f := formatOf (pf e 96 8)
  firstFail
    [ need (slotsOk e .wanted .optional .unused .wanted .optional && e.params.length = 48 && pf e 56 2 ≠ 3 && pf e 58 6 = 0 &&
        pf e 104 24 = 0 && pf e 167 25 = 0 && pf e 224 160 = 0 && (f = some .fp32 || f = some .bf16) &&
        (pf e 55 1 = 0 || pf e 56 2 ≠ 2) && o.rank = 2 && some o.format = f && rowCount o = rowCount i &&
        (n = 0 || embedFields s b .poolGather e) &&
        (boundTable s b (pf e 48 6)).any (fun t => dimOf o 0 = t.rowElems) &&
        (e.out1.isNone || maskOk (slotDesc b e.out1) (rowCount i))) .badPlan,
      need (decide (1 ≤ n ∧ n ≤ 65536)) .limit ]

/-- R322, R338: PLAN_LOAD's checks of a SCATTER_UPDATE entry. A MAX_CONTRIB out of range is LIMIT (DESIGN CHOICE, log
entry 53). -/
def scatterUpdateCheck (s : State) (b : PlanBinary) (e : OpEntry) : Option Status :=
  let i := slotDesc b e.in0
  let v := slotDesc b e.in2
  let n := pf e 64 32
  let k := pf e 48 6
  firstFail
    [ need (slotsOk e .wanted .optional .wanted .unused .unused && e.params.length = 48 && pf e 57 7 = 0 && pf e 96 32 = 0 &&
        pf e 167 25 = 0 && pf e 256 128 = 0 && (n = 0 || embedFields s b .scatterUpdate e) &&
        ((b.binds[k]?).map (·.update)).getD false && v.rank = 2 && (v.format = .fp32 || v.format = .bf16) &&
        rowCount v = rowCount i && (boundTable s b k).any (fun t =>
          dimOf v 0 = (if pf e 54 1 = 1 then n else 1) * t.rowElems && (pf e 55 1 = 0 || t.hashed))) .badPlan,
      need (decide (1 ≤ n ∧ n ≤ 65536)) .limit,
      need (decide (1 ≤ pf e 192 64 ∧ pf e 192 64 ≤ 2 ^ 32)) .limit ]

/-! ## Lookups (R307 to R309, R320, R321) -/

/-- What a lookup finds; `missing` when sectors of the index are still to come from the twin (R457). -/
inductive Found where
  | row (r : Nat)
  | dropped
  | poisoned
  | missing (sectors : List (Nat × Nat))
  deriving DecidableEq, Repr

/-- R308: entry `i` of an ID index held in bytes: ID, ROW and VALID. -/
def indexEntry (read : Nat → Nat → List Byte) (i : Nat) : Nat × Nat × Bool :=
  let b := read (64 + 16 * i) 16
  (field b 0 64, field b 64 40, field b 127 1 = 1)

/-- R309: the probe of an index, with the sectors it visits: `bad` tells what is found at a sector that cannot be read. -/
def probeIndex (read : Nat → Nat → List Byte) (bad : Nat → Option Found) (rows n id : Nat) :
    Nat → Nat → List Nat → Found × Nat × List Nat
  | 0, i, seen => (.dropped, i, seen)
  | fuel + 1, i, seen =>
    let sector := (64 + 16 * i) / 64
    let seen' := if seen.head? = some sector then seen else sector :: seen
    match bad sector with
    | some x => (x, i, seen')
    | none =>
      let e := indexEntry read i
      if !e.2.2 then (.dropped, i, seen')
      else if e.1 = id then ((if rows ≤ e.2.1 then .dropped else .row e.2.1), i, seen')
      else probeIndex read bad rows n id fuel ((i + 1) % n) seen'

/-- R309: where a probe starts. -/
def indexStart (t : EmbTable) (id : Nat) : Nat :=
  (fm64 0 (natLE id 8)).toNat / 2 ^ (64 - t.log2Index)

/-- The ID index of a slot as it stood at the start of the step. -/
def viewIndex (c : Ctx) (t : EmbTable) (k : Nat) (off n : Nat) : List Byte :=
  viewRead c.s c.o.view c.p.session ((slotOf t k).indexVa.toNat + off) n

/-- R447, R448, R457: what stands against reading table bytes: poison; sectors of a bypassed position that the twin is to deliver,
with their session addresses; or nothing. Outside an OUT window of a PAIRED module such a sector is as poisoned. -/
def tableReadable (c : Ctx) (va len : Nat) : Option Found :=
  if sessionPoisoned c.s c.o.view c.p.session va len then some .poisoned
  else
    let first := va / 64
    let sectors := (List.range' first ((va + len - 1) / 64 + 1 - first)).flatMap (fun v =>
      (sessionGone c.s c.o.view c.p.session (v * 64) 1).map (fun x => (v * 64, x)))
    let missing := sectors.filter (fun e => !c.o.fetched.contains e.2)
    if missing = [] then none
    else if missing.all (fun e => (outWindowAt c.s c.p.session e.1).isSome) then some (.missing missing)
    else some .poisoned

/-- What stands against reading a sector of the index. -/
def badIndex (c : Ctx) (t : EmbTable) (k sector : Nat) : Option Found :=
  tableReadable c ((slotOf t k).indexVa.toNat + 64 * sector) 64

/-- The same at the merge and for another module, which ask the twin for nothing (DESIGN CHOICE, log entry 102). -/
def lostIndex (c : Ctx) (t : EmbTable) (k sector : Nat) : Option Found :=
  if sessionBad c.s c.o.view c.p.session ((slotOf t k).indexVa.toNat + 64 * sector) 64 then some .poisoned else none

/-- R448, R457: the sectors that the twin is to deliver are asked for. -/
def askTwin (sid : Nat) (l : List (Nat × Nat)) (s : State) : State :=
  l.foldl (fun x e => match outWindowAt x sid e.1 with
    | some w => startRefetch w e.1 e.2 x
    | none => x) s

/-- R309, R320: an index or ID resolved, with the index sectors that were read. -/
def resolveKey (c : Ctx) (t : EmbTable) (k : Nat) (fmt : Format) (code : Nat) : Found × Nat :=
  if t.hashed then
    let r := probeIndex (viewIndex c t k) (badIndex c t k) t.rows (2 ^ t.log2Index) code (2 ^ t.log2Index) (indexStart t code) []
    (r.1, r.2.2.length)
  else if (fmt = .int32 && decide (signed 32 code < 0)) || decide (t.rows ≤ code) then (.dropped, 0)
  else (.row code, 0)

/-- R307: session VA of a row, and its directory entry. -/
def rowVa (s : State) (t : EmbTable) (k row : Nat) : Nat × DirEntry :=
  let blk := row / 2 ^ t.log2Block
  let de := dirEntry s t k blk
  (de.addr * 64 + (row - blk * 2 ^ t.log2Block) * rowBytesOf t, de)

/-- R40, R306: the dies whose Vents read or update a row: those of every granule that it lies in. -/
def rowDies (s : State) (t : EmbTable) (k row : Nat) : List Nat :=
  let va := (rowVa s t k row).1
  let last := va + rowBytesOf t - 1
  ((List.range (last / 2048 - va / 2048 + 1)).map (fun i => dieOfSession s t.session (max va ((va / 2048 + i) * 2048)))).dedup

/-- R306: a row read or update counts on each die whose Vents make it. -/
def countAccess (t : EmbTable) (k row : Nat) (s : State) : State :=
  let dies := rowDies s t k row
  let up (die n : Nat) : Nat := if dies.contains die then min 0xFFFFFFFF (n + 1) else n
  setDir t k (row / 2 ^ t.log2Block) (fun e => { e with count0 := up 0 e.count0, count1 := up 1 e.count1 }) s

/-- R24, R327: the fabric owner of a row of a SHARDED table in a multi-module plan, as the step's owner tables give it; none for a
row of this module. -/
def remoteOwner (c : Ctx) (t : EmbTable) (row : Nat) : Option (Option FabricEntry) :=
  if !t.sharded ∨ c.p.bin.fabricRanks ≤ 1 then none
  else match sget c.o.view.owner.fabric (t.fabricMapBase + row / 64) with
    | none => some none
    | some e => if e.module = c.s.fabric.moduleId then none else some (some e)

/-- R25, R307: where the step finds a row. -/
def stepRow (c : Ctx) (t : EmbTable) (k row : Nat) : Nat × DirEntry := rowVa (stepState c) t k row

/-- The bytes of a row as the step began. -/
def rowBytesAt (c : Ctx) (t : EmbTable) (k row : Nat) : List Byte :=
  viewRead c.s c.o.view c.p.session (stepRow c t k row).1 (rowBytesOf t)

/-- R457: a row lies, in part or whole, on a bypassed position. -/
def rowGone (c : Ctx) (t : EmbTable) (k row : Nat) : Bool :=
  sessionGone c.s c.o.view c.p.session (stepRow c t k row).1 (rowBytesOf t) != []

/-- R321: a row as an update or another module reads it: its bytes, or none where it is poisoned or on a bypassed position. -/
def readRow (c : Ctx) (t : EmbTable) (k row : Nat) : Option (List Byte) :=
  if sessionBad c.s c.o.view c.p.session (stepRow c t k row).1 (rowBytesOf t) then none else some (rowBytesAt c t k row)

/-- The row lies in the far tier. -/
def rowFar (c : Ctx) (va : Nat) : Bool :=
  ((sessionPieces (stepState c) c.p.session needNothing va 1).getD []).any (fun p => decide (nearEnd ≤ p.1))

/-- The table and slot that the operator's binding holds. -/
def opTable (c : Ctx) (k : Nat) : Option (EmbTable × Nat) :=
  match boundTable c.s c.p.bin k, c.o.view.slots.getD k none with
  | some t, some v => some (t, v)
  | _, _ => none

/-- R26, R36: storage, index and hot-area pages at operator start, by the step's translations and owners. -/
def tablePagesOk (c : Ctx) (t : EmbTable) (k : Nat) (write : Bool) : Bool :=
  let n : Need := { read := true, write := write, table := true, weights := false }
  slotPagesOk (stepState c) t n k &&
    (t.frames.filter (fun f => f.2.1 = k && (dirEntry (stepState c) t k f.2.2).hot)).all (fun f =>
      (sessionPieces (stepState c) t.session n (frameVa t f.1) (blockBytes t f.2.2)).isSome)

/-- R36, R449: what is checked before the operator begins. -/
def embedPre (op : Operator) (c : Ctx) : Option Status :=
  match wholeOperands c with
  | some st => some st
  | none =>
    match opTable c (embedParams op c.e).binding with
    | none => some .access
    | some (t, k) => if tablePagesOk c t k (op = .scatterUpdate) then none else some .access

/-! ## One index (R317, R319 to R321) -/

/-- What an operator's lookups leave beside their rows: counters of R337, a row that is not here yet, and what fails. -/
structure Tally where
  c : Ctx
  wait : Bool
  fail : Option Status

/-- A lookup's part in the counters. -/
def tallyBumps (l : List (Nat × Nat)) (t : Tally) : Tally := { t with c := bumps l t.c }

/-- The row of another module: its bytes if they have come, a request if none was sent (R327, R411); a block with no valid owner entry
is ACCESS (R23). -/
def remoteRow (t : EmbTable) (row : Nat) (own : Option FabricEntry) (y : Tally) : Option (Option (List Byte)) × Tally :=
  match arrivedData y.c.o kindRowData y.c.op row 0 0 with
  | some d => (some (if d.headD 0 = 0 then some ((d.drop 8).take (rowBytesOf t)) else none), y)
  | none =>
    match own with
    | none => (none, { y with fail := some (y.fail.getD .access) })
    | some e =>
      if isMarked y.c.o y.c.op row 1 0 then (none, { y with wait := true })
      else if !routeValid y.c.s e.module then (none, { y with fail := some (y.fail.getD .fabricTimeout) })
      else
        let rank := selfRank (stepState y.c) y.c.p.bin.fabricRanks
        (none, { y with
          wait := true
          c := mark y.c.op row 1 0
            (sendData e.module e.epoch classRequest kindRowRead y.c y.c.op rank 0 row []) })

/-- R317, R320, R321: one index looked up: its row's bytes, or none where it is dropped or poisoned. -/
def lookupOne (t : EmbTable) (k : Nat) (p : EmbedParams) (code : Nat) (y : Tally) : Option (List Byte) × Tally :=
  let r := resolveKey y.c t k p.idx.fmt code
  let y1 := tallyBumps [(1, 1), (9, r.2)] y
  let poisoned (z : Tally) : Option (List Byte) × Tally :=
    if p.poisonFail then (none, { z with fail := some (z.fail.getD .poisoned) })
    else (none, { tallyBumps [(6, 1)] z with c := countPoisoned 1 (tallyBumps [(6, 1)] z).c })
  let awaits (l : List (Nat × Nat)) : Option (List Byte) × Tally :=
    (none, { y1 with wait := true, c := { y1.c with s := askTwin y1.c.p.session l y1.c.s } })
  match r.1 with
  | .dropped => (none, { tallyBumps [(5, 1)] y1 with c := countDrops 1 (tallyBumps [(5, 1)] y1).c })
  | .poisoned => poisoned y1
  | .missing l => awaits l
  | .row row =>
    match remoteOwner y1.c t row with
    | some own =>
      let q := remoteRow t row own y1
      match q.1 with
      | some (some bs) => (some bs, tallyBumps [(2, 1)] q.2)
      | some none => poisoned q.2
      | none => (none, q.2)
    | none =>
      let va := stepRow y1.c t k row
      match tableReadable y1.c va.1 (rowBytesOf t) with
      | some (.missing l) => awaits l
      | some _ => poisoned y1
      | none =>
        let y2 := tallyBumps [(2, 1), (3, bitOf va.2.hot), (4, bitOf (rowFar y1.c va.1))] y1
        (some (rowBytesAt y1.c t k row), { y2 with c := { y2.c with s := countAccess t k row y2.c.s } })

/-- Several indices in order. -/
def lookupAll (t : EmbTable) (k : Nat) (p : EmbedParams) (codes : List Nat) (y : Tally) : List (Option (List Byte)) × Tally :=
  codes.foldl (fun acc v => let r := lookupOne t k p v acc.2; (acc.1 ++ [r.1], r.2)) ([], y)

/-- R126: a looked-up row holds a malformed cell. -/
def badRow (t : EmbTable) (bs : List Byte) : Bool := rowBad t.rowFormat (bs.take (rowData t)) t.rowElems

/-- The values of a row. -/
def tableVals (t : EmbTable) (bs : List Byte) : List FVal := rowVals t.rowFormat (bs.take (rowData t)) t.rowElems

/-- How an operator that looks rows up ends: a row still on its way holds it, with nothing counted until it completes. -/
def endLookups (c0 : Ctx) (y : Tally) : OpEnd :=
  match y.fail with
  | some st => .fail st
  | none =>
    if y.wait then
      .hold { c0 with s := { y.c.s with rowDir := c0.s.rowDir }, o := { c0.o with inbox := y.c.o.inbox } }
    else .done y.c

/-! ## GATHER (R316, R317) -/

/-- R317: the segment of one index; a format that is the table's own is copied. -/
def gatherSegment (e : OpEntry) (t : EmbTable) (bs : Option (List Byte)) : List Byte :=
  match gatherFormat e, bs with
  | none, some b => b
  | none, none => zeros (rowBytesOf t)
  | some f, some b => if f = t.rowFormat then b.take (rowData t) else codesBytes f ((tableVals t b).map (elemCode f))
  | some f, none => zeros (t.rowElems * elemBytes f)

/-- GATHER (R317): a row that is not selected gives zero segments (DESIGN CHOICE, log entry 53). -/
def gatherBody (c : Ctx) : OpEnd :=
  let p := embedParams .gather c.e
  match opTable c p.binding with
  | none => .fail .access
  | some (t, k) =>
    let i := c.e.in0.getD 0
    let out := (rowsOf c i).foldl
      (fun (acc : List (List (Option (List Byte))) × Tally) r =>
        let row := rowRead c i r
        if !maskBit c c.e.in1 r then (acc.1 ++ [List.replicate p.count none], acc.2)
        else if !present row p.idx then (acc.1 ++ [List.replicate p.count none], tallyBumps [(7, p.count)] acc.2)
        else
          let q := lookupAll t k p (refCodes row p.idx) acc.2
          (acc.1 ++ [q.1], q.2)) ([], { c := c, wait := false, fail := none })
    let rows := out.1
    let bad : Bool := gatherFormat c.e ≠ none && rows.any (fun l => l.any (fun b => (b.map (badRow t)).getD false))
    if bad then .fail .implausible
    else
      let c1 := rowsWriteAt (c.e.out0.getD 0)
        ((rowsOf c i).zip (rows.map (fun l => (l.map (gatherSegment c.e t)).flatten))) out.2.c
      let c2 := match c.e.out1 with
        | none => c1
        | some m => maskWrite m (spreadRows c i (fun _ => List.replicate p.count false) (rows.map (fun l => l.map (·.isSome)))).flatten c1
      endLookups c { out.2 with c := c2 }

/-- GATHER (R316). -/
def execGather (plan : Word) (op : Nat) (f : ReadFaults) (s : State) : Host.Outcome State Fault Refusal :=
  .next (runOp plan op .gather f (embedPre .gather) gatherBody s)

/-! ## POOL_GATHER (R318, R319) -/

/-- R319: the maximum of two values; a NaN wins. -/
def nanMax (x y : FVal) : FVal := if isNan x ∨ isNan y then .nan else if fLt x y then y else x

/-- R318, R319: the weights of a bag: 1.0 where the field is absent. -/
def bagWeights (p : EmbedParams) (row : List Byte) (n : Nat) : List FVal :=
  if !p.hasWeight ∨ !present row p.weight then List.replicate n fOne
  else
    let at_ := p.weight.off + (if p.weight.var then 8 else 0)
    (rowCodes .fp32 (slice row at_ (4 * n)) n).map ofF32

/-- R319: the bag reduced in FP32. -/
def reduceBag (reduce : Nat) (hasWeight : Bool) (l : List (List FVal × FVal)) : Option (List FVal) :=
  let vs := l.map (fun (v, w) =>
    let x := v.map (roundVal fmt32)
    if hasWeight then x.map (fun y => fMul y w) else x)
  match vs with
  | [] => none
  | v :: rest =>
    let acc := rest.foldl (fun a x => List.zipWith (if reduce = 2 then nanMax else fAdd) a x) v
    some (if reduce = 1 then acc.map (fun x => fDiv x (roundVal fmt32 (intVal l.length))) else acc)

/-- POOL_GATHER (R319): a row that is not selected gives zeros and validity 0 (DESIGN CHOICE, log entry 53). -/
def poolGatherBody (c : Ctx) : OpEnd :=
  let p := embedParams .poolGather c.e
  match opTable c p.binding with
  | none => .fail .access
  | some (t, k) =>
    let i := c.e.in0.getD 0
    let o := c.e.out0.getD 0
    let out := (rowsOf c i).foldl
      (fun (acc : List (Option (List FVal)) × Bool × Tally) r =>
        let row := rowRead c i r
        if !maskBit c c.e.in1 r then (acc.1 ++ [none], acc.2)
        else
          let here := present row p.idx
          let codes := if here then refCodes row p.idx else []
          let q := lookupAll t k p codes (tallyBumps [(7, bitOf (!here))] acc.2.2)
          let got := (q.1.zip (bagWeights p row codes.length)).filterMap (fun (b, w) => b.map (fun x => (x, w)))
          let red := reduceBag (pf c.e 56 2) p.hasWeight (got.map (fun (x, w) => (tableVals t x, w)))
          (acc.1 ++ [red], acc.2.1 || got.any (fun x => badRow t x.1), tallyBumps [(8, bitOf red.isNone)] q.2))
      ([], false, { c := c, wait := false, fail := none })
    if out.2.1 then .fail .implausible
    else
      let nans := ((out.1.filterMap id).map (fun v => v.countP isNan)).sum
      let rows := out.1.map (fun v => v.getD (List.replicate t.rowElems fZero))
      let c1 := countNans nans (((rowsOf c i).zip rows).foldl (fun x e => valuesWrite o e.1 e.2 x) out.2.2.c)
      let c2 := match c.e.out1 with
        | none => c1
        | some m => maskWrite m (spreadRows c i (fun _ => false) (out.1.map (·.isSome))) c1
      endLookups c { out.2.2 with c := c2 }

/-- POOL_GATHER (R318). -/
def execPoolGather (plan : Word) (op : Nat) (f : ReadFaults) (s : State) : Host.Outcome State Fault Refusal :=
  .next (runOp plan op .poolGather f (embedPre .poolGather) poolGatherBody s)

/-! ## SCATTER_UPDATE (R322, R323) -/

/-- R327: a contribution as it crosses the fabric. The manual gives no layout (DESIGN CHOICE, log entry 52). -/
def contributionBytes (g : Staged) : List Byte :=
  ([g.key.step, g.key.rank, g.key.core, g.key.pos, g.key.op, g.key.j, g.target].flatMap (fun n => natLE n 8)) ++
    (g.values.flatMap (fun v => natLE (v.getD 0).toNat 4))

/-- A contribution read from a message. -/
def parseContribution (op : Nat) (b : List Byte) : Staged :=
  let w (i : Nat) : Nat := leNat (slice b (8 * i) 8)
  { op := op
    key := { step := w 0, rank := w 1, core := w 2, pos := w 3, op := w 4, j := w 5 }
    target := w 6
    admits := false
    ident := []
    values := (rowCodes .fp32 (b.drop 56) ((b.length - 56) / 4)).map (fun x => some (BitVec.ofNat 64 x)) }

/-- R323: contributions of an operator staged on this module so far in the step, those of other modules among them. -/
def stagedBy (o : OpenStep) (op : Nat) : Nat := o.staged.countP (fun g => g.op = op)

/-- R320 to R323: one contribution of index `j` of a row. -/
def stageOne (t : EmbTable) (k : Nat) (p : EmbedParams) (r j code : Nat) (u : List FVal) (y : Tally) : Tally :=
  let c := y.c
  let admits : Bool := pf c.e 55 1 = 1
  let f := resolveKey c t k p.idx.fmt code
  let g : Staged :=
    { op := c.op, key := mergeKey c (c.e.in0.getD 0) r j, target := code, admits := admits, ident := []
      values := u.map (fun x => some (BitVec.ofNat 64 (toF32 x))) }
  let stage (x : Ctx) : Ctx := bump 1 1 { x with o := { x.o with staged := x.o.staged ++ [g] } }
  match f.1 with
  | .dropped => if admits then { y with c := stage c } else { y with c := countDrops 1 (bump 5 1 c) }
  | .poisoned => if admits then { y with c := stage c } else { y with c := countPoisoned 1 (bump 6 1 c) }
  | .missing l => { y with wait := true, c := { c with s := askTwin c.p.session l c.s } }
  | .row row =>
    match remoteOwner c t row with
    | none => { y with c := stage c }
    | some none => { y with fail := some (y.fail.getD .access) }
    | some (some e) =>
      if !routeValid c.s e.module then { y with fail := some (y.fail.getD .fabricTimeout) }
      else
        { y with c := bump 4 1 (bump 1 1
            (sendData e.module e.epoch classRequest kindUpdate c c.op g.key.rank 0 (stagedBy c.o c.op) (contributionBytes g))) }

/-- SCATTER_UPDATE (R322, R323): an absent index field contributes nothing. -/
def scatterUpdateBody (c : Ctx) : OpEnd :=
  let p := embedParams .scatterUpdate c.e
  match opTable c p.binding with
  | none => .fail .access
  | some (t, k) =>
    let i := c.e.in0.getD 0
    let y := (rowsOf c i).foldl
      (fun (y : Tally) r =>
        let row := rowRead c i r
        if !maskBit c c.e.in1 r ∨ !present row p.idx then y
        else
          let codes := refCodes row p.idx
          let ws := bagWeights p row codes.length
          let vec := rowValues c (c.e.in2.getD 0) r
          (codes.zip ws).zipIdx.foldl
            (fun (z : Tally) (x, j) =>
              let v := if pf c.e 54 1 = 1 then (vec.drop (j * t.rowElems)).take t.rowElems else vec
              stageOne t k p r j x.1 (v.map (fun a => if p.hasWeight then fMul a x.2 else a)) z) y)
      ({ c := c, wait := false, fail := none } : Tally)
    match y.fail with
    | some st => .fail st
    | none =>
      if y.wait then .hold { c with s := { c.s with twin := y.c.s.twin } }
      else if pf c.e 192 64 < stagedBy y.c.o c.op then .fail .limit else .done y.c

/-- SCATTER_UPDATE (R322). -/
def execScatterUpdate (plan : Word) (op : Nat) (f : ReadFaults) (s : State) : Host.Outcome State Fault Refusal :=
  .next (runOp plan op .scatterUpdate f (embedPre .scatterUpdate) scatterUpdateBody s)

/-! ## The merge (R323 to R326) -/

/-- R324: the sum of contributions from left to right. -/
def sumAll (us : List (List FVal)) : List FVal :=
  match us with
  | [] => []
  | u :: rest => rest.foldl (List.zipWith fAdd) u

/-- R324: MAX over one element; NaN contributions are skipped, and a stored NaN stays (DESIGN CHOICE, log entry 54). -/
def maxElem (w : FVal) (us : List FVal) : FVal :=
  us.foldl (fun a u => if isNan u ∨ isNan a then a else if fLt a u then u else a) w

/-- R324: a row's new data and accumulator, and the NaN contributions that MAX skips. -/
def mergeRow (t : EmbTable) (w : List FVal) (g : FVal) (us : List (List FVal)) : List FVal × FVal × Nat :=
  let s := sumAll us
  let num (n : Nat) : FVal := roundVal fmt32 (intVal n)
  match t.merge with
  | 0 => (List.zipWith fAdd w s, g, 0)
  | 1 => (List.zipWith (fun x y => fAdd x (fDiv y (num us.length))) w s, g, 0)
  | 2 => (w.zipIdx.map (fun (x, i) => maxElem x (us.map (fun u => u.getD i fZero))), g, (us.map (fun u => u.countP isNan)).sum)
  | 3 => (us.getLastD w, g, 0)
  | _ =>
    let sq := match s.map (fun x => fMul x x) with
      | [] => fZero
      | a :: rest => rest.foldl fAdd a
    let g1 := fAdd g (fDiv sq (num t.rowElems))
    let d := fAdd (fSqrt g1) (ofF32 t.eps.toNat)
    if fEq d fZero then (w, g, 0)
    else (List.zipWith (fun x y => fSub x (fDiv (fMul (ofF32 t.lr.toNat) y) d)) w s, g1, 0)

/-- R324: a row repacked; each cell keeps its variant. -/
def repackRow (t : EmbTable) (old : List Byte) (w : List FVal) : List Byte :=
  if isCell t.rowFormat then
    ((chunks 64 (ceilDiv w.length 64) w).zipIdx.map (fun (xs, i) =>
      let tag := field (slice old (i * cellBytes t.rowFormat) (cellBytes t.rowFormat)) 8 4
      packCell t.rowFormat (hasAsym t.rowFormat && tag = cellTag t.rowFormat + 1) xs)).flatten
  else packRow t.rowFormat false w

/-- R304: a whole row of ROW_BYTES. -/
def wholeRow (t : EmbTable) (data : List Byte) (g : FVal) : List Byte :=
  let acc := if t.merge = 4 then zeros (accumulatorOff t - data.length) ++ natLE (toF32 g) 4 else []
  let bs := data ++ acc
  bs ++ zeros (rowBytesOf t - bs.length)

/-- The merge of one table slot at work: its index under admission, the rows to write, and the context with its counters. -/
structure TableMerge where
  c : Ctx
  /-- index bytes that admission has changed, by offset -/
  index : Memory
  /-- rows with their contributions in order, and whether the row is new -/
  rows : List (Nat × Bool × List Staged)
  /-- row, the operator it counts for, and its new bytes -/
  writes : List (Nat × Nat × List Byte)
  malformed : Bool

/-- The operator's counters for a contribution. -/
def bumpFor (g : Staged) (l : List (Nat × Nat)) (c : Ctx) : Ctx := { bumps l { c with op := g.op } with op := c.op }

/-- R325: the index under admission. -/
def mergeIndex (t : EmbTable) (k : Nat) (m : TableMerge) (off n : Nat) : List Byte :=
  let base := viewIndex m.c t k off n
  base.zipIdx.map (fun (b, i) => ((m.index.find? (fun x => x.1 = off + i)).map (·.2)).getD b)

/-- R325: an entry or header field of the index written; zero bytes are kept too. -/
def putIndex (off : Nat) (bs : List Byte) (m : TableMerge) : TableMerge := { m with index := overWrite m.index off bs }

/-- A contribution joins the row it updates. -/
def joinRow (row : Nat) (new_ : Bool) (g : Staged) (m : TableMerge) : TableMerge :=
  if m.rows.any (fun x => x.1 = row) then
    { m with rows := m.rows.map (fun x => if x.1 = row then (row, x.2.1, x.2.2 ++ [g]) else x) }
  else { m with rows := m.rows ++ [(row, new_, [g])] }

/-- R325: a contribution that is refused. -/
def refuse (g : Staged) (poison : Bool) (m : TableMerge) : TableMerge :=
  if poison then { m with c := countPoisoned 1 (bumpFor g [(8, 1), (6, 1)] m.c) }
  else { m with c := countDrops 1 (bumpFor g [(8, 1), (5, 1)] m.c) }

/-- R309, R323, R325: where a contribution goes: to a row, admitted to a new one, or refused. -/
def placeContribution (t : EmbTable) (k : Nat) (m : TableMerge) (g : Staged) : TableMerge :=
  if !t.hashed then joinRow g.target false g m
  else
    let n := 2 ^ t.log2Index
    let read := mergeIndex t k m
    let r := probeIndex read (lostIndex m.c t k) t.rows n g.target n (indexStart t g.target) []
    match r.1 with
    | .row row => joinRow row false g m
    | .poisoned | .missing _ => refuse g true m
    | .dropped =>
      let e := indexEntry read r.2.1
      let next := leNat (read 16 8)
      let entries := leNat (read 8 8)
      if (lostIndex m.c t k 0).isSome then refuse g true m
      else if e.2.2 ∨ t.rows ≤ next ∨ 3 * n < 4 * (entries + 1) ∨ !g.admits then refuse g false m
      else
        let m1 := putIndex (64 + 16 * r.2.1) (record 16 [(0, g.target), (64, next), (127, 1)]) m
        let m2 := putIndex 8 (natLE (entries + 1) 8 ++ natLE (next + 1) 8) m1
        joinRow next true g { m2 with c := bumpFor g [(7, 1)] m2.c }

/-- R323, R324, R326, R457: one row's read-modify-write; an update of a row on a bypassed position is dropped, under LAST too. -/
def applyRow (t : EmbTable) (k : Nat) (m : TableMerge) (x : Nat × Bool × List Staged) : TableMerge :=
  let gs := x.2.2
  match (if x.2.1 ∧ !rowGone m.c t k x.1 then some (wholeRow t (repackRow t [] (List.replicate t.rowElems fZero)) fZero) else readRow m.c t k x.1) with
  | none =>
    if t.merge = 3 ∧ !rowGone m.c t k x.1 then
      let w := (gs.getLast?.map (fun g => g.values.map (fun v => ofF32 (v.getD 0).toNat))).getD []
      finish m gs x.1 (wholeRow t (repackRow t [] w) fZero) (w.countP isNan)
    else { m with c := gs.foldl (fun c g => countPoisoned 1 (bumpFor g [(6, 1)] c)) m.c }
  | some old =>
    if badRow t old ∧ t.merge ≠ 3 then { m with malformed := true }
    else
      let us := gs.map (fun g => g.values.map (fun v => ofF32 (v.getD 0).toNat))
      let acc := ofF32 (leNat (slice old (accumulatorOff t) 4))
      let r := mergeRow t ((tableVals t old).map (roundVal fmt32)) acc us
      finish m gs x.1 (wholeRow t (repackRow t old r.1) r.2.1) (r.1.countP isNan + r.2.2)
where
  /-- The row is written, and counted for the operator of its first contribution. -/
  finish (m : TableMerge) (gs : List Staged) (row : Nat) (bs : List Byte) (nans : Nat) : TableMerge :=
    { m with
      writes := m.writes ++ [(row, (gs.head?.map (·.op)).getD 0, bs)]
      c := countNans nans (match gs.head? with
        | none => m.c
        | some g => bumpFor g [(2, 1)] m.c) }

/-- R323 to R326: the contributions to one table slot merged: the rows and index bytes to write, or a malformed row. -/
def mergeTable (t : EmbTable) (k : Nat) (gs : List Staged) (c : Ctx) : TableMerge :=
  let l := gs.mergeSort (fun a b => keyLe a.key b.key)
  let m := l.foldl (placeContribution t k)
    { c := c, index := [], rows := [], writes := [], malformed := false }
  m.rows.foldl (applyRow t k) m

/-- R330 step 3, R331: a row written below the copy pointer of a migration enters the hold queue of its Vent; a 65th entry
of one Vent aborts the migration. -/
def holdRow (t : EmbTable) (k row step : Nat) (s : State) : State × Bool :=
  let blk := row / 2 ^ t.log2Block
  match (tableOf s t.handle).bind (fun x => x.migrations.find? (fun m => m.slot = k && m.block = blk && !m.clean)) with
  | none => (s, false)
  | some m =>
    if m.pointer ≤ row - blk * 2 ^ t.log2Block then (s, false)
    else
      let vent (r : Nat) : Nat :=
        positionOf s ((((sessionPieces s t.session needNothing (rowVa s t k r).1 1).bind List.head?).map (·.1)).getD 0)
      if 64 ≤ m.hold.countP (fun r => vent r = vent row) then (abortMigrations t.handle step (fun x => x = m) s, false)
      else
        (onTable t.handle (fun x => { x with
          migrations := x.migrations.map (fun y => if y = m then { y with hold := y.hold ++ [row] } else y) }) s, true)

/-- R323, R330, R426: a merged row written at the place its block has, marked dirty there, and mirrored at its storage. -/
def writeRow (t : EmbTable) (k step row : Nat) (bs : List Byte) (s : State) : State × Bool :=
  let va := rowVa s t k row
  let s1 := countAccess t k row (sessionWrite t.session va.1 bs s)
  let s2 := if va.2.hot then setDir t k (row / 2 ^ t.log2Block) (fun e => { e with dirty := true }) s1 else s1
  let s3 := mirrorRange t.session ((slotOf t k).storeVa.toNat + row * rowBytesOf t) (rowBytesOf t) s2
  holdRow t k row step s3

/-- The bytes of an index that changed, written; runs of neighbouring bytes go as one write. -/
def writeIndex (t : EmbTable) (k : Nat) (cells : List Host.Cell) (s : State) : State :=
  (cells.map (fun x => x.1 / 8)).dedup.foldl
    (fun x w =>
      let va := (slotOf t k).indexVa.toNat + 8 * w
      let old := sessionRead x t.session va 8
      storeSession t.session va (old.zipIdx.map (fun (b, i) => ((cells.find? (fun z => z.1 = 8 * w + i)).map (·.2)).getD b)) x) s

/-! ## The owner's side of a sharded table (R327) -/

/-- R327: a row request at its owner: the row is read as the step began and goes back to the Vent that asked. -/
def serveRow (m : Message) (h : Word) (s : State) : State :=
  match ctxOf s h m.opIndex.toNat with
  | none => s
  | some c =>
    match opTable c (embedParams c.e.op c.e).binding with
    | none => s
    | some (t, k) =>
      let row := field m.payload 64 64
      let d : List Byte := match readRow c t k row with
        | none => natLE 1 8
        | some bs => natLE 0 8 ++ bs
      (sendData m.src.toNat m.srcEpoch classResponse kindRowData { c with s := countAccess t k row s }
        m.opIndex.toNat (selfRank (stepState c) c.p.bin.fabricRanks) 0 row d).s

end Sys2Proof.Machine
end

