-- ==== Sys2Proof/Machine/Barrier.lean ====
section
/-!
DEFINITION. Messages between ranks and the step barrier, which the flip, the start of an operator and BARRIER use (R416 to
R418).
-/

namespace Sys2Proof.Machine

/-! ## Between ranks (R416) -/

/-- Ranks of a plan. -/
def planRanks (c : Ctx) : Nat := max 1 c.p.bin.fabricRanks

/-- R416: the ranks this module holds, ascending. -/
def heldRanks (c : Ctx) : List Nat := if c.p.bin.fabricRanks ≤ 1 then [0] else ranksHeld (stepState c) c.p.bin.fabricRanks

/-- The rank under which this module contributes what belongs to no block (R416). -/
def ownRank (c : Ctx) : Nat := if c.p.bin.fabricRanks ≤ 1 then 0 else selfRank (stepState c) c.p.bin.fabricRanks

/-- A contribution placed in the step's own inbox. -/
def deposit (kind op phase src dst : Nat) (bs : List Byte) (c : Ctx) : Ctx :=
  { c with o := { c.o with inbox := c.o.inbox ++
      [{ kind := kind, op := op, phase := phase, src := src, dst := dst, total := bs.length, data := bs }] } }

/-- R416: a contribution from one rank to another: by message, or kept where this module holds both. -/
def sendRank (kind op phase src dst : Nat) (bs : List Byte) (c : Ctx) : Ctx :=
  if (heldRanks c).contains dst then deposit kind op phase src dst bs c
  else match sget c.o.view.owner.ranks dst with
    | none => c
    | some e => sendData e.module e.epoch classCollective kind c op src dst phase bs

/-! ## The barrier (R417) -/

/-- R417: the ranks below a rank in the tree. -/
def treeChildren (n r : Nat) : List Nat := [2 * r + 1, 2 * r + 2].filter (fun x => decide (x < n))

/-- What ranks carry to the barrier, as bytes and back. The manual gives no layout (DESIGN CHOICE, log entry 52). -/
def shareBytes (l : List (Nat × List Byte)) : List Byte := l.flatMap (fun e => natLE e.1 4 ++ natLE e.2.length 4 ++ e.2)

def parseShares : Nat → List Byte → List (Nat × List Byte)
  | 0, _ => []
  | fuel + 1, b =>
    if b.length < 8 then []
    else
      let n := field b 32 32
      (field b 0 32, slice b 8 n) :: parseShares fuel (b.drop (8 + n))

/-- The release that a rank has. -/
def releaseOf (o : OpenStep) (op phase r : Nat) : Option (List Byte) :=
  (o.inbox.find? (fun a => decide (a.kind = kindRelease ∧ a.op = op ∧ a.phase = phase ∧ a.dst = r ∧ a.total ≤ a.data.length))).map
    (·.data)

/-- R417: a rank's subtree has arrived: it tells its parent, or at rank 0 the release begins. -/
def arriveRank (op phase : Nat) (own : Nat → List Byte) (answer : List (Nat × List Byte) → List Byte) (c : Ctx) (r : Nat) : Ctx :=
  if isMarked c.o op phase r 0x10 then c
  else match (treeChildren (planRanks c) r).mapM (fun ch => arrivedData c.o kindArrive op phase ch r) with
    | none => c
    | some ds =>
      let all := (r, own r) :: ds.flatMap (fun d => parseShares d.length d)
      let c1 := mark op phase r 0x10 c
      if r = 0 then deposit kindRelease op phase 0 0 (answer all) c1
      else sendRank kindArrive op phase r ((r - 1) / 2) (shareBytes all) c1

/-- R417: a released rank releases the ranks below it. -/
def releaseRank (op phase : Nat) (c : Ctx) (r : Nat) : Ctx :=
  match releaseOf c.o op phase r with
  | none => c
  | some d =>
    if isMarked c.o op phase r 0x11 then c
    else (treeChildren (planRanks c) r).foldl (fun x ch => sendRank kindRelease op phase r ch d x) (mark op phase r 0x11 c)

/-- R417: the barrier goes on as far as it can; once every rank of this module is released it gives what RELEASE carried. -/
def barrierRun (op phase : Nat) (own : Nat → List Byte) (answer : List (Nat × List Byte) → List Byte) (c : Ctx) :
    Ctx × Option (List Byte) :=
  if c.p.bin.fabricRanks ≤ 1 then (c, some (answer [(0, own 0)]))
  else
    let rs := heldRanks c
    let c1 := rs.reverse.foldl (arriveRank op phase own answer) c
    let c2 := rs.foldl (releaseRank op phase) c1
    (c2, if rs.all (fun r => (releaseOf c2.o op phase r).isSome) then releaseOf c2.o op phase (rs.headD 0) else none)

/-- R420, R375, R391: the ranks compare what they bring at operator start: every rank brings the same bytes. -/
def agree (l : List (Nat × List Byte)) : List Byte :=
  [if l.all (fun e => e.2 = (l.headD (0, [])).2) then 1 else 0]

/-- R420: start agreement of an operator: none while ranks are missing, else whether they agree. -/
def startAgreement (bring : List Byte) (c : Ctx) : Ctx × Option Bool :=
  let r := barrierRun c.op 0 (fun _ => bring) agree c
  (r.1, r.2.map (fun d => decide (d.headD 0 = 1)))

/-- BARRIER (R418). -/
def barrierBody (c : Ctx) : OpEnd :=
  let r := barrierRun c.op 0 (fun _ => []) (fun _ => []) c
  if r.2.isSome then .done r.1 else .hold r.1

/-- R418: PLAN_LOAD's checks of a BARRIER entry. -/
def barrierCheck (_b : PlanBinary) (e : OpEntry) : Option Status :=
  need (slotsOk e .unused .unused .unused .unused .unused && e.params = []) .badPlan

/-- BARRIER (R418). -/
def execBarrier (plan : Word) (op : Nat) (f : ReadFaults) (s : State) : Host.Outcome State Fault Refusal :=
  .next (runOp plan op .barrier f wholeOperands barrierBody s)

end Sys2Proof.Machine
end

