-- ==== Sys2Proof/Machine/ActFns.lean ====
section
/-!
DEFINITION. The functions of ACTIVATE and their derivatives: the exact value to far more than the stated bound, and one of
the FP32 values that the bound admits (R353), and the correctly rounded reciprocal square root (R354).
-/

namespace Sys2Proof.Machine

/-! ## Values within an absolute bound -/

/-- FP32 values in order, −0 and +0 sharing place 0. -/
def placeOf (neg : Bool) (code : Nat) : Int := if neg then -(code : Int) else code

def ofPlace (k : Int) : FVal :=
  let code : Nat := min 0x7F800000 k.natAbs
  ofF32 (code + bitOf (decide (k < 0)) * 2 ^ 31)

/-- The exponent of the last place of a magnitude in FP32. -/
def lastPlace (m : Nat) : Nat := max (m.log2 - 23) (quantum fmt32)

/-- A magnitude cut, or raised, to FP32; what lies above the largest finite value is the infinity's place. -/
def cutMag (m : Nat) : Nat := m / 2 ^ lastPlace m * 2 ^ lastPlace m
def raiseMag (m : Nat) : Nat := ceilDiv m (2 ^ lastPlace m) * 2 ^ lastPlace m
def placeOfMag (m : Nat) : Nat := if maxF32 < m then 0x7F800000 else magCode fmt32 m

/-- The greatest place whose value is not above a number of units, and the least not below it. -/
def floorPlace (u : Int) : Int := if 0 ≤ u then placeOfMag (min (cutMag u.natAbs) maxF32) else -(placeOfMag (raiseMag u.natAbs) : Int)
def ceilPlace (u : Int) : Int := if 0 ≤ u then placeOfMag (raiseMag u.natAbs) else -(placeOfMag (min (cutMag u.natAbs) maxF32) : Int)

/-- A result stated within an absolute bound of an exact one, both in fixed point: the bound leaves the value free. -/
def withinAbs (fn a b : Nat) (exact bound : Int) : FVal :=
  let lo := ceilPlace ((exact - bound) * 2 ^ 914)
  let hi := floorPlace ((exact + bound) * 2 ^ 914)
  if hi < lo then f32OfFx exact else ofPlace (lo + (Config.approx fn a b % (hi - lo + 1).toNat : Nat))

/-! ## Fixed-point functions -/

/-- e^x for a fixed-point `x` of at most 400. -/
def fxExp (x : Int) : Int :=
  let k := (2 * x + fxLn2) / (2 * fxLn2)
  let m := expSeries (x - k * fxLn2) 60 0 fxOne
  if 0 ≤ k then m * 2 ^ k.toNat else m / 2 ^ (-k).toNat

/-- A quotient in fixed point. -/
def fxDiv (a b : Int) : Int := a * fxOne / b

/-- An argument brought within ±400, beyond which every function here stands at its limit. -/
def fxClamp (x : Int) : Int := max (-400 * (fxOne : Int)) (min (400 * (fxOne : Int)) x)

/-- 1 / (1 + e^−x). -/
def fxSigmoid (x : Int) : Int :=
  let y := fxClamp x
  if 0 ≤ y then fxDiv fxOne (fxOne + fxExp (-y)) else
    let e := fxExp y
    fxDiv e (fxOne + e)

/-- tanh x. -/
def fxTanh (x : Int) : Int := 2 * fxSigmoid (2 * fxClamp x) - fxOne

/-- A decimal constant `n / d` in fixed point. -/
def fxConst (n d : Nat) : Int := (n * fxOne / d : Nat)

/-- R353: the inner argument of GELU_TANH and its derivative. -/
def geluArg (x : Int) : Int := fxMul (fxConst 797885 1000000) (x + fxMul (fxConst 44715 1000000) (fxMul x (fxMul x x)))
def geluSlope (x : Int) : Int := fxMul (fxConst 797885 1000000) (fxOne + fxMul (fxConst 134145 1000000) (fxMul x x))

/-- R353: the bound 2^−21 × max(1, |x|), and 2^−22. -/
def boundWide (x : Int) : Int := max (fxOne : Int) (x.natAbs : Int) / 2 ^ 21
def boundFlat : Int := (fxOne : Int) / 2 ^ 22

/-! ## ACTIVATE's functions (R353) -/

/-- R353: a function at an FP32 input: FUNC 0 to 5. -/
def actFn (fn : Nat) (v : FVal) : FVal :=
  let x := fxOf v
  let free (exact bound : Int) : FVal := withinAbs (16 + fn) (toF32 v) 0 exact bound
  if isNan v then .nan
  else match fn with
    | 0 => v
    | 1 => if fLt fZero v then v else fZero
    | 2 =>
      if fLe (intVal 10) v then v else if fLe v (intVal (-10)) then fZero
      else free (fxMul x (fxOne + fxTanh (geluArg x)) / 2) (boundWide x)
    | 3 => (match v with
      | .inf a => if a then fZero else v
      | _ => free (fxMul x (fxSigmoid x)) (boundWide x))
    | 4 => (match v with
      | .inf a => if a then fZero else fOne
      | _ => free (fxSigmoid x) boundFlat)
    | _ =>
      if fLe (dyadic 19 1) v then fOne else if fLe v (dyadic (-19) 1) then intVal (-1) else free (fxTanh x) boundFlat

/-- R353: a derivative at an FP32 input: FUNC 1 to 5; 0 at an infinity. -/
def actSlope (fn : Nat) (v : FVal) : FVal :=
  let x := fxOf v
  let free (exact bound : Int) : FVal := withinAbs (32 + fn) (toF32 v) 0 exact bound
  match v with
  | .nan => .nan
  | .inf a => if fn = 1 ∧ !a then fOne else fZero
  | _ =>
    match fn with
    | 1 => if fLt fZero v then fOne else fZero
    | 2 =>
      let t := fxTanh (geluArg x)
      free ((fxOne + t) / 2 + fxMul (fxMul x (fxOne - fxMul t t)) (geluSlope x) / 2) (boundWide x)
    | 3 =>
      let g := fxSigmoid x
      free (g + fxMul x (fxMul g (fxOne - g))) (boundWide x)
    | 4 =>
      let g := fxSigmoid x
      free (fxMul g (fxOne - g)) boundFlat
    | _ =>
      let t := fxTanh x
      free (fxOne - fxMul t t) boundFlat

/-- R354: 1 / √v, correctly rounded to FP32. -/
def rsqrt32 (v : FVal) : FVal :=
  match v with
  | .nan => .nan
  | .inf a => if a then .nan else fZero
  | .fin a m =>
    if m = 0 then .inf a
    else if a then .nan
    else
      let n := 2 ^ (3222 + 256)
      let q := (n / m).sqrt
      roundTo fmt32 false (2 * q + (if q * q * m = n then 0 else 1)) (2 ^ 129)

end Sys2Proof.Machine
end

