-- ==== Sys2Proof/Machine/Dense.lean ====
section
/-!
DEFINITION. Dense compute: DENSE with its weight relay, ACTIVATE, NORM, INTERACT, ATTEND_SHORT, SOFTMAX, DENSE_GRAD and
OPT_STEP (chapter 12, R339 to R363; R420 for the relay).
-/

namespace Sys2Proof.Machine

/-! ## Shared checks -/

/-- A BLOCKED operand with whole rows in one of some formats. -/
def residentOk (d : Descriptor) (fs : List Format) : Bool := d.space = .blocked && rowLen d = dimOf d 0 && fs.contains d.format

/-- A resident operand and a result with the same rows. -/
def residentPair (i o : Descriptor) (fi fo : List Format) : Bool := residentOk i fi && residentOk o fo && rowCount i = rowCount o

/-- An FP32 vector of RANK 1. -/
def vectorOk (d : Descriptor) (n : Nat) : Bool := d.format = .fp32 && d.rank = 1 && dimOf d 0 = n

/-- The session pages of a descriptor that are mapped at PLAN_LOAD lie in the near tier. -/
def nearOnly (s : State) (sid k : Nat) (b : PlanBinary) : Bool :=
  match sessionSpan (descOf b k) with
  | none => true
  | some (va, len) => (piecesOf va len).all (fun p =>
      ((sessionPieces s sid needNothing p.1 1).getD []).all (fun q => decide (q.1 < nearEnd)))

/-- A descriptor is carried by edges with WHOLE = 1 alone. -/
def wholeEdges (b : PlanBinary) (k : Nat) : Bool := b.edges.all (fun e => e.desc ≠ k || e.whole)

/-- A descriptor is carried by an edge. -/
def onEdge (b : PlanBinary) (k : Nat) : Bool := b.edges.any (fun e => e.desc = k)

/-- R359, R360: a tensor in SESSION near-tier pages or on an edge with WHOLE = 1. -/
def nearOrEdge (s : State) (sid : Nat) (b : PlanBinary) (v : Option Nat) : Option Status :=
  let k := v.getD b.descs.length
  firstFail
    [ need (wholeEdges b k && (onEdge b k || (descOf b k).space = .session)) .badPlan,
      need (onEdge b k || nearOnly s sid k b) .badPlan ]

/-- R359, R360: the bytes that a near-tier operand of the session touches lie in near-tier pages when the operator starts; the status of
others is the model's choice (log entry 55). -/
def nearAtStart (c : Ctx) (k : Nat) : Bool :=
  let d := cDesc c k
  d.space ≠ .session || onEdge c.p.bin k || (touchedRows false d).all (fun t =>
    ((sessionPieces (stepState c) c.p.session needNothing t.1.toNat t.2).getD []).all (fun q => decide (q.1 < nearEnd)))

/-- The checks at the start of an operator with near-tier operands. -/
def nearOperands (ks : List (Option Nat)) (c : Ctx) : Option Status :=
  match wholeOperands c with
  | some st => some st
  | none => if (ks.filterMap id).all (nearAtStart c) then none else some .access

/-- The FP32 values of a vector operand. -/
def vectorVals (c : Ctx) (k : Nat) : List FVal := (rowsOf c k).flatMap (rowValues c k)

/-- NaN elements of a result row, as it is counted: an A8 row with a NaN counts whole (R182, R351). -/
def rowNans (f : Format) (xs : List FVal) : Nat :=
  if f = .a8 then (if xs.any isNan then xs.length else 0) else xs.countP isNan

/-- R119: a result row in its format; the elements whose codes `moved` gives are moved as they stand, where the format does not change. -/
def movedRow (src dst : Format) (moved : List (Option Nat)) (xs : List FVal) : List Byte :=
  if src ≠ dst ∨ isPacked dst then packRow dst false xs
  else codesBytes dst (xs.zipIdx.map (fun (x, j) => (moved.getD j none).getD (elemCode dst x)))

/-- A result row of IN0's rows written, with its NaN count. -/
def putValues (k r : Nat) (nans : Nat) (moved : List (Option Nat)) (xs : List FVal) (c : Ctx) : Ctx :=
  countNans nans (rowWrite k r (movedRow (cDesc c (c.e.in0.getD 0)).format (cDesc c k).format moved xs) c)

/-- Every row of IN0 taken to OUT0: `f` gives the values, the NaN count and the counters, and `moved` the codes that are copied. -/
def eachRowMoving (c : Ctx) (moved : Nat → List (Option Nat)) (f : Nat → List FVal → List FVal × Nat × List (Nat × Nat)) : Ctx :=
  let i := c.e.in0.getD 0
  (rowsOf c i).foldl
    (fun x r =>
      let y := f r (rowValues c i r)
      bumps y.2.2 (putValues (c.e.out0.getD 0) r y.2.1 (moved r) y.1 x)) c

/-- Every row of IN0 taken to OUT0, none of its elements copied. -/
def eachRow (c : Ctx) (f : Nat → List FVal → List FVal × Nat × List (Nat × Nat)) : Ctx := eachRowMoving c (fun _ => []) f

/-! ## Residency and fragments (R340, R342, R343) -/

/-- R340: the cores that hold rows of a descriptor. -/
def rowCores (p : Plan) (k : Nat) : List Nat := ((blockOwners p k).map (·.2)).dedup

/-- R340: the residency of a pass over a descriptor's rows. -/
def residency (p : Plan) (k : Nat) : Nat := (((rowCores p k).map (fun c => ceilDiv (rowsAt p k c) 12)).max?).getD 0

/-- R342: the activation format and the width of the fragments for a weight format. -/
def densePairing (w : Format) : Option (Format × Nat) :=
  match w with
  | .tn2 | .tn5 => some (.a8, 96)
  | .b4 | .b3 => some (.a8, 48)
  | .b8 | .b6 => some (.a8, 24)
  | .e4m3 => some (.e4m3, 24)
  | .bf16 => some (.bf16, 6)
  | _ => none

/-- R342: bytes read per fragment. -/
def fragmentBytes (w : Format) : Nat :=
  ((densePairing w).map (·.2)).getD 0 * (if isCell w then cellBytes w else 64 * elemBytes w)

/-- R362: the counters of a pass of F fragments; slots are those of the cores that hold rows (DESIGN CHOICE, log entry
55). -/
def passCounts (c : Ctx) (k fragments bytes : Nat) : List (Nat × Nat) :=
  let rows := rowCount (cDesc c k)
  [(1, fragments), (2, bytes), (3, fragments * rows),
    (4, fragments * (12 * residency c.p k * (rowCores c.p k).length - rows))]

/-! ## Arithmetic (R344) -/

/-- One level of the pairwise sum. -/
def pairUp : List FVal → List FVal
  | a :: b :: l => fAdd a b :: pairUp l
  | l => l

/-- R344: the sum of 64 products through 6 levels; what is missing is zero (R343). -/
def pairwiseSum (l : List FVal) : FVal :=
  ((pairUp (pairUp (pairUp (pairUp (pairUp (pairUp (l ++ List.replicate (64 - l.length) fZero))))))).headD fZero)

/-- R344: the float path over a row of activations and a row of weights. -/
def floatDot (a w : List FVal) : FVal :=
  let n := ceilDiv a.length 64
  ((chunks 64 n (a.zip w)).map (fun l => pairwiseSum (l.map (fun x => fMul x.1 x.2)))).foldl fAdd fZero

/-- R344: the integer path over the codes of an A8 row and the cells of a weight row. -/
def cellDot (f : Format) (codes : List Int) (scale : FVal) (cells : List (List Byte × Nat)) : FVal :=
  ((chunks 64 cells.length codes).zip cells).foldl
    (fun acc (as, cell) =>
      let p := ((as.zipIdx.map (fun (a, i) => a * cellCode f cell.1 i)).sum) + cellOffset f cell.1 * as.sum
      let t := if cellNan cell.1 then .nan else fMul (intVal p) (.fin false (cellScale cell.1))
      fAdd acc (fMul t scale)) fZero

/-- The codes of an A8 row. -/
def a8Codes (row : List Byte) (n : Nat) : List Int := (List.range n).map (fun i => signed 8 (leNat (slice row (4 + i) 1)))

/-- R344: every output of one row of activations before the bias. -/
def denseRow (fa fw : Format) (k : Nat) (row : List Byte) (weights : List (List Byte)) : List FVal :=
  if isCell fw then
    let codes := a8Codes row k
    let scale := ofF32 (leNat (slice row 0 4))
    weights.map (fun w => cellDot fw codes scale (cellsOf fw w k))
  else
    let a := rowVals fa row k
    weights.map (fun w => floatDot a (rowVals fw w k))

/-! ## DENSE (R349 to R351) -/

def denseRelay (e : OpEntry) : Bool := pf e 0 1 = 1
def denseRank (e : OpEntry) : Nat := pf e 8 12

/-- The rank that PLAN_LOAD takes for the module's own. -/
def ownRankAt (s : State) (b : PlanBinary) : Nat :=
  if b.fabricRanks ≤ 1 then 0 else selfRank s b.fabricRanks

/-- R349, R350, R342: PLAN_LOAD's checks of a DENSE entry. -/
def denseCheck (s : State) (b : PlanBinary) (e : OpEntry) : Option Status :=
  let i := slotDesc b e.in0
  let w := slotDesc b e.in1
  let o := slotDesc b e.out0
  let k := dimOf w 0
  let n := dimOf w 1
  let pair := densePairing w.format
  firstFail
    [ need (slotsOk e .wanted .wanted .optional .wanted .unused && e.params.length = 16 && pf e 5 3 = 0 && pf e 20 108 = 0 &&
        decide (pf e 2 3 ≤ 5) && w.rank = 2) .badPlan,
      need (decide (k ≤ 65536 ∧ n ≤ 65536)) .limit,
      need ((pair.map (·.1)) = some i.format) .unsupported,
      need (residentPair i o [.a8, .e4m3, .bf16] [.fp32, .bf16, .e4m3, .a8] && dimOf i 0 = k && dimOf o 0 = n &&
        (e.in2.isNone || vectorOk (slotDesc b e.in2) n) && (pf e 1 1 = 0 || o.format = .fp32) &&
        (if denseRelay e then w.base = 0 && denseRank e ≠ ownRankAt s b
          else w.space = .session || w.space = .staging)) .badPlan ]

/-- R36, R345: WEIGHTS and READ on the pages of weights. -/
def needWeights : Need := { read := true, write := false, table := false, weights := true }

/-- R36, R449: page and poison checks of an operator whose IN1 holds weights; `none` reads no weights from memory. -/
def weightPre (weights : Bool) (c : Ctx) : Option Status :=
  let c1 : Ctx := if weights then c else { c with e := { c.e with in1 := none } }
  match wholeOperands c1 with
  | some st => some st
  | none => if weights ∧ !descPagesOk c (c.e.in1.getD 0) needWeights then some .access else none

/-- The stored rows of the weights. -/
def weightRows (c : Ctx) : List (List Byte) :=
  let k := c.e.in1.getD 0
  (rowsOf c k).map (fun r => (rowRead c k r).take (rowDataBytes (cDesc c k).format (dimOf (cDesc c k) 0)))

/-- R126: a weight row holds a malformed cell. -/
def weightsBad (d : Descriptor) (rows : List (List Byte)) : Bool := rows.any (fun w => rowBad d.format w (dimOf d 0))

/-- R351: one row of outputs: bias, accumulation, function. -/
def denseOutputs (c : Ctx) (weights : List (List Byte)) (bias : Option (List FVal)) (r : Nat) : List FVal :=
  let i := c.e.in0.getD 0
  let o := c.e.out0.getD 0
  let w := cDesc c (c.e.in1.getD 0)
  let acc := denseRow (cDesc c i).format w.format (dimOf w 0) (rowRead c i r) weights
  let acc1 := match bias with
    | none => acc
    | some b => (acc.zip b).map (fun (x : FVal × FVal) => fAdd x.1 x.2)
  let acc2 := if par c 1 1 = 1 then (acc1.zip (rowValues c o r)).map (fun (x : FVal × FVal) => fAdd x.1 x.2) else acc1
  acc2.map (actFn (par c 2 3))

/-- R344, R351, R362: the pass of a DENSE over its weights. -/
def densePass (weights : List (List Byte)) (c : Ctx) : OpEnd :=
  let k := c.e.in1.getD 0
  let w := cDesc c k
  if weightsBad w weights then .fail .implausible
  else
    let bias := c.e.in2.map (vectorVals c)
    let f := (cDesc c (c.e.out0.getD 0)).format
    let fragments := ceilDiv (dimOf w 0) 64 * ceilDiv (dimOf w 1) (((densePairing w.format).map (·.2)).getD 1)
    let c1 := eachRow c (fun r _ =>
      let ys := denseOutputs c weights bias r
      (ys, rowNans f ys, []))
    .done (bumps (passCounts c (c.e.in0.getD 0) fragments (fragments * fragmentBytes w.format)) c1)

/-! ### The weight relay (R345, R420) -/

/-- What a rank brings to the start of a DENSE: RELAY, RELAY_RANK, FORMAT, K and N. The manual gives no layout (DESIGN
CHOICE, log entry 55). -/
def relayShare (c : Ctx) : List Byte :=
  let w := cDesc c (c.e.in1.getD 0)
  natLE (bitOf (denseRelay c.e)) 1 ++ natLE (denseRank c.e) 2 ++ natLE (formatCode w.format) 1 ++ natLE (dimOf w 0) 4 ++
    natLE (dimOf w 1) 4

/-- R420: every subscriber agrees with its source in FORMAT, K and N. -/
def relayAgrees (l : List (Nat × List Byte)) : Bool :=
  l.all (fun e => field e.2 0 8 = 0 || (match sget l (field e.2 8 16) with
    | none => true
    | some x => x.drop 3 = e.2.drop 3))

/-- R420: the start of a DENSE in a plan of several ranks: agreement, and what every rank brought. -/
def relayAnswer (l : List (Nat × List Byte)) : List Byte :=
  bitOf (relayAgrees l) :: shareBytes (l.mergeSort (fun a b => decide (a.1 ≤ b.1)))

/-- R420: a source and its subscribers in ascending rank: the order of the tree. -/
def relayTree (l : List (Nat × List Byte)) (source : Nat) : List Nat :=
  source :: (l.filter (fun e => field e.2 0 8 = 1 && field e.2 8 16 = source)).map (·.1)

/-- R420: a rank forwards the stream to the ranks below it. -/
def relayForward (tree : List Nat) (rank : Nat) (bs : List Byte) (c : Ctx) : Ctx :=
  if isMarked c.o c.op 0 rank 0x16 then c
  else
    (treeChildren tree.length (tree.findIdx (· = rank))).foldl
      (fun x ch => sendRank kindRelay c.op 0 rank (tree.getD ch 0) bs x) (mark c.op 0 rank 0x16 c)

/-- DENSE (R351, R420): in a plan of several ranks the start agreement comes first, and a source streams its weights. -/
def denseBody (c : Ctx) : OpEnd :=
  if c.p.bin.fabricRanks ≤ 1 then
    if denseRelay c.e then .hold c else densePass (weightRows c) c
  else
    let b := barrierRun c.op 0 (fun _ => relayShare c) relayAnswer c
    match b.2 with
    | none => .hold b.1
    | some d =>
      let l := parseShares d.length (d.drop 1)
      let own := ownRank c
      let w := cDesc c (c.e.in1.getD 0)
      if d.headD 0 = 0 then .fail .implausible
      else if denseRelay c.e then
        let tree := relayTree l (denseRank c.e)
        let parent := tree.getD ((tree.findIdx (· = own) - 1) / 2) 0
        match arrivedData b.1.o kindRelay c.op 0 parent own with
        | none => .hold b.1
        | some bs => densePass (cut (rowDataBytes w.format (dimOf w 0)) bs.length bs) (relayForward tree own bs b.1)
      else
        let tree := relayTree l own
        let rows := weightRows c
        densePass rows (if tree.length = 1 then b.1 else relayForward tree own rows.flatten b.1)

/-- DENSE (R349). -/
def execDense (plan : Word) (op : Nat) (f : ReadFaults) (s : State) : Host.Outcome State Fault Refusal :=
  .next (runOp plan op .dense f (fun c => weightPre (!denseRelay c.e) c) denseBody s)

/-! ## ACTIVATE (R352, R353) -/

/-- R352: PLAN_LOAD's checks of an ACTIVATE entry; a span past the end of the row is BAD_PLAN (DESIGN CHOICE, log entry
55). -/
def activateCheck (b : PlanBinary) (e : OpEntry) : Option Status :=
  let i := slotDesc b e.in0
  let g := slotDesc b e.in1
  let o := slotDesc b e.out0
  let grad : Bool := pf e 3 1 = 1
  let n := dimOf i 0
  firstFail
    [ need (slotsOk e .wanted (if grad then .wanted else .unused) .unused .wanted .unused && e.params.length = 16 &&
        pf e 4 28 = 0 && pf e 96 32 = 0 && decide (pf e 0 3 ≤ 5) &&
        residentPair i o [.fp32, .bf16] [.fp32, .bf16, .a8] && dimOf o 0 = n &&
        (!grad || (pf e 0 3 ≠ 0 && o.format ≠ .a8 && residentOk g [i.format] && g.dims = i.dims)) &&
        decide (pf e 32 32 < n ∧ pf e 32 32 + pf e 64 32 ≤ n)) .badPlan ]

/-- ACTIVATE (R352, R353); elements outside the span are moved (R119), under GRAD those of IN1 (DESIGN CHOICE, log entry 55). -/
def activateBody (c : Ctx) : OpEnd :=
  let fn := par c 0 3
  let grad : Bool := par c 3 1 = 1
  let first := par c 32 32
  let n := dimOf (cDesc c (c.e.in0.getD 0)) 0
  let last := if par c 64 32 = 0 then n else first + par c 64 32
  let o := cDesc c (c.e.out0.getD 0)
  let from_ := if grad then c.e.in1.getD 0 else c.e.in0.getD 0
  let moved (r : Nat) : List (Option Nat) :=
    (rowElems c from_ r).zipIdx.map (fun (x, i) => if first ≤ i ∧ i < last then none else some x)
  .done (eachRowMoving c moved (fun r xs =>
    let gs := if grad then rowValues c (c.e.in1.getD 0) r else xs
    let ys := (xs.zip gs).zipIdx.map (fun ((x, g), i) =>
      if first ≤ i ∧ i < last then (if grad then fMul g (actSlope fn x) else actFn fn x) else g)
    let nans := ((xs.zip gs).zipIdx.filter (fun ((x, g), i) => decide (first ≤ i ∧ i < last) && (isNan x || isNan g))).length
    (ys, if o.format = .a8 ∧ ys.any isNan then n else nans, [(1, last - first)])))

/-- ACTIVATE (R352). -/
def execActivate (plan : Word) (op : Nat) (f : ReadFaults) (s : State) : Host.Outcome State Fault Refusal :=
  .next (runOp plan op .activate f wholeOperands activateBody s)

/-! ## NORM (R354) -/

/-- R354: PLAN_LOAD's checks of a NORM entry. -/
def normCheck (b : PlanBinary) (e : OpEntry) : Option Status :=
  let i := slotDesc b e.in0
  let o := slotDesc b e.out0
  let d := dimOf i 0
  let affine : Bool := pf e 1 1 = 1
  firstFail
    [ need (slotsOk e .wanted (if affine then .wanted else .unused) .unused .wanted .unused && e.params.length = 16 &&
        pf e 2 30 = 0 && pf e 64 64 = 0 && residentPair i o [.fp32, .bf16] [.fp32, .bf16] && dimOf o 0 = d &&
        (!affine || vectorOk (slotDesc b e.in1) (if pf e 0 1 = 0 then 2 * d else d))) .badPlan,
      need (decide (d ≤ 16384)) .limit ]

/-- R354: one row normalised, and whether its variance term is zero; `beta` is absent under RMS. -/
def normRow (layer : Bool) (eps : FVal) (gamma : List FVal) (beta : Option (List FVal)) (xs : List FVal) : List FVal × Bool :=
  let d := intVal xs.length
  let mu := if layer then fDiv (xs.foldl fAdd fZero) d else fZero
  let q := xs.foldl (fun q x => fAdd q (fMul (fSub x mu) (fSub x mu))) fZero
  let v := fAdd (fDiv q d) eps
  let zero : Bool := fEq v fZero
  let g := rsqrt32 v
  let scaled := if zero then xs.map (fun _ => fZero) else (xs.zip gamma).map (fun x => fMul (fMul (fSub x.1 mu) g) x.2)
  match beta with
  | none => (scaled, zero)
  | some b => (if zero then b else (scaled.zip b).map (fun x => fAdd x.1 x.2), zero)

/-- NORM (R354). -/
def normBody (c : Ctx) : OpEnd :=
  let layer : Bool := par c 0 1 = 0
  let n := dimOf (cDesc c (c.e.in0.getD 0)) 0
  let affine := c.e.in1.map (vectorVals c)
  let gamma := (affine.map (List.take n)).getD (List.replicate n fOne)
  let beta := if layer then some ((affine.map (List.drop n)).getD (List.replicate n fZero)) else none
  .done (eachRow c (fun _ xs =>
    if xs.any (fun x => isNan x || x = .inf true || x = .inf false) then (xs.map (fun _ => .nan), n, [(1, 1)])
    else
      let y := normRow layer (ofF32 (par c 32 32)) gamma beta xs
      (y.1, 0, [(1, 1), (2, bitOf y.2)])))

/-- NORM (R354). -/
def execNorm (plan : Word) (op : Nat) (f : ReadFaults) (s : State) : Host.Outcome State Fault Refusal :=
  .next (runOp plan op .norm f wholeOperands normBody s)

/-! ## INTERACT (R355) -/

/-- R355: the pairs of vectors, i outer and j inner. -/
def interactPairs (n : Nat) (self : Bool) : List (Nat × Nat) :=
  (List.range n).flatMap (fun i => (List.range' (if self then i else i + 1) (n - (if self then i else i + 1))).map (fun j => (i, j)))

/-- R355: PLAN_LOAD's checks of an INTERACT entry. -/
def interactCheck (b : PlanBinary) (e : OpEntry) : Option Status :=
  let i := slotDesc b e.in0
  let o := slotDesc b e.out0
  let keep := pf e 0 32
  let n := pf e 32 7
  let d := pf e 40 16
  firstFail
    [ need (slotsOk e .wanted .unused .unused .wanted .unused && e.params.length = 16 && pf e 56 72 = 0 &&
        decide (2 ≤ n ∧ n ≤ 64) && decide (1 ≤ d ∧ d ≤ 1024) && residentPair i o [.fp32, .bf16] [.fp32, .bf16] &&
        dimOf i 0 = keep + n * d && dimOf o 0 = keep + (interactPairs n (pf e 39 1 = 1)).length) .badPlan ]

/-- A dot product in ascending element order, each product and each addition rounded. -/
def dotAscending (a b : List FVal) : FVal := (a.zip b).foldl (fun s x => fAdd s (fMul x.1 x.2)) fZero

/-- INTERACT (R355); the KEEP elements are moved (R119). -/
def interactBody (c : Ctx) : OpEnd :=
  let keep := par c 0 32
  let n := par c 32 7
  let d := par c 40 16
  let pairs := interactPairs n (par c 39 1 = 1)
  .done (eachRowMoving c (fun r => ((rowElems c (c.e.in0.getD 0) r).take keep).map some) (fun _ xs =>
    let vec (i : Nat) : List FVal := (xs.drop (keep + i * d)).take d
    (xs.take keep ++ pairs.map (fun p => dotAscending (vec p.1) (vec p.2)), 0, [(1, pairs.length)])))

/-- INTERACT (R355). -/
def execInteract (plan : Word) (op : Nat) (f : ReadFaults) (s : State) : Host.Outcome State Fault Refusal :=
  .next (runOp plan op .interact f wholeOperands interactBody s)

/-! ## SOFTMAX (R357) -/

/-- exp and log within 2 places of the exact value (R357). -/
def smExp (x : FVal) : FVal := within 2 2 (toF32 x) 0 (exp32 x)
def smLog (x : FVal) : FVal := within 2 3 (toF32 x) 0 (ln32 x)

/-- The largest of values that hold no NaN. -/
def maxOf (xs : List FVal) : FVal := xs.foldl (fun m x => if fLt m x then x else m) (.inf true)

/-- R357: one row, with whether it holds a NaN, holds +∞, or is all −∞. -/
def softmaxRow (log : Bool) (zs : List FVal) : List FVal × Bool × Bool × Bool :=
  let infs := zs.countP (· = .inf false)
  if zs.any isNan then (zs.map (fun _ => .nan), true, false, false)
  else if infs ≠ 0 then
    let hit := if log then fNeg (smLog (intVal infs)) else fDiv fOne (intVal infs)
    (zs.map (fun z => if z = .inf false then hit else if log then .inf true else fZero), false, true, false)
  else if zs.all (· = .inf true) then (zs.map (fun _ => if log then .inf true else fZero), false, false, true)
  else
    let mx := maxOf zs
    let es := zs.map (fun z => smExp (fSub z mx))
    let sum := es.foldl fAdd fZero
    let ys := if log then zs.map (fun z => fSub (fSub z mx) (smLog sum)) else es.map (fun e => fDiv e sum)
    (ys, false, false, false)

/-- R357: PLAN_LOAD's checks of a SOFTMAX entry; its formats are those of the other operators (DESIGN CHOICE, log entry
55). -/
def softmaxCheck (b : PlanBinary) (e : OpEntry) : Option Status :=
  let i := slotDesc b e.in0
  let o := slotDesc b e.out0
  firstFail
    [ need (slotsOk e .wanted .unused .unused .wanted .unused && e.params.length = 16 && pf e 1 31 = 0 && pf e 64 64 = 0 &&
        residentPair i o [.fp32, .bf16] [.fp32, .bf16] && dimOf o 0 = dimOf i 0 && pf e 63 1 = 0 &&
        decide (pf e 32 31 < 0x7F800000)) .badPlan,
      need (decide (dimOf i 0 ≤ 4096)) .limit ]

/-- SOFTMAX (R357). -/
def softmaxBody (c : Ctx) : OpEnd :=
  let t := par c 32 32
  .done (eachRow c (fun _ xs =>
    let y := softmaxRow (par c 0 1 = 1) (if t = 0 then xs else xs.map (fun x => fDiv x (ofF32 t)))
    (y.1, if y.2.1 then xs.length else 0, [(1, 1), (2, bitOf y.2.2.1), (3, bitOf y.2.2.2)])))

/-- SOFTMAX (R357). -/
def execSoftmax (plan : Word) (op : Nat) (f : ReadFaults) (s : State) : Host.Outcome State Fault Refusal :=
  .next (runOp plan op .softmax f wholeOperands softmaxBody s)

/-! ## ATTEND_SHORT (R356) -/

/-- R356: the fields LQ, L, H and DH. -/
def attendDims (e : OpEntry) : Nat × Nat × Nat × Nat := (pf e 0 9, pf e 16 9, pf e 32 6, pf e 40 8)

/-- R356: PLAN_LOAD's checks of an ATTEND_SHORT entry. -/
def attendShortCheck (b : PlanBinary) (e : OpEntry) : Option Status :=
  let q := slotDesc b e.in0
  let kv := slotDesc b e.in1
  let n := slotDesc b e.in2
  let o := slotDesc b e.out0
  let (lq, l, h, dh) := attendDims e
  firstFail
    [ need (slotsOk e .wanted .wanted .optional .wanted .unused && e.params.length = 16 && pf e 9 7 = 0 && pf e 25 7 = 0 &&
        pf e 38 2 = 0 && pf e 49 15 = 0 && pf e 96 32 = 0 && decide (1 ≤ lq ∧ 1 ≤ l ∧ 1 ≤ h ∧ 1 ≤ dh)) .badPlan,
      need (decide (lq ≤ 256 ∧ l ≤ 256 ∧ h ≤ 32 ∧ dh ≤ 128 ∧ h * dh ≤ 1024)) .limit,
      need (residentPair q o [.bf16] [.fp32, .bf16] && residentOk kv [.bf16] && rowCount kv = rowCount q &&
        dimOf q 0 = lq * h * dh && dimOf kv 0 = 2 * l * h * dh && dimOf o 0 = lq * h * dh &&
        (e.in2.isNone || (n.format = .int32 && n.rank = 1 && n.space = .blocked && rowCount n = rowCount q))) .badPlan ]

/-- R356: one query and head over its valid events. -/
def attendHead (scale : FVal) (q : List FVal) (ks vs : List (List FVal)) : List FVal :=
  let ws := (softmaxRow false (ks.map (fun k => fMul (dotAscending q k) scale))).1
  (List.range q.length).map (fun d => (ws.zip vs).foldl (fun s x => fAdd s (fMul x.1 (x.2.getD d fZero))) fZero)

/-- ATTEND_SHORT (R356). -/
def attendShortBody (c : Ctx) : OpEnd :=
  let (lq, l, h, dh) := attendDims c.e
  let scale := if par c 64 32 = 0 then rsqrt32 (intVal dh) else ofF32 (par c 64 32)
  .done (eachRow c (fun r qs =>
    let kv := rowValues c (c.e.in1.getD 0) r
    let n : Nat := match c.e.in2 with
      | none => l
      | some k => (max 0 (min (l : Int) (signed 32 ((rowElems c k r).headD 0)))).toNat
    let seen (q : Nat) : Nat := if par c 48 1 = 1 then (min (n : Int) ((n : Int) - lq + q + 1)).toNat else n
    let cell (xs : List FVal) (i j : Nat) : List FVal := (xs.drop ((i * h + j) * dh)).take dh
    let head (q j : Nat) : List FVal :=
      if seen q = 0 then List.replicate dh fZero
      else attendHead scale (cell qs q j) ((List.range (seen q)).map (fun x => cell kv x j))
        ((List.range (seen q)).map (fun x => cell kv (l + x) j))
    let out := (List.range lq).flatMap (fun q => (List.range h).flatMap (head q))
    (out, 0, [(1, lq), (2, (List.range lq).countP (fun q => seen q = 0))])))

/-- ATTEND_SHORT (R356). -/
def execAttendShort (plan : Word) (op : Nat) (f : ReadFaults) (s : State) : Host.Outcome State Fault Refusal :=
  .next (runOp plan op .attendShort f wholeOperands attendShortBody s)

/-! ## DENSE_GRAD (R358, R359) -/

def gradWeight (e : OpEntry) : Bool := pf e 0 1 = 1
def gradBf16 (e : OpEntry) : Bool := pf e 1 1 = 1

/-- R197: the pages that the rows of the weights of a transposed feed touch are near-tier ones with WEIGHTS permission. -/
def feedPages (s : State) (sid : Nat) (w : Descriptor) : Bool :=
  (touchedRows false w).all (fun t => decide (0 ≤ t.1) &&
    ((sessionPieces s sid needWeights t.1.toNat t.2).map (fun l => l.all (fun q => decide (q.1 < nearEnd)))).getD false)

/-- R358, R359, R197: PLAN_LOAD's checks of a DENSE_GRAD entry of a session. -/
def denseGradCheck (s : State) (sid : Nat) (b : PlanBinary) (e : OpEntry) : Option Status :=
  let i := slotDesc b e.in0
  let w := slotDesc b e.in1
  let o := slotDesc b e.out0
  firstFail
    [ need (slotsOk e .wanted .wanted .unused .wanted .unused && e.params.length = 16 && pf e 2 126 = 0) .badPlan,
      if gradWeight e then
        firstFail
          [ need (residentPair i w [.bf16] [.bf16] && o.format = .fp32 && o.rank = 2 && dimOf o 0 = dimOf i 0 &&
              dimOf o 1 = dimOf w 0) .badPlan,
            need (decide (dimOf i 0 ≤ 65536 ∧ dimOf w 0 ≤ 65536)) .limit,
            nearOrEdge s sid b e.out0 ]
      else
        firstFail
          [ need (w.rank = 2) .badPlan,
            need (decide (dimOf w 0 ≤ 65536 ∧ dimOf w 1 ≤ 65536)) .limit,
            need ((w.format = .bf16 || w.format = .e4m3) && i.format = w.format) .unsupported,
            need (residentPair i o [.bf16, .e4m3] [.fp32, .bf16] && dimOf i 0 = dimOf w 1 && dimOf o 0 = dimOf w 0) .badPlan,
            need (w.space = .staging || (w.space = .session && !onEdge b (e.in1.getD 0) && feedPages s sid w)) .unsupported ] ]

/-- R358: MODE INPUT: dX from dY and the transposed weights. -/
def gradInput (c : Ctx) : OpEnd :=
  let w := cDesc c (c.e.in1.getD 0)
  let k := dimOf w 0
  let n := dimOf w 1
  let rows := (weightRows c).map (fun x => rowVals w.format x k)
  let cols := (List.range k).map (fun i => rows.map (fun x => x.getD i fZero))
  let fragments := ceilDiv n 64 * ceilDiv k (((densePairing w.format).map (·.2)).getD 1)
  let c1 := eachRow c (fun _ ys => (cols.map (floatDot ys), 0, []))
  .done (bumps (passCounts c (c.e.in0.getD 0) fragments (fragments * fragmentBytes w.format)) c1)

/-- R359: a fixed binary tree: neighbours are added, one without a partner passes up. -/
def treeLevel (round : FVal → FVal) : List FVal → List FVal
  | a :: b :: l => round (fAdd a b) :: treeLevel round l
  | l => l

def treeSum (round : FVal → FVal) : Nat → List FVal → FVal
  | 0, l => l.headD fZero
  | fuel + 1, l => if l.length ≤ 1 then l.headD fZero else treeSum round fuel (treeLevel round l)

/-- R339: the rows of a core's piece, in order. -/
def pieceRows (p : Plan) (k core : Nat) : List Nat :=
  let rows := rowCount (descOf p.bin k)
  (coreBlocks p k core).flatMap (fun b => List.range' (64 * b) (min 64 (rows - 64 * b)))

/-- R359: one weight's gradient: over slots, lane groups, cores and dies. -/
def weightGrad (round : FVal → FVal) (dies : List (List (List (List (List FVal × List FVal))))) (i o : Nat) : FVal :=
  let lane (l : List (List FVal × List FVal)) : FVal :=
    l.foldl (fun s x => fAdd s (fMul (x.2.getD o fZero) (x.1.getD i fZero))) fZero
  let core (gs : List (List (List FVal × List FVal))) : FVal := round ((gs.map lane).foldl fAdd fZero)
  ((dies.filter (fun d => !d.isEmpty)).map (fun cores => treeSum round 16 (cores.map core))).foldl fAdd fZero

/-- R359: MODE WEIGHT: dW over the rows of every core, HOLE slots left out. -/
def gradWeights (c : Ctx) : OpEnd :=
  let i := c.e.in0.getD 0
  let g := c.e.in1.getD 0
  let k := dimOf (cDesc c i) 0
  let n := dimOf (cDesc c g) 0
  let round (v : FVal) : FVal := if gradBf16 c.e then roundVal fmtBf16 v else v
  let cores := (coresOf (c.p.craters.getD (stageOfOp c.p.bin c.op) [])).mergeSort
  let laneRows (core : Nat) : List (List (List FVal × List FVal)) :=
    let rows := (pieceRows c.p i core).zipIdx
    (List.range 12).map (fun q => ((rows.filter (fun x => x.2 % 12 = q && !rowInvalid c i x.1)).map (fun x =>
      (rowValues c i x.1, rowValues c g x.1))))
  let dies := [0, 1].map (fun d => (cores.filter (fun x => x / 512 = d)).map laneRows)
  let out := (List.range n).map (fun o =>
    codesBytes .fp32 ((List.range k).map (fun x => toF32 (weightGrad round dies x o))))
  let tiles := ceilDiv k 64 * ceilDiv n (if gradBf16 c.e then 24 else 12)
  .done (bumps (passCounts c i tiles 0) (rowsWrite (c.e.out0.getD 0) out c))

/-- DENSE_GRAD (R358, R359). -/
def denseGradBody (c : Ctx) : OpEnd := if gradWeight c.e then gradWeights c else gradInput c

/-- DENSE_GRAD's checks at operator start (R36, R197). -/
def denseGradPre (c : Ctx) : Option Status :=
  if gradWeight c.e then nearOperands [c.e.out0] c
  else
    let w := cDesc c (c.e.in1.getD 0)
    if w.space = .session ∧ !feedPages (stepState c) c.p.session w then some .access else weightPre true c

/-- The operator is a DENSE_GRAD of a MODE; any other operator is for `runOp` to judge. -/
def gradModeOk (s : State) (plan : Word) (op : Nat) (weight : Bool) : Bool :=
  (ctxOf s plan op).all (fun c => gradWeight c.e = weight)

/-- DENSE_GRAD_INPUT (R358). -/
def execDenseGradInput (plan : Word) (op : Nat) (f : ReadFaults) (s : State) : Host.Outcome State Fault Refusal :=
  .next (if gradModeOk s plan op false then runOp plan op .denseGrad f denseGradPre denseGradBody s else s)

/-- DENSE_GRAD_WEIGHT (R359). -/
def execDenseGradWeight (plan : Word) (op : Nat) (f : ReadFaults) (s : State) : Host.Outcome State Fault Refusal :=
  .next (if gradModeOk s plan op true then runOp plan op .denseGrad f denseGradPre denseGradBody s else s)

/-! ## OPT_STEP (R360) -/

/-- Values held for each weight: 2 for SGD_MOMENTUM, 3 for ADAM. -/
def optState (e : OpEntry) : Nat := if pf e 0 2 = 0 then 2 else 3

/-- R360: PLAN_LOAD's checks of an OPT_STEP entry of a session. -/
def optStepCheck (s : State) (sid : Nat) (b : PlanBinary) (e : OpEntry) : Option Status :=
  let g := slotDesc b e.in0
  let w := slotDesc b e.in1
  let f := slotDesc b e.out1
  firstFail
    [ need (slotsOk e .wanted .wanted .unused .wanted .optional && e.params.length = 48 && pf e 3 29 = 0 && pf e 256 128 = 0 &&
        decide (pf e 0 2 ≤ 1) && g.format = .fp32 && g.rank = 2 && e.in1 = e.out0 && w.format = .fp32 && w.rank = 2 &&
        dimOf w 0 = optState e * dimOf g 0 && dimOf w 1 = dimOf g 1 && w.space = .session && !onEdge b (e.in1.getD 0) &&
        (e.out1.isNone || (f.rank = 2 && dimOf f 0 = dimOf g 0 && dimOf f 1 = dimOf g 1 &&
          (f.format = .bf16 || f.format = .e4m3 || isCell f.format) && (f.space = .session || f.space = .staging)))) .badPlan,
      nearOrEdge s sid b e.in0,
      need (nearOnly s sid (e.in1.getD 0) b) .badPlan ]

/-- R360: the constants of an update. -/
structure OptParams where
  adam : Bool
  lr : FVal
  beta1 : FVal
  beta2 : FVal
  eps : FVal
  wd : FVal
  c1 : FVal
  c2 : FVal

/-- R360: a power, rounded once to FP64 (DEDUCED, log entry 56). -/
def fPow64 (x : FVal) (t : Nat) : FVal :=
  match x with
  | .nan => .nan
  | .inf a => if t = 0 then fOne else .inf (a && decide (t % 2 = 1))
  | .fin a m => roundTo fmt64 (a && decide (t % 2 = 1)) (m ^ t * fUnit) (fUnit ^ t)

/-- R360: fp32(1 − β^t), the power in FP64. -/
def optCorrection (beta : FVal) (t : Nat) : FVal :=
  roundVal fmt32 (fAddIn fmt64 fOne (fNeg (fPow64 beta t)))

def optParams (e : OpEntry) (t : Nat) : OptParams :=
  let p (lo : Nat) : FVal := ofF32 (pf e lo 32)
  { adam := pf e 0 2 = 1, lr := p 32, beta1 := p 64, beta2 := p 96, eps := p 128, wd := p 160
    c1 := optCorrection (p 64) t, c2 := optCorrection (p 96) t }

/-- R360: one weight's state and its gradient; a NaN gradient leaves the state. -/
def optUpdate (p : OptParams) (g : FVal) (st : List FVal) : List FVal :=
  let w := st.getD 0 fZero
  if isNan g then st
  else if !p.adam then
    let u := fAdd (fMul p.beta1 (st.getD 1 fZero)) g
    [fSub w (fMul p.lr (fAdd u (fMul p.wd w))), u]
  else
    let m := fAdd (fMul p.beta1 (st.getD 1 fZero)) (fMul (fSub fOne p.beta1) g)
    let v := fAdd (fMul p.beta2 (st.getD 2 fZero)) (fMul (fMul (fSub fOne p.beta2) g) g)
    let step := fDiv (fDiv m p.c1) (fAdd (fSqrt (fDiv v p.c2)) p.eps)
    [fSub w (fMul p.lr (fAdd step (fMul p.wd w))), m, v]

/-- OPT_STEP (R360): the state of each weight lies together, w first (DEDUCED, log entry 56); the new values go to the
commit buffer. -/
def optStepBody (c : Ctx) : OpEnd :=
  let gk := c.e.in0.getD 0
  let wk := c.e.in1.getD 0
  let n := optState c.e
  let k := dimOf (cDesc c gk) 0
  let t : Int := (c.p.nextStep : Int) - par c 192 64 + 1
  if t < 1 then .fail .implausible
  else
    let p := optParams c.e t.toNat
    let asym : Bool := par c 2 1 = 1
    let c1 := (rowsOf c gk).foldl
      (fun x r =>
        let gs := rowValues c gk r
        let ws := (gs.zip (chunks n k (rowValues c wk r))).map (fun y => optUpdate p y.1 y.2)
        let x1 := countNans (gs.countP isNan) (rowWrite (c.e.out0.getD 0) r (codesBytes .fp32 (ws.flatten.map toF32)) x)
        match c.e.out1 with
        | none => x1
        | some o => rowWrite o r (packRow (cDesc c o).format asym (ws.map (fun w => w.headD fZero))) x1) c
    let total := k * rowCount (cDesc c gk)
    let copy := match c.e.out1 with
      | none => 0
      | some o => rowCount (cDesc c o) * rowDataBytes (cDesc c o).format k
    let done := (rowsOf c gk).map (fun r => (rowValues c gk r).countP (fun g => !isNan g))
    .done (bumps [(1, done.sum), (2, total * (4 + 8 * n) + copy)] c1)

/-- OPT_STEP (R360). -/
def execOptStep (plan : Word) (op : Nat) (f : ReadFaults) (s : State) : Host.Outcome State Fault Refusal :=
  .next (runOp plan op .optStep f (fun c => nearOperands [c.e.in0, c.e.in1] c) optStepBody s)

end Sys2Proof.Machine
end

