-- ==== Sys2Proof/Machine/TopK.lean ====
section
/-!
DEFINITION. TOPK: selection by one Plume, and over shards with merges up a tree (chapter 13, R364 to R378).
-/

namespace Sys2Proof.Machine

/-! ## The order and the lists (R364, R365, R370, R371) -/

/-- An element or an entry of a list: its index and its value's code. -/
abbrev TopEntry := Nat × Nat

/-- The number that orders a value; −0 equals +0. -/
def topKey (f : Format) (code : Nat) : Int := orderKey (elemVal f code)

/-- R364: entry `a` comes before entry `b`. -/
def topBefore (f : Format) (a b : TopEntry) : Bool :=
  decide (topKey f b.2 < topKey f a.2) || (decide (topKey f a.2 = topKey f b.2) && decide (a.1 < b.1))

/-- A partial list: its entries in order and what goes up the tree with them. -/
structure TopList where
  entries : List TopEntry
  left : Word
  leftCount : Nat
  tie : Nat
  dups : Nat
  nans : Nat
  bad : Bool
  deriving DecidableEq, Repr

/-- An empty list. -/
def topEmpty : TopList := { entries := [], left := f64Bits fZero, leftCount := 0, tie := 0, dups := 0, nans := 0, bad := false }

/-- R370: an addition in FP64; the NaN is canonical. -/
def topAdd (f : Format) (sum : Word) (code : Nat) : Word := f64Bits (fAddIn fmt64 (ofF64 sum) (elemVal f code))

/-- Values added in ascending index. -/
def topAddAll (f : Format) (l : List TopEntry) (sum : Word) : Word :=
  (l.mergeSort (fun a b => decide (a.1 ≤ b.1))).foldl (fun s e => topAdd f s e.2) sum

/-- An entry put in its place, after those that it does not come before. -/
def topInsert (f : Format) (e : TopEntry) : List TopEntry → List TopEntry
  | [] => [e]
  | x :: l => if topBefore f e x then e :: x :: l else x :: topInsert f e l

/-- A Plume's scan of a shard: the list, and elements that entered it. -/
structure Scan where
  list : TopList
  admitted : Nat
  badIndex : Nat

/-- R365, R370: one element scanned. -/
def scanOne (f : Format) (k : Nat) (explicit : Bool) (x : Scan) (e : TopEntry) : Scan :=
  let nan : Bool := isNan (elemVal f e.2)
  let bad : Bool := explicit && e.1 = 0xFFFFFFFF
  let t := x.list
  if nan ∨ bad then
    { x with list := { t with nans := t.nans + bitOf nan }, badIndex := x.badIndex + bitOf bad }
  else if t.entries.length < k then
    { x with list := { t with entries := topInsert f e t.entries }, admitted := x.admitted + 1 }
  else
    let last := t.entries.getLastD e
    if topBefore f e last then
      { x with
        list := { t with
          entries := topInsert f e t.entries.dropLast
          left := topAdd f t.left last.2
          leftCount := t.leftCount + 1 }
        admitted := x.admitted + 1 }
    else { x with list := { t with left := topAdd f t.left e.2, leftCount := t.leftCount + 1 } }

/-- The value at position K − 1 of a full list. -/
def topKth (f : Format) (k : Nat) (l : List TopEntry) : Option Int :=
  if l.length < k then none else (l[k - 1]?).map (fun e => topKey f e.2)

/-- R371: one shard scanned in ascending position. -/
def scanShard (f : Format) (k : Nat) (explicit : Bool) (es : List TopEntry) : Scan :=
  let x := es.foldl (scanOne f k explicit) { list := topEmpty, admitted := 0, badIndex := 0 }
  let valid := es.filter (fun e => !isNan (elemVal f e.2) && !(explicit && e.1 = 0xFFFFFFFF))
  let tie : Nat := match topKth f k x.list.entries with
    | none => 0
    | some v => valid.countP (fun e => topKey f e.2 = v) - x.list.entries.countP (fun e => topKey f e.2 = v)
  { x with list := { x.list with tie := tie } }

/-- R374: a merge node: `a` from the lower shards. -/
def topMerge (f : Format) (k : Nat) (a b : TopList) : TopList :=
  let twins (e : TopEntry) : List TopEntry := a.entries.filter (fun d => d.1 = e.1)
  let removed := b.entries.filter (fun e => !(twins e).isEmpty)
  let kept := b.entries.filter (fun e => (twins e).isEmpty)
  let c := (a.entries ++ kept).mergeSort (fun x y => !topBefore f y x)
  let list := c.take k
  let dropped := c.drop k
  let v := topKth f k list
  let part (t : TopList) : Nat := if (topKth f k t.entries).isSome ∧ topKth f k t.entries = v then t.tie else 0
  { entries := list
    left := topAddAll f dropped (topAddAll f removed (f64Bits (fAddIn fmt64 (ofF64 a.left) (ofF64 b.left))))
    leftCount := a.leftCount + b.leftCount + removed.length + dropped.length
    tie := if v.isNone then 0 else part a + part b + dropped.countP (fun e => some (topKey f e.2) = v)
    dups := a.dups + b.dups + removed.length
    nans := a.nans + b.nans
    bad := a.bad || b.bad || removed.any (fun e => (twins e).any (fun d => topKey f d.2 ≠ topKey f e.2)) }

/-! ## The record (R369) -/

/-- R369: VALUE of a padding entry. -/
def topPad (f : Format) : Nat :=
  match f with
  | .bf16 => 0xFF80
  | .fp16 => 0xFC00
  | .int32 => 0x80000000
  | _ => 0xFF800000

/-- R369: the record of a row; none for a row that is not selected. -/
def topRecord (f : Format) (k row : Nat) (t : Option TopList) : List Byte :=
  let entry (e : TopEntry) : List Byte := natLE e.1 4 ++ natLE e.2 4
  let common := [(0, row), (96, k), (112, formatCode f)]
  match t with
  | none => record 64 (common ++ [(123, 1)]) ++ (List.replicate k (entry (0xFFFFFFFF, topPad f))).flatten
  | some t =>
    let n := t.entries.length
    let sel := t.entries.foldl (fun s e => topAdd f s e.2) (f64Bits fZero)
    record 64 (common ++ [(64, n), (120, bitOf (decide (t.tie ≠ 0))), (121, bitOf t.bad), (122, bitOf (decide (n < k))),
        (128, sel.toNat), (192, t.left.toNat), (256, t.tie), (288, t.dups), (320, t.nans), (352, t.leftCount)]) ++
      (t.entries.map entry).flatten ++ (List.replicate (k - n) (entry (0xFFFFFFFF, topPad f))).flatten

/-- A record written to its row of OUT0, with the counters that tell of it (R377). -/
def putRecord (row : Nat) (bs : List Byte) (c : Ctx) : Ctx :=
  let o := c.e.out0.getD 0
  bumps [(1, 1), (5, field bs 288 32), (6, field bs 121 1), (7, field bs 120 1), (8, field bs 122 1)]
    (rowWrite o row (bs ++ zeros (dimOf (cDesc c o) 0 - bs.length)) c)

/-! ## Parameters and checks (R366, R367, R378) -/

def topK (e : OpEntry) : Nat := pf e 0 11
def topCollective (e : OpEntry) : Bool := pf e 11 1 = 1
def topScope (e : OpEntry) : Nat := pf e 12 2

/-- R372: elements of a shard. -/
def shardLen (l s : Nat) : Nat := roundUp (ceilDiv l s) 32

/-- R366 to R368, R372, R378: PLAN_LOAD's checks of a TOPK entry. A stage has at least the 32 cores of a crater, so that
no group has fewer shards. -/
def topkCheck (b : PlanBinary) (e : OpEntry) : Option Status :=
  let i := slotDesc b e.in0
  let x := slotDesc b e.in1
  let o := slotDesc b e.out0
  let l := dimOf i 0
  firstFail
    [ need (slotsOk e .wanted .optional .optional .wanted .unused && e.params.length = 16 && pf e 14 114 = 0) .badPlan,
      need (i.format = .fp32 || i.format = .bf16 || i.format = .fp16 || i.format = .int32) .unsupported,
      need (decide (2 ≤ i.rank) && (i.space = .session || i.space = .blocked) &&
        (e.in1.isNone || (x.format = .int32 && x.space = i.space && x.dims = i.dims)) &&
        (e.in2.isNone || maskOk (slotDesc b e.in2) (rowCount i)) &&
        o.format = .u8 && o.rank = 2 && sessionOrEdge b e.out0 && dimOf o 1 = rowCount i &&
        (topCollective e || topScope e = 0) && (!topCollective e || i.space ≠ .blocked)) .badPlan,
      need (decide (1 ≤ topK e ∧ topK e ≤ 1024)) .limit,
      need (decide (64 + 8 * topK e ≤ dimOf o 0)) .badPlan,
      need (if topCollective e then decide (shardLen l 32 ≤ 1048576) &&
          (topScope e ≠ 3 || e.in1.isSome || decide (b.fabricRanks * l ≤ 2 ^ 32 - 1))
        else decide (l ≤ 1048576)) .limit ]

/-! ## LIMIT (R368) -/

/-- The elements of positions of a row, each with its index; `at_` is the position of the row's first element. -/
def topElems (c : Ctx) (at_ row lo n : Nat) : List TopEntry :=
  let codes := ((rowElems c (c.e.in0.getD 0) row).drop lo).take n
  let ids := match c.e.in1 with
    | none => List.range' (at_ + lo) codes.length
    | some k => ((rowElems c k row).drop lo).take n
  ids.zip codes

/-- R365, R377: what a scan counts. -/
def countScan (n : Nat) (x : Scan) (c : Ctx) : Ctx :=
  bumps [(2, n), (3, x.admitted), (4, x.badIndex)] (countNans x.list.nans c)

/-- TOPK under LIMIT (R368). -/
def topkBody (c : Ctx) : OpEnd :=
  let i := c.e.in0.getD 0
  let f := (cDesc c i).format
  let k := topK c.e
  .done ((rowsOf c i).foldl
    (fun x r =>
      if !maskBit c c.e.in2 r then putRecord r (topRecord f k r none) x
      else
        let es := topElems c 0 r 0 (dimOf (cDesc c i) 0)
        let y := scanShard f k c.e.in1.isSome es
        putRecord r (topRecord f k r (some y.list)) (countScan es.length y x)) c)

/-- The operator's mode is the command's. -/
def topModeOk (s : State) (plan : Word) (op : Nat) (collective : Bool) : Bool :=
  (ctxOf s plan op).all (fun c => topCollective c.e = collective)

/-- TOPK (R368). -/
def execTopk (plan : Word) (op : Nat) (f : ReadFaults) (s : State) : Host.Outcome State Fault Refusal :=
  .next (if topModeOk s plan op false then runOp plan op .topk f wholeOperands topkBody s else s)

/-! ## COLLECTIVE: groups and the tree (R372, R373) -/

/-- The number of a node: its row, its level above the shards and its place there. -/
def topNode (row level j : Nat) : Nat := row * 2 ^ 24 + level * 2 ^ 19 + j

/-- What stands for the finished record of a row. -/
def topDone (row : Nat) : Nat := topNode row 31 0

/-- What this module holds of a collective in the step's inbox, beside messages. -/
def topKind : Nat := 0x200

/-- The merges go between modules. -/
def topFabric (c : Ctx) : Bool := topScope c.e = 3 && decide (1 < c.p.bin.fabricRanks)

/-- The placed cores of the stage, ascending. -/
def topCores (c : Ctx) : List Nat := (coresOf (c.p.craters.getD (stageOfOp c.p.bin c.op) [])).mergeSort

/-- R372: the groups of this module's cores. -/
def topGroups (c : Ctx) : List (List Nat) :=
  let cores := topCores c
  let per := match topScope c.e with
    | 0 => 32
    | 1 => 512
    | _ => 1024
  ((cores.map (· / per)).dedup).map (fun g => cores.filter (fun x => x / per = g))

/-- R372, R153: the group that takes a row: rows are dealt in contiguous ascending runs. -/
def topGroupOf (c : Ctx) (row : Nat) : List Nat :=
  let gs := topGroups c
  let runs := dealBlocks (List.range gs.length) (rowCount (cDesc c (c.e.in0.getD 0)))
  gs.getD ((runs.find? (fun e => decide (e.2.1 ≤ row ∧ row < e.2.1 + e.2.2))).elim 0 (·.1)) []

/-- R372: ranks with their shards for a row, ascending; `shares` tells what each rank brought (R375). -/
def topShards (shares : List (Nat × Nat)) (c : Ctx) (row : Nat) : List (Nat × Nat) :=
  if topFabric c then shares else [(ownRank c, (topGroupOf c row).length)]

/-- Shards at a level of a tree over `s` shards. -/
def topWidth (s level : Nat) : Nat := ceilDiv s (2 ^ level)

/-- The levels of a tree over `s` shards. -/
def topLevels (s : Nat) : Nat := if s ≤ 1 then 0 else (s - 1).log2 + 1

/-- R373: the node whose list stands at a place: a node left without a partner passes up unchanged. -/
def topCanon (s : Nat) : Nat → Nat → Nat × Nat
  | 0, j => (0, j)
  | level + 1, j => if 2 * j + 1 < topWidth s level then (level + 1, j) else topCanon s level (2 * j)

/-- The rank of a shard. -/
def rankOfShard : List (Nat × Nat) → Nat → Nat
  | [], _ => 0
  | e :: l, j => if j < e.2 then e.1 else rankOfShard l (j - e.2)

/-- R373: the rank whose module runs the node at a place. -/
def topOwner (ranks : List (Nat × Nat)) (level j : Nat) : Nat := rankOfShard ranks (j * 2 ^ level)

/-- Shards of a row's tree. -/
def topCount (ranks : List (Nat × Nat)) : Nat := (ranks.map (·.2)).sum

/-! ### Lists on their way -/

/-- A partial list as bytes and back: count, LEFT_SUM, LEFT_COUNT, TIE_LEFT, DUPS, NANS, INCONSISTENT_DUP, entries. The
manual gives no layout (DESIGN CHOICE, log entry 57). -/
def listBytes (t : TopList) : List Byte :=
  natLE t.entries.length 4 ++ natLE (bitOf t.bad) 4 ++ natLE t.left.toNat 8 ++ natLE t.leftCount 8 ++ natLE t.tie 8 ++
    natLE t.dups 8 ++ natLE t.nans 8 ++ (t.entries.map (fun e => natLE e.1 4 ++ natLE e.2 4)).flatten

def parseList (b : List Byte) : TopList where
  entries := (List.range (min (field b 0 32) 1024)).map (fun j => (field b (384 + 64 * j) 32, field b (416 + 64 * j) 32))
  bad := field b 32 1 = 1
  left := BitVec.ofNat 64 (field b 64 64)
  leftCount := field b 128 64
  tie := field b 192 64
  dups := field b 256 64
  nans := field b 320 64

/-- A list, or a record, that this module made or received. -/
def topHeld (o : OpenStep) (op node : Nat) : Option (List Byte) :=
  ((o.inbox.find? (fun a => decide ((a.kind = topKind ∨ a.kind = kindTopk) ∧ a.op = op ∧ a.phase = node ∧ a.src < 0x10000 ∧
    a.total ≤ a.data.length))).map (·.data))

/-- A list made here. -/
def topKeep (node : Nat) (t : TopList) (c : Ctx) : Ctx := deposit topKind c.op node 0 0 (listBytes t) c

/-- A mark of this attempt of the step; a replay does it again. -/
def topMarked (o : OpenStep) (op node : Nat) : Bool :=
  o.inbox.any (fun a => decide (a.kind = topKind ∧ a.op = op ∧ a.phase = node ∧ a.src = 0x10000))

def topMark (node : Nat) (c : Ctx) : Ctx := deposit topKind c.op node 0x10000 0 [] c

/-- R375: what a rank brings: K, FORMAT, L, rows, IN1's presence, and its shards. -/
def topShare (c : Ctx) (rank : Nat) : List Byte :=
  let d := cDesc c (c.e.in0.getD 0)
  natLE (topK c.e) 2 ++ natLE (formatCode d.format) 1 ++ natLE (dimOf d 0) 4 ++ natLE (rowCount d) 8 ++
    natLE (bitOf c.e.in1.isSome) 1 ++ natLE (if rank = ownRank c then (topCores c).length else 0) 2

/-- R375: the ranks agree, and every rank's share goes to all. -/
def topAnswer (l : List (Nat × List Byte)) : List Byte :=
  (agree (l.map (fun e => (e.1, e.2.take 16)))) ++ shareBytes (l.mergeSort (fun a b => decide (a.1 ≤ b.1)))

/-! ### Steps of the tree (R373) -/

/-- R373: lists whose merge another module makes go there. -/
def topSendUp (ranks : List (Nat × Nat)) (row : Nat) (c : Ctx) : Ctx :=
  let s := topCount ranks
  let own := ownRank c
  (List.range (topLevels s)).foldl
    (fun x level =>
      (List.range (topWidth s level)).foldl
        (fun y j =>
          if j % 2 = 0 then y
          else
            let dst := topOwner ranks (level + 1) (j / 2)
            let at_ := topCanon s level j
            let node := topNode row at_.1 at_.2
            if topOwner ranks level j ≠ own ∨ dst = own ∨ isMarked y.o y.op node own 0x15 then y
            else match topHeld y.o y.op node with
              | none => y
              | some bs => sendRank kindTopk y.op node own dst bs (mark y.op node own 0x15 y)) x) c

/-- R373: a finished record is written, and the root's module sends it to the others. -/
def topFinish (ranks : List (Nat × Nat)) (row : Nat) (bs : List Byte) (c : Ctx) : Ctx :=
  let own := ownRank c
  let c1 := topMark (topDone row) (putRecord row bs c)
  if topOwner ranks 0 0 ≠ own ∨ isMarked c.o c.op (topDone row) own 0x15 then c1
  else
    ((ranks.map (·.1)).filter (fun r => r ≠ own && !(heldRanks c).contains r)).foldl
      (fun x r => sendRank kindTopk x.op (topDone row) own r bs x) (mark c1.op (topDone row) own 0x15 c1)

/-- R373: what can be done for a row now: lists sent up, the record made at the root or taken from it. -/
def topRow (shares : List (Nat × Nat)) (c : Ctx) (row : Nat) : Ctx :=
  if topMarked c.o c.op (topDone row) then c
  else
    let ranks := topShards shares c row
    let s := topCount ranks
    let f := (cDesc c (c.e.in0.getD 0)).format
    if topOwner ranks 0 0 ≠ ownRank c then
      let c1 := topSendUp ranks row c
      match topHeld c1.o c1.op (topDone row) with
      | none => c1
      | some bs => topFinish ranks row bs c1
    else if !maskBit c c.e.in2 row then topFinish ranks row (topRecord f (topK c.e) row none) c
    else
      let c1 := topSendUp ranks row c
      let at_ := topCanon s (topLevels s) 0
      match topHeld c1.o c1.op (topNode row at_.1 at_.2) with
      | none => c1
      | some bs => topFinish ranks row (topRecord f (topK c.e) row (some (parseList bs))) c1

/-- R372: the shards of this module's part of a row scanned; a row that this module's mask leaves out gives empty lists (DESIGN CHOICE,
log entry 57). -/
def topScanRow (shares : List (Nat × Nat)) (c : Ctx) (row : Nat) : Ctx :=
  let ranks := topShards shares c row
  let own := ownRank c
  let first := ((ranks.takeWhile (fun e => e.1 ≠ own)).map (·.2)).sum
  let n := ((ranks.find? (fun e => e.1 = own)).map (·.2)).getD 0
  let d := cDesc c (c.e.in0.getD 0)
  let l := dimOf d 0
  let sel := maskBit c c.e.in2 row
  let base := if topFabric c then own * l else 0
  (List.range n).foldl
    (fun x j =>
      let len := shardLen l n
      let es := if sel then topElems c base row (j * len) len else []
      let y := scanShard d.format (topK c.e) c.e.in1.isSome es
      topKeep (topNode row 0 (first + j)) y.list (countScan es.length y x)) c

/-- The scan has been made in this attempt. -/
def topScanned : Nat := topNode (2 ^ 40) 0 0

/-- The collective goes on as far as it can: this module's shards are scanned once, and rows are finished where they can be. -/
def topAdvanced (shares : List (Nat × Nat)) (c : Ctx) : Ctx :=
  let rows := rowsOf c (c.e.in0.getD 0)
  let c1 := if topMarked c.o c.op topScanned then c else topMark topScanned (rows.foldl (topScanRow shares) c)
  rows.foldl (topRow shares) c1

/-- Every record of a collective is written. -/
def topWritten (c : Ctx) : Bool := (rowsOf c (c.e.in0.getD 0)).all (fun r => topMarked c.o c.op (topDone r))

/-- The collective is done when every record is written. -/
def topAdvance (shares : List (Nat × Nat)) (c : Ctx) : OpEnd :=
  let x := topAdvanced shares c
  if topWritten x then .done x else .hold x

/-- TOPK under COLLECTIVE (R372, R375). -/
def topkCollectiveBody (c : Ctx) : OpEnd :=
  if !topFabric c then topAdvance [] c
  else
    let b := barrierRun c.op 0 (topShare c) topAnswer c
    match b.2 with
    | none => .hold b.1
    | some d =>
      if d.headD 0 = 0 then .fail .implausible
      else topAdvance ((parseShares d.length (d.drop 1)).map (fun e => (e.1, field e.2 128 16))) b.1

/-- TOPK_COLLECTIVE (R372). -/
def execTopkCollective (plan : Word) (op : Nat) (f : ReadFaults) (s : State) : Host.Outcome State Fault Refusal :=
  .next (if topModeOk s plan op true then runOp plan op .topk f wholeOperands topkCollectiveBody s else s)

/-- The shares that the start agreement gave, none before it; `[]` where no other module takes part. -/
def topKnown (c : Ctx) : Option (List (Nat × Nat)) :=
  if !topFabric c then some []
  else (releaseOf c.o c.op 0 (ownRank c)).map (fun d =>
    (parseShares d.length (d.drop 1)).map (fun e => (e.1, field e.2 128 16)))

/-- R374: a merge node of this module runs once both its lists are ready. -/
def mergeNode (node : Nat) (shares : List (Nat × Nat)) (c : Ctx) : Option Ctx :=
  let row := node / 2 ^ 24
  let level := node / 2 ^ 19 % 32
  let j := node % 2 ^ 19
  let ranks := topShards shares c row
  let s := topCount ranks
  let at_ (x : Nat) : Option (List Byte) :=
    let y := topCanon s (level - 1) x
    topHeld c.o c.op (topNode row y.1 y.2)
  if level = 0 ∨ topLevels s < level ∨ topWidth s (level - 1) ≤ 2 * j + 1 ∨ topOwner ranks level j ≠ ownRank c ∨
      (topHeld c.o c.op node).isSome then none
  else match at_ (2 * j), at_ (2 * j + 1) with
    | some a, some b =>
      let t := topMerge (cDesc c (c.e.in0.getD 0)).format (topK c.e) (parseList a) (parseList b)
      some (bump 9 1 (topKeep node t c))
    | _, _ => none

/-- TOPK_MERGE_NODE (R374): the node's number is that of `topNode`. -/
def execTopkMergeNode (plan : Word) (op node : Nat) (s : State) : Host.Outcome State Fault Refusal :=
  .next (match ctxOf s plan op with
    | none => s
    | some c =>
      let l := stageSlots s c.p (stageOfOp c.p.bin op)
      if c.e.op ≠ .topk ∨ !topCollective c.e ∨ !isRunning c.p ∨ s.power.state ≠ .active ∨ !opReady c.p c.o op ∨
          anyHalted s l ∨ !topMarked c.o op topScanned then s
      else match topKnown c with
        | none => s
        | some shares =>
          match mergeNode node shares c with
          | none => s
          | some c1 => endOp plan l c1 (topAdvance shares c1) s)

end Sys2Proof.Machine
end

