-- ==== Sys2Proof/Machine/Match.lean ====
section
/-!
DEFINITION. The Basin and the cascade: BASIN_LOAD, BASIN_SEARCH, the scrub, MATCH, and the words and events of the chain
(chapter 14, R379 to R400; R446 for the scrub).
-/

namespace Sys2Proof.Machine

/-! ## Segments (R379) -/

/-- A segment of the Basins. -/
def segAt (b : BasinUnit) (k : Nat) : Segment := b.segments.getD k { width := 128, owner := none }

/-- R381, R387: a width of its code. -/
def basinWidth (code : Nat) : Nat := 128 * 2 ^ code

/-- R381, R388: entries of a segment, and bytes of an entry record, of a width. -/
def segEntries (w : Nat) : Nat := 8388608 / w
def entryBytes (w : Nat) : Nat := 16 + w / 8

/-- R383: the plans RUNNING or SUSPENDED whose MATCH names a segment. -/
def matchPlans (s : State) (seg : Nat) : List Plan :=
  (livePlans s).filter (fun p => p.bin.ops.any (fun e => e.op = .matchOp && (pf e 64 32).testBit seg))

/-- The width that a segment will have once the loads accepted for it have been applied. -/
def pendingWidth (s : State) (seg : Nat) : Nat :=
  (((s.basin.loads.filter (fun l => l.segment = seg && l.op = 1)).getLast?).map (·.width)).getD (segAt s.basin seg).width

/-! ## BASIN_LOAD (R381 to R383) -/

/-- R381: a record of a WRITE. -/
def loadRecord (w : Nat) (b : List Byte) : Bool × BasinEntry :=
  (field b 48 1 = 1,
    { key := field b 128 w, resultId := BitVec.ofNat 32 (field b 0 32), priority := BitVec.ofNat 16 (field b 32 16) })

/-- R382: the first check that a load fails. What stands staged already counts against the scratch. -/
def basinLoadCheck (c : Chain) (s : State) : Option Status :=
  let seg := parBits c 0 4 0
  let op := parBits c 0 9 8
  let w := pendingWidth s seg
  let n := parN c 2
  let rows := cut (entryBytes w) n c.payload
  let owner := (segAt s.basin seg).owner
  let staged := (s.basin.loads.map (fun l => l.records.length * entryBytes l.width)).sum
  firstFail
    [ need (op ≠ 3 && parBits c 0 11 10 ≠ 3 && (op = 1 || parBits c 0 11 10 = 0) &&
        (if op = 0 then decide (1 ≤ n) && c.payload.length = n * entryBytes w &&
            rows.all (fun b => field b 0 32 ≠ 0xFFFFFFFF && field b 49 79 = 0)
          else c.payload = [] && n = 0 && parN c 1 = 0)) .badPacket,
      need (op ≠ 0 || decide (parN c 1 + n ≤ segEntries w)) .limit,
      need ((owner.isNone || owner = some c.session.toNat) && !isRetired s (unitId 4 seg)) .access,
      need (decide ((matchPlans s seg).length ≤ 1)) .busy,
      need (decide (c.payload.length + staged ≤ nearFree s)) .noResource ]

/-- BASIN_LOAD: the segment is claimed at once; the load applies at a boundary of the governing plan, or at once without
one (R381, R383; DESIGN CHOICE, log entry 59). -/
def basinLoadBody (r : CmdRef) (c : Chain) (s : State) : State :=
  let seg := parBits c 0 4 0
  let op := parBits c 0 9 8
  match basinLoadCheck c s with
  | some st => complete r (replyOf st) s
  | none =>
    let w := pendingWidth s seg
    let l : BasinLoad :=
      { segment := seg
        op := op
        width := if op = 1 then basinWidth (parBits c 0 11 10) else w
        session := c.session.toNat
        first := parN c 1
        records := if op = 0 then (cut (entryBytes w) (parN c 2) c.payload).map (loadRecord w) else []
        atStep := par64 c 3
        plan := (((matchPlans s seg).head?).map (·.handle)).getD noPlan
        reply := r }
    let claim (g : Segment) : Segment := if op = 2 then g else { g with owner := some c.session.toNat }
    let s1 := { s with basin := { s.basin with
      segments := modAt s.basin.segments seg claim
      loads := s.basin.loads ++ [l] } }
    settleLoads s1

def basinLoadRule : CommandRule :=
  { plainRule 0x0060 with
    busyInSimmer := true
    chainable := true
    needsSession := true
    used := [0xF1F, 0xFFFFFFFF, 0xFFFFFFFF, 0xFFFFFFFF, 0xFFFFFFFF] }

/-- The packet with OP of P0, the reserved one kept. -/
def fixLoadOp (op : BitVec 32) (p : Packet) : Packet := if bits p.p0 9 8 = 3 then p else fixP0 0x300 (op <<< 8) p

/-- BASIN_LOAD WRITE (R381, R383). -/
def execBasinLoadWrite (r : RingId) (p : Packet) (s : State) : Host.Outcome State Fault Refusal :=
  .next (hostCommand r basinLoadRule basinLoadBody (fixLoadOp 0 p) s)

/-- BASIN_LOAD CLEAR (R381, R383). -/
def execBasinLoadClear (r : RingId) (p : Packet) (s : State) : Host.Outcome State Fault Refusal :=
  .next (hostCommand r basinLoadRule basinLoadBody (fixP0 0x300 0x100 p) s)

/-- BASIN_LOAD RELEASE (R381, R383). -/
def execBasinLoadRelease (r : RingId) (p : Packet) (s : State) : Host.Outcome State Fault Refusal :=
  .next (hostCommand r basinLoadRule basinLoadBody (fixP0 0x300 0x200 p) s)

/-- R383, R399: the loads due at the boundary that begins a step of a plan apply in order of acceptance; gives the Basin
rows written, by segment. -/
def boundaryLoads (h : Word) (first : Nat) (s : State) : State × List (Nat × Nat) :=
  let due (l : BasinLoad) : Bool := l.plan = h && decide (l.atStep ≤ first)
  let ls := s.basin.loads.filter due
  let rows (l : BasinLoad) : Nat := if l.op = 0 then l.records.length * (l.width / 128) else 65536
  (ls.foldl (doLoad first) { s with basin := { s.basin with loads := s.basin.loads.filter (fun l => !due l) } },
    ls.map (fun l => (l.segment, rows l)))

/-! ## The search (R384, R385) -/

/-- The winner of a search and MULTI. -/
structure Winner where
  segment : Nat
  entry : Nat
  value : BasinEntry
  multi : Nat
  deriving DecidableEq, Repr

/-- R384: an entry matches. -/
def entryMatches (b : BasinUnit) (segs w key mask : Nat) (e : Nat × BasinEntry) : Bool :=
  segs.testBit (e.1 / 65536) && (segAt b (e.1 / 65536)).width = w && (e.2.key ^^^ key) &&& (mask % 2 ^ w) = 0

/-- R385: the scan over the entries, which lie in ascending die and row. -/
def searchBasin (b : BasinUnit) (segs w key mask : Nat) : Option Winner :=
  (b.entries.filter (entryMatches b segs w key mask)).foldl
    (fun best e =>
      let new_ : Winner := { segment := e.1 / 65536, entry := e.1 % 65536, value := e.2, multi := 1 }
      match best with
      | none => some new_
      | some x =>
        if x.value.priority.toNat < e.2.priority.toNat then some new_
        else if e.2.priority = x.value.priority then some { x with multi := x.multi + 1 }
        else best) none

/-- The die-local first row of a winner. -/
def winnerRow (w : Nat) (x : Winner) : Nat := x.segment % 16 * 65536 + x.entry * (w / 128)

/-- R388: what a search gives. -/
structure Hit where
  resultId : Nat
  priority : Nat
  xtie : Bool
  sat : Bool
  die : Nat
  winPos : Nat
  entry : Nat
  multi : Nat
  deriving DecidableEq, Repr

/-- R388: a result of this module's own Basins. -/
def localHit (w : Nat) (x : Winner) : Hit where
  resultId := x.value.resultId.toNat
  priority := x.value.priority.toNat
  xtie := false
  sat := false
  die := x.segment / 16
  winPos := 0
  entry := winnerRow w x
  multi := x.multi

/-- R388: the record of a result. -/
def hitRecord (row key keyHits : Nat) (cascade : Bool) (h : Option Hit) : List Byte :=
  match h with
  | none => record 32 [(0, row), (64, key), (80, keyHits), (147, bitOf cascade), (160, 0xFFFFFFFF)]
  | some x =>
    record 32 [(0, row), (64, key), (80, keyHits), (96, x.resultId), (128, x.priority), (144, 1), (145, bitOf x.xtie),
      (146, bitOf x.sat), (147, bitOf cascade), (149, x.die), (150, x.winPos), (160, x.entry), (192, x.multi)]

/-- R387: the record of a row that issues no search. -/
def skippedRecord (row : Nat) : List Byte := record 32 [(0, row), (148, 1)]

/-! ## BASIN_SEARCH (R390) -/

/-- R390: a segment named is the session's and has the width. -/
def segmentsOk (s : State) (sid segs w : Nat) : Bool :=
  (List.range 32).all (fun k => !segs.testBit k ||
    ((segAt s.basin k).owner = some sid && (segAt s.basin k).width = w))

/-- BASIN_SEARCH (R390). -/
def basinSearchBody (r : CmdRef) (c : Chain) (s : State) : State :=
  let segs := parN c 0
  let w := basinWidth (parBits c 1 1 0)
  let n := parN c 2
  if parBits c 1 1 0 = 3 ∨ n = 0 ∨ 65536 < n ∨ c.payload.length ≠ 64 + n * (w / 8) then complete r (replyOf .badPacket) s
  else if !segmentsOk s c.session.toNat segs w then complete r (replyOf .access) s
  else
    let mask := leNat (c.payload.take 64)
    let recs := (List.range n).map (fun i =>
      let h := (searchBasin s.basin segs w (leNat (slice c.payload (64 + i * (w / 8)) (w / 8))) mask).map (localHit w)
      hitRecord i 0 (bitOf h.isSome) false h)
    complete r (replyData recs.flatten) s

def basinSearchRule : CommandRule :=
  { plainRule 0x0061 with
    chainable := true, needsSession := true, busyInSimmer := true, used := [0xFFFFFFFF, 3, 0xFFFFFFFF] }

/-- BASIN_SEARCH (R390). -/
def execBasinSearch (r : RingId) (p : Packet) (s : State) : Host.Outcome State Fault Refusal :=
  .next (hostCommand r basinSearchRule basinSearchBody p s)

/-! ## The scrub (R446) -/

/-- R446: a row whose parity fails is rewritten from firmware's image; every open step whose MATCH names its segment
replays. -/
def scrubRow (s : State) (row : Nat) : State :=
  let seg := row / 65536
  let u := unitId 4 seg
  let ps := (matchPlans s seg).filter (fun p => (p.run.bind (·.openStep)).isSome)
  let step := (ps.head?).map (fun p => (p.handle, p.nextStep))
  ps.foldl (fun x p => detect p.handle none x) (chargeRate u step s)

/-- BASIN_SCRUB (R446): the rows of the pass that failed parity. -/
def execBasinScrub (badRows : List Nat) (s : State) : Host.Outcome State Fault Refusal :=
  .next (if s.power.state ≠ .active ∨ s.boot.phase ≠ .running then s
    else (badRows.filter (fun r => decide (r < 2097152))).foldl scrubRow s)

/-! ## MATCH (R386 to R389) -/

/-- R387: the parameters. -/
structure MatchParams where
  off : Nat
  pbit : Nat
  hasP : Bool
  rowBest : Bool
  width : Nat
  keys : Nat
  segs : Nat
  chain : Nat
  mask : Nat

def matchParams (e : OpEntry) : MatchParams where
  off := pf e 0 32
  pbit := pf e 32 6
  hasP := pf e 38 1 = 1
  rowBest := pf e 39 1 = 1
  width := basinWidth (pf e 40 2)
  keys := pf e 48 16
  segs := pf e 64 32
  chain := pf e 96 5
  mask := pf e 256 512

/-- R391: this module is a member of the cascade other than its head. -/
def isMember (s : State) (e : OpEntry) : Bool := decide (2 ≤ (matchParams e).chain) && s.pins.cascPos ≠ 0

/-- R386, R387, R391, R400: PLAN_LOAD's checks of a MATCH entry. -/
def matchCheck (s : State) (b : PlanBinary) (e : OpEntry) : Option Status :=
  let p := matchParams e
  let i := slotDesc b e.in0
  let o := slotDesc b e.out0
  let member := isMember s e
  let dieMask := match b.dies with
    | 0 => 0xFFFFFFFF
    | 1 => 0xFFFF
    | _ => 0xFFFF0000
  let rowsFit : Bool := i.rank = 2 && i.format = .u8 && (i.space = .session || i.space = .blocked) &&
    decide (p.off + p.keys * (p.width / 8) ≤ dimOf i 0) && (!p.hasP || dimOf i 0 % 16 = 0) &&
    (e.in1.isNone || maskOk (slotDesc b e.in1) (rowCount i)) &&
    o.format = .u8 && o.rank = 2 && sessionOrEdge b e.out0 && dimOf o 1 = rowCount i
  firstFail
    [ need (e.params.length = 96 && pf e 42 6 = 0 && pf e 101 155 = 0 && pf e 40 2 ≠ 3 && p.chain ≠ 1 &&
        decide (p.chain ≤ 16) && (p.chain = 0 || decide (s.pins.cascPos.toNat < p.chain)) &&
        p.mask / 2 ^ p.width = 0 && p.segs &&& dieMask = p.segs &&
        (if member then slotsOk e .unused .unused .unused .unused .unused
          else slotsOk e .wanted .optional .unused .wanted .unused && (p.keys = 0 || rowsFit))) .badPlan,
      need (decide (1 ≤ p.keys ∧ p.keys ≤ 1024) &&
        (member || decide (32 * (if p.rowBest then 1 else p.keys) ≤ dimOf o 0))) .limit ]

/-- R400: the checks at operator start. -/
def matchPre (c : Ctx) : Option Status :=
  match wholeOperands c with
  | some st => some st
  | none =>
    let p := matchParams c.e
    if segmentsOk c.s c.p.session p.segs p.width then none else some .access

/-- R387: the searches of a MATCH in canonical order: row, key index, key. -/
def matchSearches (c : Ctx) (p : MatchParams) : List (Nat × Nat × Nat) :=
  let i := c.e.in0.getD 0
  (rowsOf c i).flatMap (fun r =>
    let row := rowRead c i r
    if !maskBit c c.e.in1 r || (p.hasP && !(leNat (slice row 0 8)).testBit p.pbit) then []
    else (List.range p.keys).map (fun j => (r, j, leNat (slice row (p.off + j * (p.width / 8)) (p.width / 8)))))

/-- R389: the better of two results of a row. -/
def betterKey (a b : Nat × Hit) : Nat × Hit := if a.2.priority < b.2.priority then b else a

/-- R388, R389: the records of one row from the results of its keys; none issued makes the row SKIPPED. -/
def matchRow (p : MatchParams) (cascade : Bool) (row : Nat) (hits : List (Nat × Option Hit)) : List Byte :=
  if hits = [] then (List.replicate (if p.rowBest then 1 else p.keys) (skippedRecord row)).flatten
  else if p.rowBest then
    let found := hits.filterMap (fun x => x.2.map (fun h => (x.1, h)))
    match found with
    | [] => hitRecord row 0 0 cascade none
    | x :: l =>
      let best := l.foldl betterKey x
      hitRecord row best.1 found.length cascade (some best.2)
  else (hits.map (fun x => hitRecord row x.1 (bitOf x.2.isSome) cascade x.2)).flatten

/-- R388, R399: every record written, and the counters of the results. -/
def putMatches (p : MatchParams) (results : List ((Nat × Nat × Nat) × Option Hit)) (c : Ctx) : Ctx :=
  let o := c.e.out0.getD 0
  let cascade := decide (2 ≤ p.chain)
  let rows := rowsOf c (c.e.in0.getD 0)
  let of_ (r : Nat) : List (Nat × Option Hit) := (results.filter (fun x => x.1.1 = r)).map (fun x => (x.1.2.1, x.2))
  let c1 := rows.foldl
    (fun x r =>
      let bs := matchRow p cascade r (of_ r)
      rowWrite o r (bs ++ zeros (dimOf (cDesc c o) 0 - bs.length)) x) c
  let hits := results.filterMap (·.2)
  bumps [(1, results.length), (2, hits.length), (3, hits.countP (fun h => decide (1 < h.multi))), (4, hits.countP (·.xtie)),
    (5, rows.countP (fun r => of_ r = []))] c1

/-! ## The chain (R391 to R397) -/

/-- R392: a module's result as it enters the chain. -/
def chainLocal (pos : Nat) (x : Option Winner) : CascadeResult :=
  match x with
  | none => { resultId := 0, priority := 0, winPos := 0, hit := false, xtie := false, multi := 0 }
  | some x =>
    { resultId := x.value.resultId, priority := x.value.priority, winPos := BitVec.ofNat 4 pos, hit := true, xtie := false
      multi := BitVec.ofNat 2 (min x.multi 3) }

/-- R392: a member resolves the upstream word against its own result. -/
def chainResolve (up own : CascadeResult) : CascadeResult :=
  if up.hit ∧ (!own.hit ∨ own.priority.toNat ≤ up.priority.toNat) then
    { up with xtie := up.xtie || (own.hit && up.priority = own.priority) }
  else own

/-- R393: bytes 0 to 6 of a word. -/
def chainHead (x : CascadeResult) : List Byte :=
  record 7 [(0, x.resultId.toNat), (32, x.priority.toNat), (48, x.winPos.toNat), (52, bitOf x.hit), (53, bitOf x.xtie),
    (54, x.multi.toNat)]

/-- R393: CHECK over bytes 0 to 6 and SEQ. -/
def chainCheck (bs : List Byte) (seq : Nat) : BitVec 8 := crc8 (bs ++ natLE (seq % 65536) 2)

/-- R393: the word of a result at a place. -/
def chainWord (x : CascadeResult) (seq : Nat) : Word :=
  BitVec.ofNat 64 (leNat (chainHead x ++ [chainCheck (chainHead x) seq]))

/-- R393: the words that are no result. -/
def idleWord : Word := 0xFFFFFFFFFFFFFFFF
def syncWord : Word := 0x5A3CC35AFFFFFFFF

/-- R393: the result in a word expected at a place, none where CHECK fails or the word is invalid. -/
def parseWord (w : Word) (seq : Nat) : Option CascadeResult :=
  let b := natLE w.toNat 8
  if field b 0 32 = 0xFFFFFFFF ∨ chainCheck (b.take 7) seq ≠ b.getD 7 0 then none
  else some
    { resultId := BitVec.ofNat 32 (field b 0 32), priority := BitVec.ofNat 16 (field b 32 16),
      winPos := BitVec.ofNat 4 (field b 48 4), hit := field b 52 1 = 1, xtie := field b 53 1 = 1,
      multi := BitVec.ofNat 2 (field b 54 2) }

/-- The cascade changed. -/
def onChain (f : Cascade → Cascade) (s : State) : State :=
  { s with basin := { s.basin with cascade := f s.basin.cascade } }

/-- The chain begins again with the searches of an attempt. -/
def chainBegin (t : ChainTag) (s : State) : State :=
  onChain (fun x => { x with tag := some t, nextSeq := 0, upstream := [], localResults := [] }) s

/-- The phase of a search's messages: the head's attempt and the place. -/
def searchPhase (attempt seq : Nat) : Nat := attempt * 2 ^ 32 + seq

/-- The phase of the message that tells of a chain error in an attempt (R397). -/
def errorPhase (attempt : Nat) : Nat := searchPhase attempt (2 ^ 32 - 1)

/-- What a member brings to the start of a MATCH: WIDTH, CASC_LEN and its position (R391). -/
def matchShare (c : Ctx) : List Byte :=
  natLE (pf c.e 40 2) 1 ++ natLE (matchParams c.e).chain 1 ++ natLE c.s.pins.cascPos.toNat 1

/-- R391: the members agree, and each learns the positions. -/
def matchAnswer (l : List (Nat × List Byte)) : List Byte :=
  agree (l.map (fun e => (e.1, e.2.take 2))) ++ shareBytes (l.mergeSort (fun a b => decide (a.1 ≤ b.1)))

/-- R391: the rank of the head. -/
def headRank (l : List (Nat × List Byte)) : Nat := ((l.find? (fun e => field e.2 16 8 = 0)).map (·.1)).getD 0

/-- R391: what the start of the cascade gave. -/
def chainShares (c : Ctx) : Option (List (Nat × List Byte)) :=
  (releaseOf c.o c.op 0 (ownRank c)).map (fun d => parseShares d.length (d.drop 1))

/-- A contribution in the response class to the module of a rank. -/
def respondRank (kind op phase src dst : Nat) (bs : List Byte) (c : Ctx) : Ctx :=
  if (heldRanks c).contains dst then deposit kind op phase src dst bs c
  else match sget c.o.view.owner.ranks dst with
    | none => c
    | some e => sendData e.module e.epoch classResponse kind c op src dst phase bs

/-- R397: every member learns of a chain error (DESIGN CHOICE, log entry 58: the manual does not say how). -/
def tellError (attempt : Nat) (c : Ctx) : Ctx :=
  let own := ownRank c
  ((List.range (planRanks c)).filter (fun r => !(heldRanks c).contains r)).foldl
    (fun x r => respondRank kindSearchResult x.op (errorPhase attempt) own r [] x) c

/-- R397: an error of this attempt has been told and not yet met. -/
def errorTold (attempt : Nat) (c : Ctx) : Bool :=
  !isMarked c.o c.op (errorPhase attempt) 0 0x18 &&
    c.o.inbox.any (fun a => decide (a.kind = kindSearchResult ∧ a.op = c.op ∧ a.phase = errorPhase attempt))

/-! ### The head (R392, R396) -/

/-- R392: the broadcast of a search. -/
def searchBytes (p : MatchParams) (key : Nat) : List Byte := natLE p.width 4 ++ natLE p.mask 64 ++ natLE key 64

/-- R392, R396: a search issued: broadcast to every member, and the head's own word driven on MATCH_OUT. -/
def issueSearch (p : MatchParams) (seq key : Nat) (c : Ctx) : Ctx :=
  let own := ownRank c
  let phase := searchPhase c.o.attempt seq
  let w := chainWord (chainLocal 0 (searchBasin c.s.basin p.segs p.width key p.mask)) seq
  let c1 := ((List.range (planRanks c)).filter (fun r => !(heldRanks c).contains r)).foldl
    (fun x r => sendRank kindSearch x.op phase own r (searchBytes p key) x) (mark c.op phase own 0x17 c)
  bump 6 1 { c1 with s := onChain (fun x => { x with sentOut := x.sentOut ++ [w] }) c1.s }

/-- R392: the final word of a search. -/
def finalWord (c : Ctx) (seq : Nat) : Option CascadeResult :=
  let phase := searchPhase c.o.attempt seq
  (c.o.inbox.find? (fun a => decide (a.kind = kindSearchResult ∧ a.op = c.op ∧ a.phase = phase ∧ a.total ≤ a.data.length))).bind
    (fun a => parseWord (BitVec.ofNat 64 (leNat a.data)) seq)

/-- R392: the result that the head writes for a final word. -/
def finalHit (p : MatchParams) (c : Ctx) (key : Nat) (x : CascadeResult) : Option Hit :=
  if !x.hit then none
  else
    let far : Hit :=
      { resultId := x.resultId.toNat, priority := x.priority.toNat, xtie := x.xtie, sat := x.multi = 3, die := 0,
        winPos := x.winPos.toNat, entry := 0xFFFFFFFF, multi := x.multi.toNat }
    if x.winPos ≠ 0 then some far
    else some (((searchBasin c.s.basin p.segs p.width key p.mask).map (fun w => { localHit p.width w with xtie := x.xtie })).getD far)

/-- R392, R396: the head issues what its window admits, and ends when every final word has come. -/
def headAdvance (p : MatchParams) (c : Ctx) : Ctx × Bool :=
  let l := matchSearches c p
  let c1 := l.zipIdx.foldl
    (fun x (y, seq) =>
      if isMarked x.o x.op (searchPhase x.o.attempt seq) (ownRank x) 0x17 then x
      else if seq < 4096 ∨ (finalWord x (seq - 4096)).isSome then issueSearch p seq y.2.2 x
      else x) c
  let finals := l.zipIdx.map (fun (_, seq) => finalWord c1 seq)
  if finals.any (·.isNone) then (c1, false)
  else
    let results := (l.zip finals).map (fun (y, f) => (y, f.bind (finalHit p c1 y.2.2)))
    (if isMarked c1.o c1.op 0 (c1.o.attempt) 0x19 then c1
      else mark c1.op 0 (c1.o.attempt) 0x19 (putMatches p results c1), true)

/-! ### A member (R392, R394) -/

/-- R392: places where an upstream word and the local result have both come are resolved in order; the tail sends the
final word to the head. -/
def memberResolve (p : MatchParams) (shares : List (Nat × List Byte)) (t : ChainTag) (c : Ctx) : Ctx :=
  let chain := c.s.basin.cascade
  let pos := c.s.pins.cascPos.toNat
  let ready := chain.upstream.filterMap (fun e => (sget chain.localResults e.1).map (fun own => (e.1, chainResolve e.2 own)))
  let taken := ready.map (·.1)
  let s1 := onChain (fun x => { x with
    upstream := x.upstream.filter (fun e => !taken.contains e.1)
    localResults := x.localResults.filter (fun e => !taken.contains e.1) }) c.s
  ready.foldl
    (fun x e =>
      let w := chainWord e.2 e.1
      if pos + 1 = p.chain then
        respondRank kindSearchResult x.op (searchPhase t.attempt e.1) (ownRank x) (headRank shares) (natLE w.toNat 8) x
      else bump 6 1 { x with s := onChain (fun y => { y with sentOut := y.sentOut ++ [w] }) x.s })
    { c with s := s1 }

/-- R392: one broadcast search is searched in this module's Basin. -/
def memberSearch (p : MatchParams) (c : Ctx) (a : Arrival) : Ctx :=
  let attempt := a.phase / 2 ^ 32
  let seq := a.phase % 2 ^ 32
  let c1 := mark c.op a.phase a.src 0x1A c
  match c.s.basin.cascade.tag with
  | none => c1
  | some t =>
    if attempt < t.attempt then c1
    else
      let s1 := if t.attempt < attempt then chainBegin { t with attempt := attempt } c1.s else c1.s
      let x := searchBasin c.s.basin p.segs p.width (leNat (slice a.data 68 64)) (leNat (slice a.data 4 64))
      let r := chainLocal c.s.pins.cascPos.toNat x
      bumps [(1, 1), (2, bitOf x.isSome), (3, bitOf (x.any (fun y => decide (1 < y.multi))))]
        { c1 with s := onChain (fun y => { y with localResults := sset y.localResults seq r }) s1 }

/-- A member serves the searches that have come. -/
def memberAdvance (p : MatchParams) (shares : List (Nat × List Byte)) (c : Ctx) : Ctx :=
  let todo := c.o.inbox.filter (fun a =>
    decide (a.kind = kindSearch ∧ a.op = c.op ∧ a.total ≤ a.data.length) && !isMarked c.o c.op a.phase a.src 0x1A)
  let c1 := todo.foldl (memberSearch p) c
  match c1.s.basin.cascade.tag with
  | none => c1
  | some t => memberResolve p shares t c1

/-! ### MATCH -/

/-- R391, R395, R397: a MATCH over the cascade: locked, agreed, searched, and ended together with the other members
(DESIGN CHOICE, log entry 58: a barrier at the end tells a member that no search follows). -/
def chainBody (p : MatchParams) (c : Ctx) : OpEnd :=
  let pos := c.s.pins.cascPos.toNat
  if pos ≠ 0 ∧ !c.s.basin.cascade.locked then .hold c
  else
    let b := barrierRun c.op 0 (fun _ => matchShare c) matchAnswer c
    match b.2 with
    | none => .hold b.1
    | some d =>
      if d.headD 0 = 0 then .fail .implausible
      else
        let shares := parseShares d.length (d.drop 1)
        let c1 := b.1
        let here : Bool := match c1.s.basin.cascade.tag with
          | none => false
          | some t => t.plan = c1.p.handle && t.step = c1.p.nextStep && t.op = c1.op
        let c2 := if here then c1
          else { c1 with s := chainBegin { plan := c1.p.handle, step := c1.p.nextStep, op := c1.op, attempt := 1 } c1.s }
        let attempt := if pos = 0 then c2.o.attempt else ((c2.s.basin.cascade.tag).map (·.attempt)).getD 1
        if errorTold attempt c2 then
          let c3 := mark c2.op (errorPhase attempt) 0 0x18 c2
          let t : ChainTag := { plan := c2.p.handle, step := c2.p.nextStep, op := c2.op, attempt := attempt + 1 }
          .detected { c3 with s := chainBegin t c3.s } none
        else
          let r := if pos = 0 then headAdvance p c2 else (memberAdvance p shares c2, true)
          if !r.2 then .hold r.1
          else
            let e := barrierRun c.op 1 (fun _ => []) (fun _ => []) r.1
            if e.2.isSome then .done e.1 else .hold e.1

/-- MATCH (R385 to R389). -/
def matchBody (c : Ctx) : OpEnd :=
  let p := matchParams c.e
  if p.chain = 0 then
    .done (putMatches p ((matchSearches c p).map (fun x =>
      (x, (searchBasin c.s.basin p.segs p.width x.2.2 p.mask).map (localHit p.width)))) c)
  else chainBody p c

/-- MATCH (R385). -/
def execMatchOp (plan : Word) (op : Nat) (f : ReadFaults) (s : State) : Host.Outcome State Fault Refusal :=
  .next (runOp plan op .matchOp f matchPre matchBody s)

/-! ## Words and events of the chain -/

/-- R395: SYNC words on MATCH_IN: after 64 in a row the member is locked; it passes them on. The head ignores them. -/
def takeSync (n : Nat) (s : State) : State :=
  if s.pins.cascPos = 0 then s
  else
    onChain (fun x =>
      let seen := if x.locked then x.syncSeen else x.syncSeen + n
      { x with syncSeen := seen, locked := x.locked || decide (64 ≤ seen), syncOut := x.syncOut + n }) s

/-- The cascade runs. -/
def chainUp (s : State) : Bool := s.power.state = .active && s.boot.phase = .running

/-- CASCADE_SYNC (R395). -/
def execCascadeSync (count : Nat) (s : State) : Host.Outcome State Fault Refusal :=
  .next (if chainUp s then takeSync count s else s)

/-- R397: a chain error: counted, told to the other members, and met as a detection here. The counter stands beside those
of the attempt, which is discarded (DESIGN CHOICE, log entry 58). -/
def chainError (t : ChainTag) (c : Ctx) : State :=
  let c1 := mark c.op (errorPhase t.attempt) 0 0x18 (tellError t.attempt c)
  let s1 := installStep t.plan { c1 with s := chainBegin { t with attempt := t.attempt + 1 } c1.s }
  let s2 := onRun t.plan (fun r => { r with counters := { r.counters with ext := addExt t.op 7 1 r.counters.ext } }) s1
  detect t.plan none s2

/-- The MATCH of the chain's tag, where its step is at work. -/
def chainCtx (s : State) : Option (ChainTag × Ctx) :=
  s.basin.cascade.tag.bind (fun t => (ctxOf s t.plan t.op).bind (fun c =>
    if c.p.nextStep = t.step ∧ isRunning c.p ∧ c.o.detections = [] ∧ !c.o.done.contains t.op ∧ !c.o.committed then some (t, c)
    else none))

/-- CASCADE_WORD (R392, R393, R397): a word on MATCH_IN. -/
def execCascadeWord (word : Word) (s : State) : Host.Outcome State Fault Refusal :=
  .next (if !chainUp s ∨ s.pins.cascPos = 0 then s
    else if word = syncWord then takeSync 1 s
    else if !s.basin.cascade.locked then onChain (fun x => { x with syncSeen := 0 }) s
    else if word = idleWord then s
    else match chainCtx s with
      | none => s
      | some (t, c) =>
        let n := s.basin.cascade.nextSeq
        match parseWord word n with
        | none => chainError t c
        | some r =>
          let s1 := onChain (fun x => { x with nextSeq := n + 1, upstream := sset x.upstream n r }) s
          installStep t.plan (memberResolve (matchParams c.e) ((chainShares c).getD []) t { c with s := s1 }))

/-- Running plans whose open step has a cascade MATCH. -/
def cascadePlans (s : State) : List Plan :=
  s.plans.filter (fun p => isRunning p && (p.run.bind (·.openStep)).isSome &&
    p.bin.ops.any (fun e => e.op = .matchOp && decide (2 ≤ (matchParams e).chain)))

/-- R395, R397: the runs of cascade plans end FABRIC_TIMEOUT. -/
def endCascadeRuns (s : State) : State := (cascadePlans s).foldl (fun x p => endRun p.handle .fabricTimeout x) s

/-- CASCADE_LOCK_TIMEOUT (R395): this module is the member that is not locked, or, at the head, another is (DEDUCED, log entry 58). -/
def execCascadeLockTimeout (s : State) : Host.Outcome State Fault Refusal :=
  .next (if chainUp s ∧ (s.pins.cascPos = 0 ∨ !s.basin.cascade.locked) then endCascadeRuns s else s)

/-- CASCADE_LOCK_LOSS (R397): this module loses its lock, or, at the head, another member does (DEDUCED, log entry 58). -/
def execCascadeLockLoss (s : State) : Host.Outcome State Fault Refusal :=
  .next (if !chainUp s then s
    else if s.pins.cascPos = 0 then endCascadeRuns s
    else if !s.basin.cascade.locked then s
    else endCascadeRuns (onChain (fun x => { x with locked := false, syncSeen := 0 }) s))

/-- SEARCH_TIMEOUT (R397): the final word of a search that the head issued has not come. -/
def execSearchTimeout (plan : Word) (seq : Nat) (s : State) : Host.Outcome State Fault Refusal :=
  .next (match planOf s plan with
    | none => s
    | some p =>
      let waits (op : Nat) : Bool := (ctxOf s plan op).any (fun c =>
        c.e.op = .matchOp && decide (2 ≤ (matchParams c.e).chain) && s.pins.cascPos = 0 &&
          isMarked c.o op (searchPhase c.o.attempt seq) (ownRank c) 0x17 && (finalWord c seq).isNone)
      if chainUp s ∧ isRunning p ∧ (List.range p.bin.ops.length).any waits then endRun plan .fabricTimeout s else s)

end Sys2Proof.Machine
end

