-- ==== Sys2Proof/Machine/Collective.lean ====
section
/-!
DEFINITION. The collective operators: EXCHANGE, REDUCE and ALLGATHER, and STATS with its merge over modules (R281, R295,
R419, R420, R423).
-/

namespace Sys2Proof.Machine

/-! ## What the collectives share -/

/-- R420: the start of a collective: the ranks bring their shapes and formats. -/
def collective (share : List Byte) (body : Ctx → OpEnd) (c : Ctx) : OpEnd :=
  let a := startAgreement share c
  match a.2 with
  | none => .hold a.1
  | some false => .fail .implausible
  | some true => body a.1

/-- R423: bytes sent to a rank, counted where they leave the module. -/
def sendCounted (kind phase src dst rows : Nat) (bs : List Byte) (c : Ctx) : Ctx :=
  let x := sendRank kind c.op phase src dst bs c
  if (heldRanks c).contains dst then x
  else bumps [(1, bs.length), (3, (dataPieces dst phase bs).length), (4, rows)] x

/-- A contribution of a rank to one that this module holds. -/
def received (kind phase src dst : Nat) (c : Ctx) : Option (List Byte) := arrivedData c.o kind c.op phase src dst

/-- Contributions of every rank to every held rank, as source, destination and bytes; none while one is missing. -/
def receivedAll (kind phase : Nat) (c : Ctx) : Option (List (Nat × Nat × List Byte)) :=
  ((List.range (planRanks c)).flatMap (fun src => (heldRanks c).map (fun dst => (src, dst)))).mapM (fun e =>
    (received kind phase e.1 e.2 c).map (fun bs => (e.1, e.2, bs)))

/-- R423: what came from other modules is counted; the time spent waiting is free. -/
def countReceived (l : List (Nat × Nat × List Byte)) (rows : List Byte → Nat) (c : Ctx) : Ctx :=
  let far := l.filter (fun e => !(heldRanks c).contains e.1)
  let wait := (freshValue c.s).toNat
  bumps [(2, (far.map (fun e => e.2.2.length)).sum), (5, (far.map (fun e => rows e.2.2)).sum), (7, wait)]
    { c with s := takeFresh 1 c.s }

/-- R420: a descriptor's FORMAT and extents, as compared at operator start. -/
def shapeShare (d : Descriptor) : List Byte := natLE (formatCode d.format) 1 ++ natLE d.rank 1 ++ d.dims.flatMap (fun n => natLE n 4)

/-! ## EXCHANGE (R419) -/

def exchangeReturn (e : OpEntry) : Bool := pf e 47 1 = 1

/-- R419: the key field. -/
def exchangeKey (e : OpEntry) : FieldRef :=
  { off := pf e 0 32, fmt := fieldFmt (pf e 32 8), pbit := pf e 40 6, hasP := pf e 46 1 = 1, var := false, count := 1 }

/-- R419: PLAN_LOAD's checks of an EXCHANGE entry. -/
def exchangeCheck (b : PlanBinary) (e : OpEntry) : Option Status :=
  let i := slotDesc b e.in0
  let o := slotDesc b e.out0
  let key := exchangeKey e
  firstFail
    [ need (slotsOk e .wanted .optional .unused .wanted .optional && e.params.length = 32 && pf e 49 15 = 0 &&
        pf e 96 160 = 0 && rowsOk b false e.in0 && rowsOk b false e.out0 && formOf i = formOf o && i.format = o.format &&
        dimOf i 0 = (if i.rank = 1 then dimOf i 0 else dimOf o 0) &&
        (e.in1.isNone || maskOk (slotDesc b e.in1) (rowCount i)) &&
        (e.out1.isNone || maskOk (slotDesc b e.out1) (rowCount o)) &&
        pf e 64 32 % 8 = 0 && decide (pf e 64 32 + 8 ≤ rowWidth i) &&
        (exchangeReturn e || (refOk i key && key.fmt = (if pf e 48 1 = 0 then .u64 else .int32)))) .badPlan ]

/-- R295: the partition of a key over `n` ranks. -/
def partitionOf (key : List Byte) (n : Nat) : Nat := (fm64 0 key).toNat * n / 2 ^ 64

/-- R419: where a row goes: nowhere, or to a rank, which may be out of range. -/
def exchangeRank (c : Ctx) (r : Nat) (row : List Byte) : Option Nat :=
  let n := planRanks c
  if !maskBit c c.e.in1 r then none
  else if exchangeReturn c.e then some (leNat (slice row (par c 64 32) 8) / 2 ^ 40 % 4096)
  else
    let key := exchangeKey c.e
    if !present row key then none
    else
      let code := (refCodes row key).headD 0
      if par c 48 1 = 0 then some (partitionOf (natLE code 8) n) else some (if signed 32 code < 0 then n else code)

/-- A row as it travels: its source rank and row index, its key components, its data. -/
structure TravelRow where
  src : Nat
  row : Nat
  key : Nat × Nat × Nat
  data : List Byte

/-- R295: bytes of one row as it travels: its index, its key components and its data. The manual gives no layout (DESIGN CHOICE, log
entry 52). -/
def travelBytes (x : TravelRow) : List Byte := natLE x.row 8 ++ natLE x.key.1 4 ++ natLE x.key.2.1 4 ++ natLE x.key.2.2 8 ++ x.data

/-- A row read from a message. -/
def parseTravel (src : Nat) (b : List Byte) : TravelRow where
  src := src
  row := leNat (slice b 0 8)
  key := (leNat (slice b 8 4), leNat (slice b 12 4), leNat (slice b 16 8))
  data := b.drop 24

/-- R419: row counts and then rows leave for every rank, once; under a second rank nothing is contributed. -/
def exchangeSendRows (rows : List (Nat × TravelRow)) (c : Ctx) : Ctx :=
  if isMarked c.o c.op 0 0 0x12 then c
  else
    (heldRanks c).foldl
      (fun x src =>
        (List.range (planRanks c)).foldl
          (fun y dst =>
            let mine := if src = ownRank c then rows.filter (fun e => e.1 = dst) else []
            sendCounted kindExchange 2 src dst mine.length (mine.flatMap (fun e => travelBytes e.2))
              (sendCounted kindExchange 1 src dst 0 (natLE mine.length 8) y)) x) (mark c.op 0 0 0x12 c)

/-- Rows received, ascending by source rank and source row index. -/
def exchangeRows (width : Nat) (l : List (Nat × Nat × List Byte)) : List TravelRow :=
  (l.flatMap (fun e => (List.range (e.2.2.length / (24 + width))).map (fun i =>
    parseTravel e.1 (slice e.2.2 (i * (24 + width)) (24 + width))))).mergeSort
      (fun a b => decide (a.src < b.src ∨ (a.src = b.src ∧ a.row ≤ b.row)))

/-- R295, R419: SEND: received rows fill OUT0 from row 0, with their origins and key components. -/
def exchangeFill (rows : List TravelRow) (c : Ctx) : OpEnd :=
  let o := c.e.out0.getD 0
  let n := rowCount (cDesc c o)
  if n < rows.length then .fail .limit
  else
    let c1 := rows.zipIdx.foldl
      (fun x (e, i) => rowWrite o i (putBytes (par c 64 32) (natLE (e.src * 2 ^ 40 + e.row) 8) e.data) x) c
    let c2 := putKeys o (rows.zipIdx.map (fun (e, i) => (i, e.key))) c1
    .done (match c.e.out1 with
      | none => c2
      | some m => maskWrite m ((List.range n).map (fun i => decide (i < rows.length))) c2)

/-- R295, R419: RETURN: each row lands at the row of its origin, with its key components. -/
def exchangeLand (rows : List TravelRow) (c : Ctx) : OpEnd :=
  let o := c.e.out0.getD 0
  let n := rowCount (cDesc c o)
  let at_ (e : TravelRow) : Nat := leNat (slice e.data (par c 64 32) 8) % 2 ^ 40
  if rows.any (fun e => decide (n ≤ at_ e)) then .fail .implausible
  else
    let c1 := rows.foldl (fun x e => rowWrite o (at_ e) e.data x) c
    let c2 := putKeys o (rows.map (fun e => (at_ e, e.key))) c1
    .done (match c.e.out1 with
      | none => c2
      | some m => maskWrite m ((List.range n).map (fun i => rows.any (fun e => at_ e = i))) c2)

/-- R419: the rows of IN0 with the ranks they go to. -/
def exchangeDests (c : Ctx) : List (Option Nat × TravelRow) :=
  let i := c.e.in0.getD 0
  (rowsOf c i).map (fun r => (exchangeRank c r (rowRead c i r),
    { src := ownRank c, row := r, key := keyParts c i r, data := rowRead c i r }))

/-- R419: the rows have left. -/
def exchangeSent (c : Ctx) : Ctx :=
  exchangeSendRows ((exchangeDests c).filterMap (fun e => e.1.map (fun d => (d, e.2)))) c

/-- R419: the body of an EXCHANGE after its start. -/
def exchangeMain (c : Ctx) : OpEnd :=
  let width := rowWidth (cDesc c (c.e.in0.getD 0))
  let dests := exchangeDests c
  if dests.any (fun e => e.1.any (fun d => decide (planRanks c ≤ d))) then .fail .implausible
  else
    let c1 := exchangeSent c
    match receivedAll kindExchange 1 c1, receivedAll kindExchange 2 c1 with
    | some _, some l =>
      let c2 := bump 6 (dests.countP (fun e => e.1.isNone)) (countReceived l (fun b => b.length / (24 + width)) c1)
      if exchangeReturn c.e then exchangeLand (exchangeRows width l) c2 else exchangeFill (exchangeRows width l) c2
    | _, _ => .hold c1

/-- EXCHANGE (R419, R420). -/
def exchangeBody (c : Ctx) : OpEnd :=
  let d := cDesc c (c.e.in0.getD 0)
  collective (natLE (par c 47 2) 1 ++ natLE (formatCode d.format) 1 ++ natLE d.rank 1 ++ natLE (rowWidth d) 4) exchangeMain c

/-- The operator's mode is the command's. -/
def exchangeModeOk (s : State) (plan : Word) (op : Nat) (ret : Bool) : Bool :=
  (ctxOf s plan op).all (fun c => exchangeReturn c.e = ret)

/-- EXCHANGE SEND (R419). -/
def execExchangeSend (plan : Word) (op : Nat) (f : ReadFaults) (s : State) : Host.Outcome State Fault Refusal :=
  .next (if exchangeModeOk s plan op false then runOp plan op .exchange f wholeOperands exchangeBody s else s)

/-- EXCHANGE RETURN (R419). -/
def execExchangeReturn (plan : Word) (op : Nat) (f : ReadFaults) (s : State) : Host.Outcome State Fault Refusal :=
  .next (if exchangeModeOk s plan op true then runOp plan op .exchange f wholeOperands exchangeBody s else s)

/-! ## REDUCE (R420) -/

/-- R420: PLAN_LOAD's checks of a REDUCE entry of a session. -/
def reduceCheck (s : State) (sid : Nat) (b : PlanBinary) (e : OpEntry) : Option Status :=
  let i := slotDesc b e.in0
  let o := slotDesc b e.out0
  firstFail
    [ need (slotsOk e .wanted .unused .unused .wanted .unused && e.params.length = 16 && pf e 1 127 = 0 &&
        i.format = .fp32 && o.format = .fp32 && i.dims = o.dims) .badPlan,
      nearOrEdge s sid b e.in0,
      nearOrEdge s sid b e.out0 ]

/-- R420: the tree over ranks: partials and node sums are rounded before they move up a level. -/
def rankTree (round : FVal → FVal) : Nat → List FVal → FVal
  | 0, l => l.headD fZero
  | fuel + 1, l =>
    match l with
    | [] => fZero
    | [x] => x
    | [x, y] => fAdd x y
    | l => rankTree round fuel (treeLevel round l)

/-- R420: the sum of one element over ranks; under BF16 every partial is rounded where there is more than one. -/
def reduceSum (bf16 : Bool) (l : List FVal) : FVal :=
  let round (v : FVal) : FVal := if bf16 then roundVal fmtBf16 v else v
  rankTree round 16 (if l.length ≤ 1 then l else l.map round)

/-- The segment of a list that a rank sums. -/
def reduceSegment (n r : Nat) (l : List Nat) : List Nat :=
  let len := ceilDiv l.length n
  (l.drop (r * len)).take len

/-- R420: a segment's sum, once every rank's part is here, goes to every rank. -/
def reduceShare (n : Nat) (c : Ctx) (seg : Nat) : Ctx :=
  if isMarked c.o c.op 1 seg 0x13 then c
  else match (List.range n).mapM (fun src => received kindReduce 1 src seg c) with
    | none => c
    | some parts =>
      let cols := parts.map (fun b => rowCodes .fp32 b (b.length / 4))
      let len := (cols.map List.length).foldl max 0
      let sum := (List.range len).map (fun j => toF32 (reduceSum (par c 0 1 = 1) (cols.map (fun x => ofF32 (x.getD j 0)))))
      (List.range n).foldl (fun x dst => sendCounted kindReduce 2 seg dst 0 (codesBytes .fp32 sum) x) (mark c.op 1 seg 0x13 c)

/-- R31, R420: what a module sends under a second rank, for data that belongs to no block, is not stated: free values. -/
def partnerBytes (c : Ctx) (rank n : Nat) : List Byte :=
  (List.range n).map (fun i => BitVec.ofNat 8 (Config.unstated 3 [c.p.nextStep, c.op, rank, i]))

/-- R420: a rank's part has left for every segment's rank, and the sums of this module's segments that can be made have left. -/
def reduceSent (c : Ctx) : Ctx :=
  let n := planRanks c
  let i := c.e.in0.getD 0
  let codes := (rowsOf c i).flatMap (rowElems c i)
  let c1 := if isMarked c.o c.op 0 0 0x13 then c
    else (heldRanks c).foldl
      (fun x src =>
        let mine := if src = ownRank c then codes else rowCodes .fp32 (partnerBytes c src (4 * codes.length)) codes.length
        (List.range n).foldl
          (fun y dst => sendCounted kindReduce 1 src dst 0 (codesBytes .fp32 (reduceSegment n dst mine)) y) x)
      (mark c.op 0 0 0x13 c)
  (heldRanks c).foldl (reduceShare n) c1

/-- R420: a reduce-scatter and then an allgather. -/
def reduceMain (c : Ctx) : OpEnd :=
  let o := c.e.out0.getD 0
  let c2 := reduceSent c
  match (List.range (planRanks c)).mapM (fun seg => received kindReduce 2 seg (ownRank c) c2) with
  | none => .hold c2
  | some segs =>
    let all := segs.flatten
    let width := rowLen (cDesc c o) * 4
    let from_ (phase : Nat) : List (Nat × Nat × List Byte) := (receivedAll kindReduce phase c2).getD []
    .done (countReceived (from_ 1 ++ from_ 2) (fun _ => 0)
      (rowsWrite o (chunks width (rowCount (cDesc c o)) all) c2))

/-- REDUCE (R420). -/
def reduceBody (c : Ctx) : OpEnd := collective (natLE (par c 0 1) 1 ++ shapeShare (cDesc c (c.e.in0.getD 0))) reduceMain c

/-- REDUCE (R420). -/
def execReduce (plan : Word) (op : Nat) (f : ReadFaults) (s : State) : Host.Outcome State Fault Refusal :=
  .next (runOp plan op .reduce f (fun c => nearOperands [c.e.in0, c.e.out0] c) reduceBody s)

/-! ## ALLGATHER (R420) -/

/-- R420: PLAN_LOAD's checks of an ALLGATHER entry. -/
def allgatherCheck (b : PlanBinary) (e : OpEntry) : Option Status :=
  let i := slotDesc b e.in0
  let o := slotDesc b e.out0
  firstFail
    [ need (slotsOk e .wanted .unused .unused .wanted .unused && e.params = [] && rowsOk b false e.in0 &&
        rowsOk b false e.out0 && formOf i = formOf o && i.format = o.format && rowWidth i = rowWidth o &&
        rowCount o = max 1 b.fabricRanks * rowCount i) .badPlan ]

/-- R420: this module's rows have left for every rank. -/
def allgatherSent (c : Ctx) : Ctx :=
  let i := c.e.in0.getD 0
  let rows := (rowsOf c i).map (rowRead c i)
  if isMarked c.o c.op 0 0 0x14 then c
  else (heldRanks c).foldl
    (fun x src =>
      let mine := if src = ownRank c then rows.flatten else partnerBytes c src rows.flatten.length
      (List.range (planRanks c)).foldl (fun y dst => sendCounted kindGather 1 src dst rows.length mine y) x)
    (mark c.op 0 0 0x14 c)

/-- R420: every rank's rows go to every rank. -/
def allgatherMain (c : Ctx) : OpEnd :=
  let i := c.e.in0.getD 0
  let o := c.e.out0.getD 0
  let rows := rowCount (cDesc c i)
  let width := rowWidth (cDesc c i)
  let c1 := allgatherSent c
  match receivedAll kindGather 1 c1 with
  | none => .hold c1
  | some l =>
    let own := (l.filter (fun e => e.2.1 = ownRank c)).flatMap (fun e => (e.2.2.take (width * rows)))
    .done (countReceived l (fun b => b.length / max width 1) (rowsWrite o (chunks width (rowCount (cDesc c o)) own) c1))

/-- ALLGATHER (R420). -/
def allgatherBody (c : Ctx) : OpEnd := collective (shapeShare (cDesc c (c.e.in0.getD 0))) allgatherMain c

/-- ALLGATHER (R420). -/
def execAllgather (plan : Word) (op : Nat) (f : ReadFaults) (s : State) : Host.Outcome State Fault Refusal :=
  .next (runOp plan op .allgather f wholeOperands allgatherBody s)

/-! ## STATS over modules (R281) -/

/-- Partials as bytes and back. The manual gives no layout (DESIGN CHOICE, log entry 52). -/
def sparseBytes (m : Sparse Nat) : List Byte := natLE m.length 4 ++ m.flatMap (fun e => natLE e.1 4 ++ natLE e.2 8)

def statBytes (l : List StagedStat) : List Byte :=
  l.flatMap (fun x =>
    natLE x.core 4 ++ natLE x.feature 4 ++
      [x.part.count, x.part.mean.toNat, x.part.m2.toNat, x.part.min.toNat, x.part.max.toNat, x.part.absent, x.part.nans].flatMap
        (fun w => natLE w 8) ++ sparseBytes x.part.hist ++ sparseBytes x.part.hll)

def parseSparse (b : List Byte) : Sparse Nat :=
  (List.range (leNat (b.take 4))).map (fun i => (leNat (slice b (4 + 12 * i) 4), leNat (slice b (8 + 12 * i) 8)))

def parseStats (op rank : Nat) : Nat → List Byte → List StagedStat
  | 0, _ => []
  | fuel + 1, b =>
    if b.length < 72 then []
    else
      let w (i : Nat) : Nat := leNat (slice b (8 + 8 * i) 8)
      let h := b.drop 64
      let hn := 4 + 12 * leNat (h.take 4)
      let g := h.drop hn
      let gn := 4 + 12 * leNat (g.take 4)
      let part : StatPartial :=
        { count := w 0, mean := BitVec.ofNat 64 (w 1), m2 := BitVec.ofNat 64 (w 2), min := BitVec.ofNat 64 (w 3),
          max := BitVec.ofNat 64 (w 4), absent := w 5, nans := w 6, hist := parseSparse h, hll := parseSparse g }
      { op := op, rank := rank, core := leNat (b.take 4), feature := leNat (slice b 4 4), part := part } ::
        parseStats op rank fuel (g.drop gn)

/-- R31, R281, R417: what every rank brought merges in ascending rank, and every module gets the same record. -/
def globalStats (barrierOp phase : Nat) (l : List StagedStat) (c : Ctx) : Ctx × Option (List Byte) :=
  barrierRun barrierOp phase (fun r => statBytes (l.filter (fun x => x.rank = r)))
    (fun all => statRecord (all.flatMap (fun e => parseStats c.op e.1 e.2.length e.2)) c) c

/-- STATS (R281): under ACCUM the partials wait for the merge of the step; otherwise they are merged at once, over every
module of the plan under GLOBAL. -/
def statsBody (c : Ctx) : OpEnd :=
  let l := statLocal c
  if statAccum c.e then .done { l.2 with o := { l.2.o with stats := l.2.o.stats ++ l.1 } }
  else if statGlobal c.e ∧ 1 < c.p.bin.fabricRanks then
    let g := globalStats c.op 0 l.1 c
    match g.2 with
    | none => .hold g.1
    | some bs => .done (putStats l.1 bs (statLocal g.1).2)
  else .done (mergeStats l.1 l.2)

/-- STATS (R281). -/
def execStats (plan : Word) (op : Nat) (f : ReadFaults) (s : State) : Host.Outcome State Fault Refusal :=
  .next (runOp plan op .stats f wholeOperands statsBody s)

end Sys2Proof.Machine
end

