-- ==== Sys2Proof/Machine/Arrow.lean ====
section
/-!
DEFINITION. ARROW input of SCAN: the Apache Arrow IPC stream with its flatbuffer metadata (R208; the format itself is
PRESUMED from the Arrow columnar specification, log entry 45).
-/

namespace Sys2Proof.Machine

/-! ## Flatbuffers -/

/-- `len` little-endian bytes at an offset; `none` past the end. -/
def readAt (b : List Byte) (off len : Nat) : Option Nat := if off + len ≤ b.length then some (leNat (slice b off len)) else none

/-- The position of field `i` of the table at `t`; `none` where it is absent or the table is malformed. -/
def fbPos (b : List Byte) (t i : Nat) : Option Nat :=
  (readAt b t 4).bind (fun so =>
    let v := (t : Int) - signed 32 so
    if v < 0 then none
    else (readAt b v.toNat 2).bind (fun size =>
      if size < 4 + 2 * i + 2 then none
      else (readAt b (v.toNat + 4 + 2 * i) 2).bind (fun o => if o = 0 then none else some (t + o))))

/-- An integer field with its default. -/
def fbInt (b : List Byte) (t i len dflt : Nat) : Nat := ((fbPos b t i).bind (fun p => readAt b p len)).getD dflt

/-- The target of an offset field. -/
def fbRef (b : List Byte) (t i : Nat) : Option Nat := (fbPos b t i).bind (fun p => (readAt b p 4).map (fun o => p + o))

/-- The positions of the elements, of a size, of a vector field. -/
def fbVec (b : List Byte) (t i size : Nat) : List Nat :=
  match fbRef b t i with
  | none => []
  | some v =>
    let n := (readAt b v 4).getD 0
    if v + 4 + n * size ≤ b.length then (List.range n).map (fun k => v + 4 + k * size) else []

/-- The tables of a vector of offsets. -/
def fbTables (b : List Byte) (t i : Nat) : List Nat := (fbVec b t i 4).filterMap (fun p => (readAt b p 4).map (fun o => p + o))

/-! ## Schema -/

/-- The types that R208 supports, and any other. -/
inductive ArrowShape where
  | int (bits : Nat) (isSigned : Bool)
  | float (precision : Nat)
  | bool
  | varBytes
  | fixBytes (n : Nat)
  | list
  | fixList (n : Nat)
  | struct
  | other
  deriving DecidableEq, Repr

/-- A schema field in depth-first order: its shape, the dictionary that encodes it with the index type, and the indices of
its ancestors. -/
structure ArrowNode where
  shape : ArrowShape
  dict : Option (Nat × Nat × Bool)
  path : List Nat
  deriving DecidableEq, Repr

/-- The shape of the Field table at `t`. -/
def arrowShape (b : List Byte) (t : Nat) : ArrowShape :=
  let ty := (fbRef b t 3).getD 0
  match fbInt b t 2 1 0 with
  | 2 =>
    let w := fbInt b ty 0 4 0
    if w = 8 ∨ w = 16 ∨ w = 32 ∨ w = 64 then .int w (fbInt b ty 1 1 0 = 1) else .other
  | 3 => if fbInt b ty 0 2 0 ≤ 2 then .float (fbInt b ty 0 2 0) else .other
  | 4 => .varBytes
  | 5 => .varBytes
  | 6 => .bool
  | 10 => .int 64 true
  | 12 => .list
  | 13 => .struct
  | 15 => .fixBytes (fbInt b ty 0 4 0)
  | 16 => .fixList (fbInt b ty 0 4 0)
  | _ => .other

/-- The dictionary of the Field table at `t`: id, index bits, signed. -/
def arrowDict (b : List Byte) (t : Nat) : Option (Nat × Nat × Bool) :=
  (fbRef b t 4).map (fun d =>
    match fbRef b d 1 with
    | some ty => (fbInt b d 0 8 0, fbInt b ty 0 4 0, fbInt b ty 1 1 0 = 1)
    | none => (fbInt b d 0 8 0, 32, true))

def isNested (x : ArrowShape) : Bool :=
  match x with
  | .list | .fixList _ | .struct => true
  | _ => false

/-- The fields of a schema in depth-first order, from a stack of tables with their ancestors. -/
def arrowWalk (b : List Byte) : Nat → List (Nat × List Nat) → List ArrowNode → List ArrowNode
  | 0, _, acc => acc
  | _, [], acc => acc
  | fuel + 1, (t, path) :: rest, acc =>
    let d := arrowDict b t
    let sh := arrowShape b t
    let kids := if isNested sh ∧ d.isNone then (fbTables b t 5).map (fun k => (k, path ++ [acc.length])) else []
    arrowWalk b fuel (kids ++ rest) (acc ++ [{ shape := if isNested sh ∧ d.isSome then .other else sh, dict := d, path := path }])

/-- The nodes of the Schema table at `t`. -/
def arrowNodes (b : List Byte) (t : Nat) : List ArrowNode :=
  arrowWalk b (b.length + 1) ((fbTables b t 1).map (fun k => (k, []))) []

/-- Indices of the leaf columns (R204 SRC). -/
def arrowLeaves (ns : List ArrowNode) : List Nat :=
  ns.zipIdx.filterMap (fun (n, k) => if isNested n.shape then none else some k)

def isByteShape (x : ArrowShape) : Bool :=
  match x with
  | .varBytes | .fixBytes _ => true
  | _ => false

/-- R208: a leaf converts to a field entry. -/
def arrowFits (n : ArrowNode) (f : ScanField) : Bool :=
  match n.dict with
  | some _ => if f.kind = kindString then isByteShape n.shape else f.fmt = .int32 || f.fmt = .u64
  | none => decide (isByteShape n.shape = (f.kind = kindString : Bool))

/-- R208: the status that a schema ends the operator with. -/
def schemaStatus (pr : ScanParams) (b : List Byte) (t : Nat) : Option Status :=
  let ns := arrowNodes b t
  let leaves := arrowLeaves ns
  firstFail
    [ need (fbInt b t 0 2 0 = 0 && ns.all (fun n => n.shape ≠ .other)) .unsupported,
      need (ns.all (fun n => decide (n.path.length + 1 ≤ pr.maxDepth))) .limit,
      need (pr.fields.all (fun f => ((leaves[f.src]?).bind (ns[·]?)).any (fun n => arrowFits n f))) .unsupported ]

/-! ## Record batches -/

/-- A record batch: the lengths and null counts of its nodes, its buffers, and the body they lie in. -/
structure ArrowBatch where
  length : Nat
  nodes : List (Nat × Nat)
  buffers : List (Nat × Nat)
  body : List Byte
  deriving DecidableEq, Repr

/-- The batch of the RecordBatch table at `t`. -/
def arrowBatch (b : List Byte) (t : Nat) (body : List Byte) : ArrowBatch where
  length := fbInt b t 0 8 0
  nodes := (fbVec b t 1 16).map (fun p => ((readAt b p 8).getD 0, (readAt b (p + 8) 8).getD 0))
  buffers := (fbVec b t 2 16).map (fun p => ((readAt b p 8).getD 0, (readAt b (p + 8) 8).getD 0))
  body := body

/-- Buffers that a node takes. -/
def bufferCount (n : ArrowNode) : Nat :=
  if n.dict.isSome then 2
  else match n.shape with
    | .varBytes => 3
    | .fixList _ | .struct => 1
    | _ => 2

/-- Buffer `j` of node `k`; `none` out of range. -/
def arrowBuffer (ns : List ArrowNode) (x : ArrowBatch) (k j : Nat) : Option (List Byte) :=
  (x.buffers[((ns.take k).map bufferCount).sum + j]?).bind (fun e =>
    if e.1 + e.2 ≤ x.body.length then some (slice x.body e.1 e.2) else none)

/-- Bit `p` of a bit map; `none` past its end. -/
def bitAt (b : List Byte) (p : Nat) : Option Bool := (b[p / 8]?).map (fun c => c.toNat.testBit (p % 8))

/-- Position `p` of node `k` is not null. -/
def arrowValid (ns : List ArrowNode) (x : ArrowBatch) (k p : Nat) : Option Bool :=
  match x.nodes[k]?, arrowBuffer ns x k 0 with
  | some n, some b => if n.2 = 0 ∨ b = [] then (if p < n.1 then some true else none) else bitAt b p
  | _, _ => none

/-- First and one past the last child of position `p` of a list node, or bytes of a variable-length value. -/
def arrowSpan (ns : List ArrowNode) (x : ArrowBatch) (k p : Nat) : Option (Nat × Nat) :=
  match arrowBuffer ns x k 1 with
  | none => none
  | some b =>
    match readAt b (4 * p) 4, readAt b (4 * p + 4) 4 with
    | some lo, some hi => if lo ≤ hi then some (lo, hi) else none
    | _, _ => none

/-- The positions that a row reaches at a node: absent, or positions with nulls among the elements of a list. -/
inductive Reach where
  | absent
  | at_ (listed : Bool) (ps : List (Option Nat))
  deriving DecidableEq, Repr

/-- One node of a path; `none` where an offset or a buffer is out of range. -/
def reachNode (ns : List ArrowNode) (x : ArrowBatch) (k : Nat) (r : Reach) : Option Reach :=
  match r with
  | .absent => some .absent
  | .at_ listed ps =>
    let kept : Option (List (Option Nat)) := ps.mapM (fun p => match p with
      | none => some none
      | some q => (arrowValid ns x k q).map (fun (v : Bool) => if v then some q else none))
    match kept with
    | none => none
    | some qs =>
      if !listed ∧ qs.any Option.isNone then some .absent
      else
        let spread (g : Nat → Option (List Nat)) : Option Reach :=
          let parts : Option (List (List Nat)) := qs.mapM (fun q => match q with
            | none => some []
            | some y => g y)
          parts.map (fun l => .at_ true (l.flatten.map some))
        let sh : ArrowShape := ((ns[k]?).map (fun (n : ArrowNode) => n.shape)).getD .other
        match sh with
        | .list => spread (fun y => (arrowSpan ns x k y).map (fun e => List.range' e.1 (e.2 - e.1)))
        | .fixList n => spread (fun y => some (List.range' (y * n) n))
        | _ => some (.at_ listed qs)

/-- A variable or fixed length value of node `k`. -/
def arrowBytes (ns : List ArrowNode) (x : ArrowBatch) (k p : Nat) (sh : ArrowShape) : Option (List Byte) :=
  match sh with
  | .fixBytes n => (arrowBuffer ns x k 1).bind (fun b => if (p + 1) * n ≤ b.length then some (slice b (p * n) n) else none)
  | _ =>
    (arrowSpan ns x k p).bind (fun e => (arrowBuffer ns x k 2).bind (fun b =>
      if e.2 ≤ b.length then some (slice b e.1 (e.2 - e.1)) else none))

/-- An integer of node `k`. -/
def arrowInt (ns : List ArrowNode) (x : ArrowBatch) (k p w : Nat) (isSigned : Bool) : Option Int :=
  (arrowBuffer ns x k 1).bind (fun b => (readAt b (p * (w / 8)) (w / 8)).map (fun n => if isSigned then signed w n else (n : Int)))

/-- A number of node `k`: an integer, a float, a bit, or a dictionary index. -/
def arrowNum (ns : List ArrowNode) (x : ArrowBatch) (k p : Nat) (n : ArrowNode) : Option Num :=
  match n.dict, n.shape with
  | some d, _ => (arrowInt ns x k p d.2.1 d.2.2).map .int
  | none, .int w s => (arrowInt ns x k p w s).map .int
  | none, .float pr =>
    (arrowBuffer ns x k 1).bind (fun b =>
      let w := if pr = 0 then 2 else if pr = 1 then 4 else 8
      (readAt b (p * w) w).map (fun c =>
        if pr = 0 then .code .fp16 c else if pr = 1 then .code .fp32 c else .real (decodeFloat fmt64 c)))
  | none, _ => (arrowBuffer ns x k 1).bind (fun b => (bitAt b p).map (fun v => .int (bitOf v)))

/-- The byte values of a dictionary; `none` where its message is malformed. -/
abbrev ArrowDicts := List (Nat × Option (List (List Byte)))

/-- R208: the bytes that a leaf holds at a position, through its dictionary if it has one. -/
def leafBytes (ns : List ArrowNode) (ds : ArrowDicts) (x : ArrowBatch) (k p : Nat) (n : ArrowNode) : Option (List Byte) :=
  match n.dict with
  | none => arrowBytes ns x k p n.shape
  | some d =>
    (arrowInt ns x k p d.2.1 d.2.2).bind (fun i =>
      ((ds.find? (fun e => e.1 = d.1)).bind (·.2)).bind (fun l => if i < 0 then none else l[i.toNat]?))

/-- R206, R214: the value of row `r` for a field entry; `none` where the message is at fault; a null inside a list is taken
as zero (DESIGN CHOICE, log entry 45). -/
def arrowValue (pr : ScanParams) (ns : List ArrowNode) (ds : ArrowDicts) (x : ArrowBatch) (r : Nat) (f : ScanField) :
    Option (Option Value) :=
  match (arrowLeaves ns)[f.src]? with
  | none => none
  | some k =>
    (ns[k]?).bind (fun n =>
      ((n.path ++ [k]).foldlM (fun acc j => reachNode ns x j acc) (Reach.at_ false [some r])).bind (fun reach =>
        match reach with
        | .absent => some none
        | .at_ listed ps =>
          if f.kind = kindString then
            match listed, ps with
            | false, [some p] =>
              (leafBytes ns ds x k p n).map (fun b => some (if pr.maxString < b.length then .bad .limit else .bytes b))
            | _, _ => some (some (.bad .shape))
          else
            let nums : Option (List Num) := ps.mapM (fun p => match p with
              | none => some (Num.int 0)
              | some q => arrowNum ns x k q n)
            nums.map (fun l =>
                some (if listed ∧ pr.maxList < l.length then .bad .limit
                  else .nums (if !listed then kindScalar else if f.kind = kindTensor then kindTensor else kindList) l))))

/-! ## The stream -/

/-- A row with a fault, or that ends the operator. -/
def faultRow (pr : ScanParams) (stop : Option Status) (fault : Option RejectReason) : SourceRow where
  stop := stop
  fault := fault
  vals := pr.fields.map (fun _ => none)
  offset := 0
  next := 0

/-- R217: the rows of a record batch; a fault in the message rejects every row it carries. -/
def batchRows (pr : ScanParams) (ns : List ArrowNode) (ds : ArrowDicts) (x : ArrowBatch) : List SourceRow :=
  match (List.range x.length).mapM (fun r => pr.fields.mapM (arrowValue pr ns ds x r)) with
  | none => List.replicate x.length (faultRow pr none (some .parse))
  | some l => l.map (fun vs => { faultRow pr none none with vals := vs })

/-- The byte values of a dictionary batch for the node it encodes. -/
def dictValues (ns : List ArrowNode) (id : Nat) (x : ArrowBatch) : Option (List (List Byte)) :=
  match ns.find? (fun n => (n.dict.map (·.1)) = some id) with
  | none => some []
  | some n =>
    let m : List ArrowNode := [{ n with dict := none, path := [] }]
    if isByteShape n.shape then (List.range x.length).mapM (fun p => arrowBytes m x 0 p n.shape)
    else some []

/-- What one message does: its rows, and the schema and dictionaries after it. -/
structure ArrowStep where
  rows : List SourceRow
  stop : Bool
  schema : Option (List ArrowNode)
  dicts : ArrowDicts
  deriving DecidableEq, Repr

/-- R208: one message with its metadata and body; `whole` says that the body lies within the input. -/
def arrowMessage (pr : ScanParams) (meta_ body : List Byte) (whole : Bool) (sc : Option (List ArrowNode)) (ds : ArrowDicts) :
    ArrowStep :=
  let root := (readAt meta_ 0 4).getD 0
  let hd := (fbRef meta_ root 2).getD 0
  let ends (st : Status) : ArrowStep := { rows := [faultRow pr (some st) none], stop := true, schema := sc, dicts := ds }
  let bad : ArrowStep := { rows := [faultRow pr none (some .parse)], stop := true, schema := sc, dicts := ds }
  if fbInt meta_ root 0 2 0 ≠ 4 then ends .version
  else match fbInt meta_ root 1 1 0, sc with
    | 1, _ =>
      (match schemaStatus pr meta_ hd with
      | some st => ends st
      | none => { rows := [], stop := false, schema := some (arrowNodes meta_ hd), dicts := [] })
    | 2, some ns =>
      let t := (fbRef meta_ hd 1).getD 0
      if fbInt meta_ hd 2 1 0 ≠ 0 ∨ (fbRef meta_ t 3).isSome then ends .unsupported
      else
        let id := fbInt meta_ hd 0 8 0
        let vals := if whole then dictValues ns id (arrowBatch meta_ t body) else none
        { rows := [], stop := false, schema := sc, dicts := (id, vals) :: ds.filter (fun e => e.1 ≠ id) }
    | 3, some ns =>
      if (fbRef meta_ hd 3).isSome then ends .unsupported
      else
        let x := arrowBatch meta_ hd body
        { rows := if whole then batchRows pr ns ds x else List.replicate x.length (faultRow pr none (some .truncated))
          stop := false, schema := sc, dicts := ds }
    | _, _ => bad

/-- R208: the messages of a stream from an offset. What follows a malformed frame is one rejected record (DESIGN CHOICE,
log entry 45). -/
def arrowStream (pr : ScanParams) (data : List Byte) : Nat → Nat → Option (List ArrowNode) → ArrowDicts → List SourceRow
  | 0, _, _, _ => []
  | fuel + 1, off, sc, ds =>
    if data.length ≤ off then []
    else match readAt data off 4, readAt data (off + 4) 4 with
      | some mark, some len =>
        if mark ≠ 0xFFFFFFFF then [faultRow pr none (some .parse)]
        else if len = 0 then []
        else if data.length < off + 8 + len then [faultRow pr none (some .truncated)]
        else
          let meta_ := slice data (off + 8) len
          let root := (readAt meta_ 0 4).getD 0
          let bodyLen := fbInt meta_ root 3 8 0
          let r := arrowMessage pr meta_ (slice data (off + 8 + len) (min bodyLen (data.length - (off + 8 + len))))
            (decide (off + 8 + len + bodyLen ≤ data.length)) sc ds
          if r.stop then r.rows else r.rows ++ arrowStream pr data fuel (off + 8 + len + bodyLen) r.schema r.dicts
      | _, _ => [faultRow pr none (some .truncated)]

/-- R208: the rows of an ARROW input. -/
def arrowRows (pr : ScanParams) (data : List Byte) : List SourceRow := arrowStream pr data (data.length + 1) 0 none []

end Sys2Proof.Machine
end

