-- ==== Sys2Proof/Machine/Parquet.lean ====
section
/-!
DEFINITION. PARQUET input of SCAN: the chunk directory, Thrift page headers, levels and value encodings (R209; the format
itself is PRESUMED from the Apache Parquet and Thrift compact specifications, log entry 46).
-/

namespace Sys2Proof.Machine

/-! ## Thrift compact -/

/-- An unsigned varint at a position, with the position after it. -/
def readVar (b : List Byte) : Nat → Nat → Nat → Nat → Option (Nat × Nat)
  | 0, _, _, _ => none
  | fuel + 1, pos, shift, acc =>
    (b[pos]?).bind (fun c =>
      let v := acc + (c.toNat % 128) <<< shift
      if c.toNat < 128 then some (v, pos + 1) else readVar b fuel (pos + 1) (shift + 7) v)

def varAt (b : List Byte) (pos : Nat) : Option (Nat × Nat) := readVar b 10 pos 0 0

/-- The zigzag value of a varint. -/
def zigzag (n : Nat) : Int := if n % 2 = 0 then (n / 2 : Int) else -((n / 2 : Int) + 1)

/-- The integer and boolean fields of a struct at a position, each with the path of its field IDs, and the position after
the struct; a list or a map makes it unreadable. `open_` holds the last field ID of every struct not yet ended. -/
def thriftFields (b : List Byte) : Nat → Nat → List Nat → List (List Nat × Int) → Option (List (List Nat × Int) × Nat)
  | 0, _, _, _ => none
  | _, pos, [], acc => some (acc.reverse, pos)
  | fuel + 1, pos, last :: outer, acc =>
    (b[pos]?).bind (fun h =>
      let ty := h.toNat % 16
      if h = 0 then thriftFields b fuel (pos + 1) outer acc
      else
        let idAt : Option (Nat × Nat) :=
          if h.toNat / 16 = 0 then (varAt b (pos + 1)).map (fun v => ((zigzag v.1).toNat, v.2))
          else some (last + h.toNat / 16, pos + 1)
        idAt.bind (fun i =>
          let open_ := i.1 :: outer
          let path := (open_.reverse)
          match ty with
          | 1 => thriftFields b fuel i.2 open_ ((path, 1) :: acc)
          | 2 => thriftFields b fuel i.2 open_ ((path, 0) :: acc)
          | 3 => thriftFields b fuel (i.2 + 1) open_ acc
          | 4 | 5 | 6 => (varAt b i.2).bind (fun v => thriftFields b fuel v.2 open_ ((path, zigzag v.1) :: acc))
          | 7 => thriftFields b fuel (i.2 + 8) open_ acc
          | 8 => (varAt b i.2).bind (fun v => thriftFields b fuel (v.2 + v.1) open_ acc)
          | 12 => thriftFields b fuel i.2 (0 :: open_) acc
          | _ => none))

/-- A field of a page header by its path. -/
def pageField (l : List (List Nat × Int)) (path : List Nat) : Option Int := (l.find? (fun e => e.1 = path)).map (·.2)

/-! ## Encodings -/

/-- `n` values of `w` bits packed from bit position `pos`, lowest bit first. -/
def unpackBits (b : List Byte) (pos w n : Nat) : List Nat := (List.range n).map (fun i => field b (pos + i * w) w)

/-- `n` values of the RLE/bit-packed hybrid of width `w`; `none` where they run out. -/
def rleHybrid (b : List Byte) (w : Nat) : Nat → Nat → Nat → Option (List Nat)
  | _, _, 0 => some []
  | 0, _, _ => none
  | fuel + 1, pos, n =>
    (varAt b pos).bind (fun h =>
      if h.1 % 2 = 1 then
        let k := h.1 / 2 * 8
        let bytes := h.1 / 2 * w
        if b.length < h.2 + ceilDiv (min k n * w) 8 ∨ k = 0 then none
        else (rleHybrid b w fuel (h.2 + bytes) (n - k)).map (fun r => unpackBits b (8 * h.2) w (min k n) ++ r)
      else
        let len := ceilDiv w 8
        if b.length < h.2 + len ∨ h.1 = 0 then none
        else (rleHybrid b w fuel (h.2 + len) (n - h.1 / 2)).map (fun r =>
          List.replicate (min (h.1 / 2) n) (leNat (slice b h.2 len)) ++ r))

/-- Bits that a level up to a maximum takes. -/
def levelBits (m : Nat) : Nat := if m = 0 then 0 else m.log2 + 1

/-- A value of a page. -/
inductive PVal where
  | num (n : Num)
  | bytes (b : List Byte)
  deriving DecidableEq, Repr

/-- Bytes of a fixed-width value of a physical type (R209). -/
def physBytes (phys typeLen : Nat) : Nat :=
  match phys with
  | 1 | 4 => 4
  | 2 | 5 => 8
  | 7 => typeLen
  | _ => 0

/-- A fixed-width value from its bytes. -/
def physValue (phys : Nat) (b : List Byte) : PVal :=
  match phys with
  | 1 => .num (.int (signed 32 (leNat b)))
  | 2 => .num (.int (signed 64 (leNat b)))
  | 4 => .num (.code .fp32 (leNat b))
  | 5 => .num (.real (decodeFloat fmt64 (leNat b)))
  | _ => .bytes b

/-- `n` PLAIN byte arrays: a 32-bit length before each. -/
def plainArrays (b : List Byte) : Nat → Nat → Option (List PVal)
  | 0, _ => some []
  | n + 1, pos =>
    if b.length < pos + 4 then none
    else
      let len := leNat (slice b pos 4)
      if b.length < pos + 4 + len then none
      else (plainArrays b n (pos + 4 + len)).map (fun r => .bytes (slice b (pos + 4) len) :: r)

/-- `n` PLAIN values. -/
def plainValues (phys typeLen : Nat) (b : List Byte) (n : Nat) : Option (List PVal) :=
  if phys = 0 then (if b.length < ceilDiv n 8 then none else some ((unpackBits b 0 1 n).map (fun v => .num (.int v))))
  else if phys = 6 then plainArrays b n 0
  else
    let w := physBytes phys typeLen
    if b.length < n * w then none else some ((List.range n).map (fun i => physValue phys (slice b (i * w) w)))

/-- `n` values of BYTE_STREAM_SPLIT: byte `j` of every value stands in stream `j`. -/
def splitValues (phys typeLen : Nat) (b : List Byte) (n : Nat) : Option (List PVal) :=
  let w := physBytes phys typeLen
  if w = 0 ∨ b.length ≠ n * w then none
  else some ((List.range n).map (fun i => physValue phys ((List.range w).map (fun j => b.getD (j * n + i) 0))))

/-- The deltas of one block's miniblocks, each of `per` values. -/
def deltaMinis (b : List Byte) (per : Nat) : List Nat → Nat → Option (List Nat × Nat)
  | [], pos => some ([], pos)
  | w :: ws, pos =>
    (deltaMinis b per ws (pos + per * w / 8)).map (fun r => (unpackBits b (8 * pos) w per ++ r.1, r.2))

/-- The deltas of the blocks until `n` have been read. -/
def deltaBlocks (b : List Byte) (minis per : Nat) : Nat → Nat → Nat → Option (List Int)
  | _, _, 0 => some []
  | 0, _, _ => none
  | fuel + 1, pos, n =>
    (varAt b pos).bind (fun m =>
      let need_ := min minis (ceilDiv n per)
      let ws := ((List.range need_).map (fun k => (b.getD (m.2 + k) 0).toNat))
      (deltaMinis b per ws (m.2 + minis)).bind (fun r =>
        if b.length < r.2 then none
        else
          let ds := (r.1.take n).map (fun d => zigzag m.1 + (d : Int))
          (deltaBlocks b minis per fuel r.2 (n - ds.length)).map (fun rest => ds ++ rest)))

/-- Running sums from a first value. -/
def runningSums : Int → List Int → List Int
  | x, [] => [x]
  | x, d :: ds => x :: runningSums (x + d) ds

/-- `n` values of DELTA_BINARY_PACKED, wrapping at the width of the type. -/
def deltaValues (phys : Nat) (b : List Byte) (n : Nat) : Option (List PVal) :=
  let w := if phys = 1 then 32 else 64
  (varAt b 0).bind (fun block => (varAt b block.2).bind (fun minis => (varAt b minis.2).bind (fun count =>
    (varAt b count.2).bind (fun first =>
      if minis.1 = 0 ∨ block.1 % minis.1 ≠ 0 ∨ block.1 = 0 ∨ count.1 ≠ n then none
      else if n = 0 then some []
      else (deltaBlocks b minis.1 (block.1 / minis.1) (b.length + 1) first.2 (n - 1)).map (fun ds =>
        (runningSums (zigzag first.1) ds).map (fun v => .num (.int (BitVec.ofInt w v).toInt)))))))

/-- `n` values of a page: `none` is PARSE. -/
def pageValues (phys typeLen enc : Nat) (b : List Byte) (n : Nat) (dict : Option (List PVal)) : Option (List PVal) :=
  match enc with
  | 0 => plainValues phys typeLen b n
  | 3 => if b.length < 4 then none else (rleHybrid (b.drop 4) 1 (b.length + 1) 0 n).map (fun l => l.map (fun v => .num (.int v)))
  | 5 => deltaValues phys b n
  | 8 =>
    if n = 0 then some []
    else match b, dict with
      | w :: rest, some d => (rleHybrid rest w.toNat (b.length + 1) 0 n).bind (fun l => l.mapM (fun i => d[i]?))
      | _, _ => none
  | _ => splitValues phys typeLen b n

/-- R209: the encoding is accepted for a physical type. -/
def encodingOk (phys enc : Nat) : Bool :=
  enc = 0 || enc = 8 || (enc = 3 && phys = 0) || (enc = 5 && (phys = 1 || phys = 2)) ||
    (enc = 9 && (phys = 1 || phys = 2 || phys = 4 || phys = 5 || phys = 7))

/-! ## Chunks (R209) -/

/-- A directory entry. -/
structure Chunk where
  offset : Nat
  length : Nat
  rowCount : Nat
  column : Nat
  phys : Nat
  codec : Nat
  maxDef : Nat
  maxRep : Nat
  typeLen : Nat
  reserved : Nat
  deriving DecidableEq, Repr

/-- R209: the entries of IN2. -/
def chunkEntries (b : List Byte) : List Chunk :=
  (List.range (b.length / 32)).map (fun i =>
    let e := slice b (32 * i) 32
    { offset := field e 0 64, length := field e 64 64, rowCount := field e 128 32, column := field e 160 16,
      phys := field e 176 3, codec := field e 179 3, maxDef := field e 182 3, maxRep := field e 185 3,
      typeLen := field e 192 32, reserved := field e 188 4 + field e 224 32 })

/-- One row of a chunk: a fault, a status that ends the operator, or its cells, each a value or a null with its
definition level. -/
inductive ChunkRow where
  | fault (r : RejectReason)
  | stop (st : Status)
  | cells (l : List (Nat × Option PVal))
  deriving DecidableEq, Repr

/-- Values dealt to the entries at the maximum definition level. -/
def dealValues (maxDef : Nat) : List Nat → List PVal → List (Nat × Option PVal)
  | [], _ => []
  | d :: ds, vs =>
    if d = maxDef then
      match vs with
      | v :: rest => (d, some v) :: dealValues maxDef ds rest
      | [] => (d, none) :: dealValues maxDef ds []
    else (d, none) :: dealValues maxDef ds vs

/-- Entries cut into rows at repetition level 0. -/
def cutRows (reps : List Nat) (cells : List (Nat × Option PVal)) : List (List (Nat × Option PVal)) :=
  ((reps.zip cells).foldl
    (fun (acc : List (List (Nat × Option PVal))) e =>
      match acc with
      | row :: rest => if e.1 = 0 then [e.2] :: row :: rest else (row ++ [e.2]) :: rest
      | [] => [[e.2]]) []).reverse

/-- Level sections of a data page: repetition levels, definition levels, and the value bytes. -/
def pageLevels (c : Chunk) (v2 : Bool) (repLen defLen n : Nat) (b : List Byte) : Option (List Nat × List Nat × List Byte) :=
  if v2 then
    let reps := if c.maxRep = 0 then some (List.replicate n 0) else rleHybrid (slice b 0 repLen) (levelBits c.maxRep) (repLen + 1) 0 n
    let defs := if c.maxDef = 0 then some (List.replicate n 0)
      else rleHybrid (slice b repLen defLen) (levelBits c.maxDef) (defLen + 1) 0 n
    if b.length < repLen + defLen then none
    else reps.bind (fun r => defs.map (fun d => (r, d, b.drop (repLen + defLen))))
  else
    let section_ (m : Nat) (x : List Byte) : Option (List Nat × List Byte) :=
      if m = 0 then some (List.replicate n 0, x)
      else if x.length < 4 then none
      else
        let len := leNat (slice x 0 4)
        if x.length < 4 + len then none
        else (rleHybrid (slice x 4 len) (levelBits m) (len + 1) 0 n).map (fun l => (l, x.drop (4 + len)))
    (section_ c.maxRep b).bind (fun r => (section_ c.maxDef r.2).map (fun d => (r.1, d.1, d.2)))

/-- What a data page gives: its rows, or that it carries rows, how many cannot be read, that are rejected. -/
inductive PageRows where
  | rows (l : List ChunkRow)
  | lost (r : RejectReason)
  deriving DecidableEq, Repr

/-- R209, R216: the optional CRC of a page fits its bytes. -/
def pageCrcOk (h : List (List Nat × Int)) (b : List Byte) : Bool :=
  ((pageField h [4]).map (fun v => decide ((BitVec.ofInt 32 v).toNat = (tapCheck 1 b).toNat))).getD true

/-- R209, R216, R217: the rows of one data page; a fault rejects every row that it carries. -/
def dataPage (c : Chunk) (h : List (List Nat × Int)) (v2 : Bool) (b : List Byte) (dict : Except RejectReason (List PVal)) : PageRows :=
  let at_ (i : Nat) : Nat := ((pageField h [if v2 then 8 else 5, i]).getD 0).toNat
  let n := at_ 1
  let enc := if v2 then at_ 4 else at_ 2
  let levels := pageLevels c v2 (at_ 6) (at_ 5) n b
  let levelsRle : Bool := v2 || ((c.maxDef = 0 || at_ 3 = 3) && (c.maxRep = 0 || at_ 4 = 3))
  let bad (r : RejectReason) : PageRows :=
    if v2 then .rows (List.replicate (at_ 3) (.fault r))
    else if c.maxRep = 0 then .rows (List.replicate n (.fault r))
    else match levels with
      | none => .lost r
      | some x => .rows (List.replicate (x.1.filter (· = 0)).length (.fault r))
  if !encodingOk c.phys enc ∨ !levelsRle then .rows [.stop .unsupported]
  else if !pageCrcOk h b then bad .bodyCheck
  else match levels with
    | none => bad .parse
    | some (reps, defs, vals) =>
      if reps.any (fun r => decide (c.maxRep < r)) ∨ defs.any (fun d => decide (c.maxDef < d)) then bad .parse
      else match dict, enc with
        | .error r, 8 => bad r
        | _, _ => match pageValues c.phys c.typeLen enc vals (defs.filter (· = c.maxDef)).length dict.toOption with
          | none => bad .parse
          | some vs => .rows ((cutRows reps (dealValues c.maxDef defs vs)).map .cells)

/-- R209: the pages of a chunk in order, from a position, with the dictionary read so far; the CRC of a dictionary page is checked as
well, and spoils the rows of the pages that use it. -/
def chunkPages (data : List Byte) (c : Chunk) : Nat → Nat → Except RejectReason (List PVal) → List PageRows
  | 0, _, _ => []
  | fuel + 1, pos, dict =>
    if c.offset + c.length ≤ pos ∨ data.length ≤ pos then []
    else match thriftFields data (data.length + 1) pos [0] [] with
      | none => []
      | some (h, p) =>
        let size := ((pageField h [3]).getD 0).toNat
        let b := slice data p size
        if c.offset + c.length < p + size ∨ data.length < p + size then []
        else match (pageField h [1]).getD (-1) with
          | 0 => dataPage c h false b dict :: chunkPages data c fuel (p + size) dict
          | 3 => dataPage c h true b dict :: chunkPages data c fuel (p + size) dict
          | 2 =>
            if (pageField h [7, 2]).getD 0 ≠ 0 then [.rows [.stop .unsupported]]
            else chunkPages data c fuel (p + size)
              (if !pageCrcOk h b then .error .bodyCheck
              else match plainValues c.phys c.typeLen b ((pageField h [7, 1]).getD 0).toNat with
                | none => .error .parse
                | some l => .ok l)
          | _ => chunkPages data c fuel (p + size) dict

/-- The rows of pages in order; the first page whose rows cannot be counted takes those that the others leave of the row group (DESIGN
CHOICE, log entry 46). -/
def layPages (spare : Nat) : List PageRows → List ChunkRow
  | [] => []
  | .rows l :: ps => l ++ layPages spare ps
  | .lost r :: ps => List.replicate spare (.fault r) ++ layPages 0 ps

/-- R216: the rows of a chunk, as many as its row group has; rows that its pages do not give are faults, TRUNCATED where the input ends
inside the chunk. -/
def chunkRows (data : List Byte) (c : Chunk) : List ChunkRow :=
  let pages := chunkPages data c (data.length + 1) c.offset (.error .parse)
  let l := layPages (c.rowCount - (layPages 0 pages).length) pages
  (l ++ List.replicate (c.rowCount - l.length)
    (ChunkRow.fault (if data.length < c.offset + c.length then .truncated else .parse))).take c.rowCount

/-! ## Rows -/

/-- R206, R214: a row of a chunk as a field's value. A repeated column's row whose only entry lies at level 0 is absent;
its other nulls are left out (DESIGN CHOICE, log entry 46). -/
def chunkValue (pr : ScanParams) (c : Chunk) (f : ScanField) (l : List (Nat × Option PVal)) : Option Value :=
  if c.maxRep = 0 then
    match l with
    | [(_, some (.num n))] => some (.nums kindScalar [n])
    | [(_, some (.bytes b))] => some (if pr.maxString < b.length then .bad .limit else if f.kind = kindString then .bytes b else .bad .shape)
    | _ => none
  else if l.length = 1 ∧ l.all (fun e => e.1 = 0 && e.2.isNone) then none
  else
    let vs := l.filterMap (·.2)
    let nums := vs.filterMap (fun v => match v with
      | .num n => some n
      | .bytes _ => none)
    if pr.maxList < vs.length then some (.bad .limit)
    else if nums.length ≠ vs.length then some (.bad .shape)
    else some (.nums (if f.kind = kindTensor then kindTensor else kindList) nums)

/-- The columns of a row group: entries until the first one's column comes again. -/
def groupWidth (l : List Chunk) : Nat :=
  match l with
  | [] => 0
  | c :: cs => 1 + (cs.takeWhile (fun x => x.column ≠ c.column)).length

/-- The rows of one row group. -/
def groupRows (pr : ScanParams) (data : List Byte) (g : List Chunk) : List SourceRow :=
  let n := (g.map (·.rowCount)).headD 0
  let cols : List (Chunk × List ChunkRow) := g.map (fun c => (c, if c.rowCount = n then chunkRows data c else List.replicate n (ChunkRow.fault .parse)))
  (List.range n).map (fun r =>
    let cells := cols.map (fun x => (x.1, x.2.getD r (ChunkRow.fault .parse)))
    { stop := cells.findSome? (fun x => match x.2 with
        | .stop st => some st
        | _ => none)
      fault := cells.findSome? (fun x => match x.2 with
        | .fault y => some y
        | _ => none)
      vals := pr.fields.map (fun f => (cells.find? (fun x => x.1.column = f.src)).bind (fun x => match x.2 with
        | .cells l => chunkValue pr x.1 f l
        | _ => none))
      offset := 0
      next := 0 })

/-- R209: statuses at operator start; a column that no entry gives is UNSUPPORTED, as in R208 (DESIGN CHOICE, log entry
46). -/
def parquetStart (pr : ScanParams) (dir : List Byte) : Option Status :=
  let l := chunkEntries dir
  firstFail
    [ need (l.all (fun c => c.codec = 0 && c.phys ≠ 3 && decide (c.maxRep ≤ pr.maxDepth))) .unsupported,
      need (l.all (fun c => c.reserved = 0)) .implausible,
      need (pr.fields.all (fun f => l.any (fun c => c.column = f.src))) .unsupported ]

/-- R209: the rows of a PARQUET input, row group by row group. -/
def parquetRows (pr : ScanParams) (data dir : List Byte) : List SourceRow :=
  let l := chunkEntries dir
  let w := groupWidth l
  ((chunks w l.length l).map (groupRows pr data)).flatten

end Sys2Proof.Machine
end

