-- ==== Sys2Proof/Machine/Ingest.lean ====
section
/-!
DEFINITION. The Spring ingest pipeline: FALBIN records, discovery, batches and manifests, SCAN and the batch timeout
(chapter 07, R203 to R226).
-/

namespace Sys2Proof.Machine

/-! ## FALBIN records (R207, R214, R215) -/

/-- R207, R120: stored bytes of a field's elements: an A8 field is made of rows, each with its scale, of its first dimension or of all its
elements (DEDUCED, log entry 47). -/
def storedBytes (kind : Nat) (fmt : Format) (dims : List Nat) (n : Nat) : Nat :=
  if kind = kindString then n
  else if fmt = .a8 then
    (if kind = kindTensor then (4 + dims.headD 0) * (dims.drop 1).foldl (· * ·) 1 else 4 + n)
  else n * elemBytes fmt

/-- A field of a record: kind, format, element count, stored bytes, dimensions, and whether they are a Pumice frame. -/
structure RawField where
  ident : Nat
  kind : Nat
  fmt : Format
  count : Nat
  dims : List Nat
  compressed : Bool
  data : List Byte
  deriving DecidableEq, Repr

/-- R207: one field header at a position, judged for structure (PARSE), then against the limits of R214; with it the
position after the field. -/
def rawField (pr : ScanParams) (rec_ : List Byte) (pos : Nat) : Except RejectReason (RawField × Nat) :=
  if rec_.length < pos + 16 then .error .parse
  else
    let b := slice rec_ pos 16
    let kind := field b 16 4
    let rank := field b 21 3
    let fmt := (formatOf (field b 24 8)).getD .b8
    let len := field b 32 32
    let cnt := field b 64 32
    let comp : Bool := field b 20 1 = 1
    if 3 < kind ∨ isCell fmt ∨ (comp ∧ kind ≠ kindTensor) ∨ (kind ≠ kindTensor ∧ rank ≠ 0) ∨
        (kind = kindTensor ∧ rank = 0) ∨ field b 96 32 ≠ 0 then .error .parse
    else if 6 < rank then .error .limit
    else
      let dimLen := if kind = kindTensor then roundUp (4 * rank) 8 else 0
      let dims := if kind = kindTensor then (List.range rank).map (fun k => leNat (slice rec_ (pos + 16 + 4 * k) 4)) else []
      let n := if kind = kindTensor then dims.foldl (· * ·) 1 else cnt
      let at_ := pos + 16 + dimLen
      if rec_.length < at_ ∨ (kind = kindScalar ∧ cnt ≠ 1) ∨ (kind = kindTensor ∧ cnt ≠ 0) then .error .parse
      else if dims.any (fun d => decide (2 ^ 24 < d)) ∨ (kind = kindString ∧ pr.maxString < n) ∨
          (kind = kindList ∧ pr.maxList < n) then .error .limit
      else if (!comp ∧ len ≠ storedBytes kind fmt dims n) ∨ rec_.length < at_ + roundUp len 8 then .error .parse
      else
        .ok ({ ident := field b 0 16, kind := kind, fmt := fmt, count := n, dims := dims, compressed := comp,
               data := slice rec_ at_ len }, at_ + roundUp len 8)

/-- R207: the fields of a record from a position; bytes after the last field are malformed. -/
def rawFields (pr : ScanParams) (rec_ : List Byte) : Nat → Nat → Except RejectReason (List RawField)
  | 0, pos => if pos = rec_.length then .ok [] else .error .parse
  | n + 1, pos => (rawField pr rec_ pos).bind (fun f => (rawFields pr rec_ n f.2).map (fun l => f.1 :: l))

/-- R214: the sums over all fields of a record. -/
def sumsOk (l : List RawField) : Bool := sumsWithin (l.map (fun f => (f.count, storedBytes f.kind f.fmt f.dims f.count)))

/-- R215: the original bytes of a compressed field. -/
def expandField (f : RawField) : Except RejectReason (List Byte) :=
  let h := parseFrameHeader f.data
  let n := storedBytes f.kind f.fmt f.dims f.count
  let inner := ((f.dims.take (f.dims.length - 1)).zipIdx.all (fun (d, k) => h.dimM1.getD k 0 + 1 = d))
  let outer := h.origLen / max 1 (((formatOf h.format).map elemBytes).getD 1 *
    ((h.dimM1.take (h.rank - 1)).map (· + 1)).foldl (· * ·) 1)
  if f.data.length < 48 ∨ !frameHeaderOk f.data 0 ∨ field f.data 32 8 ≠ 1 ∨ !frameFieldsOk f.data then .error .decode
  else if h.origLen ≠ n ∨ (h.dims ∧ (h.rank ≠ f.dims.length ∨ !inner ∨ f.dims.getLast? ≠ some outer)) then .error .implausible
  else if expansionBound f.data.length < h.origLen then .error .implausible
  else match decodeFrame f.data Decoder.start none 0 with
    | .finished d => .ok d.out
    | _ => .error .decode

/-- R207: a record field as a value. -/
def rawValue (f : RawField) : Except RejectReason Value :=
  if f.kind = kindString then .ok (.bytes f.data)
  else
    let bs : Except RejectReason (List Byte) := if f.compressed then expandField f else .ok f.data
    bs.map (fun b =>
      if f.fmt = .a8 then
        let w := if f.kind = kindTensor then f.dims.headD 0 else f.count
        .nums f.kind ((chunks (4 + w) b.length b).flatMap (fun row => (a8Vals row w).map .real))
      else .nums f.kind ((rowCodes f.fmt b f.count).map (.code f.fmt)))

/-- R207, R216: the values of a FALBIN record by field entry, the first field of an ID being taken. -/
def falbinValues (pr : ScanParams) (rec_ : List Byte) : Except RejectReason (List (Option Value)) :=
  (rawFields pr rec_ (field rec_ 40 8) 32).bind (fun l =>
    if !sumsOk l then .error .limit
    else pr.fields.mapM (fun f => match l.find? (fun x => x.ident = f.src) with
      | none => .ok none
      | some x => (rawValue x).map some))

/-! ## Discovery (R211, R213, R217) -/

/-- What discovery and parsing make of the record at a place: the place after it, its ID where known, and its row or the
reason of its rejection; bytes that resynchronisation skipped. -/
structure Judged where
  next : Nat
  ident : Option Nat
  result : Except RejectReason Accepted
  resync : Nat

/-- R207, R216: a header field is out of range. -/
def falbinHeaderBad (h : List Byte) : Bool :=
  let len := field h 0 32
  decide ((crc32c (h.take 28)).toNat ≠ field h 224 32) || decide (len < 32) || len % 8 ≠ 0 || field h 40 8 = 0 ||
    field h 48 16 ≠ 0 || field h 160 32 ≠ 0

/-- R217: the next 8-byte-aligned offset with a header that passes, or the end of the input. -/
def resyncFrom (pr : ScanParams) (data : List Byte) : Nat → Nat → Nat
  | 0, _ => data.length
  | fuel + 1, off =>
    if data.length < off + 32 then data.length
    else
      let h := slice data off 32
      if (crc32c (h.take 28)).toNat = field h 224 32 ∧ field h 32 8 = 1 ∧ field h 128 32 = pr.schemaId then off
      else resyncFrom pr data fuel (off + 8)

/-- The reserved sample ID (R207). -/
def noId : Nat := 0xFFFFFFFFFFFFFFFF

/-- R212: the ID of a later record of the batch. -/
def duplicate (seen : List Nat) (id : Nat) : Bool := id = noId || seen.contains id

/-- R207, R216: the FALBIN record at an offset. -/
def judgeFalbin (pr : ScanParams) (aug : Option (List Byte)) (width : Nat) (data : List Byte) (seen : List Nat) (off : Nat) :
    Judged :=
  let left := data.length - off
  let h := slice data off 32
  let len := field h 0 32
  let id := field h 64 64
  let out (r : Except RejectReason Accepted) : Judged := { next := off + min len left, ident := some id, result := r, resync := 0 }
  if left < 32 then { next := data.length, ident := none, result := .error .truncated, resync := 0 }
  else if falbinHeaderBad h then
    let next := resyncFrom pr data (data.length + 1) (off + 8)
    { next := next, ident := none, result := .error .hdrCheck, resync := next - off }
  else if 268435456 < len then out (.error .limit)
  else if left < len then out (.error .truncated)
  else if field h 32 8 ≠ 1 ∨ field h 128 32 ≠ pr.schemaId then out (.error .schema)
  else if duplicate seen id then out (.error .dupId)
  else
    let rec_ := slice data off len
    if (crc32c (rec_.drop 32)).toNat ≠ field h 192 32 then out (.error .bodyCheck)
    else out ((falbinValues pr rec_).bind (acceptRecord pr aug width id))

/-- R212: the sample ID of a row of the other formats; with ID_FROM_FIELD it is unknown where the field is absent or
unreadable. -/
def rowIdent (pr : ScanParams) (ordinal : Nat) (x : SourceRow) : Option Nat :=
  if !pr.idFromField then some ((pr.idBase + ordinal) % 2 ^ 64)
  else match pr.fields[pr.idField]?, x.vals.getD pr.idField none with
    | some f, some v =>
      (match takeValue f v with
      | .ok y => y.codes.head?
      | .error _ => none)
    | _, _ => none

/-- The first reason that a value of a row gives. -/
def badValue (l : List (Option Value)) : Option RejectReason :=
  l.findSome? (fun v => match v with
    | some (.bad r) => some r
    | _ => none)

/-- R212, R216: a CSV, ARROW or PARQUET row; a row without its ID is malformed (DESIGN CHOICE, log entry 47). -/
def judgeRow (pr : ScanParams) (aug : Option (List Byte)) (width : Nat) (seen : List Nat) (ordinal : Nat) (x : SourceRow) :
    Judged :=
  let id := if x.fault.isSome ∧ pr.idFromField then none else rowIdent pr ordinal x
  let out (r : Except RejectReason Accepted) : Judged := { next := x.next, ident := id, result := r, resync := 0 }
  let sizes := ((pr.fields.zip x.vals).map (fun (f, v) => (v.map (valueSize f)).getD (0, 0)))
  match x.fault, (badValue x.vals).orElse (fun _ => if sumsWithin sizes then none else some .limit), id with
  | some r, _, _ => out (.error r)
  | none, some r, _ => out (.error r)
  | none, none, none => out (.error .parse)
  | none, none, some i => if duplicate seen i then out (.error .dupId) else out (acceptRecord pr aug width i x.vals)

/-! ## The input -/

/-- The input of a SCAN: FALBIN bytes, or the rows of another format. -/
inductive ScanInput where
  | falbin (data : List Byte)
  | rows (l : List SourceRow)
  deriving DecidableEq, Repr

/-- The input that an operator's slots give. -/
def scanInput (pr : ScanParams) (c : Ctx) : ScanInput :=
  let data := bytesOf c (c.e.in0.getD 0)
  match pr.inputFormat with
  | 0 => .falbin data
  | 1 => .rows (arrowRows pr data)
  | 2 => .rows (parquetRows pr data ((c.e.in2.map (bytesOf c)).getD []))
  | _ => .rows (csvRows pr data)

/-- R213: no record is left at a place. -/
def inputOver (x : ScanInput) (ordinal off : Nat) : Bool :=
  match x with
  | .falbin d => decide (d.length ≤ off)
  | .rows l => decide (l.length ≤ ordinal)

/-- The status that the record at a place ends the operator with (R208, R209). -/
def inputStop (x : ScanInput) (ordinal : Nat) : Option Status :=
  match x with
  | .falbin _ => none
  | .rows l => (l[ordinal]?).bind (·.stop)

/-- The record at a place judged. -/
def judgeAt (pr : ScanParams) (aug : Option (List Byte)) (width : Nat) (x : ScanInput) (seen : List Nat) (ordinal off : Nat) :
    Judged :=
  match x with
  | .falbin d => judgeFalbin pr aug width d seen off
  | .rows l =>
    judgeRow pr aug width seen ordinal
      (l.getD ordinal { stop := none, fault := some .parse, vals := [], offset := 0, next := off })

/-! ## The batch (R218 to R220, R222) -/

/-- The batch as discovery forms it, with the rows of its slots and the counts of its samples. -/
structure Forming where
  batch : Batch
  rows : List (Option (List Byte))
  nans : Nat
  passed : Nat
  seen : List Nat
  deriving DecidableEq, Repr

/-- A batch with no record yet. -/
def emptyBatch (ordinal off : Nat) : Batch where
  slots := []
  rejects := []
  close := none
  firstOrdinal := ordinal
  nextOrdinal := ordinal
  firstOffset := off
  nextOffset := off
  resyncBytes := 0

/-- R216, R218: one record joins the batch. -/
def joinRecord (pr : ScanParams) (j : Judged) (f : Forming) : Forming :=
  let b := f.batch
  let moved : Batch := { b with nextOrdinal := b.nextOrdinal + 1, nextOffset := j.next, resyncBytes := b.resyncBytes + j.resync }
  match j.result with
  | .ok a =>
    let id := j.ident.getD noId
    { batch := { moved with slots := b.slots ++ [{ ordinal := b.nextOrdinal, offset := b.nextOffset, ident := BitVec.ofNat 64 id, valid := true }] }
      rows := f.rows ++ [some a.row]
      nans := f.nans + a.nans
      passed := f.passed + bitOf a.passed
      seen := id :: f.seen }
  | .error r =>
    let rej : Reject :=
      { ident := BitVec.ofNat 64 (j.ident.getD b.nextOrdinal)
        slot := if pr.hole then some b.slots.length else none
        reason := r
        idKnown := j.ident.isSome }
    let keep := if r = .dupId then noId else j.ident.getD noId
    if pr.hole then
      { f with
        batch := { moved with
          slots := b.slots ++ [{ ordinal := b.nextOrdinal, offset := b.nextOffset, ident := BitVec.ofNat 64 keep, valid := false }]
          rejects := b.rejects ++ [rej] }
        rows := f.rows ++ [none]
        seen := if keep = noId then f.seen else keep :: f.seen }
    else { f with batch := { moved with rejects := b.rejects ++ [rej] } }

/-- R220: how a batch that takes no further record closes. -/
def closeBatch (x : BatchClose) (f : Forming) : Forming := { f with batch := { f.batch with close := some x } }

/-- R211, R220: records are walked until the batch closes; `admits` is how many come before TIMEOUT_US has passed, where it passes: a free
value up to BATCH_ROWS and MAX_REJECTS together (log entry 47). -/
def formBatch (pr : ScanParams) (aug : Option (List Byte)) (width : Nat) (x : ScanInput) :
    Nat → Option Nat → Forming → Except Status Forming
  | 0, _, f => .ok (closeBatch .full f)
  | fuel + 1, admits, f =>
    let b := f.batch
    if b.slots.length = pr.batchRows then .ok (closeBatch .full f)
    else if admits = some 0 then .ok (closeBatch .timeout f)
    else if inputOver x b.nextOrdinal b.nextOffset then .ok (closeBatch .endOfInput f)
    else match inputStop x b.nextOrdinal with
      | some st => .error st
      | none =>
        let j := judgeAt pr aug width x f.seen b.nextOrdinal b.nextOffset
        let rejected : Bool := match j.result with
          | .ok _ => false
          | .error _ => true
        if rejected ∧ pr.maxRejects ≤ b.rejects.length then .ok (closeBatch .rejectFull f)
        else formBatch pr aug width x fuel (admits.map (· - 1)) (joinRecord pr j f)

/-- R222: the batch of the first attempt: its valid slots are parsed again, everything else stands as it was judged. -/
def rebuildBatch (pr : ScanParams) (aug : Option (List Byte)) (width : Nat) (x : ScanInput) (b : Batch) : Forming :=
  b.slots.foldl
    (fun f v =>
      if !v.valid then { f with rows := f.rows ++ [none] }
      else match (judgeAt pr aug width x [] v.ordinal v.offset).result with
        | .ok a => { f with rows := f.rows ++ [some a.row], nans := f.nans + a.nans, passed := f.passed + bitOf a.passed }
        | .error _ => { f with rows := f.rows ++ [none] })
    { batch := b, rows := [], nans := 0, passed := 0, seen := [] }

/-! ## The manifest (R219) -/

/-- R216: reason codes. -/
def rejectCode : RejectReason → Nat
  | .hdrCheck => 0x1
  | .bodyCheck => 0x2
  | .parse => 0x3
  | .limit => 0x4
  | .implausible => 0x5
  | .shape => 0x6
  | .dupId => 0x7
  | .augMissing => 0x8
  | .augBad => 0x9
  | .truncated => 0xA
  | .schema => 0xB
  | .decode => 0xC

/-- R220: CLOSE codes. -/
def closeCode : BatchClose → Nat
  | .full => 0
  | .timeout => 1
  | .endOfInput => 2
  | .rejectFull => 3

/-- R219: the manifest size for N slots and MAX_REJECTS entries. -/
def manifestSize (n rejects : Nat) : Nat := 64 + 64 * ceilDiv n 512 + 8 * n + 16 * rejects

/-- Valid slots of a batch. -/
def validSlots (b : Batch) : Nat := (b.slots.filter (·.valid)).length

/-- R219: the header of a manifest. -/
def manifestHeader (pr : ScanParams) (step : Nat) (b : Batch) : List Byte :=
  record 64 [(0, step), (64, pr.batchRows), (96, validSlots b), (128, b.rejects.length), (160, (b.close.map closeCode).getD 0),
    (163, bitOf pr.hole), (192, b.firstOrdinal), (256, b.nextOrdinal), (320, b.firstOffset), (384, b.nextOffset)]

/-- R219: the validity bitmap. -/
def validBits (n : Nat) (b : Batch) : List Byte :=
  natLE ((b.slots.zipIdx.map (fun (v, i) => bitOf v.valid <<< i)).sum) (64 * ceilDiv n 512)

/-- R219: the sample IDs, one per slot. -/
def slotIds (n : Nat) (b : Batch) : List Byte :=
  ((List.range n).map (fun i => natLE (((b.slots[i]?).map (·.ident.toNat)).getD noId) 8)).flatten

/-- R219: a reject entry. -/
def rejectEntry (r : Reject) : List Byte :=
  record 16 [(0, r.ident.toNat), (64, r.slot.getD 0xFFFFFFFF), (96, rejectCode r.reason), (104, bitOf r.idKnown)]

/-- R219: the manifest of a batch. -/
def manifestBytes (pr : ScanParams) (step : Nat) (b : Batch) : List Byte :=
  manifestHeader pr step b ++ validBits pr.batchRows b ++ slotIds pr.batchRows b ++ (b.rejects.map rejectEntry).flatten ++
    zeros (16 * (pr.maxRejects - b.rejects.length))

/-! ## SCAN -/

/-- R204, R205: a field entry is well formed for rows of `width` bytes. -/
def scanFieldOk (pr : ScanParams) (p : List Byte) (width i : Nat) : Bool :=
  let b := slice p (64 + 16 * i) 16
  match pr.fields[i]? with
  | none => false
  | some f =>
    decide (f.kind ≤ 3) && field b 20 4 = 0 && field b 96 32 = 0 && !isPacked f.fmt && decide (8 ≤ f.dstOff) &&
      f.dstOff % max (fieldElem f) 1 = 0 && decide (1 ≤ f.capacity) && (f.kind ≠ kindScalar || f.capacity = 1) &&
      decide ((fieldSpan f).2 ≤ width) && (pr.inputFormat ≠ 3 || f.kind = kindScalar || f.kind = kindString) &&
      (pr.fields.zipIdx.all (fun (g, j) => j = i || decide ((fieldSpan g).2 ≤ f.dstOff) || decide ((fieldSpan f).2 ≤ g.dstOff)))

/-- R204: reserved bits of the header. -/
def scanReservedOk (p : List Byte) : Bool :=
  decide (field p 0 4 ≤ 3) && field p 23 1 = 0 && field p 30 2 = 0 && field p 259 29 = 0 && field p 320 192 = 0

/-- R203 to R205, R219: PLAN_LOAD's checks of a SCAN entry, operator `k`: a second SCAN fails. -/
def scanCheck (b : PlanBinary) (k : Nat) (e : OpEntry) : Option Status :=
  let pr := scanParams e.params
  let o := slotDesc b e.out0
  let m := slotDesc b e.out1
  let flat (v : Option Nat) : Bool := (v.map (fun k => (descOf b k).format = .u8 && (descOf b k).rank = 1)).getD true
  let bytes (v : Option Nat) : Bool := flat v && (v.map (fun k => decide ((descOf b k).space = .session))).getD true
  firstFail
    [ need ((b.ops.take k).all (fun x => x.op ≠ .scan) &&
        slotsOk e .wanted .optional (if pr.inputFormat = 2 then .wanted else .unused) .wanted .wanted &&
        bytes e.in0 && bytes e.in1 && bytes e.in2 && flat e.out1 && sessionOrEdge b e.out1 && o.format = .u8 && o.rank = 2 &&
        (o.space = .session || o.space = .blocked) && scanReservedOk e.params && decide (1 ≤ pr.fields.length ∧ pr.fields.length ≤ 64) &&
        e.params.length = 64 + 16 * pr.fields.length) .badPlan,
      need (decide (1 ≤ pr.batchRows ∧ pr.batchRows ≤ 1048576 ∧ 1 ≤ pr.maxString ∧ pr.maxString ≤ 2 ^ 24 ∧ 1 ≤ pr.maxList ∧
        pr.maxList ≤ 2 ^ 24 ∧ 1 ≤ pr.maxDepth ∧ pr.maxDepth ≤ 4 ∧ 1 ≤ pr.maxRejects ∧ pr.maxRejects ≤ 65536)) .limit,
      need (dimOf o 1 = pr.batchRows && (List.range pr.fields.length).all (scanFieldOk pr e.params (dimOf o 0)) &&
        (!pr.idFromField || ((pr.fields[pr.idField]?).map (fun f => f.kind = kindScalar && f.fmt = .u64)).getD false)) .badPlan,
      need (decide (manifestSize pr.batchRows pr.maxRejects ≤ dimOf m 0)) .limit ]

/-- ARROW and PARQUET rows share their bytes: where a row lies in IN0 and how many bytes a batch took are free values. -/
def columnar (pr : ScanParams) : Bool := pr.inputFormat = 1 || pr.inputFormat = 2

/-- The batch of a columnar input with its offsets at free values (log entry 47). -/
def freeOffsets (pr : ScanParams) (n : Nat) (b : Batch) : Batch :=
  if columnar pr then
    { b with firstOffset := (Config.freeValue n).toNat, nextOffset := (Config.freeValue (n + 1)).toNat }
  else b

/-- R226: the counters of a batch. -/
def scanCounts (pr : ScanParams) (parsed passed : Nat) (b : Batch) : List (Nat × Nat) :=
  let is (l : List RejectReason) : Nat := (b.rejects.filter (fun r => l.contains r.reason)).length
  let checks := is [.hdrCheck, .bodyCheck, .decode]
  let limits := is [.limit, .implausible]
  [(1, b.nextOrdinal - b.firstOrdinal), (2, validSlots b), (3, parsed), (4, checks), (5, limits),
    (6, b.rejects.length - checks - limits), (7, passed),
    (8, bitOf (b.close ≠ some .full && decide (validSlots b < pr.batchRows))), (9, b.resyncBytes)]

/-- R205, R218 to R220, R226: the batch is written: rows, manifest, counters; `first` tells the attempt that forms it. The bytes that a
columnar batch parsed are a free value (log entry 47). -/
def writeBatch (pr : ScanParams) (first : Bool) (f : Forming) (c : Ctx) : Ctx :=
  let n := c.s.freeCount
  let b0 := if first then freeOffsets pr n f.batch else f.batch
  let unfilled : BatchSlot := { ordinal := 0, offset := 0, ident := BitVec.ofNat 64 noId, valid := false }
  let b := { b0 with slots := b0.slots ++ List.replicate (pr.batchRows - b0.slots.length) unfilled }
  let width := dimOf (cDesc c (c.e.out0.getD 0)) 0
  let parsed := if columnar pr then Config.unstated 4 [c.p.nextStep, b.firstOffset, b.nextOffset] else b.nextOffset - b.firstOffset
  let c1 := rowsWrite (c.e.out0.getD 0)
    ((List.range pr.batchRows).map (fun i => (f.rows.getD i none).getD (zeros width))) c
  let c2 := linearWrite (c.e.out1.getD 0) 0 (manifestBytes pr c.p.nextStep b) c1
  let c3 := { c2 with s := takeFresh 2 c2.s, o := { c2.o with batch := some b } }
  bumps (scanCounts pr parsed f.passed b) (countRejected b.rejects.length (countNans f.nans c3))

/-- R219: the IN0 offset of the first record of a batch: past a CSV header. -/
def startOffset (x : ScanInput) (ordinal off : Nat) : Nat :=
  match x with
  | .falbin _ => off
  | .rows l => max off (((l[ordinal]?).map (·.offset)).getD off)

/-- R253: what taps see of a SCAN: Spring's reads of the batch's records, of IN1 and of IN2, whose order is not stated (log entry 64). -/
def scanTapsSee (pr : ScanParams) (c : Ctx) : Ctx :=
  let all (k : Nat) : List (Nat × Nat) := if isEdgeDesc c.p k then [] else sessionRanges (cDesc c k)
  let here : List (Nat × Nat) := match c.o.batch with
    | some b => if columnar pr then all (c.e.in0.getD 0)
        else [((addressOf (cDesc c (c.e.in0.getD 0)) [(b.firstOffset : Int)]).toNat, b.nextOffset - b.firstOffset)]
    | none => []
  let ranges := here ++ ([c.e.in1, c.e.in2].filterMap id).flatMap all
  { c with s := freeTaps c.p.session (fun i t =>
      if (t.stream = 5 ∧ (springDies c.s c.p.bin).contains (tapDie i)) ∨ t.stream = 6 then windowBytes t ranges else 0) c.s }

/-- SCAN (R211 to R224): the first attempt forms its batch from where discovery stands; a replay rebuilds it (R222); the
manifest of the first attempt is kept. -/
def scanOp (c : Ctx) : OpEnd :=
  let pr := scanParams c.e.params
  let x := scanInput pr c
  let aug := c.e.in1.map (bytesOf c)
  let width := dimOf (cDesc c (c.e.out0.getD 0)) 0
  let keep (c1 : Ctx) : OpEnd :=
    .done (scanTapsSee pr { c1 with s := onRun c1.p.handle (fun r => { r with manifest := c1.o.batch }) c1.s })
  if (aug.map (fun b => (augIndex b).isNone)).getD false then .fail .implausible
  else if c.r.inputEnded ∨ inputOver x c.r.ordinal c.r.offset then .noInput
  else match (if pr.inputFormat = 2 then parquetStart pr ((c.e.in2.map (bytesOf c)).getD []) else none), c.r.manifest with
    | some st, _ => .fail st
    | none, some b => keep (writeBatch pr false (rebuildBatch pr aug width x b) c)
    | none, none =>
      let timed : Bool := (c.o.batch.map (fun b => decide (b.close = some .timeout))).getD false
      let admits := if timed then some ((Config.freeValue c.s.freeCount).toNat % (pr.batchRows + pr.maxRejects + 1)) else none
      let c1 := if timed then { c with s := takeFresh 1 c.s } else c
      let start : Forming :=
        { batch := emptyBatch c.r.ordinal (startOffset x c.r.ordinal c.r.offset), rows := [], nans := 0, passed := 0, seen := [] }
      match formBatch pr aug width x (pr.batchRows + pr.maxRejects + 1) admits start with
      | .error st => .fail st
      | .ok f => keep (writeBatch pr true f c1)

/-- SCAN (R211). -/
def execScan (plan : Word) (op : Nat) (f : ReadFaults) (s : State) : Host.Outcome State Fault Refusal :=
  .next (runOp plan op .scan f wholeOperands scanOp s)

/-- R220: TIMEOUT_US has passed since the step began: a batch that discovery has not closed closes with the records it has
admitted, a free number; a replay applies no timeout (R222). -/
def timeoutBatch (h : Word) (s : State) : State :=
  match planOf s h with
  | none => s
  | some p =>
    let scan := p.bin.ops.zipIdx.find? (fun (e, _) => e.op = .scan)
    match p.run.bind (·.openStep), p.run, scan with
    | some o, some r, some (e, k) =>
      if !isRunning p ∨ o.done.contains k ∨ r.manifest.isSome ∨ (scanParams e.params).timeoutUs = 0 then s
      else onStep h (fun x => { x with batch := some { emptyBatch r.ordinal r.offset with close := some .timeout } }) s
    | _, _, _ => s

/-- BATCH_TIMEOUT (R220). -/
def execBatchTimeout (plan : Word) (s : State) : Host.Outcome State Fault Refusal := .next (timeoutBatch plan s)

end Sys2Proof.Machine
end

