-- ==== Sys2Proof/Machine/Emit.lean ====
section
/-!
DEFINITION. EMIT: records of rows, of results and of manifests, and the room they may take (R171, R221).
-/

namespace Sys2Proof.Machine

/-! ## Parameters (R171) -/

def emitKind (e : OpEntry) : Nat := pf e 0 4
def emitInvalid (e : OpEntry) : Bool := pf e 4 1 = 1
def emitByRow (e : OpEntry) : Bool := pf e 5 1 = 1

/-! ## Sizes -/

/-- R376, R388: records in a row of a tensor of results and the bytes of each, as the operator that writes it lays them
out; a tensor that no TOPK or MATCH of the plan writes has one record a row (DESIGN CHOICE, log entry 61). -/
def resultForm (b : PlanBinary) (k : Nat) : Nat × Nat :=
  match b.ops.find? (fun o => (o.op = .topk || o.op = .matchOp) && o.out0 = some k) with
  | none => (1, rowDataBytes (descOf b k).format (rowLen (descOf b k)))
  | some o =>
    if o.op = .topk then (1, 64 + 8 * topK o)
    else (if (matchParams o).rowBest then 1 else (matchParams o).keys, 32)

/-- R171: bytes of a record with its header and padding. -/
def emitSize (body : Nat) : Nat := 16 + roundUp body 16

/-- R221: count and body bytes of the parts of a manifest of N slots and so many reject entries. -/
def manifestParts (n rejects : Nat) : List (Nat × Nat) :=
  let rest := n % 4096
  let left := rejects % 4095
  [(1, 64), (n / 4096, 512 + 32768), (bitOf (rest ≠ 0), ceilDiv rest 8 + 8 * rest), (rejects / 4095, 16 * 4095),
    (bitOf (left ≠ 0), 16 * left)].filter (fun e => e.1 ≠ 0)

/-- R171: count and body bytes of the most that an EMIT entry can produce in one step. A MANIFEST in a plan without a
SCAN is taken as one whose reject entries fill IN0 (DESIGN CHOICE, log entry 61). -/
def emitMost (b : PlanBinary) (e : OpEntry) : List (Nat × Nat) :=
  let k := e.in0.getD b.descs.length
  let d := descOf b k
  match emitKind e with
  | 0 => [(rowCount d, rowDataBytes d.format (rowLen d))]
  | 1 => [(rowCount d * (resultForm b k).1, (resultForm b k).2)]
  | _ =>
    match b.ops.find? (fun o => o.op = .scan) with
    | some o => manifestParts (scanParams o.params).batchRows (scanParams o.params).maxRejects
    | none => manifestParts 0 (ceilDiv (dimOf d 0) 16)

/-- R157, R171: the longest record of an EMIT entry. -/
def emitLongest (b : PlanBinary) (e : OpEntry) : Nat := ((emitMost b e).map (fun x => emitSize x.2)).foldl max 0

/-- R171: bytes of the hold area that an EMIT entry needs. -/
def emitHold (b : PlanBinary) (e : OpEntry) : Nat := 2 * ((emitMost b e).map (fun x => x.1 * emitSize x.2)).sum

/-- R171, R221: PLAN_LOAD's checks of an EMIT entry. -/
def emitCheck (b : PlanBinary) (e : OpEntry) : Option Status :=
  let i := slotDesc b e.in0
  firstFail
    [ need (slotsOk e .wanted .unused .unused .unused .unused && e.params.length = 16 && pf e 6 122 = 0 &&
        decide (emitKind e ≤ 2) &&
        (emitKind e ≠ 2 || (emitByRow e && i.format = .u8 && i.rank = 1)) &&
        (emitKind e ≠ 1 || (i.format = .u8 && i.rank = 2))) .badPlan,
      need (decide (emitLongest b e ≤ 65536)) .limit ]

/-! ## The operator -/

/-- R171: the sample ID of a row; a row that is no slot of the batch has none, and its key is a free value. -/
def emitIdent (c : Ctx) (k r : Nat) : Word :=
  match c.o.batch with
  | some b =>
    if b.slots.length = rowCount (cDesc c k) then ((b.slots[r]?).map (·.ident)).getD 0
    else BitVec.ofNat 64 (Config.unstated 2 [c.op, r])
  | none => BitVec.ofNat 64 (Config.unstated 2 [c.op, r])

/-- R171, R376, R388: the records of one row. The records of a MATCH have the row index as their key. -/
def emitRow (c : Ctx) (k r : Nat) : List EmitRecord :=
  let row := rowRead c k r
  let form := if emitKind c.e = 1 then resultForm c.p.bin k else (1, row.length)
  let byRow : Bool := emitByRow c.e || decide (emitKind c.e = 1 ∧
    c.p.bin.ops.any (fun o => o.op = .matchOp && o.out0 = some k))
  let key := if byRow then BitVec.ofNat 64 r else emitIdent c k r
  (List.range form.1).map (fun j => { op := c.op, key := key, body := slice row (j * form.2) form.2 })

/-- R221: the parts of a manifest; `none` where its header asks for more than IN0 holds. -/
def emitManifest (c : Ctx) (k : Nat) : Option (List EmitRecord) :=
  let b := bytesOf c k
  let n := field b 64 32
  let used := field b 128 32
  let ids := 64 + 64 * ceilDiv n 512
  let bad := ids + 8 * n
  if b.length < bad + 16 * used then none
  else
    let slots := (List.range (ceilDiv n 4096)).map (fun q =>
      let m := min 4096 (n - q * 4096)
      slice b (64 + q * 512) (ceilDiv m 8) ++ slice b (ids + q * 32768) (8 * m))
    let rejects := (List.range (ceilDiv used 4095)).map (fun q =>
      slice b (bad + q * 65520) (16 * min 4095 (used - q * 4095)))
    some (((slice b 0 64 :: slots ++ rejects).zipIdx).map (fun (bs, i) =>
      { op := c.op, key := BitVec.ofNat 64 i, body := bs }))

/-- EMIT (R171, R172): records are held in ascending canonical position; rows of invalid slots are skipped unless
INCLUDE_INVALID. While two steps' records are held, the hold area is full and the operator waits. A MANIFEST whose IN0
is no manifest ends the run IMPLAUSIBLE (DESIGN CHOICE, log entry 61). -/
def emitBody (c : Ctx) : OpEnd :=
  let k := c.e.in0.getD 0
  if 2 ≤ c.r.queue.length then .hold c
  else
    let keep (l : List EmitRecord) (c1 : Ctx) : OpEnd := .done { c1 with o := { c1.o with emits := c1.o.emits ++ l } }
    if emitKind c.e = 2 then
      match emitManifest c k with
      | none => .fail .implausible
      | some l => keep l c
    else
      let rows := (canonicalRows c k).filter (fun r => emitKind c.e = 1 || emitInvalid c.e || !rowInvalid c k r)
      keep (rows.flatMap (emitRow c k)) c

/-- EMIT (R171). -/
def execEmit (plan : Word) (op : Nat) (f : ReadFaults) (s : State) : Host.Outcome State Fault Refusal :=
  .next (runOp plan op .emit f wholeOperands emitBody s)

end Sys2Proof.Machine
end

