-- ==== Sys2Proof/Machine/PlanLoad.lean ====
section
/-!
DEFINITION. PLAN_LOAD: the plan binary, its checks in their order, placement and what a loaded plan reserves (R145 to R153,
R171, R560).
-/

namespace Sys2Proof.Machine

/-! ## The sections of a plan binary (R145 to R149) -/

/-- R145: fields of the plan header. -/
def planStages (b : List Byte) : Nat := field b 64 16
def planEdges (b : List Byte) : Nat := field b 80 16
def planBinds (b : List Byte) : Nat := field b 96 16
def planOpCount (b : List Byte) : Nat := field b 128 32
def planDescs (b : List Byte) : Nat := field b 160 32
def planParams (b : List Byte) : Nat := field b 192 32
def planTotal (b : List Byte) : Nat := field b 224 32

/-- R146: offset and size of each section, in the order of the header. -/
def planSections (b : List Byte) : List (Nat × Nat) :=
  [(field b 256 32, 32 * planStages b), (field b 288 32, 32 * planOpCount b), (field b 320 32, 128 * planDescs b),
    (field b 352 32, planParams b), (field b 384 32, 16 * planEdges b), (field b 416 32, 16 * planBinds b)]

/-- Offset of entry `k` of a section. -/
def stageOff (b : List Byte) (k : Nat) : Nat := field b 256 32 + 32 * k
def opOff (b : List Byte) (k : Nat) : Nat := field b 288 32 + 32 * k
def descOff (b : List Byte) (k : Nat) : Nat := field b 320 32 + 128 * k
def edgeOff (b : List Byte) (k : Nat) : Nat := field b 384 32 + 16 * k
def bindOff (b : List Byte) (k : Nat) : Nat := field b 416 32 + 16 * k

/-- R147: the classes in code order. -/
def classOfCode : Nat → StageClass
  | 0 => .core
  | 1 => .vent
  | 2 => .spring
  | 3 => .pumice
  | 4 => .layout
  | 5 => .basin
  | 6 => .fabric
  | _ => .host

/-- R147: a stage entry. -/
def parseStage (z : List Byte) : Stage :=
  { firstOp := field z 0 32
    opCount := field z 32 16
    cls := classOfCode (field z 48 4)
    firstOnly := field z 52 1 = 1
    skipDerated := field z 53 1 = 1
    cores := field z 64 16
    craterMask := field z 96 32 }

/-- R150: operators by opcode, with the class of the stages they run in; CHECK runs in any. -/
def operatorOf : Nat → Option (Operator × Option StageClass)
  | 0x01 => some (.scan, some .spring)
  | 0x02 => some (.decode, some .pumice)
  | 0x03 => some (.encode, some .pumice)
  | 0x04 => some (.check, none)
  | 0x05 => some (.relayout, some .layout)
  | 0x10 => some (.filter, some .core)
  | 0x11 => some (.project, some .core)
  | 0x12 => some (.hash, some .core)
  | 0x13 => some (.bucket, some .core)
  | 0x14 => some (.normalise, some .core)
  | 0x15 => some (.stats, some .core)
  | 0x16 => some (.joinBuild, some .vent)
  | 0x17 => some (.joinProbe, some .vent)
  | 0x18 => some (.groupAgg, some .vent)
  | 0x19 => some (.sort, some .core)
  | 0x20 => some (.gather, some .vent)
  | 0x21 => some (.poolGather, some .vent)
  | 0x22 => some (.scatterUpdate, some .vent)
  | 0x30 => some (.dense, some .core)
  | 0x31 => some (.activate, some .core)
  | 0x32 => some (.norm, some .core)
  | 0x33 => some (.interact, some .core)
  | 0x34 => some (.attendShort, some .core)
  | 0x35 => some (.softmax, some .core)
  | 0x36 => some (.denseGrad, some .core)
  | 0x37 => some (.optStep, some .vent)
  | 0x40 => some (.topk, some .core)
  | 0x41 => some (.matchOp, some .basin)
  | 0x50 => some (.exchange, some .fabric)
  | 0x51 => some (.reduce, some .fabric)
  | 0x52 => some (.allgather, some .fabric)
  | 0x53 => some (.barrier, some .fabric)
  | 0x60 => some (.emit, some .host)
  | _ => none

/-- R148: an operand slot. -/
def slotAtBit (z : List Byte) (lo : Nat) : Option Nat :=
  let n := field z lo 32
  if n = 0xFFFFFFFF then none else some n

/-- R148: an operator entry with its parameter block. -/
def parseOp (b : List Byte) (k : Nat) : OpEntry :=
  let z := slice b (opOff b k) 32
  { op := ((operatorOf (field z 0 8)).map (·.1)).getD .emit
    in0 := slotAtBit z 64
    in1 := slotAtBit z 96
    in2 := slotAtBit z 128
    out0 := slotAtBit z 160
    out1 := slotAtBit z 192
    params := slice b (field b 352 32 + field z 32 32) (16 * field z 16 16) }

/-- R149: an edge entry. -/
def parseEdge (z : List Byte) : Edge :=
  { fromStage := field z 0 16, toStage := field z 16 16, desc := field z 32 32, whole := field z 64 1 = 1 }

/-- R149: a binding entry. -/
def parseBinding (z : List Byte) : Binding :=
  { table := BitVec.ofNat 64 (field z 0 64)
    fixed := if field z 64 2 = 1 then some (field z 66 2) else none
    update := field z 68 1 = 1 }

/-- R145: the parts of a plan binary. -/
def parsePlan (b : List Byte) : PlanBinary :=
  { dies := field b 48 2
    fabricRanks := field b 112 16
    stages := (List.range (planStages b)).map (fun k => parseStage (slice b (stageOff b k) 32))
    ops := (List.range (planOpCount b)).map (parseOp b)
    descs := (List.range (planDescs b)).map (fun k => parseDescriptor (slice b (descOff b k) 128))
    edges := (List.range (planEdges b)).map (fun k => parseEdge (slice b (edgeOff b k) 16))
    binds := (List.range (planBinds b)).map (fun k => parseBinding (slice b (bindOff b k) 16)) }

/-! ## Checks 1 to 8 (R151) -/

/-- A failed check: its status and the byte offset of the entry that failed. -/
abbrev LoadFail := Status × Nat

/-- The first of a list of entries that fails a test. -/
def firstBad (n : Nat) (off : Nat → Nat) (bad : Nat → Option Status) : Option LoadFail :=
  (List.range n).findSome? (fun k => (bad k).map (fun st => (st, off k)))

/-- R146: each section starts on a multiple of 64 after the one before it and ends within the binary; an empty one has
offset 0. -/
def sectionsOk (total : Nat) : Nat → List (Nat × Nat) → Bool
  | _, [] => true
  | at_, (off, size) :: rest =>
    if size = 0 then off = 0 && sectionsOk total at_ rest
    else off % 64 = 0 && decide (at_ ≤ off ∧ off + size ≤ total) && sectionsOk total (off + size) rest

/-- R5, R147: reserved fields and values of a stage entry. -/
def stageBad (z : List Byte) : Bool :=
  let g := parseStage z
  decide (7 < field z 48 4) || field z 54 10 ≠ 0 || field z 80 16 ≠ 0 || field z 128 128 ≠ 0 ||
    (g.cls ≠ .core && (g.cores ≠ 0 || g.skipDerated)) || g.cores % 32 ≠ 0

/-- R147: the stages cover the operators once, in order. -/
def stageCovers (b : List Byte) (gs : List Stage) (k : Nat) : Bool :=
  let g := gs.getD k (parseStage [])
  let before := ((gs.take k).map (·.opCount)).sum
  g.firstOp = before && decide (1 ≤ g.opCount ∧ g.opCount ≤ 1024) &&
    (decide (k + 1 < gs.length) || before + g.opCount = planOpCount b)

/-- R151 check 3. -/
def rangesOk (b : List Byte) : Bool :=
  decide (1 ≤ planStages b ∧ planStages b ≤ 256 ∧ planEdges b ≤ 4096 ∧ planBinds b ≤ 64 ∧ 1 ≤ field b 112 16 ∧
    field b 112 16 ≤ 4096 ∧ 1 ≤ planOpCount b ∧ planOpCount b ≤ 16384 ∧ 1 ≤ planDescs b ∧ planDescs b ≤ 16384 ∧
    planParams b ≤ 16 * 2 ^ 20 ∧ planTotal b ≤ 64 * 2 ^ 20)

/-- R151 check 4, the header. -/
def headerOk (b : List Byte) : Bool :=
  planParams b % 16 = 0 && sectionsOk (planTotal b) 64 (planSections b) && field b 48 2 ≠ 3 && field b 50 14 = 0 &&
    field b 448 32 = 0

/-- R151 check 6 of an operator entry: class, descriptor indices, parameter block. -/
def opPlaced (b : List Byte) (p : PlanBinary) (k : Nat) : Bool :=
  let z := slice b (opOff b k) 32
  let e := parseOp b k
  let cls := (stageAt p (stageOfOp p k)).cls
  (match operatorOf (field z 0 8) with
    | some (_, some c) => c = cls
    | _ => true) &&
    (opDescs e).all (fun d => decide (d < planDescs b)) && field z 32 32 % 16 = 0 &&
    decide (field z 32 32 + 16 * field z 16 16 ≤ planParams b)

/-- A check as a test that must hold. -/
def needAt (ok : Bool) (st : Status) (off : Nat) : Option LoadFail := if ok then none else some (st, off)

/-- R140: the movers of operator `k`: the width of each, and the descriptors it reads and writes. -/
def movers (s : State) (b : PlanBinary) (k : Nat) (e : OpEntry) : List (Nat × List (Option Nat) × List (Option Nat)) :=
  let ins := [e.in0, e.in1, e.in2]
  let outs := [e.out0, e.out1]
  match e.op with
  | .scan | .decode | .encode => [(1, ins, []), (64, [], outs)]
  | .check => [(moverWidth (classOfOp b k) false, ins, []), (moverWidth (classOfOp b k) true, [], outs)]
  | .relayout | .joinBuild | .joinProbe | .groupAgg | .gather | .poolGather | .scatterUpdate | .optStep | .exchange | .reduce
  | .allgather | .barrier | .emit => [(64, ins, outs)]
  | .filter | .project | .hash | .bucket | .normalise | .stats | .sort | .activate | .norm | .interact | .attendShort
  | .softmax => [(16, ins, outs)]
  | .dense => [(64, if denseRelay e then [] else [e.in1], []), (16, [e.in0, e.in2], outs)]
  | .denseGrad => if gradWeight e then [(16, ins, outs)] else [(64, [e.in1], []), (16, [e.in0], outs)]
  | .topk => [(if (slotDesc b e.in0).space = .session then 64 else 16, ins, []), (64, [], outs)]
  | .matchOp => if isMember s e then [] else [(64, ins, outs)]

/-- R140, R162: the width that an operand of an operator is moved with beside the operator's own mover: the commit writer's for a step
output, and that of far-tier requests for session pages that are mapped in the far tier (DEDUCED, log entry 61). -/
def sideWidth (s : State) (sid : Nat) (p : PlanBinary) (k : Nat) (write : Bool) (width : Nat) : Nat :=
  let d := descOf p k
  if width = 1 ∨ d.space ≠ .session ∨ onEdge p k then width
  else if write ∨ !nearOnly s sid k p then max width 64
  else width

/-- R135: descriptor `k`, row by row: what concerns it alone, then the movers that use it. RELAYOUT's write map is judged over
its own iteration space, in its own checks (R187). -/
def descriptorCheck (s : State) (sid : Nat) (b : List Byte) (k : Nat) : Option Status :=
  let p := parsePlan b
  let d := descOf p k
  let uses := p.ops.zipIdx.flatMap (fun (e, j) => (movers s p j e).map (fun m => (e.op, m)))
  let reads := uses.filter (fun u => u.2.2.1.contains (some k))
  let writes := uses.filter (fun u => u.2.2.2.contains (some k))
  firstFail
    [ descCheck (slice b (descOff b k) 128),
      need (reads.all (fun u => alignedFor (sideWidth s sid p k false u.2.1) false d) &&
        writes.all (fun u => alignedFor (sideWidth s sid p k true u.2.1) true d)) .align,
      need (writes.all (fun u => u.1 = .relayout || writeMapOk d (ownWriteDims d))) .aliasWrite,
      need (writes.isEmpty || !reduceUnsupported d) .unsupported,
      need (d.space ≠ .blocked || !d.fabric || decide (d.blockCount ≤ 524288)) .limit ]

/-- R151, checks 1 to 8 in order. CORES that is no multiple of 32, and CORES or SKIP_DERATED outside CORE, are reserved values (DEDUCED,
log entry 61); a parameter block above 4,096 units exceeds a size limit (R3). -/
def binaryCheck (s : State) (sid : Nat) (b : List Byte) : Option LoadFail :=
  [ fun (_ : Unit) => needAt (decide (64 ≤ b.length) && b.length = planTotal b && field b 0 32 = 0x4E4C5046 &&
      (crc32c (b.take 60 ++ zeros 4 ++ b.drop 64)).toNat = field b 480 32) .badPlan 0,
    fun _ => needAt (field b 32 16 = 1) .version 0,
    fun _ => needAt (rangesOk b) .limit 0,
    fun _ => needAt (headerOk b) .badPlan 0,
    fun _ => firstBad (planStages b) (stageOff b) (fun k =>
      need (!stageBad (slice b (stageOff b k) 32) && stageCovers b (parsePlan b).stages k) .badPlan),
    fun _ => firstBad (planOpCount b) (opOff b) (fun k =>
      let z := slice b (opOff b k) 32
      need (field z 8 8 = 0 && field z 224 32 = 0) .badPlan),
    fun _ => firstBad (planDescs b) (descOff b) (fun k => need (!descReservedBad (slice b (descOff b k) 128)) .badPlan),
    fun _ => firstBad (planEdges b) (edgeOff b) (fun k => need (field (slice b (edgeOff b k) 16) 65 63 = 0) .badPlan),
    fun _ => firstBad (planBinds b) (bindOff b) (fun k =>
      let z := slice b (bindOff b k) 16
      need (decide (field z 64 2 ≤ 1) && field z 69 59 = 0) .badPlan),
    fun _ => firstBad (planOpCount b) (opOff b) (fun k => need (operatorOf (field (slice b (opOff b k) 32) 0 8)).isSome .unsupported),
    fun _ => firstBad (planOpCount b) (opOff b) (fun k =>
      firstFail [need (decide (field (slice b (opOff b k) 32) 16 16 ≤ 4096)) .limit, need (opPlaced b (parsePlan b) k) .badPlan]),
    fun _ => firstBad (planEdges b) (edgeOff b) (fun k =>
      let e := parseEdge (slice b (edgeOff b k) 16)
      need (decide (e.fromStage < e.toStage ∧ e.toStage < planStages b ∧ e.desc < planDescs b)) .badPlan),
    fun _ => firstBad (planBinds b) (bindOff b) (fun k =>
      need ((tableOf s (parseBinding (slice b (bindOff b k) 16)).table).any (fun t => t.session = sid)) .access),
    fun _ => firstBad (planDescs b) (descOff b) (descriptorCheck s sid b) ].findSome? (fun f => f ())

/-! ## Check 9 (R151) -/

/-- The checks of an operator entry under its owning chapter. -/
def entryCheck (s : State) (sid : Nat) (b : PlanBinary) (k : Nat) (e : OpEntry) : Option Status :=
  match e.op with
  | .scan => scanCheck b k e
  | .decode => decodeCheck b e
  | .encode => encodeCheck b e
  | .check => checkCheck b k e
  | .relayout => relayoutCheck b e
  | .filter => filterCheck b e
  | .project => projectCheck b e
  | .hash => hashCheck b e
  | .bucket => bucketCheck b e
  | .normalise => normaliseCheck b e
  | .stats => firstFail [statsCheck b e, need (wholeEdges b (e.out0.getD b.descs.length)) .badPlan]
  | .joinBuild => firstFail [joinBuildCheck b e, need (wholeEdges b (e.out0.getD b.descs.length)) .badPlan]
  | .joinProbe => joinProbeCheck b e
  | .groupAgg => groupAggCheck b e
  | .sort => sortCheck b e
  | .gather => gatherCheck s b e
  | .poolGather => poolGatherCheck s b e
  | .scatterUpdate => scatterUpdateCheck s b e
  | .dense => denseCheck s b e
  | .activate => activateCheck b e
  | .norm => normCheck b e
  | .interact => interactCheck b e
  | .attendShort => attendShortCheck b e
  | .softmax => softmaxCheck b e
  | .denseGrad => denseGradCheck s sid b e
  | .optStep => optStepCheck s sid b e
  | .topk => topkCheck b e
  | .matchOp => matchCheck s b e
  | .exchange => exchangeCheck b e
  | .reduce => reduceCheck s sid b e
  | .allgather => allgatherCheck b e
  | .barrier => barrierCheck b e
  | .emit => emitCheck b e

/-- R151 check 9 over every operator entry. -/
def entriesCheck (s : State) (sid : Nat) (b : List Byte) (p : PlanBinary) : Option LoadFail :=
  firstBad (planOpCount b) (opOff b) (fun k => (p.ops[k]?).bind (entryCheck s sid p k))

/-! ## What a plan reserves (checks 10 and 11) -/

/-- R161: bytes of the commit buffer: the footprints of the step outputs. -/
def commitBytes (p : Plan) : Nat :=
  (p.bin.descs.zipIdx.map (fun (d, k) =>
    if isStepOutput p k then (((sessionSpan d).map (·.2)).getD 0) else 0)).sum

/-- R242, R290, R294, R323: near-tier scratch of an operator. -/
def scratchBytes (s : State) (b : PlanBinary) (e : OpEntry) : Nat :=
  let rows := rowCount (slotDesc b e.in0)
  let span (d : Descriptor) : Nat := ((footprint d).2 - (footprint d).1).toNat
  match e.op with
  | .decode => (planDies s b).length * 0x40000
  | .joinBuild => rows * (refLen (joinKey e) + ((joinRefs e).map refLen).sum)
  | .groupAgg => rows * (32 + 8 * joinCount e)
  | .scatterUpdate => 16 * pf e 192 64 + span (slotDesc b e.in2)
  | _ => 0

/-- R151: near-tier bytes that a plan reserves: commit buffer, EMIT hold area and scratch. -/
def planNearBytes (s : State) (p : Plan) : Nat :=
  commitBytes p + (p.bin.ops.map (scratchBytes s p.bin)).sum +
    ((p.bin.ops.filter (fun e => e.op = .emit)).map (emitHold p.bin)).sum

/-- R560: bytes of a plan's staging region on a die. -/
def regionSize (b : PlanBinary) (die : Nat) : Nat :=
  roundUp (((b.descs.filter (fun d => d.space = .staging && d.stageDie = die)).map (fun d => (footprint d).2.toNat)).foldl max 0) 64

/-- R560: the staging regions of the loaded plans on a die. -/
def regionsOn (s : State) (die : Nat) : List (Nat × Nat) :=
  s.plans.map (fun p => (p.stageBase.getD die 0, p.stageSize.getD die 0))

/-- R560: a free place for a region on a die; the lowest (DESIGN CHOICE, log entry 61). -/
def placeRegion (s : State) (die size : Nat) : Option Nat :=
  if size = 0 then some 0 else freeRange ((regionsOn s die).filter (fun r => r.2 ≠ 0)) 0x3000000 size

/-- R258: the taps that a plan's CHECK operators reserve: one on each die that the stage runs on, the lowest free one. -/
def checkTaps (s : State) (p : Plan) : Option (List (Nat × Nat)) :=
  (p.bin.ops.zipIdx.flatMap (fun (e, k) =>
      if e.op = .check then (opDies s p k).map (fun d => (k, d)) else [])).foldl
    (fun (acc : Option (List (Nat × Nat))) kd => acc.bind (fun l =>
      ((List.range 64).find? (fun t => tapDie t = kd.2 && tapFree s t && !l.any (fun x => x.2 = t))).map
        (fun t => l ++ [(kd.1, t)])))
    (some [])

/-- COUNT0 of a placement or capacity failure (R151). -/
def noOffset : Nat := 0xFFFFFFFFFFFFFFFF

/-- R151 checks 10 and 11: the plan as it is placed, or why it cannot be. A residency above 32 slots (R340) and more
than 256 blocks of a tensor in a crater (R143) are LIMIT; a plan that names a lost die is NO_RESOURCE (R458). -/
def placePlan (s : State) (sid : Nat) (bin : PlanBinary) : Except Status Plan :=
  let other := eligibleCraters s bin.dies 0 false
  match placeStages s bin with
  | .error st => .error st
  | .ok craters =>
    let p0 : Plan :=
      { handle := BitVec.ofNat 64 (sid <<< 56 + (s.planSerial + 1)), session := sid, bin := bin, craters := craters,
        otherCraters := other, owners := ownersFor s bin craters other, guests := [], nearBytes := 0, stageBase := [], stageSize := [], taps := [],
        dieMaps := [], craterMaps := [], nextStep := 0, commit := none, mirrorSeqs := [], run := none, pieces := [],
        localMem := [] }
    if !residencyOk p0 ∨ !mapsWithin p0 then .error .limit
    else if (s.boot.oneDie ∧ bin.dies ≠ 0 ∧ bin.dies ≠ s.boot.leadDie + 1) ∨
        (other = [] ∧ bin.descs.zipIdx.any (fun e => e.1.space = .blocked && (placingStage bin e.2).isNone)) then .error .noResource
    else
      let sizes := [0, 1].map (regionSize bin)
      let bytes := planNearBytes s p0
      match chooseMaps s p0, placeRegion s 0 (sizes.getD 0 0), placeRegion s 1 (sizes.getD 1 0), checkTaps s p0 with
      | some p1, some a, some b, some taps =>
        if !poolsFit s p1 ∨ nearFree s < bytes ∨ 64 ≤ (s.plans.filter (fun q => q.session = sid)).length ∨
            1024 ≤ s.plans.length then .error .noResource
        else .ok { p1 with nearBytes := bytes, stageBase := [a, b], stageSize := sizes, taps := taps }
      | _, _, _, _ => .error .noResource

/-! ## PLAN_LOAD -/

/-- R156: the plan is loaded: its owner maps are written and its taps reserved. -/
def addPlan (p : Plan) (s : State) : State :=
  writeMaps p { s with
    plans := s.plans ++ [p]
    planSerial := s.planSerial + 1
    taps := s.taps.zipIdx.map (fun (t, k) => if p.taps.any (fun x => x.2 = k) then { t with reserved := some p.handle } else t) }

/-- R151: logical cores placed: those of CORE stages (DESIGN CHOICE, log entry 101). -/
def coresPlaced (p : Plan) : Nat := (coresOf (p.craters.flatten.dedup)).length

/-- PLAN_LOAD (R151). -/
def planLoadBody (r : CmdRef) (c : Chain) (s : State) : State :=
  let sid := c.session.toNat
  let b := c.payload
  match (binaryCheck s sid b).orElse (fun _ => entriesCheck s sid b (parsePlan b)) with
  | some (st, off) => complete r { replyOf st with count0 := off } s
  | none =>
    match placePlan s sid (parsePlan b) with
    | .error st => complete r { replyOf st with count0 := noOffset } s
    | .ok p =>
      complete r { replyData (natLE p.handle.toNat 8) with count0 := p.nearBytes, count1 := coresPlaced p } (addPlan p s)

def planLoadRule : CommandRule := { plainRule 0x0040 with chainable := true, needsSession := true }

/-- PLAN_LOAD (R151). -/
def execPlanLoad (r : RingId) (p : Packet) (s : State) : Host.Outcome State Fault Refusal :=
  .next (hostCommand r planLoadRule planLoadBody p s)

end Sys2Proof.Machine
end

