-- ==== Sys2Proof/Machine/Boundary.lean ====
section
/-!
DEFINITION. The boundary sequence and the steps of a run: how a step begins, merges, commits, flips and advances, and how
it is replayed (R25 to R28, R155, R160 to R168, R431, R450, R451).
-/

namespace Sys2Proof.Machine

/-! ## When a run goes on -/

/-- R156: the run has no further step. -/
def runFinished (r : Run) : Bool := r.inputEnded || (r.steps ≠ 0 && decide (r.steps ≤ r.committedSteps))

/-- R169: the oldest record held does not fit the budget. -/
def emitBlocked (r : Run) : Option EmitRecord :=
  (r.queue.head?.bind (fun q => q.records.head?)).bind (fun e =>
    if r.budget.any (fun b => decide (b < (emitBytes e).length)) then some e else none)

/-- Logical cores that a plan's CORE stages run on, as the hardware cores that host them (R152, R154). -/
def coresUsed (p : Plan) : List Nat :=
  ((coresOf (p.craters.flatten ++ p.owners.flatMap (fun (e : Nat × List (Nat × Nat × Nat)) => e.2.map (fun (x : Nat × Nat × Nat) => x.1 / 32))).dedup).map (hostCore p)).dedup

/-- R155: two plans share cores. -/
def shareCores (p q : Plan) : Bool := (coresUsed p).any (coresUsed q).contains

/-- R155: the plan's cores are free of other running plans' steps. -/
def coresFree (s : State) (p : Plan) : Bool :=
  s.plans.all (fun q => q.handle = p.handle || !isRunning q || ((q.run.bind (·.openStep)).isNone) || !shareCores p q)

/-- A running plan that waits for its next step to begin. -/
def awaitsStep (p : Plan) : Bool :=
  isRunning p && (match p.run with
    | none => false
    | some r => r.openStep.isNone && !runFinished r && ((emitBlocked r).isNone || decide (r.queue.length < 2)))

/-! ## Bindings (R168, R313) -/

/-- R313: slots that a live plan binds with UPDATE: those of its open step, or those that its next step would bind. -/
def updateSlots (s : State) (p : Plan) : List (Word × Nat) :=
  match p.run with
  | none => []
  | some r =>
    let now := match r.openStep with
      | some o => o.view.slots
      | none => slotsNow s p r
    (p.bin.binds.zip now).filterMap (fun (b, k) => if b.update then k.map (fun k => (b.table, k)) else none)

/-- R313: another live plan binds a slot with UPDATE. -/
def updateTaken (s : State) (h : Word) (x : Word × Nat) : Bool :=
  (livePlans s).any (fun q => q.handle ≠ h && (updateSlots s q).contains x)

/-! ## A step begins (R27 step 5, R160) -/

/-- No counts, no contributions: a step at its start. -/
def freshStep (p : Plan) (r : Run) (v : View) (began : Word) : OpenStep where
  attempt := 1
  view := v
  done := (p.bin.stages.filter (fun g => g.firstOnly && !r.firstStep)).flatMap stageOps
  scratch := []
  commitBuf := []
  pieceWrites := []
  localWrites := []
  stageWrites := []
  aliased := []
  rowKeys := []
  staged := []
  stats := []
  counters := countersZero
  emits := []
  batch := none
  detections := []
  inbox := []
  extents := []
  heldFaults := []
  fetched := []
  committed := false
  began := began

/-- A plan whose craters have left or re-entered service, or been derated where it skips such craters, is placed anew (R154, R348); so
is one whose pieces no longer fit beside each other in a slot that holds two roles (R454, R341). -/
def replaceNow (h : Word) (s : State) : State :=
  match planOf s h with
  | none => s
  | some p =>
    if needsReplace s p ∨ (s.err.doubled ≠ [] ∧ !poolsFit s p) then
      settleParking (replacePlan h s)
    else s

/-- R24 to R26: shared state as it stands when a step begins. -/
def viewNow (s : State) (slots : List (Option Nat)) : View where
  near := s.near
  far := s.far
  xlate := s.xlate
  owner := s.owner.active
  incarnation := s.err.incarnation
  rowDir := s.rowDir
  poison := s.err.poison
  slots := slots

/-- R168, R160: the next step of a run begins: the plan is re-placed where that is due, and its CURRENT bindings bind. -/
def beginStep (h : Word) (s : State) : State :=
  let s1 := replaceNow h s
  match planOf s1 h with
  | none => s1
  | some p =>
    match p.run with
    | none => s1
    | some r =>
      let slots := slotsNow s1 p r
      let pairs := p.bin.binds.zip slots
      if pairs.any (fun x => x.2.isNone) then endRun h .access s1
      else if pairs.any (fun x => x.1.fixed.isNone && x.1.update && updateTaken s1 h (x.1.table, x.2.getD 0)) then endRun h .busy s1
      else
        let s2 := pairs.foldl (fun x e => if e.1.fixed.isSome then x else holdSlot e.1.table (e.2.getD 0) x) s1
        onRun h (fun r => { r with
          openStep := some (freshStep p r (viewNow s2 slots) s2.time), detections := [], manifest := none }) s2

/-- R155: waiting steps begin, in ascending handle order after plan `last`, where no other running plan's step has the
cores. -/
def startSteps (last : Word) (s : State) : State :=
  if s.power.state ≠ .active then s
  else
    let waiting := ((s.plans.filter awaitsStep).map (·.handle)).mergeSort (fun a b => decide (a.toNat ≤ b.toNat))
    (waiting.filter (fun h => decide (last.toNat < h.toNat)) ++ waiting.filter (fun h => decide (h.toNat ≤ last.toNat))).foldl
      (fun x h => match planOf x h with
        | none => x
        | some p => if awaitsStep p ∧ coresFree x p then beginStep h x else x) s

/-! ## Merge (R27 step 2) -/

/-- An operator of the open step in a given course of events. -/
def opCtx (p : Plan) (r : Run) (o : OpenStep) (s : State) (k : Nat) : Ctx :=
  { s := s, p := p, r := r, o := o, op := k
    e := p.bin.ops.getD k { op := .barrier, in0 := none, in1 := none, in2 := none, out0 := none, out1 := none, params := [] } }

/-- The context seen from another operator. -/
def atOp (k : Nat) (c : Ctx) : Ctx := opCtx c.p c.r c.o c.s k

/-- The operator of the step barrier: one past the plan's own (R417). -/
def barrierOp (p : Plan) : Nat := p.bin.ops.length

/-- Operators of a plan that meet a test. -/
def opsWhere (p : Plan) (test : OpEntry → Bool) : List Nat := (p.bin.ops.zipIdx.filter (fun e => test e.1)).map (·.2)

/-- STATS operators whose partials merge at the boundary, over every module of the plan under GLOBAL (R281). -/
def accumStats (p : Plan) : List Nat := opsWhere p (fun e => e.op = .stats && statAccum e)
def overRanks (c : Ctx) (k : Nat) : Bool :=
  statGlobal (atOp k c).e && decide (1 < c.p.bin.fabricRanks)

/-- The partials that an operator staged. -/
def statsOf (c : Ctx) (k : Nat) : List StagedStat := c.o.stats.filter (fun x => x.op = k)

/-- R281, R417: the merges of GLOBAL statistics go on as far as they can; `false` while ranks are missing. -/
def gatherStats (c : Ctx) : Ctx × Bool :=
  ((accumStats c.p).filter (overRanks c)).foldl
    (fun acc k =>
      let g := globalStats (barrierOp c.p) (16 + k) (statsOf acc.1 k) (atOp k acc.1)
      (g.1, acc.2 && g.2.isSome)) (c, true)

/-- R281, R294: statistics and groups merge; `none` where a group table is too full (R288). -/
def mergeOps (c : Ctx) : Option Ctx :=
  let c1 := (accumStats c.p).foldl
    (fun x k =>
      let l := statsOf x k
      if overRanks x k then
        match (globalStats (barrierOp x.p) (16 + k) l (atOp k x)).2 with
        | some bs => putStats l bs (atOp k x)
        | none => x
      else mergeStats l (atOp k x)) c
  (opsWhere c.p (fun e => e.op = .groupAgg)).foldl (fun acc k => acc.bind (fun x => mergeGroup (atOp k x))) (some c1)

/-- What the merge of one table slot leaves to write. -/
structure SlotWrites where
  table : EmbTable
  slot : Nat
  /-- row, the operator it counts for, and its new bytes -/
  rows : List (Nat × Nat × List Byte)
  index : Memory

/-- R323 to R326: the contributions to every bound slot merge; `none` where a row is malformed. -/
def mergeSlots (c : Ctx) : Option (Ctx × List SlotWrites) :=
  let targets := (opsWhere c.p (fun e => e.op = .scatterUpdate)).filterMap (fun k =>
    let x := atOp k c
    (opTable x (embedParams .scatterUpdate x.e).binding).map (fun t => (k, t.1, t.2)))
  ((targets.map (fun t => (t.2.1.handle, t.2.2))).dedup).foldl
    (fun acc hk => acc.bind (fun (x, ws) =>
      let ops := (targets.filter (fun t => t.2.1.handle = hk.1 && t.2.2 = hk.2)).map (·.1)
      match tableOf x.s hk.1 with
      | none => some (x, ws)
      | some t =>
        let m := mergeTable t hk.2 (x.o.staged.filter (fun g => ops.contains g.op)) (atOp (ops.headD 0) x)
        if m.malformed then none
        else some (m.c, ws ++ [{ table := t, slot := hk.2, rows := m.writes, index := m.index }])))
    (some (c, []))

/-- R323, R330, R337: one merged row is written; one that enters a hold queue counts for its operator. -/
def writeMerged (w : SlotWrites) (step : Nat) (c : Ctx) (r : Nat × Nat × List Byte) : Ctx :=
  let y := writeRow w.table w.slot step r.1 r.2.2 c.s
  if y.2 then atOp c.op (bump 9 1 (atOp r.2.1 { c with s := y.1 })) else { c with s := y.1 }

/-- R323, R325, R330: merged rows and index entries are written, beside the copies that are under way. -/
def writeSlots (step : Nat) (ws : List SlotWrites) (c : Ctx) : Ctx :=
  ws.foldl
    (fun x w =>
      let y := w.rows.foldl (writeMerged w step) { x with s := advanceCopies w.table.handle w.slot x.s }
      { y with s := writeIndex w.table w.slot w.index y.s }) c

/-- R337: COALESCED of every SCATTER_UPDATE: CONTRIBUTIONS less ROWS_UPDATED. -/
def countCoalesced (c : Ctx) : Ctx :=
  (opsWhere c.p (fun e => e.op = .scatterUpdate)).foldl
    (fun x k => let y := atOp k x; atOp x.op (bump 3 (extOf y 1 - extOf y 2) y)) c

/-- R383, R399: Basin loads due apply, and count for the first MATCH that names their segment. -/
def mergeLoads (c : Ctx) : Ctx :=
  let r := boundaryLoads c.p.handle (c.p.nextStep + 1) c.s
  r.2.foldl
    (fun x e =>
      match (opsWhere x.p (fun m => m.op = .matchOp && (matchParams m).segs.testBit e.1)).head? with
      | none => x
      | some k => bump 8 e.2 (atOp k x)) { c with s := r.1 }

/-- R253, R323: what the merge reads and writes of tables, and the merged outputs of VENT operators, pass the Vents in an order that is
not stated: the taps that watch them hold free values (DESIGN CHOICE, log entry 64). -/
def foldMerge (c : Ctx) (ws : List SlotWrites) (s : State) : State :=
  let written := ws.flatMap (fun w =>
    w.rows.map (fun r => ((rowVa c.s w.table w.slot r.1).1, r.2.2.length)) ++
      w.index.map (fun (x : Host.Cell) => ((slotOf w.table w.slot).indexVa.toNat + x.1, 1)))
  let outs := (accumStats c.p ++ opsWhere c.p (fun e => e.op = .groupAgg)).flatMap (fun k =>
    ((atOp k c).e.out0.toList ++ (atOp k c).e.out1.toList).flatMap (fun d => sessionRanges (cDesc c d)))
  freeTaps c.p.session (fun _ t =>
    if t.stream = 2 then windowBytes t (written ++ outs)
    else if (t.stream = 1 ∨ t.stream = 6) ∧ written ≠ [] then windowBytes t (tableRanges c.s c.p)
    else 0) s

/-! ## Commit (R27 step 3, R162, R164) -/

/-- R162: the sectors of the commit buffer, whole: what a step output holds under what was written to it. -/
def commitSectors (s : State) (sid : Nat) (buf : List Host.Cell) : List (Nat × List Byte) :=
  ((buf.map (fun c => c.1 / 64)).dedup).map (fun k =>
    let mine := buf.filter (fun c => c.1 / 64 = k)
    (k * 64, (sessionRead s sid (k * 64) 64).zipIdx.map (fun (b, i) =>
      ((mine.find? (fun c => c.1 = k * 64 + i)).map (·.2)).getD b)))

/-- Neighbouring sectors joined to runs. -/
def joinRuns : List (Nat × List Byte) → List (Nat × List Byte)
  | [] => []
  | x :: l =>
    match joinRuns l with
    | [] => [x]
    | y :: ys => if x.1 + x.2.length = y.1 then (x.1, x.2 ++ y.2) :: ys else x :: y :: ys

/-- R162, R426: the step outputs are written. -/
def writeOutputs (sid : Nat) (sectors : List (Nat × List Byte)) (s : State) : State :=
  (joinRuns sectors).foldl (fun x r => storeSession sid r.1 r.2 x) s

/-- R446, R560: what the step wrote to the staging regions is stored. -/
def writeStaging (cells : List Host.Cell) (s : State) : State :=
  (joinRuns (cells.map (fun c => (c.1, [c.2])))).foldl (fun x r => putStaging r.1 r.2 x) s

/-- R164: the bytes of a commit record. -/
def commitRecordBytes (r : CommitRecord) : List Byte :=
  record 64 [(0, r.plan.toNat), (64, r.step), (128, r.time.toNat), (192, r.outSectors), (224, r.emitRecords),
    (256, r.digest.toNat), (288, r.attempts)]

/-- R430: the step's commit record is mirrored; `bytes` were mirrored with the step. -/
def mirrorCommit (r : CommitRecord) (bytes : Nat) (s : State) : State :=
  if !mirrors s then s
  else
    let s1 := sendTwin (twinLinkFor s 0) 0x23 (commitRecordBytes r) s
    onPlan r.plan (fun p => { p with mirrorSeqs := p.mirrorSeqs ++ [s.twin.commitsSent + 1] })
      { s1 with twin := { s1.twin with
          commitsSent := s1.twin.commitsSent + 1
          unackedBytes := s1.twin.unackedBytes ++ [bytes] } }

/-- R172: records of a step in ascending operator order. -/
def stepRecords (o : OpenStep) : List EmitRecord := o.emits.mergeSort (fun a b => decide (a.op ≤ b.op))

/-- R27 step 3, R161: what the stages wrote to a plan's pieces is kept, in ascending stage order; edges are step scratch. -/
def keptPieces (p : Plan) (o : OpenStep) : Sparse Memory :=
  o.pieceWrites.foldl
    (fun m e =>
      let key := e.1 % 2 ^ 28
      if isEdgeDesc p (key / 1024) then m
      else sset m key ((joinRuns (e.2.map (fun c => (c.1, [c.2])))).foldl (fun x r => memWrite x r.1 r.2) ((sget m key).getD []))) p.pieces

/-- R161: what the stages wrote to LOCAL space is kept in the Pools of every core of the stage. -/
def keptLocal (p : Plan) (o : OpenStep) : Sparse Memory :=
  o.localWrites.foldl
    (fun m e =>
      let runs := joinRuns (e.2.map (fun c => (c.1, [c.2])))
      (coresOf (p.craters.getD e.1 [])).foldl
        (fun x core => sset x core (runs.foldl (fun y r => memWrite y r.1 r.2) ((sget x core).getD []))) m) p.localMem

/-- R27 step 3: the step's writes are made and its commit record is complete. -/
def writeCommit (c : Ctx) (ws : List SlotWrites) : State :=
  let h := c.p.handle
  let before := c.s.twin.mirrorBytes
  let c1 := writeSlots c.p.nextStep ws { c with s := foldMerge c ws c.s }
  let sectors := commitSectors c1.s c1.p.session c1.o.commitBuf
  let s2 := writeStaging (c1.o.stageWrites.flatMap (·.2)) (writeOutputs c1.p.session sectors c1.s)
  let emits := stepRecords c1.o
  let rec_ : CommitRecord :=
    { plan := h, step := c.p.nextStep, time := s2.time, outSectors := sectors.length, emitRecords := emits.length,
      digest := crc32c (sectors.flatMap (·.2)), attempts := c1.o.attempt }
  let s3 := onPlan h (fun p => { p with commit := some rec_, pieces := keptPieces p c1.o, localMem := keptLocal p c1.o }) s2
  let s4 := onRun h (fun r => { r with
    committedSteps := r.committedSteps + 1
    lastStep := c.p.nextStep
    lastDigest := rec_.digest
    counters := addCounters c.p.bin r.counters c1.o.counters
    queue := if emits = [] then r.queue else r.queue ++ [{ step := c.p.nextStep, records := emits }]
    openStep := some { c1.o with committed := true } }) s3
  mirrorCommit rec_ (s4.twin.mirrorBytes - before) s4

/-- R430, R431: bytes of staging that the twin was told to keep. -/
def stageRoom (s : State) : Nat := ((s.twin.record.map (·.stageMib)).getD 0) * 0x100000

/-- R28: everything is as it was before the merges, but for what went to other modules and came from them. -/
def holdStep (c : Ctx) : State :=
  onStep c.p.handle (fun o => heldStep (barrierOp c.p) { o with inbox := c.o.inbox }) c.s

/-- R327: the plan forwards contributions to other modules. -/
def forwards (s : State) (p : Plan) : Bool :=
  decide (1 < p.bin.fabricRanks) && p.bin.ops.any (fun e =>
    e.op = .scatterUpdate && (boundTable s p.bin (embedParams .scatterUpdate e).binding).any (·.sharded))

/-- R27 step 1: the requests of the step have all been acknowledged. -/
def requestsDone (s : State) (p : Plan) : Bool :=
  s.fabric.flowsOut.all (fun f => f.step ≠ BitVec.ofNat 32 p.nextStep || decide (f.nextSeq ≤ f.acked) ||
    decide ((p.bin.ops[f.op]?).map (·.op) ≠ some .scatterUpdate))

/-- R27, R327: an owner merges once every rank has drained, so that all forwarded contributions are here. How it learns that is
not stated: the ranks meet in the step barrier (DESIGN CHOICE, log entry 65). -/
def ranksDrained (c : Ctx) : Ctx × Bool :=
  if forwards c.s c.p then
    let b := barrierRun (barrierOp c.p) 1 (fun _ => []) (fun _ => []) c
    (b.1, b.2.isSome)
  else (c, true)

/-- R27 steps 2 and 3, R431: merge and commit. The step waits while ranks are missing, and while its mirror writes do not
fit the twin's staging beside those of earlier steps; a step too large for all of it fails with LIMIT. -/
def mergeAndCommit (c : Ctx) : State :=
  let d := ranksDrained c
  let g := gatherStats d.1
  if !d.2 ∨ !g.2 then holdStep g.1
  else match mergeOps g.1 with
    | none => endRun c.p.handle .limit g.1.s
    | some c1 =>
      match mergeSlots c1 with
      | none => endRun c.p.handle .implausible c1.s
      | some (c2, ws) =>
        let s1 := writeCommit (mergeLoads (countCoalesced c2)) ws
        let size := s1.twin.mirrorBytes - c2.s.twin.mirrorBytes
        if !mirrors c2.s then s1
        else if stageRoom c2.s < size then endRun c.p.handle .limit c2.s
        else if stageRoom c2.s < size + c2.s.twin.unackedBytes.sum then holdStep g.1
        else s1

/-! ## Flip and advance (R27 steps 4 and 5) -/

/-- R431: the flip need not wait for the mirror: own commits of the plan not yet acknowledged are within the lag. -/
def mirrorClear (s : State) (p : Plan) : Bool :=
  !mirrors s || decide ((p.mirrorSeqs.filter (fun n => decide (s.twin.commitsAcked < n))).length ≤
    (s.twin.record.map (fun r => if r.async then r.lagSteps else 0)).getD 0)

/-- R415: owner and rank entries due at a plan's flip take effect. -/
def flipOwners (h : Word) (next : Nat) (s : State) : State :=
  let due (l : OwnerLoad) : Bool := l.plan = h && decide (l.atStep ≤ next)
  let ls := s.owner.loads.filter due
  ls.foldl (fun x l => applyOwnerLoad l x) { s with owner := { s.owner with loads := s.owner.loads.filter (fun l => !due l) } }

/-- R330: migrations of the slots that the plan governs flip. -/
def flipTables (p : Plan) (s : State) : State :=
  ((boundSlots p).map (fun b => (b.1, b.2.1))).dedup.foldl
    (fun x b => if (governing x b.1 b.2).any (fun q => q.handle = p.handle) then flipMigrations b.1 b.2 x else x) s

/-- R439: HANDBACK takes effect at a step boundary: the twin's windows are the twin's again. -/
def settleHandback (s : State) : State :=
  if s.twin.command.isSome ∧ s.twin.commandOp = 2 then
    completeTwin (replyOf .done) { s with twin := { s.twin with servesBoth := false } }
  else s

/-- R213, R220: where discovery stands after a committed step. -/
def passBatch (o : OpenStep) (r : Run) : Run :=
  match o.batch with
  | none => r
  | some b => { r with ordinal := b.nextOrdinal, offset := b.nextOffset, inputEnded := r.inputEnded || b.close = some .endOfInput }

/-- R27 step 5: the step counter advances, and the step is gone. -/
def leaveCommitted (h : Word) (o : OpenStep) (s : State) : State :=
  let s1 := leaveStep h s
  onPlan h (fun p => { p with
    nextStep := p.nextStep + 1
    run := p.run.map (fun r => { passBatch o r with
      firstStep := false, detections := [], manifest := none, ctx := none }) }) s1

/-- R169: a run whose delivery was blocked while a step was open suspends once that step stands committed. -/
def suspendBlocked (h : Word) (step : Nat) (s : State) : State :=
  match (planOf s h).bind (·.run) with
  | none => s
  | some r =>
    match emitBlocked r, r.queue.head? with
    | some e, some q => if q.step < step ∧ r.openStep.isNone ∧ !runFinished r then suspendRun h .emitSpace e.op s else s
    | _, _ => s

/-- R156, R159, R169: how a run goes on after an advance. -/
def afterAdvance (h : Word) (step : Nat) (s : State) : State :=
  match (planOf s h).bind (·.run) with
  | none => s
  | some r =>
    if r.cancel ≠ [] then endRun h .cancelled s
    else if runFinished r then finishRun h s
    else suspendBlocked h step s

/-- R154: plans that do not run and whose craters have left service are re-placed. -/
def replaceIdleNow (s : State) : State :=
  if (s.plans.filter (fun p => !isLive p)).any (needsReplace s) then settleParking (replaceIdle s) else s

/-- R27 steps 4 and 5: flip and advance. -/
def flipStep (p : Plan) (o : OpenStep) (s : State) : State :=
  let h := p.handle
  let s1 := flipTables p (flipOwners h (p.nextStep + 1) s)
  let s2 := boundaryClocks (boundaryUnits (leaveCommitted h o s1))
  let s3 := if 1 < p.bin.fabricRanks then closeFlows s2 else s2
  startSteps h (replaceIdleNow (resumeCloses (settleHandback (afterAdvance h p.nextStep s3))))

/-- R165, R431: a step that stands committed flips once every module of the plan has committed it and the mirror allows. -/
def tryFlip (h : Word) (s : State) : State :=
  match planOf s h with
  | none => s
  | some p =>
    match p.run with
    | none => s
    | some r =>
      match r.openStep with
      | none => s
      | some o =>
        if !o.committed then s
        else
          let b := barrierRun (barrierOp p) 0 (fun _ => []) (fun _ => []) (opCtx p r o s (barrierOp p))
          let s1 := holdStep b.1
          if b.2.isSome ∧ mirrorClear s1 p then
            match planOf s1 h with
            | none => s1
            | some q => flipStep q b.1.o s1
          else s1

/-- R27, R513: every operator of the step is done, nothing was detected, and no core of the plan is halted. -/
def stepDrained (s : State) (p : Plan) (o : OpenStep) : Bool :=
  (List.range p.bin.ops.length).all o.done.contains && o.detections.isEmpty && !o.committed && requestsDone s p &&
    (List.range p.bin.stages.length).all (fun k => !anyHalted s (stageSlots s p k))

/-- R27: the boundary of a step whose operators are done; on a step that already stands committed, its flip is tried. -/
def stepBoundary (h : Word) (f : ReadFaults) (s : State) : State :=
  match planOf s h with
  | none => s
  | some p =>
    match p.run with
    | none => s
    | some r =>
      match r.openStep with
      | none => s
      | some o =>
        if !isRunning p ∨ s.power.state ≠ .active then s
        else if o.committed then tryFlip h s
        else if !(List.range p.bin.ops.length).all o.done.contains ∨ !o.detections.isEmpty then s
        else if !stepDrained s p o ∨ waitsRefetch s p then onStep h (heldWith (barrierOp p) f) s
        else
          let x := applyFaults h f (onStep h (faultsTaken (barrierOp p)) s)
          if x.replay ∨ x.wait then onStep h (heldStep (barrierOp p)) (refreshPoison h x.s)
          else if x.poisoned then endRun h .poisoned x.s
          else
            let s1 := refreshPoison h x.s
            match planOf s1 h, (planOf s1 h).bind (·.run), ((planOf s1 h).bind (·.run)).bind (·.openStep) with
            | some p1, some r1, some o1 => tryFlip h (mergeAndCommit (opCtx p1 r1 o1 s1 (barrierOp p1)))
            | _, _, _ => s1

/-- A boundary that waited goes on: for other ranks, for acknowledgements, for the mirror, for a halted core. -/
def resumeBoundary (h : Word) (s : State) : State :=
  match ((planOf s h).bind (·.run)).bind (·.openStep), planOf s h with
  | some o, some p => if o.committed ∨ opHeld o (barrierOp p) then stepBoundary h (faultsHeld o (barrierOp p)) s else s
  | _, _ => s

/-- Boundaries that waited go on. -/
def resumeFlips (s : State) : State := ((livePlans s).map (·.handle)).foldl (fun x h => resumeBoundary h x) s

/-! ## Replay (R166, R450, R451) -/

/-- R450: cores charged in two attempts of the step. -/
def twiceCharged (ds : List Detection) : List Nat :=
  ((ds.filterMap (fun d => d.unit.bind (fun u => if unitClass u = 1 then some (unitIndex u) else none))).dedup).filter (fun core =>
    decide (2 ≤ (((ds.filter (fun d => d.unit = some (unitId 1 core))).map (·.attempt)).dedup).length))

/-- R450: the unit charged with the most detections, the one charged later winning a tie. -/
def mostCharged (ds : List Detection) : Option (BitVec 32) :=
  let us := ds.filterMap (·.unit)
  us.foldl (fun best u =>
    match best with
    | none => some u
    | some b => if us.count b ≤ us.count u then some u else best) none

/-- R450, R453: cores that a further attempt may not run on are declared dead, and owner entries follow their roles. -/
def declareDead (h : Word) (cores : List Nat) (s : State) : State :=
  let todo := cores.filter (fun c => !coreDead s c)
  if todo = [] then s
  else replaceNow h (rewriteMaps (todo.foldl (fun x c => retireCoreNow c reasonReplay x) s))

/-- R453, R23: posted writes of gated cores that were still queued fail the owner check and are dropped in the attempt that follows;
how many there were is a free value (log entry 98). -/
def dropPosted (h : Word) (cores : List Nat) (s : State) : State :=
  match cores with
  | [] => s
  | _ => takeFresh 1 (countStale h (freshValue s).toNat s)

/-- R166: the step at the start of its next attempt: what the failed attempt gathered is discarded; contributions of
other modules, the space supplied, the bound versions and the fabric owners stay; a replaced core's role stands in the crater owner
tables with its new slot and incarnation (R453). -/
def nextAttempt (p : Plan) (r : Run) (o : OpenStep) (mine poison : List Nat) (inc : Sparse Nat) (bank : OwnerBank) :
    OpenStep :=
  { freshStep p r { o.view with
      poison := (o.view.poison ++ poison).dedup
      incarnation := inc
      owner := { o.view.owner with crater := bank.crater, die := bank.die } } o.began with
    attempt := o.attempt + 1
    staged := o.staged.filter (fun g => !mine.contains g.key.rank)
    inbox := o.inbox.filter (fun a => decide (a.kind < 0x200))
    extents := o.extents }

/-- R166: the step runs again. -/
def restartStep (h : Word) (s : State) : State :=
  let mine := match planOf s h, ((planOf s h).bind (·.run)).bind (·.openStep) with
    | some p, some o =>
      if p.bin.fabricRanks ≤ 1 then List.range 4096
      else ranksHeld { s with owner := { s.owner with active := o.view.owner } } p.bin.fabricRanks
    | _, _ => []
  onPlan h (fun p => { p with
      run := p.run.map (fun r => { r with
        replays := r.replays + 1
        ctx := none
        openStep := r.openStep.map (fun o => nextAttempt p r o mine s.err.poison s.err.incarnation s.owner.active) }) }) (freeContexts h s)

/-- R451: the phase of the step barrier that announces a replay of an attempt. -/
def replayPhase (attempt : Nat) : Nat := 8 + attempt

/-- R451: a module of a plan over several modules announces REPLAY through the step barrier: up to rank 0 and down again.
How is not stated (DESIGN CHOICE, log entry 63). -/
def announceReplay (c : Ctx) (attempt : Nat) : Ctx :=
  if c.p.bin.fabricRanks ≤ 1 then c
  else
    (heldRanks c).foldl
      (fun x r =>
        if isMarked x.o (barrierOp x.p) (replayPhase attempt) r 0x10 then x
        else
          let y := mark (barrierOp x.p) (replayPhase attempt) r 0x10 x
          if r = 0 then deposit kindRelease (barrierOp y.p) (replayPhase attempt) 0 0 [] y
          else sendRank kindArrive (barrierOp y.p) (replayPhase attempt) r ((r - 1) / 2) [] y) c

/-- R166, R450: the replay of a step in which something was detected, or the end of its run after the fourth attempt. -/
def stepReplay (h : Word) (s : State) : State :=
  match planOf s h with
  | none => s
  | some p =>
    match p.run with
    | none => s
    | some r =>
      match r.openStep with
      | none => s
      | some o =>
        if !isRunning p ∨ o.committed ∨ o.detections.isEmpty ∨ s.power.state ≠ .active then s
        else
          let c := announceReplay (opCtx p r o s (barrierOp p)) o.attempt
          let s1 := holdStep c
          if 4 ≤ o.attempt then
            let s2 := endRun h .replayLimit s1
            let s3 := match mostCharged r.detections with
              | none => s2
              | some u => retireUnit u reasonReplayLimit s2
            let chained : Bool := p.bin.ops.any (fun e => e.op = .matchOp && decide (2 ≤ (matchParams e).chain))
            startSteps h (resumeCloses (if chained then headSync s3 else s3))
          else
            if 2 ≤ o.attempt then
              let cores := twiceCharged r.detections
              let lost := cores.filter (fun c => !coreDead s1 c)
              dropPosted h lost (restartStep h (declareDead h cores s1))
            else restartStep h s1

/-! ## Delivery of EMIT records (R169, R172) -/

/-- R172: the records of the oldest committed step are delivered; a record that does not fit the budget suspends the run,
or, while a step is open, waits for its commit. -/
def emitDelivery (h : Word) (s : State) : State :=
  match planOf s h with
  | none => s
  | some p =>
    if !isRunning p then s
    else
      let s1 := deliverOldest (oldestLength s h) h s
      match (planOf s1 h).bind (·.run) with
      | none => s1
      | some r =>
        if r.openStep.isSome then s1
        else match emitBlocked r with
          | some e => suspendRun h .emitSpace e.op s1
          | none => if r.queue = [] ∧ runFinished r then endRun h .done s1 else startSteps h s1

/-! ## Far-tier completions (R76, R77) -/

/-- R77: a far-tier read of an operator that is at work fails: a detection charged to no unit. -/
def farFailed (h : Word) (op : Nat) (s : State) : State :=
  match ctxOf s h op with
  | none => s
  | some c => if isRunning c.p ∧ !c.o.done.contains op ∧ !c.o.committed ∧ s.power.state = .active then detect h none s else s

/-- FAR_TIER_COMPLETION (R77): a good completion changes nothing but what its operator reads. -/
def execFarTierCompletion (plan : Word) (op : Nat) (bad : Bool) (s : State) : Host.Outcome State Fault Refusal :=
  .next (if bad then farFailed plan op s else s)

/-- FAR_TIER_TIMEOUT (R76, R77): 10 ms have passed since the request. -/
def execFarTierTimeout (plan : Word) (op : Nat) (s : State) : Host.Outcome State Fault Refusal :=
  .next (match ctxOf s plan op with
    | none => s
    | some c =>
      if isRunning c.p ∧ !c.o.done.contains op ∧ !c.o.committed ∧ s.power.state = .active then
        detect plan none (atLeast (c.o.began.toNat + 10000000) s)
      else s)

/-- EMIT_DELIVERY (R172). -/
def execEmitDelivery (plan : Word) (s : State) : Host.Outcome State Fault Refusal :=
  .next (settleTransition (emitDelivery plan s))

end Sys2Proof.Machine
end

