-- ==== Sys2Proof/Machine/Firmware.lean ====
section
/-!
DEFINITION. Firmware, configuration, ownership, attestation and debug tokens: FW_STAGE, FW_COMMIT, CONFIG_PUT, ENROLL,
RELEASE, ATTEST, DEBUG_TOKEN, and the recovery transfer (R515, R516, R522 to R535, R441).
-/

namespace Sys2Proof.Machine

/-! ## Identity and images (R522, R527) -/

/-- R522: IDENTITY: the low 64 bits of SHAKE256 of the device public key. -/
def identity : Word := BitVec.ofNat 64 (leNat ((shake256 Config.devicePk).take 8))

/-- The NOR with an image programmed in its image area. -/
def programImage (b : List Byte) (s : State) : State :=
  { s with boot := { s.boot with nor := { s.boot.nor with image := b } } }

/-! ## Recovery (R528) -/

/-- R528: RECOVERY_WAIT with both sources open again. -/
def reopenRecovery (s : State) : State :=
  { s with boot := { s.boot with stage := .recoveryWait, recoverySource := 0, recoveryBytes := [] } }

/-- R528: a valid image leads to steps 1 and 2 of R62 and a boot under R519, in NORMAL mode where the strap had asked for
recovery (DEDUCED, log entry 32). -/
def bootRecovered (s : State) : State :=
  let b := bootInputsNow s
  runBoot true 3 { b with bootMode := if b.bootMode = 1 then 0 else b.bootMode } (dropWork false s)

/-- R528: the twin's stream is complete: the header and signature block, and as many body bytes as BODY_LEN says. -/
def streamComplete (b : List Byte) : Bool := decide (8192 ≤ b.length ∧ 8192 + field b 128 32 ≤ b.length)

/-- IMAGE_DATA (R528): in recovery, image bytes from the twin; ignored once another source has delivered, which the other twin link is too
(DESIGN CHOICE, log entry 32). -/
def execImageData (link : Nat) (m : Message) (s : State) : Host.Outcome State Fault Refusal :=
  .next (if s.boot.phase ≠ .recovery ∨ (s.boot.recoverySource ≠ 0 ∧ s.boot.recoverySource ≠ 2 + link) ∨ hostDelivering s ∨
      m.payload = [] then s
    else
      let got := s.boot.recoveryBytes ++ m.payload
      let s1 := programImage got { s with boot := { s.boot with
        stage := .recoveryLoad, recoverySource := 2 + link, recoveryBytes := got, recoveryTime := s.time } }
      if !streamComplete got then s1
      else match imageCheck s.boot.config.minSvn got with
        | none => bootRecovered s1
        | some st => reopenRecovery (noteError .recoveryLoad st 4 s1))

/-- RECOVERY_STALL (R528): the twin's stream has stalled for 1 s. -/
def execRecoveryStall (s : State) : Host.Outcome State Fault Refusal :=
  .next (if s.boot.phase = .recovery ∧ 2 ≤ s.boot.recoverySource then
    reopenRecovery (atLeast (s.boot.recoveryTime.toNat + 1000000000) s) else s)

/-- A TWIN message of a type leaves on a link with an epoch. -/
def sendTwinEpoch (link kind : Nat) (epoch : BitVec 32) (payload : List Byte) (s : State) : State :=
  { s with twin := { s.twin with sent := s.twin.sent ++ [(link, twinMessage s kind epoch payload)] } }

/-- RECOVERY_POLL (R528): in RECOVERY_WAIT, IMAGE_REQUEST at epoch 0 on each twin link that is up. -/
def execRecoveryPoll (s : State) : Host.Outcome State Fault Refusal :=
  .next (if s.boot.stage = .recoveryWait ∧ hostDelivering s = false then
    [0, 1].foldl (fun x l => if twinLinkUp s l then sendTwinEpoch l 0x2A 0 [] x else x) s else s)

/-- IMAGE_REQUEST (R436, R441): answered in every state but DORMANT and COLD with the committed image, in messages of at
most 4,096 bytes in ascending order (DESIGN CHOICE, log entry 14), at epoch 0. -/
def execImageRequest (link : Nat) (_m : Message) (s : State) : Host.Outcome State Fault Refusal :=
  let img := storedImage s.boot.nor
  .next (if !fwRunning s ∨ (storedImageFails s).isSome then s
    else (cut 4096 (ceilDiv img.length 4096) img).foldl (fun x bs => sendTwinEpoch link 0x2B 0 bs x) s)

/-! ## FW_STAGE and FW_COMMIT (R526, R527, R528) -/

/-- R528, R535: the other port's ring is in the middle of a recovery transfer. -/
def otherStaging (s : State) (p : Nat) : Bool := (ringOf s (1 - p) 0).chain.any (fun c => c.opcode = 0x00D0)

/-- FW_STAGE (R526): the image is checked and staged in the one area that is kept for it, so that one which fails leaves nothing staged
(DEDUCED, log entry 34); in recovery it is programmed into the NOR at once (R528). -/
def fwStageBody (r : CmdRef) (c : Chain) (s : State) : State :=
  let total := parN c 0
  let dropped (x : State) : State := if s.boot.phase = .recovery then x else { x with boot := { x.boot with staged := none } }
  if total < 8192 ∨ 16777216 < total then complete r (replyOf .badPacket) s
  else if c.payload.length ≠ total then complete r (replyOf .badPacket) (dropped s)
  else if s.boot.phase = .recovery then
    if 2 ≤ s.boot.recoverySource ∨ otherStaging s r.port then complete r (replyOf .busy) s
    else
      complete r { replyOf .done with count0 := field c.payload 48 8, count1 := field c.payload 64 16 }
        (programImage c.payload { s with boot := { s.boot with stage := .recoveryLoad, recoverySource := 1, recoveryTime := s.time } })
  else match imageCheck s.boot.config.minSvn c.payload with
    | some st => complete r (replyOf st) (dropped s)
    | none =>
      complete r { replyOf .done with count0 := field c.payload 48 8, count1 := field c.payload 64 16 }
        { s with boot := { s.boot with staged := some c.payload } }

/-- FW_COMMIT (R527): the staged image is programmed and verified; in recovery the programmed image is checked and booted
(R528). The command completes before the reset that follows, so that its completion leaves the module. -/
def fwCommitBody (r : CmdRef) (_ : Chain) (s : State) : State :=
  if s.boot.phase = .recovery then
    if s.boot.recoverySource ≠ 1 then complete r (replyOf .access) s
    else match imageCheck s.boot.config.minSvn (storedImage s.boot.nor) with
      | some st => reopenRecovery (noteError .recoveryLoad st 4 (complete r (replyOf st) s))
      | none => bootRecovered (complete r (replyOf .done) s)
  else match s.boot.staged with
    | none => complete r (replyOf .access) s
    | some b =>
      match imageCheck s.boot.config.minSvn b with
      | some _ => complete r (replyOf .checkMismatch) (programImage b { s with boot := { s.boot with staged := none } })
      | none => complete r (replyOf .done) (programImage b { s with boot := { s.boot with staged := none } })

def fwStageRule : CommandRule :=
  { plainRule 0x00D0 with adminOnly := true, chainable := true, used := [0xFFFFFFFF], whenFenced := true, inRecovery := true }
def fwCommitRule : CommandRule := { plainRule 0x00D1 with adminOnly := true, whenFenced := true, inRecovery := true }

/-- FW_STAGE (R526). -/
def execFwStage (r : RingId) (p : Packet) (s : State) : Host.Outcome State Fault Refusal :=
  .next (hostCommand r fwStageRule fwStageBody p s)

/-- FW_COMMIT (R527). -/
def execFwCommit (r : RingId) (p : Packet) (s : State) : Host.Outcome State Fault Refusal :=
  .next (hostCommand r fwCommitRule fwCommitBody p s)

/-! ## CONFIG_PUT (R529 to R532) -/

/-- R73: a far-tier window entry. -/
def windowOf (b : List Byte) : FarWindow where
  port := field b 122 2
  write := field b 121 1 = 1
  read := field b 120 1 = 1
  hpaBase := field b 64 36
  size := field b 44 20
  modBase := field b 0 17

/-- The window entries of a configuration record. -/
def windowEntries (b : List Byte) : List (List Byte) :=
  (List.range (field b 256 6)).map (fun k => slice b (64 + 16 * k) 16)

/-- R73: the entries in use. -/
def windowsOf (b : List Byte) : List FarWindow := ((windowEntries b).filter (fun e => field e 127 1 = 1)).map windowOf

/-- R74: the windows lie in the far-tier range, do not overlap and are not empty. -/
def windowsOk (ws : List FarWindow) : Bool :=
  ws.all (fun w => decide (1 ≤ w.size ∧ 0x1000 ≤ w.modBase ∧ w.modBase + w.size ≤ 0x11000)) &&
    decide (ws.Pairwise (fun a b => overlaps a.modBase a.size b.modBase b.size = false))

/-- R529: the configuration record of its bytes. -/
def configOf (n : Nor) (b : List Byte) : ConfigRecord where
  vendorSigned := field b 40 1 = 1
  signerKey := if field b 40 1 = 1 then [] else n.ownerKey.getD []
  sequence := BitVec.ofNat 64 (field b 128 64)
  fabricEn := BitVec.ofNat 6 (field b 192 6)
  cxlEn := BitVec.ofNat 2 (field b 198 2)
  split := field b 200 1 = 1
  oneDieGrant := field b 201 1 = 1
  debugCap := field b 202 2
  vendorDebug := field b 204 1 = 1
  twinEn := field b 205 1 = 1
  twinLink0 := field b 208 3
  twinLink1 := field b 211 3
  powerLimitW := field b 224 16
  minSvn := field b 240 16
  windows := windowsOf b
  raw := b.take (64 + 16 * field b 256 6)

/-- R531: the first condition that a configuration record fails. -/
def configCheck (s : State) (b : List Byte) : Option Status :=
  let count := field b 256 6
  let c := configOf (norInUse s.boot) b
  let key := if c.vendorSigned then Config.rootPk else c.signerKey
  let n := norInUse s.boot
  let valid := [n.copyA, n.copyB].filterMap (fun x => x.filter (signerAllowed n))
  if b.length < 64 ∨ field b 0 32 ≠ 0x5243465A ∨ count > 32 ∨ b.length ≠ 2884 + 16 * count ∨ field b 41 23 ≠ 0 ∨
      field b 206 2 ≠ 0 ∨ field b 214 10 ≠ 0 ∨ field b 262 250 ≠ 0 ∨
      (windowEntries b).any (fun e => field e 124 3 ≠ 0 || field e 100 20 ≠ 0 || field e 17 27 ≠ 0 || field e 122 2 = 3) then
    some .badPacket
  else if field b 32 8 ≠ 1 then some .version
  else if field b 64 64 ≠ Config.serial.toNat ∨ !signerAllowed n c ∨
      !Config.xmssVerify key c.raw (slice b (64 + 16 * count) 2820) ∨
      valid.any (fun x => decide (c.sequence.toNat ≤ x.sequence.toNat)) then some .access
  else if c.powerLimitW < 300 ∨ 1000 < c.powerLimitW ∨ 2 < c.twinLink0 ∨ c.twinLink1 < 3 ∨ 5 < c.twinLink1 ∨
      2 < c.debugCap ∨ c.cxlEn = 0 ∨ !windowsOk c.windows then some .limit
  else none

/-- R531: the new record goes into an invalid copy, or into the one with the lower SEQUENCE; `true` for copy B. -/
def copyFor (n : Nor) : Bool :=
  match n.copyA.filter (signerAllowed n), n.copyB.filter (signerAllowed n) with
  | none, _ => false
  | some _, none => true
  | some a, some b => decide (b.sequence.toNat ≤ a.sequence.toNat)

/-- R531: a configuration record is written into its copy, which then verifies. -/
def putConfig (c : ConfigRecord) (s : State) : State :=
  let b := s.boot
  if copyFor (norInUse b) then { s with boot := { b with nor := { b.nor with copyB := some c }, norBad := clearBit b.norBad 2 } }
  else { s with boot := { b with nor := { b.nor with copyA := some c }, norBad := clearBit b.norBad 1 } }

/-- The state with the NOR changed. -/
def onNor (f : Nor → Nor) (s : State) : State := { s with boot := { s.boot with nor := f s.boot.nor } }

/-- CONFIG_PUT with KIND CONFIG (R531). -/
def configPutBody (r : CmdRef) (c : Chain) (s : State) : State :=
  if parBits c 0 1 0 = 3 then complete r (replyOf .badPacket) s
  else match configCheck s c.payload with
    | some st => complete r (replyOf st) s
    | none =>
      let rec_ := configOf (norInUse s.boot) c.payload
      complete r { replyOf .done with count0 := rec_.sequence.toNat } (putConfig rec_ s)

/-- R532: the first condition that an ENROLL fails. -/
def enrollCheck (s : State) (b : List Byte) : Option Status :=
  if b.length ≠ 2948 ∨ field b 0 32 ≠ 0x4B4F465A ∨ field b 40 24 ≠ 0 ∨ field b 736 288 ≠ 0 then some .badPacket
  else if field b 32 8 ≠ 1 then some .version
  else if (norInUse s.boot).ownerKey.isSome ∨ field b 64 64 ≠ Config.serial.toNat ∨ field b 128 64 ≠ identity.toNat ∨
      !Config.xmssVerify (slice b 24 68) (slice b 0 128) (slice b 128 2820) then some .access
  else none

/-- R532: the owner record is written, and verifies. -/
def putOwner (key : List Byte) (s : State) : State :=
  { s with boot := { s.boot with nor := { s.boot.nor with ownerKey := some key }, norBad := clearBit s.boot.norBad 0 } }

/-- CONFIG_PUT with KIND ENROLL (R532). -/
def enrollBody (r : CmdRef) (c : Chain) (s : State) : State :=
  match enrollCheck s c.payload with
  | some st => complete r (replyOf st) s
  | none => complete r (replyOf .done) (putOwner (slice c.payload 24 68) s)

/-- R532: the first condition that a RELEASE fails. -/
def releaseCheck (s : State) (b : List Byte) : Option Status :=
  if b.length ≠ 2884 ∨ field b 0 32 ≠ 0x4C52465A ∨ field b 40 24 ≠ 0 ∨ field b 256 256 ≠ 0 then some .badPacket
  else if field b 32 8 ≠ 1 then some .version
  else match (norInUse s.boot).ownerKey with
    | none => some .access
    | some k =>
      if field b 64 64 ≠ Config.serial.toNat ∨ field b 128 64 ≠ identity.toNat ∨
          field b 192 64 ≠ leNat ((shake256 k).take 8) ∨
          !Config.xmssVerify Config.rootPk (slice b 0 64) (slice b 64 2820) then some .access
      else none

/-- CONFIG_PUT with KIND RELEASE (R532): the owner record is erased and the debug level drops to LOCKED. -/
def configPutReleaseBody (r : CmdRef) (c : Chain) (s : State) : State :=
  match releaseCheck s c.payload with
  | some st => complete r (replyOf st) s
  | none =>
    let s1 := onNor (fun n => { n with ownerKey := none }) s
    complete r (replyOf .done) { s1 with dbg := { s1.dbg with level := .locked } }

def configPutRule : CommandRule := { plainRule 0x00D3 with adminOnly := true, used := [0x3] }

/-- CONFIG_PUT with KIND CONFIG; the reserved KIND completes with BAD_PACKET (R531). -/
def execConfigPut (r : RingId) (p : Packet) (s : State) : Host.Outcome State Fault Refusal :=
  .next (hostCommand r configPutRule configPutBody (if p.p0 &&& 3 = 3 then p else fixP0 3 0 p) s)

/-- CONFIG_PUT with KIND ENROLL (R532). -/
def execEnroll (r : RingId) (p : Packet) (s : State) : Host.Outcome State Fault Refusal :=
  .next (hostCommand r configPutRule enrollBody (fixP0 3 1 p) s)

/-- CONFIG_PUT with KIND RELEASE (R532). -/
def execConfigPutRelease (r : RingId) (p : Packet) (s : State) : Host.Outcome State Fault Refusal :=
  .next (hostCommand r configPutRule configPutReleaseBody (fixP0 3 2 p) s)

/-! ## ATTEST (R523, R533, R534) -/

/-- R523: the journal with room for the next index; `none` when the key's indices are used up. -/
def reserveIndex (b : BootUnit) : Option BootUnit :=
  let upto := b.nor.journal.headD 0
  if b.nextIndex < upto then some b
  else if upto = 1048576 then none
  else some { b with nor := { b.nor with journal := (upto + 256) :: b.nor.journal } }

/-- R533: the report body over a nonce with a one-time index. -/
def attestBody (s : State) (index : Nat) (nonce : List Byte) : List Byte :=
  record 32 [(0, 0x5441465A), (32, 1), (40, bitOf s.boot.configSafe), (41, bitOf s.boot.oneDie), (42, bitOf (isFenced s)),
      (64, Config.serial.toNat), (128, s.time.toNat), (192, index), (224, 1048576 - index - 1)] ++
    record 32 [(0, s.boot.fwRelease.toNat), (8, s.boot.svn % 65536)] ++
    shake256 (slice s.boot.header 0 256) ++
    (if s.boot.configSafe then zeros 32 else shake256 s.boot.config.raw) ++ slice nonce 0 32 ++
    (((norInUse s.boot).ownerKey.map shake256).getD (zeros 32)) ++ zeros 64

/-- R534: seconds until the next signature. -/
def secondsLeft (s : State) : Nat := ceilDiv (900000000000 - (s.time - s.boot.bucketTime).toNat) 1000000000

/-- ATTEST (R533, R534). -/
def attestCmdBody (r : CmdRef) (c : Chain) (s : State) : State :=
  if c.payload.length ≠ 32 then complete r (replyOf .badPacket) s
  else if s.boot.bucket = 0 then complete r { replyOf .limit with count0 := secondsLeft s } s
  else match reserveIndex s.boot with
    | none => complete r (replyOf .noResource) s
    | some b =>
      let i := b.nextIndex
      let body := attestBody s i c.payload
      let report := body ++ slice Config.devicePk 0 68 ++ slice Config.deviceCert 0 2820 ++
        slice (Config.xmssSign i body) 0 2820
      complete r { status := .done, count0 := i, count1 := 0, payload := report }
        { s with boot := { b with nextIndex := i + 1, bucket := b.bucket - 1 } }

/-- What the command table says of ATTEST. -/
def attestRule : CommandRule := { plainRule 0x00D2 with whenFenced := true }

/-- ATTEST (R533). -/
def execAttest (r : RingId) (p : Packet) (s : State) : Host.Outcome State Fault Refusal :=
  .next (hostCommand r attestRule attestCmdBody p s)

/-- ATTEST_BUCKET_REFILL (R534): every 15 minutes the bucket refills by one, up to 4. -/
def execAttestBucketRefill (s : State) : Host.Outcome State Fault Refusal :=
  .next (if !fwRunning s then s
    else
      let s1 := atLeast (s.boot.bucketTime.toNat + 900000000000) s
      { s1 with boot := { s1.boot with bucket := min 4 (s1.boot.bucket + 1), bucketTime := s1.time } })

/-! ## Debug tokens (R515, R516) -/

/-- R514: the code of a debug level. -/
def levelCode : DebugLevel → Nat
  | .locked => 0
  | .observe => 1
  | .full => 2

/-- R514: the level of a code. -/
def levelOf (n : Nat) : DebugLevel := if n = 2 then .full else if n = 1 then .observe else .locked

/-- R515, R516: the signature of a token verifies under the key its SIGNER names: the owner key, or the vendor key where
the configuration accepts it. -/
def tokenSigned (s : State) (b : List Byte) : Bool :=
  let sig := slice b 64 2820
  if field b 42 1 = 1 then s.boot.config.vendorDebug && Config.xmssVerify Config.rootPk (slice b 0 64) sig
  else (norInUse s.boot).ownerKey.any (fun k => Config.xmssVerify k (slice b 0 64) sig)

/-- R516: the first condition that a token fails. -/
def tokenCheck (s : State) (b : List Byte) : Option Status :=
  let level := field b 40 2
  if field b 0 32 ≠ 0x4B54425A ∨ !(b.length = 2884 || (b.length = 64 && level = 0)) ∨ field b 43 21 ≠ 0 ∨
      field b 256 256 ≠ 0 then some .badPacket
  else if field b 32 8 ≠ 1 then some .version
  else if (level ≠ 0 ∧ !tokenSigned s b) ∨ field b 64 64 ≠ Config.serial.toNat ∨
      field b 128 64 ≠ s.dbg.bootNonce.toNat ∨ field b 192 64 ≠ identity.toNat ∨ s.boot.config.debugCap < level then
    some .access
  else none

/-- A token that passes sets the level. -/
def setLevel (b : List Byte) (s : State) : State := { s with dbg := { s.dbg with level := levelOf (field b 40 2) } }

/-- DEBUG_TOKEN with QUERY 0 (R516); verification takes no module time in the model, so no second token finds it busy
(log entry 34). -/
def debugTokenBody (r : CmdRef) (c : Chain) (s : State) : State :=
  match tokenCheck s c.payload with
  | some st => complete r (replyOf st) s
  | none => complete r { replyOf .done with count0 := field c.payload 40 2 } (setLevel c.payload s)

/-- DEBUG_TOKEN with QUERY 1 (R516). -/
def debugTokenQueryBody (r : CmdRef) (_ : Chain) (s : State) : State :=
  complete r (replyData (record 32 [(0, levelCode s.dbg.level), (2, s.boot.config.debugCap % 4),
    (64, Config.serial.toNat), (128, s.dbg.bootNonce.toNat)])) s

def debugTokenRule : CommandRule := { plainRule 0x00D4 with adminOnly := true, used := [0x1] }

/-- DEBUG_TOKEN (R516). -/
def execDebugToken (r : RingId) (p : Packet) (s : State) : Host.Outcome State Fault Refusal :=
  .next (hostCommand r debugTokenRule debugTokenBody (fixP0 1 0 p) s)

/-- DEBUG_TOKEN with QUERY (R516). -/
def execDebugTokenQuery (r : RingId) (p : Packet) (s : State) : Host.Outcome State Fault Refusal :=
  .next (hostCommand r debugTokenRule debugTokenQueryBody (fixP0 1 1 p) s)

end Sys2Proof.Machine
end

