-- ==== Sys2Proof/Machine/Registers.lean ====
section
/-!
DEFINITION. Writes of the host to BAR0, to the configuration space and to the ring windows (R43, R48 to R57, R64 to R67,
R88, R89).
-/

namespace Sys2Proof.Machine

/-- R48, R69 step 3: configuration space and BAR0 answer: the link is in DL_Active and the main rails are up. -/
def barUp (s : State) (p : Nat) : Bool := (portOf s p).linkUp && railsUp s

/-- R69 step 4: BAR2 answers once the host has set Memory Space Enable (PRESUMED, the PCIe meaning of the bit; log entry 3). -/
def windowUp (s : State) (p : Nat) : Bool := barUp s p && (portOf s p).memEnable

/-- R54: BAR_FAULT on a port. -/
def barFault (p : Nat) (s : State) : State := onPort p (raiseEvent evBarFault) s

/-! ## RESET_CTL and TREMOR_FIRE (R55, R56, R61) -/

/-- R55: the action of a RESET_CTL value: some true is RECOVERY, some false WARM, none a bad write. -/
def resetAction (v : Word) : Option Bool :=
  if v = 0xC1A50001 then some false else if v = 0xC1A50002 then some true else none

/-- R55: a reset takes up the instant in which it runs: writes of that instant arrive during it. -/
def resetNow (s : State) : Option Bool := if s.boot.resetTime = s.time then s.boot.resetting else none

/-- R55: a write of RESET_CTL. During a reset it is ignored, but RECOVERY is performed where both actions were written at the
same instant. -/
def writeResetCtl (p : Nat) (v : Word) (b : BootInputs) (s : State) : State :=
  if !barUp s p then s
  else match resetAction v with
    | none => barFault p s
    | some recovery => if (resetNow s).any (fun done => done || !recovery) then s else requestReset recovery b s

/-- RESET_CTL with ACTION WARM (R55, R61, R62). -/
def execResetCtlWarm (port : Fin 2) (value : Word) (b : BootInputs) (s : State) : Host.Outcome State Fault Refusal :=
  .next (writeResetCtl port value b s)

/-- RESET_CTL with ACTION RECOVERY (R55, R61, R63). -/
def execResetCtlRecovery (port : Fin 2) (value : Word) (b : BootInputs) (s : State) : Host.Outcome State Fault Refusal :=
  .next (writeResetCtl port value b s)

/-- R56: a write of TREMOR_FIRE. -/
def writeTremorFire (p : Nat) (v : Word) (s : State) : State := if barUp s p ∧ bit v 0 then fire srcRegister s else s

/-- TREMOR_FIRE (R56). -/
def execTremorFire (port : Fin 2) (value : Word) (s : State) : Host.Outcome State Fault Refusal :=
  .next (writeTremorFire port value s)

/-! ## Doorbells (R57, R88, R89) -/

/-- R88 reason 0x4: the doorbell gives TAIL − HEAD above 65,536 or moves TAIL backwards. -/
def doorbellBad (q : Ring) (t : BitVec 32) : Bool :=
  decide (65536 < (t - q.head).toNat ∨ (t - q.head).toNat < (q.tail - q.head).toNat)

/-- R57, R88, R89: a write of RING_DB. -/
def writeRingDb (r : RingId) (v : Word) (s : State) : State :=
  let q := ringOf s r.port r.idx
  let t : BitVec 32 := v.setWidth 32
  if !barUp s r.port then s
  else if bits v 63 32 ≠ 0 then barFault r.port s
  else if !q.enabled ∨ !(portOf s r.port).ringsOpen then s
  else if q.stopped then
    (if t = q.head then onRingOf r (fun x => { x with stopped := false, tail := x.head }) s else s)
  else if doorbellBad q t then stopRing r 4 s
  else onRingOf r (fun x => { x with tail := t }) s

/-- RING_DB (R57). -/
def execRingDb (r : RingId) (value : Word) (s : State) : Host.Outcome State Fault Refusal :=
  .next (writeRingDb r value s)

/-! ## Events and vectors (R54, R67) -/

/-- R54: the implemented bits of HOST_EVENT and its mask. -/
def eventBits : Word := 0x3FF

/-- R67: a write of HOST_EVENT_MASK; the device vector fires when a bit becomes enabled over a pending event. -/
def writeEventMask (p : Nat) (v : Word) (s : State) : State :=
  if !barUp s p then s
  else onPort p (fun q =>
    let m := v &&& eventBits
    let q1 := { q with hostEventMask := m }
    if m &&& ~~~ q.hostEventMask &&& q.hostEvent ≠ 0 then fireVector 64 q1 else q1) s

/-- HOST_EVENT_MASK (R67). -/
def execHostEventMask (port : Fin 2) (value : Word) (s : State) : Host.Outcome State Fault Refusal :=
  .next (writeEventMask port value s)

/-- R49, R67: a 64-bit write into the MSI-X table: an address, or data with Vector Control's mask at bit 32. -/
def writeMsix (w : Nat) (v : Word) (q : Port) : Port :=
  sendHeldVectors { q with
    msix := modAt q.msix (w / 2) (fun e =>
      if w % 2 = 0 then { e with addr := v } else { e with data := v.setWidth 32, masked := bit v 32 }) }

/-- R67: a vector is unmasked, or with no vector the function's MSI-X is enabled and unmasked; messages that are no
longer held back are sent. -/
def unmask (vector : Option (Fin 65)) (q : Port) : Port :=
  match vector with
  | some v => sendHeldVectors { q with msix := modAt q.msix v (fun e => { e with masked := false }) }
  | none => sendHeldVectors { q with msixEnable := true, msixFuncMask := false }

/-- MSIX_UNMASK (R67): a vector's mask lies in BAR0, the function's in configuration space. -/
def execMsixUnmask (port : Fin 2) (vector : Option (Fin 65)) (s : State) : Host.Outcome State Fault Refusal :=
  .next (if (vector.isSome && !barUp s port) || !(portOf s port).linkUp then s else onPort port (unmask vector) s)

/-- BAR0_BAD_ACCESS (R48): a read returns zero and a write is ignored; BAR_FAULT is set in both cases. -/
def execBar0BadAccess (port : Fin 2) (_offset : BitVec 16) (_write : Bool) (s : State) : Host.Outcome State Fault Refusal :=
  .next (if barUp s port then barFault port s else s)

/-! ## Other registers (R6, R45, R49, R60, R67, R69, R72) -/

/-- R49, R60: a good write to BAR0: HOST_EVENT and AON_FLAGS clear by writing ones, the MSI-X table takes what is
written, and a register with a row of its own acts as that row; everything else is read-only or not there. -/
def writeBar0 (p : Nat) (offset : Nat) (v : Word) (s : State) : State :=
  if !barUp s p then s
  else if offset % 8 ≠ 0 then barFault p s
  else if offset = 0x0018 then onPort p (fun q => { q with hostEvent := q.hostEvent &&& ~~~ v }) s
  else if offset = 0x0020 then writeEventMask p v s
  else if offset = 0x0040 then writeResetCtl p v (bootInputsNow s) s
  else if offset = 0x0048 then writeTremorFire p v s
  else if 0x0100 ≤ offset ∧ offset < 0x0300 then
    writeRingDb { port := if p = 0 then 0 else 1, idx := ⟨(offset - 0x100) / 8 % 64, Nat.mod_lt _ (by decide)⟩ } v s
  else if offset = 0x0810 then { s with boot := { s.boot with aonFlags := s.boot.aonFlags &&& ~~~ (v.setWidth 6) } }
  else if 0x8000 ≤ offset ∧ offset < 0x8410 then onPort p (writeMsix ((offset - 0x8000) / 8) v) s
  else s

/-- R45, R46, R47, R44, R67: what a read of the port's configuration space returns: identification, Command, class code, the two
BARs with their attributes (64-bit; BAR2 prefetchable), MSI-X control with its 65 vectors, Device Control, and the CXL DVSEC with
IO_Capable alone. Identification, Command and the BARs stand where PCIe has them (PRESUMED); where the MSI-X capability, Device Control
and the DVSEC stand is not given: 0x40, 0x60 and 0x80 here (DESIGN CHOICE, log entry 35). -/
def configRead (s : State) (p offset : Nat) : Word :=
  let q := portOf s p
  BitVec.ofNat 64 (match offset with
    | 0x00 => 0x0A24 <<< 16 + Config.vendorId.toNat
    | 0x04 => bitOf q.memEnable <<< 1 + bitOf q.busMaster <<< 2
    | 0x08 => 0x120000 <<< 8
    | 0x10 => q.bar0.toNat + 2 <<< 1
    | 0x18 => q.bar2.toNat + 2 <<< 1 + 1 <<< 3
    | 0x40 => 64 <<< 16 + bitOf q.msixFuncMask <<< 30 + bitOf q.msixEnable <<< 31
    | 0x60 => q.mps <<< 5 + q.mrrs <<< 12
    | 0x80 => bitOf q.uioEnable + 1 <<< 17
    | _ => 0)

/-- R46: a write of Device Control: Max_Payload_Size takes 128 and 256 bytes, Max_Read_Request_Size up to 4,096; a larger value
leaves its field as it was (DESIGN CHOICE, log entry 35). Relaxed Ordering is never set. -/
def writeDeviceControl (v : Word) (q : Port) : Port :=
  { q with
    mps := if bits v 7 5 ≤ 1 then bits v 7 5 else q.mps
    mrrs := if bits v 14 12 ≤ 5 then bits v 14 12 else q.mrrs }

/-- R46, R47, R67, R69, R72: a write to the port's configuration space; what is not listed is read-only. The BARs take the address bits
above their sizes of 64 KiB and 256 MiB. What waited for Bus Master Enable or for MSI-X is sent. -/
def writeConfig (p : Nat) (offset : Nat) (v : Word) (s : State) : State :=
  if !(portOf s p).linkUp then s
  else
    let s1 := onPort p (fun q =>
      match offset with
      | 0x04 => { q with memEnable := bit v 1, busMaster := bit v 2 }
      | 0x10 => { q with bar0 := BitVec.ofNat 64 (bits v 63 16 <<< 16) }
      | 0x18 => { q with bar2 := BitVec.ofNat 64 (bits v 63 28 <<< 28) }
      | 0x40 => { q with msixEnable := bit v 31, msixFuncMask := bit v 30 }
      | 0x60 => writeDeviceControl v q
      | 0x80 => { q with uioEnable := bit v 0 }
      | _ => q) s
    settleTransition (resumeCloses (onPort p (fun q => pumpPort s1.time (sendHeldVectors q)) s1))

/-- REGISTER_WRITE (R6). -/
def execRegisterWrite (port : Fin 2) (space : RegSpace) (offset : BitVec 16) (value : Word) (s : State) :
    Host.Outcome State Fault Refusal :=
  .next (match space with
    | .bar0 => writeBar0 port offset.toNat value s
    | .config => writeConfig port offset.toNat value s)

/-- BAR2_WRITE (R65): the bytes are stored in an enabled ring's window; otherwise they are dropped and BAR_FAULT is set. -/
def execBar2Write (port : Fin 2) (offset : Nat) (data : List Byte) (s : State) : Host.Outcome State Fault Refusal :=
  let i := offset / 0x400000
  let o := offset % 0x400000
  .next (if !windowUp s port ∨ 64 ≤ i then s
    else if (ringOf s port i).enabled then
      onPort port (onRing i (fun r => { r with window := memWrite r.window o (data.take (0x400000 - o)) })) s
    else barFault port s)

end Sys2Proof.Machine
end

