-- ==== Sys2Proof/Machine/Pins.lean ====
section
/-!
DEFINITION. Pins, supplies, links and module time: power sequencing and power faults, RESET_N, PERST, the CXL link, cable
presence, TIME_SYNC and the management bus, and the timers of the host attachment (R43, R53, R69 to R71, R97, R99, R480,
R543, R546 to R556).
-/

namespace Sys2Proof.Machine

/-! ## Supplies (R546 to R548, R478) -/

/-- R547 steps 3 and 4: PWRGD_OUT is released, straps are sampled and the module boots cold. Module time starts at 0
(R554). Without the clean-shutdown marker the boot reports BROWNOUT (R479, R546). -/
def coldBoot (b : BootInputs) (s : State) : State :=
  let marker := s.boot.nor.cleanShutdown
  let s1 := { s with
    time := 0
    near := []
    clock := TimeUnit.reset
    pins := { s.pins with
      pwrgdOut := true, twinSide := b.twinSide, cascPos := b.cascPos, coldLatched := false, aonLost := false,
      retentionLost := false, thermOut := false,
      brownDetail := if marker then none else some (s.pins.brownDetail.getD 0) }
    boot := { s.boot with nor := { s.boot.nor with cleanShutdown := false } } }
  startTraining 1 (startTraining 0 (runBoot false 3 b (dropWork true s1)))

/-- R547 step 2: the module is off and free to power up: both supplies and PWR_EN are there, no fault is latched (R549), and
a COLD module has seen PWR_EN fall (R548). -/
def mayPower (s : State) : Bool :=
  s.pins.pwrEn && s.pins.vauxUp && s.pins.vinOk && !s.pins.pwrgdOut && s.power.state = .cold && s.pins.fault = 0 &&
    !s.pins.coldLatched

/-- VAUX_UP (R547 step 1): the always-on domain starts, SMB_ADDR is sampled, and the SMBus endpoint answers; a PWR_EN that
rose before is acted on now. -/
def execVauxUp (addr : BitVec 2) (s : State) : Host.Outcome State Fault Refusal :=
  let s1 := { s with pins := { s.pins with vauxUp := true, smbAddr := addr } }
  .next (if mayPower s1 then coldBoot (bootInputsNow s1) s1 else s1)

/-- PWR_EN_RISE (R547 steps 2 to 4): acted on with VAUX_3V3 up and VIN_48 at 40 V or more. -/
def execPwrEnRise (vinOk : Bool) (b : BootInputs) (s : State) : Host.Outcome State Fault Refusal :=
  let s1 := { s with pins := { s.pins with pwrEn := true, vinOk := vinOk } }
  .next (if mayPower s1 then coldBoot b s1 else s1)

/-- PWR_EN_FALL (R548): the module stops in any state: the clean-shutdown marker is written while the main rails are up,
and then they drop. A fall in DORMANT loses the near tier. FAULT_N is let go (R549). -/
def execPwrEnFall (s : State) : Host.Outcome State Fault Refusal :=
  let s0 := { s with pins := { s.pins with pwrEn := false, fault := 0, coldLatched := false } }
  .next (if s.pins.pwrgdOut then
      mainRailsOff { s0 with boot := { s0.boot with nor := { s0.boot.nor with cleanShutdown := true } } }
    else if s.power.state = .dormant then
      { s0 with near := [], err := { s0.err with poison := [] }, pins := { s0.pins with retentionLost := true } }
    else s0)

/-- R546: a power fault: FAULT_N is asserted with its cause, PWRGD_OUT falls and the main rails drop at once; no marker
is written, and the next boot reports BROWNOUT with the fault's DETAIL. -/
def powerFault (cause detail : Nat) (s : State) : State :=
  let s1 := mainRailsOff s
  { s1 with pins := { s1.pins with fault := if s1.pins.fault = 0 then cause else s1.pins.fault, brownDetail := some detail } }

/-- VIN_FAULT (R546). In DORMANT VIN_48 feeds the retention rail (R545). -/
def execVinFault (s : State) : Host.Outcome State Fault Refusal :=
  let s1 := { s with pins := { s.pins with vinOk := false } }
  .next (if s.pins.pwrgdOut then powerFault 2 4 s1
    else if s.power.state = .dormant then
      { s1 with near := [], err := { s1.err with poison := [] }
                pins := { s1.pins with retentionLost := true, fault := if s1.pins.fault = 0 then 2 else s1.pins.fault } }
    else s1)

/-- VAUX_LOSS (R478, R546): the always-on contents are lost; with PWR_EN high it is a power fault as well, whether or not the main
rails are up. -/
def execVauxLoss (s : State) : Host.Outcome State Fault Refusal :=
  let s1 := if s.pins.pwrgdOut then powerFault 2 0 s else s
  let s2 := loseAon s1
  .next { s2 with pins := { s2.pins with
    vauxUp := false, smbAlert := false, eid := 0, brownDetail := some 0
    fault := if s.pins.pwrEn ∧ s.pins.vauxUp ∧ s2.pins.fault = 0 then 2 else s2.pins.fault } }

/-- REGULATOR_FAULT (R546). -/
def execRegulatorFault (s : State) : Host.Outcome State Fault Refusal :=
  .next (if s.pins.pwrgdOut then powerFault 3 5 s else s)

/-- THERMAL_TRIP (R60, R480, R538, R549): the module shuts down at once; the next boot finds no marker (R479). -/
def execThermalTrip (_island : Nat) (s : State) : Host.Outcome State Fault Refusal :=
  .next (if s.pins.pwrgdOut then setAon aonThermalTrip (powerFault 1 0 s) else s)

/-- AON_OVERLOAD (R478): in DORMANT the always-on contents are lost, and the next wake follows R477. -/
def execAonOverload (s : State) : Host.Outcome State Fault Refusal :=
  .next (if s.power.state = .dormant then loseAon s else s)

/-! ## RESET_N, PERST and the CXL links (R43, R69 to R71, R549) -/

/-- RESET_N (R549): a warm reset, held until a power transition ends; ignored while PWR_EN is low and in DORMANT. -/
def execResetN (b : BootInputs) (s : State) : Host.Outcome State Fault Refusal :=
  .next (if !s.pins.pwrEn ∨ !railsUp s ∨ s.dbg.pinsTaken ≠ 0 then s else requestReset false b s)

/-- PERST_ASSERT (R70, R476): the port alone resets; its sessions close, unless the module is in DORMANT. -/
def execPerstAssert (port : Fin 2) (s : State) : Host.Outcome State Fault Refusal :=
  let down (q : Port) : Port :=
    { linkDown q with
      perst := true, hostEvent := 0, hostEventMask := 0, msix := List.replicate 65 MsixEntry.reset, pba := 0 }
  .next (if railsUp s then settleTransition (onPort port down (closeSessionsOf port s)) else onPort port down s)

/-- R549, R478: the always-on domain can wake the module: it is supplied, and PWR_EN allows main power. -/
def mayWake (s : State) : Bool := decide (s.power.state = .dormant) && s.pins.pwrEn && s.pins.vauxUp

/-- PERST_DEASSERT (R69, R71, R475): the port's bring-up starts when its other conditions hold, and WAKE_N is let go; in
DORMANT the module wakes, straps and failures as given. -/
def execPerstDeassert (port : Fin 2) (b : BootInputs) (s : State) : Host.Outcome State Fault Refusal :=
  let s1 := onPort port (fun q => { q with perst := false, wakeOut := false }) s
  .next (if mayWake s ∧ (portOf s port).perst then wakeUp (2 + port.val) b s1 else startTraining port s1)

/-- REFCLK_STABLE (R69). -/
def execRefclkStable (port : Fin 2) (s : State) : Host.Outcome State Fault Refusal :=
  .next (startTraining port (onPort port (fun q => { q with refclk := true }) s))

/-- R69 step 5, R63: the rings of a port at a service point open when the module serves them. -/
def openRings (p : Nat) (s : State) : State :=
  if (s.boot.phase = .running ∨ s.boot.phase = .recovery) ∧ dieUp s p ∧ !cxlRetired s p then onPort p openPort s else s

/-- R69 step 5: the rings of a port that comes into service, of which BOOT_DONE tells. -/
def openIfServed (p : Nat) (s : State) : State :=
  let s1 := openRings p s
  if (portOf s1 p).ringsOpen ∧ s.boot.phase = .running then onPort p (raiseEvent evBootDone) s1 else s1

/-- CXL_LINK_UP (R43, R69 steps 2 to 5): the link reaches DL_Active at a width and rate. Held messages and completions go
out once nothing blocks them. -/
def execCxlLinkUp (port : Fin 2) (width rate : Nat) (s : State) : Host.Outcome State Fault Refusal :=
  .next (if !(portOf s port).training then s
    else
      let s1 := onPort port (fun q => { q with training := false, linkUp := true, width := width, rate := rate }) s
      let s2 := if servicePoint width rate then openIfServed port s1 else onPort port (raiseEvent evLinkDegraded) s1
      settleTransition (resumeCloses (onPort port (fun q => pumpPort s2.time (sendHeldVectors q)) s2)))

/-- LINK_RETRAIN (R43): rings close outside the service points, with HEAD, TAIL, sessions and commands kept, and open
again at one; a port that had not been in service comes into it (R69 step 5). -/
def execLinkRetrain (port : Fin 2) (width rate : Nat) (s : State) : Host.Outcome State Fault Refusal :=
  let q := portOf s port
  .next (if !q.linkUp ∨ (q.width = width ∧ q.rate = rate) then s
    else
      let s1 := onPort port (fun q => { q with width := width, rate := rate }) s
      if servicePoint width rate then
        (if servicePoint q.width q.rate then onPort port (raiseEvent evLinkDegraded) s1
         else
          onPort port (raiseEvent evLinkDegraded)
            (if (ringAt q 0).enabled then openRings port s1 else openIfServed port s1))
      else onPort port (fun q => raiseEvent evLinkDegraded { q with ringsOpen := false }) s1)

/-- CBL_PRES (R543): a cage without a cable keeps its port DISABLED, reported DOWN with NO_SIGNAL; with one, an enabled
port trains. -/
def execCblPres (port : Fin 6) (present : Bool) (s : State) : Host.Outcome State Fault Refusal :=
  .next { s with fabric := { s.fabric with
    ports := modAt s.fabric.ports port (fun q =>
      if present then { q with cable := true, state := if q.enabled ∧ !q.outOfService then .training else q.state, reason := 0 }
      else { q with cable := false, state := if q.enabled then .down else .disabled, reason := if q.enabled then 1 else 0 }) } }

/-! ## Timers of the host attachment (R53, R97, R99) -/

/-- FW_HEARTBEAT (R53): the leading Caldera counts, and the watchdog sets FW_ALIVE; a stall is over. -/
def execFwHeartbeat (s : State) : Host.Outcome State Fault Refusal :=
  .next (if !fwRunning s then s
    else { s with boot := { s.boot with
      heartbeat := s.boot.heartbeat + 1, heartbeatTime := s.time, fwAlive := true, fwStalled := false } })

/-- HEARTBEAT_WATCHDOG (R53): the count has not changed for 10 ms while BOOT_PHASE is RUNNING; the watchdog fires once in a stall. -/
def execHeartbeatWatchdog (s : State) : Host.Outcome State Fault Refusal :=
  .next (if s.boot.phase ≠ .running ∨ !railsUp s ∨ s.boot.fwStalled then s
    else raiseUp evFwStall
      (atLeast (s.boot.heartbeatTime.toNat + 10000000) { s with boot := { s.boot with fwAlive := false, fwStalled := true } }))

/-- COAL_TIMER (R99): COAL_US has passed since the first pending completion, and the ring's vector fires. -/
def execCoalTimer (r : RingId) (s : State) : Host.Outcome State Fault Refusal :=
  .next (match (ringOf s r.port r.idx).cq.bind (fun c => c.firstPending.map (fun t => (c, t))) with
    | none => s
    | some (c, t) =>
      let s1 := atLeast (t.toNat + c.coalUs * 1000) s
      onPort r.port (fun q => fireVector r.idx
        (onRing r.idx (fun x => { x with cq := x.cq.map (fun c => { c with pendingIrq := 0, firstPending := none }) }) q)) s1)

/-- R97: the next completion of a ring has too little free space, so the module reads the head word. -/
def lacksRoom (q : Ring) : Bool :=
  q.cq.any (fun c => match c.held with
    | d :: _ => !cqFits c (completionUnits d)
    | [] => !q.events.isEmpty && !cqFits c 2)

/-- R97: the head word as the module takes it: never above the units written, never below the last value read. -/
def takeHead (head : Word) (c : CompletionRing) : CompletionRing := { c with released := max c.released (min head.toNat c.written) }

/-- CQ_HEAD_POLL (R97): while a completion waits for room the head word is read, and what then fits is written. -/
def execCqHeadPoll (r : RingId) (head : Word) (s : State) : Host.Outcome State Fault Refusal :=
  .next (if !lacksRoom (ringOf s r.port r.idx) then s
    else settleTransition (resumeCloses (onPort r.port
      (fun q => pumpRing s.time r.idx (onRing r.idx (fun x => { x with cq := x.cq.map (takeHead head) }) q)) s)))

/-! ## Module time (R553, R554) -/

/-- The nearest multiple of a second to a module time. -/
def nearestSecond (t : Nat) : Nat := (t + 500000000) / 1000000000 * 1000000000

/-- R553, R555: a message of the SMBus endpoint. -/
def smbSend (b : List Byte) (s : State) : State := { s with pins := { s.pins with smbSent := s.pins.smbSent ++ [b] } }

/-- R553: the response of TIME_SET or TIME_GET. -/
def timeResponse (command result : Nat) (t : Word) : List Byte :=
  natLE command 1 ++ natLE result 1 ++ zeros 2 ++ natLE t.toNat 8

/-- R553: module time steps. What is counted from a reset or a heartbeat is a duration, which a step leaves as it is (R53, R58). -/
def stepTime (now : Word) (s : State) : State :=
  { s with
    time := now
    boot := { s.boot with
      resetTime := s.boot.resetTime + (now - s.time), heartbeatTime := s.boot.heartbeatTime + (now - s.time) } }

/-- TIME_SYNC (R553): an edge sets module time, slews it, or is ignored. -/
def execTimeSync (s : State) : Host.Outcome State Fault Refusal :=
  let c := s.clock
  .next (if !s.pins.pwrgdOut ∨ s.dbg.pinsTaken ≠ 0 then s
    else match c.setPending with
      | some (sec, _) =>
        let now : Word := sec * 1000000000
        smbSend (timeResponse 1 0 now)
          { stepTime now s with
            clock := { c with setPending := none, firstPending := false, lastEdge := some now, slewPpm := 0, accepted := c.accepted + 1 } }
      | none =>
        if c.firstPending then
          let now := BitVec.ofNat 64 (nearestSecond s.time.toNat)
          { stepTime now s with
            clock := { c with firstPending := false, lastEdge := some now, slewPpm := 0, accepted := c.accepted + 1 } }
        else
          let gap := (s.time - c.lastEdge.getD s.time).toNat
          if gap < 900000000 ∨ 1100000000 < gap then { s with clock := { c with ignored := c.ignored + 1, accepted := 0, lastEdge := some s.time } }
          else
            let off : Int := (nearestSecond s.time.toNat : Int) - s.time.toNat
            let ppm := max (-500) (min 500 (off / 1000))
            { s with clock := { c with slewPpm := ppm, lastEdge := some s.time, accepted := c.accepted + 1 } })

/-- TIME_SET (R553): SECONDS waits for the next edge. -/
def execTimeSet (seconds : Word) (s : State) : Host.Outcome State Fault Refusal :=
  .next (if s.pins.vauxUp then { s with clock := { s.clock with setPending := some (seconds, s.time) } } else s)

/-- TIME_SET_NO_EDGE (R553): the value is discarded and the response reports NO_EDGE. -/
def execTimeSetNoEdge (s : State) : Host.Outcome State Fault Refusal :=
  .next (match s.clock.setPending with
    | none => s
    | some (_, t) =>
      let s1 := atLeast (t.toNat + 2000000000) s
      smbSend (timeResponse 1 1 s1.time) { s1 with clock := { s1.clock with setPending := none } })

/-- TIME_GET (R553). -/
def execTimeGet (s : State) : Host.Outcome State Fault Refusal :=
  .next (if s.pins.vauxUp then smbSend (timeResponse 2 0 s.time) s else s)

/-! ## The management bus (R555, R556) -/

/-- R556: the state of sensor 0x0010: ACTIVE, SIMMER, DORMANT, TRANSITION, OFF, numbered in that order (DESIGN CHOICE, log
entry 36). -/
def powerSensor (s : State) : Nat :=
  if s.power.transition.isSome then 3
  else match s.power.state with
    | .active => 0
    | .simmer => 1
    | .dormant => 2
    | .cold => 4

/-- R556: the reading of a sensor; temperatures are unavailable in DORMANT and with PWR_EN low. The two voltages are what
the board applies, and free. -/
def sensorReading (s : State) (id : Nat) : Option Int :=
  let off := s.power.state = .dormant ∨ !s.pins.pwrEn
  match id with
  | 0x0001 => if off then none else some (max s.pins.temp0 s.pins.temp1)
  | 0x0002 => if off then none else some s.pins.temp0
  | 0x0003 => if off then none else some s.pins.temp1
  | 0x0004 => some (freshValue s).toNat
  | 0x0005 => some (freshValue s).toNat
  | 0x0010 => some (powerSensor s)
  | 0x0011 => some (phaseCode s.boot.phase)
  | 0x0012 => some s.pins.fault
  | 0x0013 => some s.clock.ignored
  | _ => none

/-- PLDM_REQUEST (R555, R556): the endpoint answers. DSP0240 and DSP0248 lay the messages out, not this manual: the body
stands for the sensor ID in its first two bytes, and the answer for an availability byte and the reading (DESIGN CHOICE, log
entry 36). A poll takes the alert back. -/
def execPldmRequest (body : List Byte) (s : State) : Host.Outcome State Fault Refusal :=
  .next (if !s.pins.vauxUp then s
    else
      let answer : List Byte := match sensorReading s (field body 0 16) with
        | some v => 0 :: natLE (v % 2 ^ 64).toNat 8
        | none => [1]
      let s1 := smbSend (body.take 2 ++ answer) (takeFresh 1 s)
      { s1 with pins := { s1.pins with smbAlert := false } })

/-- MCTP_CONTROL (R555): the endpoint answers; Set Endpoint ID (command 0x01 of DSP0236, PRESUMED) gives it its ID. -/
def execMctpControl (body : List Byte) (s : State) : Host.Outcome State Fault Refusal :=
  .next (if !s.pins.vauxUp then s
    else
      let s1 := if field body 0 8 = 1 then { s with pins := { s.pins with eid := BitVec.ofNat 8 (field body 16 8) } } else s
      smbSend (natLE (field body 0 8) 1 ++ [0] ++ natLE s1.pins.eid.toNat 1) s1)

end Sys2Proof.Machine
end

