-- ==== Sys2Proof/Machine/FabricRx.lean ====
section
/-!
DEFINITION. Messages from other modules: how they join their flows, which step takes them, and what each type does (R327,
R373, R392, R410, R413, R417 to R420, R451); and how operators that waited go on.
-/

namespace Sys2Proof.Machine

/-! ## Operators that go on -/

/-- What an operator checks at its start and what it does, its reads showing what `f` tells. -/
def opMeaning (f : ReadFaults) (e : OpEntry) : (Ctx → Option Status) × (Ctx → OpEnd) :=
  match e.op with
  | .scan => (wholeOperands, scanOp)
  | .decode => (wholeOperands, decodeOp f)
  | .encode => (wholeOperands, encodeOp)
  | .check => (wholeOperands, checkOp f)
  | .relayout => (relayoutPre, relayoutBody)
  | .filter => (wholeOperands, filterBody)
  | .project => (wholeOperands, projectBody)
  | .hash => (wholeOperands, hashBody)
  | .bucket => (wholeOperands, bucketBody)
  | .normalise => (wholeOperands, normaliseBody)
  | .stats => (wholeOperands, statsBody)
  | .joinBuild => (wholeOperands, joinBuildBody)
  | .joinProbe => (wholeOperands, joinProbeBody)
  | .groupAgg => (wholeOperands, groupAggBody)
  | .sort => (wholeOperands, sortBody)
  | .gather => (embedPre .gather, gatherBody)
  | .poolGather => (embedPre .poolGather, poolGatherBody)
  | .scatterUpdate => (embedPre .scatterUpdate, scatterUpdateBody)
  | .dense => (fun c => weightPre (!denseRelay c.e) c, denseBody)
  | .activate => (wholeOperands, activateBody)
  | .norm => (wholeOperands, normBody)
  | .interact => (wholeOperands, interactBody)
  | .attendShort => (wholeOperands, attendShortBody)
  | .softmax => (wholeOperands, softmaxBody)
  | .denseGrad => (denseGradPre, denseGradBody)
  | .optStep => (fun c => nearOperands [c.e.in0, c.e.in1] c, optStepBody)
  | .topk => (wholeOperands, if topCollective e then topkCollectiveBody else topkBody)
  | .matchOp => (matchPre, matchBody)
  | .exchange => (wholeOperands, exchangeBody)
  | .reduce => (fun c => nearOperands [c.e.in0, c.e.out0] c, reduceBody)
  | .allgather => (wholeOperands, allgatherBody)
  | .barrier => (wholeOperands, barrierBody)
  | .emit => (wholeOperands, emitBody)

/-- An operator that has begun and waits tries to go on. -/
def resumeOp (h : Word) (op : Nat) (s : State) : State :=
  match ctxOf s h op with
  | none => s
  | some c =>
    if opHeld c.o op ∧ !c.o.done.contains op then
      let f := faultsHeld c.o op
      let m := opMeaning f c.e
      runOp h op c.e.op f m.1 m.2 s
    else s

/-- Operators that wait go on, and then a boundary that waits. -/
def resumePlan (h : Word) (s : State) : State :=
  let held := (((planOf s h).bind (·.run)).bind (·.openStep)).map (fun o =>
    (o.inbox.filter (fun a => a.kind = heldKind)).map (·.op))
  resumeBoundary h ((held.getD []).foldl (fun x op => resumeOp h op x) s)

/-- Everything in the open steps that waits tries to go on, and waiting steps begin. -/
def resumeWork (s : State) : State :=
  startSteps 0 (((livePlans s).map (·.handle)).foldl (fun x h => resumePlan h x) s)

/-! ## Taps of fabric ports (R253) -/

/-- R253: operand data of the fabric plan's operator arrives on a fabric port. Which of the operand's addresses a message carries is not
stated: the port's taps of the session hold free values (DESIGN CHOICE, log entry 64). -/
def foldArrival (link : Nat) (m : Message) (s : State) : State :=
  let carries : Bool := [kindRowData, kindUpdate, kindExchange, kindReduce, kindGather, kindTopk, kindRelay].contains m.kind.toNat
  match fabricPlan s with
  | none => s
  | some p =>
    match p.bin.ops[m.opIndex.toNat]? with
    | none => s
    | some e =>
      if !carries then s
      else
        let ranges := (opDescs e).flatMap (fun k => sessionRanges (descOf p.bin k)) ++ tableRanges s p
        freeTaps p.session (fun _ t =>
          if t.stream = 7 ∧ t.unit = link then min m.payload.length (windowBytes t ranges) else 0) s

/-! ## Replay announced by another module (R451) -/

/-- R451: a replay told by another module: a step that has not committed here runs again; one that has counts the attempt and
keeps its results, which a replay reproduces (R32). -/
def takeReplay (h : Word) (attempt : Nat) (s : State) : State :=
  match ((planOf s h).bind (·.run)).bind (·.openStep) with
  | none => s
  | some o =>
    if o.attempt ≠ attempt then s
    else if o.committed then
      onPlan h (fun p => { p with
          commit := p.commit.map (fun r => { r with attempts := r.attempts + 1 })
          run := p.run.map (fun r => { r with
            replays := r.replays + 1
            openStep := r.openStep.map (fun y => { y with attempt := attempt + 1 }) }) }) s
    else if o.detections.isEmpty then detect h none s else s

/-- R417, R451: the announcement of a replay goes up to rank 0 and down to every rank. -/
def passReplay (c : Ctx) (attempt : Nat) : Ctx :=
  let phase := replayPhase attempt
  let op := barrierOp c.p
  let told (r : Nat) (x : Ctx) : Bool :=
    x.o.inbox.any (fun a => decide (a.kind = kindArrive ∧ a.op = op ∧ a.phase = phase ∧ a.dst = r))
  let up (x : Ctx) (r : Nat) : Ctx :=
    if !told r x ∨ isMarked x.o op phase r 0x10 then x
    else
      let y := mark op phase r 0x10 x
      if r = 0 then deposit kindRelease op phase 0 0 [] y else sendRank kindArrive op phase r ((r - 1) / 2) [] y
  (heldRanks c).foldl (releaseRank op phase) ((heldRanks c).reverse.foldl up c)

/-- A message of the step barrier has come in a phase that announces a replay. -/
def replayMessage (h : Word) (attempt : Nat) (s : State) : State :=
  match ctxOfStep s h with
  | none => s
  | some c =>
    let x := passReplay c attempt
    let s1 := onStep h (fun o => { o with inbox := x.o.inbox }) x.s
    if (releaseOf x.o (barrierOp x.p) (replayPhase attempt) (ownRank x)).isSome then takeReplay h attempt s1 else s1
where
  /-- The open step seen from the step barrier. -/
  ctxOfStep (s : State) (h : Word) : Option Ctx :=
    (planOf s h).bind (fun p => p.run.bind (fun r => r.openStep.map (fun o => opCtx p r o s (barrierOp p))))

/-! ## Delivery -/

/-- R327: a forwarded contribution is staged at its owner under its own key, in place of one that an earlier attempt of the
sender brought; one that passes MAX_CONTRIB fails the operator with LIMIT (R323). -/
def stageContribution (h : Word) (op : Nat) (d : List Byte) (s : State) : State :=
  let g := parseContribution op d
  let s1 := onStep h (fun o => { o with staged := o.staged.filter (fun x => !(x.op = op && x.key = g.key)) ++ [g] }) s
  match ctxOf s1 h op with
  | none => s1
  | some c => if pf c.e 192 64 < stagedBy c.o op then endRun h .limit s1 else s1

/-- R327: pieces of a contribution gather until it is whole. -/
def takeUpdate (h : Word) (m : Message) (s : State) : State :=
  match ((planOf s h).bind (·.run)).bind (·.openStep) with
  | none => s
  | some o =>
    let op := m.opIndex.toNat
    let src := m.srcRank.toNat
    let box := takeArrival kindUpdate op src m.payload o.inbox
    let whole (a : Arrival) : Bool :=
      a.kind = kindUpdate && a.op = op && a.src = src && decide (a.total ≤ a.data.length)
    let s1 := onStep h (fun x => { x with inbox := box.filter (fun a => !whole a) }) s
    if o.committed then s1 else (box.filter whole).foldl (fun x a => stageContribution h op a.data x) s1

/-- A contribution to an operator or to the step barrier joins the inbox, and what waited for it goes on. -/
def takeData (h : Word) (m : Message) (s : State) : State :=
  let op := m.opIndex.toNat
  let src := if m.kind.toNat = kindRowData then 0 else m.srcRank.toNat
  let s1 := onStep h (fun o => { o with inbox := takeArrival m.kind.toNat op src m.payload o.inbox }) s
  match planOf s1 h with
  | none => s1
  | some p =>
    let phase := field m.payload 64 64
    if op = barrierOp p ∧ replayPhase 1 ≤ phase ∧ phase ≤ replayPhase 4 then replayMessage h (phase - replayPhase 0) s1
    else if op = barrierOp p then resumeBoundary h s1
    else resumeOp h op s1

/-- R410: a message delivered to the open step of a plan. -/
def deliver (h : Word) (m : Message) (s : State) : State :=
  if m.kind.toNat = kindRowRead then serveRow m h s
  else if m.kind.toNat = kindUpdate then takeUpdate h m s
  else takeData h m s

/-- Where a message stands against the fabric plan's step: before it, in its open step, or still to come. -/
inductive Turn where
  | past | now | later
  deriving DecidableEq, Repr

/-- R408, R410: the turn of a message by the low 32 bits of its step. A message ahead of the step, or of the plan's start, waits. -/
def turnOf (s : State) (m : Message) : Turn :=
  match fabricPlan s with
  | none => .later
  | some p =>
    let d := (m.step - BitVec.ofNat 32 p.nextStep).toInt
    if d < 0 then .past
    else if d = 0 ∧ (p.run.bind (·.openStep)).isSome then .now
    else .later

/-- R410, R11: the next message of a receiving flow, when it is its turn. -/
def headOf (s : State) (f : FlowIn) : Option (FlowIn × Message × Turn) :=
  match f.early.find? (fun m => decide (m.seq.toNat = f.nextSeq % 65536)) with
  | none => none
  | some m => if turnOf s m = .later then none else some (f, m, turnOf s m)

/-- R410: one message delivered in its order, and a cumulative ACK after every 64. -/
def acceptOne (f : FlowIn) (m : Message) (t : Turn) (s : State) : State :=
  let g : FlowIn := { f with nextSeq := f.nextSeq + 1, early := f.early.erase m, unacked := f.unacked + 1 }
  let s1 := if 64 ≤ g.unacked then putFlowIn { g with unacked := 0 } (sendAck g s) else putFlowIn g s
  if t = .now then
    match fabricPlan s1 with
    | none => s1
    | some p => deliver p.handle m s1
  else s1

/-- Messages delivered while any has its turn. -/
def drainFlows : Nat → State → State
  | 0, s => s
  | fuel + 1, s =>
    match s.fabric.flowsIn.findSome? (headOf s) with
    | none => s
    | some (f, m, t) => drainFlows fuel (acceptOne f m t s)

/-- Every message that waits and has its turn is delivered. -/
def drainAll (s : State) : State :=
  drainFlows ((s.fabric.flowsIn.map (fun f => f.early.length)).sum) s

/-- R408, R413, R410: a message of a flow arrives. -/
def receiveFlow (link kind cls : Nat) (m : Message) (s : State) : State :=
  if !reaches link m kind s ∨ m.cls.toNat ≠ cls then s
  else
    let r := epochCheck m s
    if !r.2 then r.1 else settleTransition (drainAll (joinFlow m (foldArrival link m r.1)))

/-- ROW_READ (R327). -/
def execRowRead (link : Nat) (m : Message) (s : State) : Host.Outcome State Fault Refusal :=
  .next (receiveFlow link kindRowRead classRequest m s)

/-- ROW_DATA (R327). -/
def execRowData (link : Nat) (m : Message) (s : State) : Host.Outcome State Fault Refusal :=
  .next (receiveFlow link kindRowData classResponse m s)

/-- UPDATE (R327). -/
def execUpdate (link : Nat) (m : Message) (s : State) : Host.Outcome State Fault Refusal :=
  .next (receiveFlow link kindUpdate classRequest m s)

/-- ARRIVE (R417). -/
def execArrive (link : Nat) (m : Message) (s : State) : Host.Outcome State Fault Refusal :=
  .next (receiveFlow link kindArrive classCollective m s)

/-- RELEASE (R417). -/
def execRelease (link : Nat) (m : Message) (s : State) : Host.Outcome State Fault Refusal :=
  .next (receiveFlow link kindRelease classCollective m s)

/-- EXCHANGE_DATA (R419). -/
def execExchangeData (link : Nat) (m : Message) (s : State) : Host.Outcome State Fault Refusal :=
  .next (receiveFlow link kindExchange classCollective m s)

/-- REDUCE_DATA (R420). -/
def execReduceData (link : Nat) (m : Message) (s : State) : Host.Outcome State Fault Refusal :=
  .next (receiveFlow link kindReduce classCollective m s)

/-- GATHER_DATA (R420). -/
def execGatherData (link : Nat) (m : Message) (s : State) : Host.Outcome State Fault Refusal :=
  .next (receiveFlow link kindGather classCollective m s)

/-- TOPK_LIST (R373). -/
def execTopkList (link : Nat) (m : Message) (s : State) : Host.Outcome State Fault Refusal :=
  .next (receiveFlow link kindTopk classCollective m s)

/-- RELAY_FRAGMENT (R420). -/
def execRelayFragment (link : Nat) (m : Message) (s : State) : Host.Outcome State Fault Refusal :=
  .next (receiveFlow link kindRelay classCollective m s)

/-- SEARCH (R392). -/
def execSearch (link : Nat) (m : Message) (s : State) : Host.Outcome State Fault Refusal :=
  .next (receiveFlow link kindSearch classCollective m s)

/-- SEARCH_RESULT (R392). -/
def execSearchResult (link : Nat) (m : Message) (s : State) : Host.Outcome State Fault Refusal :=
  .next (receiveFlow link kindSearchResult classResponse m s)

end Sys2Proof.Machine
end

