-- ==== Sys2Proof/Machine/Steps.lean ====
section
/-!
DEFINITION. PLAN_RUN, PLAN_CANCEL, PLAN_RESUME and PLAN_FREE, and the commands that carry a run from step to step (R27, R156 to
R159, R166, R245).
-/

namespace Sys2Proof.Machine

/-- What a command on a run leads to goes on: messages whose turn has come, operators and boundaries that wait, steps that begin,
a transition whose drain has ended. -/
def settleRuns (s : State) : State := settleTransition (drainAll s)

/-! ## PLAN_RUN (R157) -/

/-- R157, R171: the longest EMIT record of a plan. -/
def longestRecord (b : PlanBinary) : Nat :=
  ((b.ops.filter (fun e => e.op = .emit)).map (emitLongest b)).foldl max 0

/-- R157: a binding that names no usable version. -/
def bindingUnready (s : State) (b : Binding) : Bool :=
  match tableOf s b.table with
  | none => true
  | some t => match b.fixed with
    | some k => (slotOf t k).state = .empty || (slotOf t k).state = .retiring
    | none => (currentSlot t).isNone

/-- The version that a binding would bind now. -/
def bindingSlot (s : State) (b : Binding) : Option Nat :=
  match b.fixed with
  | some k => some k
  | none => (tableOf s b.table).bind currentSlot

/-- R292: ranges that a live plan reads: its inputs, edges left out, and the versions it binds. -/
def readRanges (s : State) (p : Plan) : List (Nat × Nat) :=
  let ins := (p.bin.ops.flatMap (fun e => [e.in0, e.in1, e.in2].filterMap id)).dedup
  (ins.filterMap (fun k => if isEdgeDesc p k then none else sessionSpan (descOf p.bin k))) ++
    (boundSlots p).filterMap (fun b => (tableOf s b.1).map (fun t => ((slotOf t b.2.1).storeVa.toNat, t.rows * rowBytesOf t))) ++
    (boundSlots p).filterMap (fun b => (tableOf s b.1).bind (fun t =>
      if t.hashed then some ((slotOf t b.2.1).indexVa.toNat, 64 + 16 * 2 ^ t.log2Index) else none))

/-- R157 check 5, R292: a step output meets a range that another live plan of the session reads. -/
def outputsClash (s : State) (p : Plan) : Bool :=
  let outs := ((List.range p.bin.descs.length).filter (isStepOutput p)).filterMap (fun k => sessionSpan (descOf p.bin k))
  (livePlans s).any (fun q => decide (q.handle ≠ p.handle ∧ q.session = p.session) &&
    (readRanges s q).any (fun r => outs.any (fun o => overlaps o.1 o.2 r.1 r.2)))

/-- R157 check 6, R412, R416: what a plan over several modules needs. -/
def fabricUnready (s : State) (p : Plan) : Option Status :=
  if p.bin.fabricRanks ≤ 1 then none
  else if s.fabric.epoch = 0 ∨ !(List.range p.bin.fabricRanks).all (fun r => (sget s.owner.active.ranks r).isSome) ∨
      ranksHeld s p.bin.fabricRanks = [] then some .access
  else if (fabricPlan s).isSome then some .busy
  else none

/-- R157, R440: the first condition that a PLAN_RUN fails. -/
def planRunCheck (r : CmdRef) (s : State) (p : Plan) : Option Status :=
  if s.twin.state = .releasing then some .busy
  else if isLive p then some .busy
  else if 16 ≤ (livePlans s).length then some .noResource
  else if maxPayload (ringOf s r.port r.ring) < longestRecord p.bin then some .limit
  else if p.bin.binds.any (bindingUnready s) then some .access
  else if p.bin.binds.any (fun b => b.update && (bindingSlot s b).any (fun k => updateTaken s p.handle (b.table, k))) then some .busy
  else if outputsClash s p then some .busy
  else fabricUnready s p

/-- A run as it starts. -/
def newRun (r : CmdRef) (p : Plan) (steps limit : Nat) : Run where
  reply := r
  steps := steps
  committedSteps := 0
  lastStep := (p.commit.map (·.step)).getD 0
  lastDigest := (p.commit.map (·.digest)).getD 0
  replays := 0
  stalls := List.replicate 32 0
  budget := if limit = 0 then none else some limit
  delivered := 0
  counters := countersZero
  queue := []
  openStep := none
  inputEnded := false
  ordinal := 0
  offset := 0
  manifest := none
  firstStep := true
  fixedSlots := p.bin.binds.map (·.fixed)
  suspended := none
  cancel := []
  ctx := none
  detections := []

/-- R391, R395: the plan searches over the cascade. -/
def chained (p : Plan) : Bool := p.bin.ops.any (fun e => e.op = .matchOp && decide (2 ≤ (matchParams e).chain))

/-- R156, R168: the run starts: its FIXED versions are bound, and its first step begins when its cores are free (R155). -/
def startRun (r : CmdRef) (p : Plan) (steps limit : Nat) (s : State) : State :=
  let s1 := p.bin.binds.foldl (fun x b => match b.fixed with
    | some k => holdSlot b.table k x
    | none => x) s
  let s2 := onPlan p.handle (fun q => { q with run := some (newRun r p steps limit) }) s1
  startSteps 0 (if chained p then headSync s2 else s2)

/-- PLAN_RUN (R157). -/
def planRunBody (r : CmdRef) (c : Chain) (s : State) : State :=
  match planOf s c.handle with
  | none => complete r (replyOf .access) s
  | some p => match planRunCheck r s p with
    | some st => complete r (replyOf st) s
    | none => settleRuns (startRun r p (parN c 0) (par64 c 1) s)

def planRunRule : CommandRule :=
  { plainRule 0x0041 with
    handle := .plan
    used := [0xFFFFFFFF, 0xFFFFFFFF, 0xFFFFFFFF]
    busyInSimmer := true }

/-- PLAN_RUN (R157). -/
def execPlanRun (r : RingId) (p : Packet) (s : State) : Host.Outcome State Fault Refusal :=
  .next (hostCommand r planRunRule planRunBody p s)

/-! ## PLAN_CANCEL and PLAN_FREE (R156, R159) -/

/-- R513: the cores of a plan that is cancelled resume, and their halt requests clear. -/
def resumeCores (p : Plan) (s : State) : State :=
  let l := (List.range p.bin.stages.length).flatMap (stageSlots s p)
  let off (m : Sparse (BitVec 33)) : Sparse (BitVec 33) := l.foldl (fun m x => if slotBit m x then putSlot false x m else m) m
  { s with dbg := { s.dbg with halted := off s.dbg.halted, haltReq := off s.dbg.haltReq } }

/-- PLAN_CANCEL (R156, R159). -/
def planCancelBody (r : CmdRef) (c : Chain) (s : State) : State :=
  match planOf s c.handle with
  | none => complete r (replyOf .access) s
  | some p =>
    if isLive p then
      let s1 := (if anyHalted s ((List.range p.bin.stages.length).flatMap (stageSlots s p)) then resumeCores p s else s)
      settleRuns (startSteps 0 (resumeCloses (cancelRun c.handle (some r) s1)))
    else complete r (replyOf .done) s

/-- What the command table says of PLAN_CANCEL and PLAN_FREE. -/
def planCancelRule : CommandRule := { plainRule 0x0042 with handle := .plan }
def planFreeRule : CommandRule := { plainRule 0x0044 with handle := .plan }

/-- PLAN_CANCEL (R159). -/
def execPlanCancel (r : RingId) (p : Packet) (s : State) : Host.Outcome State Fault Refusal :=
  .next (hostCommand r planCancelRule planCancelBody p s)

/-- PLAN_FREE (R156, R104). -/
def planFreeBody (r : CmdRef) (c : Chain) (s : State) : State :=
  match planOf s c.handle with
  | none => complete r (replyOf .access) s
  | some p => if isLive p then complete r (replyOf .busy) s else complete r (replyOf .done) (freePlan c.handle s)

/-- PLAN_FREE (R156). -/
def execPlanFree (r : RingId) (p : Packet) (s : State) : Host.Outcome State Fault Refusal :=
  .next (hostCommand r planFreeRule planFreeBody p s)

/-! ## PLAN_RESUME (R158, R170, R245) -/

/-- R245: the extent meets a range that the plan's descriptors read. -/
def extentMeetsInput (p : Plan) (va len : Nat) : Bool :=
  (p.bin.ops.flatMap (fun e => [e.in0, e.in1, e.in2].filterMap id)).any (fun k =>
    !isEdgeDesc p k && (sessionSpan (descOf p.bin k)).any (fun r => overlaps va len r.1 r.2))

/-- R158, R245: the first condition on the added space that a PLAN_RESUME fails. Under OUTPUT_SPACE a non-zero OUT_LEN gives an extent,
at VA 0 too, and a non-zero OUT_VA with OUT_LEN 0 completes with BAD_PACKET (DESIGN CHOICE, log entry 101). -/
def resumeCheck (r : CmdRef) (c : Chain) (s : State) (p : Plan) (why : SuspendReason) : Option Status :=
  let va := par64 c 3
  let len := parN c 5
  if (why ≠ .outputSpace ∨ len = 0) ∧ (va ≠ 0 ∨ len ≠ 0) then some .badPacket
  else if maxPayload (ringOf s r.port r.ring) < longestRecord p.bin then some .limit
  else if len = 0 then none
  else if va % 64 ≠ 0 ∨ len % 64 ≠ 0 then some .align
  else if (sessionPieces s p.session needWrite va len).isNone then some .access
  else if extentMeetsInput p va len then some .overlap
  else if nearFree s < len then some .noResource
  else none

/-- An extension counter of an operator of the open step counted up. -/
def bumpOpen (h : Word) (op id : Nat) (s : State) : State :=
  onStep h (fun o => { o with counters := { o.counters with ext := addExt op id 1 o.counters.ext } }) s

/-- R245: the suspended context is restored: from its slot, from where it was spilled, or by decoding the frame again. `none`:
the block that was spilled does not check. -/
def restoreContext (p : Plan) (r : Run) (op : Nat) (s : State) : Option State :=
  match r.ctx with
  | none => some s
  | some h =>
    match s.contexts.find? (fun x => x.handle = h) with
    | none => some (bumpOpen p.handle op 13 s)
    | some x =>
      match x.spilled with
      | none => some s
      | some va =>
        (readBlock x.ctx (sessionRead s x.session va 512)).map (fun ctx =>
          bumpOpen p.handle op 12 { s with
            contexts := s.contexts.map (fun y => if y.handle = h then { x with ctx := ctx, spilled := none } else y) })

/-- R245: a context whose spilled block does not check counts as freed. -/
def loseContext (r : Run) (s : State) : State :=
  { s with contexts := s.contexts.filter (fun x => some x.handle ≠ r.ctx) }

/-- R158, R170: the run goes on with what was added. -/
def goOn (r : CmdRef) (c : Chain) (h : Word) (why : SuspendReason) (op : Nat) (s : State) : State :=
  let va := par64 c 3
  let len := parN c 5
  let s1 := onPlan h (fun p => { p with
    nearBytes := p.nearBytes + len
    run := p.run.map (fun x => { x with
      reply := r
      budget := x.budget.map (· + par64 c 1)
      suspended := none
      openStep := x.openStep.map (fun o =>
        let y : OpenStep := if len = 0 then o else { o with extents := o.extents ++ [(op, va, len)] }
        if why = .outputSpace then heldStep op y else y) }) }) s
  match why with
  | .outputSpace => resumeOp h op s1
  | .emitSpace => emitDelivery h s1

/-- PLAN_RESUME (R156, R158, R245). A command on a plan that is RUNNING is BUSY (DESIGN CHOICE, log entry 66). -/
def planResumeBody (r : CmdRef) (c : Chain) (s : State) : State :=
  match planOf s c.handle with
  | none => complete r (replyOf .access) s
  | some p =>
    match p.run with
    | none => complete r (replyOf .done) s
    | some x =>
      match x.suspended with
      | none => complete r (replyOf .busy) s
      | some (why, op) =>
        match resumeCheck r c s p why with
        | some st => complete r (replyOf st) s
        | none =>
          match restoreContext p x op s with
          | none => complete r (replyOf .checkMismatch) (loseContext x s)
          | some s1 => settleRuns (goOn r c c.handle why op s1)

def planResumeRule : CommandRule :=
  { plainRule 0x0043 with
    handle := .plan
    used := [0, 0xFFFFFFFF, 0xFFFFFFFF, 0xFFFFFFFF, 0xFFFFFFFF, 0xFFFFFFFF]
    busyInSimmer := true }

/-- PLAN_RESUME (R158). -/
def execPlanResume (r : RingId) (p : Packet) (s : State) : Host.Outcome State Fault Refusal :=
  .next (hostCommand r planResumeRule planResumeBody p s)

/-! ## From step to step -/

/-- STEP_BOUNDARY (R27): once the last operator of the step is done. -/
def execStepBoundary (plan : Word) (f : ReadFaults) (s : State) : Host.Outcome State Fault Refusal :=
  .next (settleRuns (stepBoundary plan f s))

/-- STEP_REPLAY (R166): after a detection. -/
def execStepReplay (plan : Word) (s : State) : Host.Outcome State Fault Refusal := .next (settleRuns (stepReplay plan s))

/-! ## Idle time -/

/-- R439, R452, R459, R492: while no plan runs, what waits for a step boundary takes effect: retirements, frequency changes and a
HANDBACK (DESIGN CHOICE, log entry 2). -/
def settleUnits (s : State) : State :=
  if livePlans s ≠ [] then s
  else
    let s1 := if s.err.applying ≠ [] ∨ s.err.retiring ≠ [] then boundaryUnits s else s
    settleHandback (if s1.power.transition.isSome ∨ s1.age.islands.all (fun x => x.pendingPoint.isNone) then s1 else boundaryClocks s1)

/-- What the module does on an empty queue: a nanosecond passes, and whatever waits and can go on does (DESIGN CHOICE, log entry
2). -/
def tick (s : State) : State := settleRuns (settleUnits (resumeWork (idleTick s)))

end Sys2Proof.Machine
end

