-- ==== Sys2Proof/Machine/TwinCmds.lean ====
section
/-!
DEFINITION. The twin pair: TWIN_PAIR and its operations, TWIN_RELEASE, TWIN_STATUS, the messages between twins, heartbeats and
takeover (chapter 16; R448).
-/

namespace Sys2Proof.Machine

/-! ## TWIN message types (R441) -/

def twinHeartbeat : Nat := 0x20
def twinHello : Nat := 0x21
def twinWrite : Nat := 0x22
def twinCommit : Nat := 0x23
def twinAck : Nat := 0x24
def twinCopy : Nat := 0x25
def twinHandover : Nat := 0x26
def twinHandoverAck : Nat := 0x27
def twinRefetch : Nat := 0x28
def twinRefetchData : Nat := 0x29
def twinStaleKind : Nat := 0x2F

/-! ## The pairing record (R427, R428) -/

/-- R427: a window entry. -/
def parseWindow (z : List Byte) : TwinWindow where
  inbound := field z 0 1 = 1
  index := field z 8 5
  session := field z 16 8
  va := field z 64 64
  len := field z 128 64

/-- R427: windows of a payload. -/
def payloadWindows (b : List Byte) : List TwinWindow :=
  (List.range (field b 32 8)).map (fun i => parseWindow (slice b (64 + 32 * i) 32))

/-- R427: the record that a payload carries, defaults filled in. -/
def parseRecord (s : State) (b : List Byte) : PairRecord where
  async := field b 2 1 = 1
  detachOnLinksDown := field b 3 1 = 1
  link0 := if field b 8 3 = 7 then s.boot.config.twinLink0 else field b 8 3
  link1 := if field b 11 3 = 7 then s.boot.config.twinLink1 else field b 11 3
  partner := field b 16 12
  windows := payloadWindows b
  lagSteps := field b 40 8
  takeoverMs := if field b 64 32 = 0 then 50 else field b 64 32
  hbAddr := field b 128 64
  stageMib := if field b 192 32 = 0 then 1024 else field b 192 32

/-- R427: a window entry is well formed; VA and LEN are multiples of 64 KiB (log entry 39). -/
def windowFormOk (z : List Byte) : Bool :=
  field z 1 7 = 0 && field z 13 3 = 0 && field z 24 40 = 0 && field z 192 64 = 0 && field z 64 64 % 0x10000 = 0 &&
    field z 128 64 % 0x10000 = 0 && field z 128 64 ≠ 0

/-- R427, R428: the payload is well formed: BAD_PACKET otherwise. -/
def pairFormOk (op : Nat) (b : List Byte) : Bool :=
  let n := field b 32 8
  let link0 := field b 8 3
  let link1 := field b 11 3
  let ws := payloadWindows b
  decide (b.length = 64 + 32 * n) && (if op = 2 then n = 0 else decide (1 ≤ n ∧ n ≤ 64)) && field b 0 2 = op &&
    field b 4 4 = 0 && field b 14 2 = 0 && field b 28 4 = 0 && field b 48 16 = 0 && field b 96 32 = 0 && field b 224 288 = 0 &&
    (decide (link0 ≤ 2) || link0 = 7) && (decide (3 ≤ link1 ∧ link1 ≤ 5) || link1 = 7) &&
    (List.range n).all (fun i => windowFormOk (slice b (64 + 32 * i) 32)) &&
    decide ((ws.map windowCode).dedup.length = ws.length)

/-- R427: LAG_STEPS, STAGE_MIB and TAKEOVER_MS are in range. -/
def pairRangeOk (b : List Byte) : Bool :=
  let lag := field b 40 8
  let stage := field b 192 32
  let ms := field b 64 32
  (if field b 2 1 = 1 then decide (1 ≤ lag) else lag = 0) && (stage = 0 || decide (64 ≤ stage ∧ stage ≤ 16384)) &&
    (ms = 0 || decide (10 ≤ ms ∧ ms ≤ 10000))

/-- R425: a window lies in near-tier pages of its session that are mapped with READ and WRITE. -/
def windowMapped (s : State) (w : TwinWindow) : Bool :=
  match sessionPieces s w.session { read := true, write := true, table := false, weights := false } w.va w.len with
  | none => false
  | some ps => ps.all (fun p => decide (p.1 < nearEnd))

/-- R427: HB_ADDR may hold the heartbeat block. -/
def hbAllowed (s : State) (a : Nat) : Bool := decide (a % 128 = 0) && farOk s a 128 false && farOk s a 128 true

/-- R428: windows meet each other or the hot area of a table. -/
def windowsClash (s : State) (ws : List TwinWindow) : Bool :=
  ws.zipIdx.any (fun (w, i) =>
    ws.zipIdx.any (fun (v, j) => decide (i < j) && w.session = v.session && overlaps w.va w.len v.va v.len) ||
      s.tables.any (fun t => t.session = w.session && (t.policy.map (fun y =>
        overlaps w.va w.len y.hotVa (y.hotFrames * (2 ^ t.log2Block * rowBytesOf t)))).getD false))

/-- R428, R435: the module's state does not allow the operation. -/
def pairBusy (s : State) (op : Nat) : Bool :=
  s.twin.command.isSome ||
    (match s.twin.state with
    | .unpaired => false
    | .detached => op = 0
    | .fenced => op = 0
    | _ => true)

/-- R428, R414: the first condition that an OP PAIR or RESYNC fails. -/
def pairCheck (s : State) (op : Nat) (b : List Byte) : Option Status :=
  let r := parseRecord s b
  let held := (s.twin.record.map (fun x => x.stageMib * 0x100000)).getD 0
  firstFail
    [ need (pairFormOk op b) .badPacket,
      need (pairRangeOk b) .limit,
      need (s.boot.config.twinEn && r.windows.all (windowMapped s) && hbAllowed s r.hbAddr) .access,
      need (!windowsClash s r.windows) .overlap,
      need (!pairBusy s op) .busy,
      need (!(op = 1 && isFenced s && s.fabric.fencedBy.isSome)) .staleEpoch,
      need (decide (r.stageMib * 0x100000 ≤ nearFree s + held)) .noResource ]

/-! ## Hello (R429 step 1) -/

/-- R427, R441: the payload of PAIR_HELLO: the pairing record, and then the sender's side and state. The manual gives no layout
(DESIGN CHOICE, log entry 14). -/
def helloBytes (s : State) (op : Nat) (r : PairRecord) : List Byte :=
  let win (w : TwinWindow) : List Byte :=
    record 32 [(0, bitOf w.inbound), (8, w.index), (16, w.session), (64, w.va), (128, w.len)]
  record 64 [(0, op), (2, bitOf r.async), (3, bitOf r.detachOnLinksDown), (8, r.link0), (11, r.link1), (16, r.partner),
    (32, r.windows.length), (40, r.lagSteps), (64, r.takeoverMs), (128, r.hbAddr), (192, r.stageMib)] ++
    r.windows.flatMap win ++ [BitVec.ofNat 8 s.pins.twinSide.toNat, BitVec.ofNat 8 (pairCode s.twin.state)]

/-- Hello on both links. -/
def sendHello (op : Nat) (s : State) : State :=
  match s.twin.record with
  | none => s
  | some r => [0, 1].foldl (fun x l => sendTwin l twinHello (helloBytes s op r) x) s

/-- What a hello tells. -/
structure Hello where
  op : Nat
  record : PairRecord
  side : Nat
  state : Nat
  epoch : BitVec 32

def parseHello (s : State) (b : List Byte) (epoch : BitVec 32) : Hello where
  op := field b 0 2
  record := parseRecord s b
  side := (b.getD (b.length - 2) 0).toNat
  state := (b.getD (b.length - 1) 0).toNat
  epoch := epoch

/-- R428: the two records agree: different sides, the same MODE, LAG_STEPS and TAKEOVER_MS, and for every window the twin's window
of the other direction with its INDEX and LEN. A window without a partner is a disagreement (DESIGN CHOICE, log entry 67). -/
def recordsAgree (s : State) (mine : PairRecord) (h : Hello) : Bool :=
  let matched (a b : List TwinWindow) : Bool :=
    a.all (fun w => b.any (fun v => v.inbound = !w.inbound && decide (v.index = w.index ∧ v.len = w.len)))
  decide (h.side ≠ s.pins.twinSide.toNat) && mine.async = h.record.async &&
    decide (mine.lagSteps = h.record.lagSteps ∧ mine.takeoverMs = h.record.takeoverMs) &&
    matched mine.windows h.record.windows && matched h.record.windows mine.windows

/-! ## The heartbeat block (R432) -/

/-- R432: the address of a side's block. -/
def blockAddr (r : PairRecord) (side : Nat) : Nat := r.hbAddr + 64 * side

/-- R432: the module writes its own block, with COUNT one higher. -/
def writeOwnBlock (s : State) : State :=
  match s.twin.record with
  | none => s
  | some r =>
    let a := blockAddr r s.pins.twinSide.toNat
    if farOk s a 64 true then
      let n := s.twin.ownCount + 1
      moduleWrite a (record 64 [(0, s.twin.pairEpoch.toNat), (32, pairCode s.twin.state), (64, n.toNat), (128, s.time.toNat)])
        { s with twin := { s.twin with ownCount := n } }
    else s

/-! ## The copy (R429 step 3, R438) -/

/-- R430, R431: the counts of a new pairing start at 0. -/
def clearMirror (s : State) : State :=
  { s with
    plans := s.plans.map (fun p => { p with mirrorSeqs := [] })
    twin := { s.twin with
      commitsSent := 0, commitsAcked := 0, commitsApplied := 0, staging := [], twinCommits := [], mirrorBytes := 0
      unackedBytes := [], during := [], refetches := [], refetchWaiting := [] } }

/-- The windows of the record that meet a test, each sent whole. -/
def sendCopies (test : TwinWindow → Bool) (s : State) : State :=
  ((s.twin.record.map (fun r => r.windows.filter test)).getD []).foldl
    (fun x w => sendWindow twinCopy w (ceilDiv w.len 4032) 0 (followRead x w.session w.va w.len) x) s

/-- How many windows meet a test. -/
def countWindows (test : TwinWindow → Bool) (s : State) : Nat :=
  ((s.twin.record.map (fun r => (r.windows.filter test).length)).getD 0)

/-- Silence is counted from here. -/
def hearAll (s : State) : State :=
  { s with twin := { s.twin with
      heard0 := s.time, heard1 := s.time, sharedSeen := s.time, lastHeard := s.time, isolated := false } }

/-- R429 steps 3 and 4: the copy is done: the pair is PAIRED, the command completes, and what was written during the copy is
mirrored, followed by a commit of its own so that the twin applies it (DESIGN CHOICE, log entry 14). -/
def finishCopy (s : State) : State :=
  let late := s.twin.during
  let s1 := hearAll { s with twin := { s.twin with
    state := .paired, copying := false, windowsLeft := 0, during := [], mirrorBytes := 0, priorRecord := none } }
  let s2 := late.foldl (fun x e => mirrorRange e.1 e.2.1 e.2.2 x) s1
  let s3 := if late = [] then s2
    else
      let y := sendTwin (twinLinkFor s2 0) twinCommit [] s2
      { y with twin := { y.twin with
          commitsSent := y.twin.commitsSent + 1, unackedBytes := y.twin.unackedBytes ++ [y.twin.mirrorBytes] } }
  completeTwin (replyOf .done) s3

/-- The copy begins; with no window to send it is done at once. -/
def beginCopy (test : TwinWindow → Bool) (s : State) : State :=
  let n := countWindows test s
  let s1 := { clearMirror s with twin := { (clearMirror s).twin with copying := true, windowsLeft := n } }
  let s2 := sendCopies test s1
  if n = 0 then finishCopy s2 else s2

/-- R428, R435: the pair command fails; PAIRING falls back to UNPAIRED, and a returning module to the record it had. -/
def failPair (st : Status) (s : State) : State :=
  completeTwin (replyOf st)
    { s with twin := { s.twin with
        state := if s.twin.state = .pairing then .unpaired else s.twin.state
        record := if s.twin.state = .pairing then none else s.twin.priorRecord
        copying := false, windowsLeft := 0, during := [], priorRecord := none, hello := none } }

/-- R429 step 2: both sides adopt the epoch after the higher of the two, write it to their blocks, and the copy of the OUT windows
begins. -/
def meetTwin (h : Hello) (s : State) : State :=
  let e := (if s.twin.pairEpoch < h.epoch then h.epoch else s.twin.pairEpoch) + 1
  beginCopy (fun w => !w.inbound) (writeOwnBlock { s with twin := { s.twin with pairEpoch := e, servesBoth := false, hello := none } })

/-- R438: the returning module has its twin's answer: it adopts the serving side's epoch and waits for every window. -/
def meetServing (h : Hello) (s : State) : State :=
  let s1 := clearMirror s
  { s1 with twin := { s1.twin with
      pairEpoch := h.epoch, servesBoth := false, hello := none, copying := true, windowsLeft := countWindows (fun _ => true) s1 } }

/-- R429, R438: the twin's record is checked once this module has been told to pair. -/
def takeHello (s : State) : State :=
  match s.twin.hello, s.twin.record, s.twin.command with
  | some (b, e), some mine, some _ =>
    let h := parseHello s b e
    if s.twin.copying ∨ 2 ≤ s.twin.commandOp then s
    else if s.twin.commandOp = 0 then
      if h.op ≠ 0 ∨ h.state ≠ pairCode .pairing then s
      else if recordsAgree s mine h then meetTwin h s else failPair .implausible s
    else if h.op ≠ 0 then s
    else if !(h.state = pairCode .solo || h.state = pairCode .detached || h.state = pairCode .paired) then failPair .partnerLost s
    else if recordsAgree s mine h then meetServing h s
    else failPair .implausible s
  | _, _, _ => s

/-- R438: the serving side's part: it answers with its own record and state, and copies every window. -/
def serveReturn (h : Hello) (s : State) : State :=
  match s.twin.record with
  | none => s
  | some mine =>
    if s.twin.copying then s
    else
      let s1 := sendHello 0 s
      if !recordsAgree s mine h then s1
      else beginCopy (fun _ => true) { dropRefetches s1 with twin := { (dropRefetches s1).twin with servesBoth := true } }

/-! ## TWIN_PAIR (R427 to R429, R438, R439) -/

/-- OP PAIR and RESYNC: the record is taken, and hello goes out. -/
def pairBody (op : Nat) (r : CmdRef) (c : Chain) (s : State) : State :=
  match pairCheck s op c.payload with
  | some st => complete r (replyOf st) s
  | none =>
    takeHello (sendHello op { s with twin := { s.twin with
      state := if op = 0 then .pairing else s.twin.state
      priorRecord := if op = 0 then none else s.twin.record
      record := some (parseRecord s c.payload)
      command := some r
      commandOp := op
      copying := false, windowsLeft := 0, isolated := false } })

/-- R439: a live plan binds a table whose storage meets an IN window. -/
def bindsInbound (s : State) : Bool :=
  (livePlans s).any (fun p => p.bin.binds.any (fun b => (tableOf s b.table).any (fun t =>
    (List.range 4).any (fun k => (slotOf t k).state ≠ .empty && inWindow s t.session (slotOf t k).storeVa.toNat (t.rows * rowBytesOf t)))))

/-- OP HANDBACK (R439): the windows go back at the next step boundary, or at once when no plan runs. On a module that does not
serve its twin's windows there is nothing to give back; one that is not PAIRED has no twin to give them to, and gets ACCESS
(DESIGN CHOICE, log entry 67). -/
def handbackBody (r : CmdRef) (c : Chain) (s : State) : State :=
  if !pairFormOk 2 c.payload then complete r (replyOf .badPacket) s
  else if s.twin.command.isSome ∨ s.twin.copying then complete r (replyOf .busy) s
  else if s.twin.state ≠ .paired then complete r (replyOf .access) s
  else if bindsInbound s then complete r (replyOf .busy) s
  else
    let s1 := { s with twin := { s.twin with command := some r, commandOp := 2 } }
    if livePlans s1 = [] then settleHandback s1 else s1

def twinPairRule : CommandRule := { plainRule 0x00B0 with adminOnly := true, whenFenced := true }

/-- The packet with OP of its header; the reserved value stays. -/
def fixPairOp (op : Nat) (p : Packet) : Packet :=
  match p.payload with
  | [] => p
  | b :: bs => if bits b 1 0 = 3 then p else { p with payload := (b &&& 0xFC ||| BitVec.ofNat 8 op) :: bs }

/-- TWIN_PAIR OP PAIR (R429). -/
def execTwinPair (r : RingId) (p : Packet) (s : State) : Host.Outcome State Fault Refusal :=
  .next (hostCommand r twinPairRule (pairBody 0) (fixPairOp 0 p) s)

/-- TWIN_PAIR OP RESYNC (R438). -/
def execResync (r : RingId) (p : Packet) (s : State) : Host.Outcome State Fault Refusal :=
  .next (hostCommand r twinPairRule (pairBody 1) (fixPairOp 1 p) s)

/-- TWIN_PAIR OP HANDBACK (R439). -/
def execHandback (r : RingId) (p : Packet) (s : State) : Host.Outcome State Fault Refusal :=
  .next (hostCommand r twinPairRule handbackBody (fixPairOp 2 p) s)

/-! ## Messages: who may speak (R436) -/

/-- R436, R437: an answer to a message of a lower epoch. A FENCED module sends heartbeats only. -/
def answerStale (link : Nat) (s : State) : State :=
  let s1 := { s with twin := { s.twin with staleTwin := s.twin.staleTwin + 1 } }
  if isFenced s then s1 else sendTwin link twinStaleKind (natLE s.twin.pairEpoch.toNat 4) s1

/-- A path is heard. -/
def hear (link : Nat) (s : State) : State :=
  { s with twin := { s.twin with
      heard0 := if link = 0 then s.time else s.twin.heard0
      heard1 := if link = 0 then s.twin.heard1 else s.time
      lastHeard := s.time
      isolated := false } }

/-- R436: a TWIN message that has come by a twin link: dropped when its epoch is lower, fencing when it is higher, else acted on. -/
def twinReceive (link kind : Nat) (exempt : State → Bool) (m : Message) (act : State → State) (s : State) : State :=
  if !twinLinkUp s link ∨ 2 ≤ link ∨ !fwRunning s ∨ m.cls ≠ 3 ∨ m.kind.toNat ≠ kind then s
  else if exempt s then settleRuns (act (hear link s))
  else if m.srcEpoch < s.twin.pairEpoch then answerStale link s
  else if s.twin.pairEpoch < m.srcEpoch then (if fenceable s then settleRuns (enterFenced none s) else s)
  else settleRuns (act (hear link s))

/-- No message of a type is exempt from the epoch check. -/
def noExempt (_ : State) : Bool := false

/-- PAIR_HELLO (R429, R438): exempt from the epoch check, since it is how the epochs meet (DESIGN CHOICE, log entry 37). The copy
of it on the second link counts only while the first is down. -/
def execPairHello (link : Nat) (m : Message) (s : State) : Host.Outcome State Fault Refusal :=
  .next (twinReceive link twinHello (fun _ => true) m
    (fun x =>
      if link ≠ 0 ∧ twinLinkUp x 0 then x
      else
        let h := parseHello x m.payload m.srcEpoch
        if h.op = 1 ∧ (x.twin.state = .solo ∨ x.twin.state = .detached ∨ x.twin.state = .paired) ∧ x.twin.command.isNone then
          serveReturn h x
        else takeHello { x with twin := { x.twin with hello := some (m.payload, m.srcEpoch) } }) s)

/-- PAIR_TIMEOUT (R428): the twin has not sent its own TWIN_PAIR within 10 s. -/
def execPairTimeout (s : State) : Host.Outcome State Fault Refusal :=
  .next (if s.twin.command.isSome ∧ s.twin.commandOp < 2 ∧ !s.twin.copying then settleTransition (failPair .partnerLost s) else s)

/-! ## Mirroring, the receiver's side (R430) -/

/-- R427, R441: the receiver's window that a code of the sender names: its IN window for an OUT window, its OUT window for an IN
window. -/
def twinWindowOf (s : State) (code : Nat) : Option TwinWindow :=
  s.twin.record.bind (fun r => r.windows.find? (fun w => w.inbound = decide (code < 32) && decide (w.index = code % 32)))

/-- Bytes of the twin stored in a window. -/
def storeWindow (code off : Nat) (bs : List Byte) (s : State) : State :=
  match twinWindowOf s code with
  | none => s
  | some w => if off + bs.length ≤ w.len then sessionWrite w.session (w.va + off) bs s else s

/-- MIRROR_ACK: commits applied so far, or one more window of the copy (log entry 38). -/
def ackBytes (copied : Bool) (n : Nat) : List Byte := record 16 [(0, bitOf copied), (64, n)]

/-- A module that takes mirrored writes. -/
def takesMirror (s : State) : Bool :=
  s.twin.state = .paired || s.twin.state = .releasing || (s.twin.state = .pairing && s.twin.copying)

/-- MIRROR_WRITE (R430): held in staging. -/
def execMirrorWrite (link : Nat) (m : Message) (s : State) : Host.Outcome State Fault Refusal :=
  .next (twinReceive link twinWrite noExempt m
    (fun x =>
      if !takesMirror x then x
      else
        let h := mirrorHead m.payload
        { x with twin := { x.twin with
            staging := x.twin.staging ++ [{ window := h.1, offset := h.2.1, data := (m.payload.drop 64).take h.2.2.1 }] } }) s)

/-- R442: the last mirrored commit record of each plan, in ascending handle order. -/
def putCommit (r : CommitRecord) (l : List CommitRecord) : List CommitRecord :=
  l.filter (fun x => decide (x.plan.toNat < r.plan.toNat)) ++ r :: l.filter (fun x => decide (r.plan.toNat < x.plan.toNat))

/-- R164: a commit record read from its bytes. -/
def parseCommit (b : List Byte) : CommitRecord where
  plan := BitVec.ofNat 64 (field b 0 64)
  step := field b 64 64
  time := BitVec.ofNat 64 (field b 128 64)
  outSectors := field b 192 32
  emitRecords := field b 224 32
  digest := BitVec.ofNat 32 (field b 256 32)
  attempts := field b 288 32

/-- R448: an answer to a refetch. -/
def answerRefetch (link : Nat) (m : Message) (s : State) : State :=
  let h := mirrorHead m.payload
  match twinWindowOf s h.1 with
  | none => s
  | some w =>
    sendTwin link twinRefetchData
      (mirrorPayload h.1 h.2.1 h.2.2.1 h.2.2.2 (sessionRead s w.session (w.va + h.2.1) h.2.2.1)) s

/-- R448: refetches that waited for commits to be applied are answered, on the link of the row's die. -/
def answerWaiting (s : State) : State :=
  let ready (m : Message) : Bool := decide ((mirrorHead m.payload).2.2.2 ≤ s.twin.commitsApplied)
  (s.twin.refetchWaiting.filter ready).foldl (fun x m => answerRefetch (twinLinkFor x 0) m x)
    { s with twin := { s.twin with refetchWaiting := s.twin.refetchWaiting.filter (fun m => !ready m) } }

/-- MIRROR_COMMIT (R430): the step's staged writes are applied, its commit records kept, and the step acknowledged. -/
def execMirrorCommit (link : Nat) (m : Message) (s : State) : Host.Outcome State Fault Refusal :=
  .next (twinReceive link twinCommit noExempt m
    (fun x =>
      if !takesMirror x then x
      else
        let s1 := x.twin.staging.foldl (fun y w => storeWindow w.window w.offset w.data y) x
        let rs := (List.range (m.payload.length / 64)).map (fun i => parseCommit (slice m.payload (64 * i) 64))
        let s2 := { s1 with twin := { s1.twin with
          staging := []
          commitsApplied := s1.twin.commitsApplied + 1
          twinCommits := rs.foldl (fun l r => putCommit r l) s1.twin.twinCommits } }
        answerWaiting (sendTwin link twinAck (ackBytes false s2.twin.commitsApplied) s2)) s)

/-- RESYNC_DATA (R429, R438): written to its window at once; the last piece of a window is acknowledged (log entry 38), and on a
returning module the last window ends the copy. -/
def execResyncData (link : Nat) (m : Message) (s : State) : Host.Outcome State Fault Refusal :=
  .next (twinReceive link twinCopy noExempt m
    (fun x =>
      let h := mirrorHead m.payload
      let bs := (m.payload.drop 64).take h.2.2.1
      match (if takesMirror x ∨ x.twin.copying then twinWindowOf x h.1 else none) with
      | none => x
      | some w =>
        let s1 := storeWindow h.1 h.2.1 bs x
        if h.2.1 + bs.length < w.len then s1
        else
          let s2 := sendTwin link twinAck (ackBytes true h.1) s1
          if s2.twin.commandOp = 1 ∧ s2.twin.command.isSome ∧ s2.twin.copying then
            if s2.twin.windowsLeft ≤ 1 then finishCopy { s2 with fabric := { s2.fabric with fencedBy := none } }
            else { s2 with twin := { s2.twin with windowsLeft := s2.twin.windowsLeft - 1 } }
          else s2) s)

/-! ## Mirroring, the source's side (R430, R431, R440) -/

/-- R440 step 2: nothing is left to acknowledge: HANDOVER goes out. -/
def tryHandover (s : State) : State :=
  if s.twin.state = .releasing ∧ mirrorLag s = 0 then sendTwin (twinLinkFor s 0) twinHandover [] s else s

/-- R431: commits up to a count are acknowledged. -/
def ackCommits (n : Nat) (s : State) : State :=
  let upto := min n s.twin.commitsSent
  let more := upto - s.twin.commitsAcked
  tryHandover (resumeFlips { s with twin := { s.twin with
    commitsAcked := s.twin.commitsAcked + more, unackedBytes := s.twin.unackedBytes.drop more } })

/-- MIRROR_ACK (R430, R431). -/
def execMirrorAck (link : Nat) (m : Message) (s : State) : Host.Outcome State Fault Refusal :=
  .next (twinReceive link twinAck noExempt m
    (fun x =>
      if field m.payload 0 1 = 0 then (if takesMirror x then ackCommits (field m.payload 64 64) x else x)
      else if x.twin.copying ∧ !(x.twin.commandOp = 1 ∧ x.twin.command.isSome) then
        if x.twin.windowsLeft ≤ 1 then resumeFlips (finishCopy x)
        else { x with twin := { x.twin with windowsLeft := x.twin.windowsLeft - 1 } }
      else x) s)

/-! ## Heartbeats (R432) -/

/-- R432, R437: a module in a pair, whatever became of it, sends heartbeats. -/
def beats (s : State) : Bool :=
  fwRunning s && s.twin.record.isSome &&
    (s.twin.state = .paired || s.twin.state = .solo || s.twin.state = .releasing || s.twin.state = .detached || s.twin.state = .fenced)

/-- HEARTBEAT_SEND (R432): pair epoch, state and module time on each link. -/
def execHeartbeatSend (s : State) : Host.Outcome State Fault Refusal :=
  .next (if !beats s then s
    else
      let b := record 32 [(0, s.twin.pairEpoch.toNat), (32, pairCode s.twin.state), (64, s.time.toNat)]
      [0, 1].foldl (fun x l => if twinLinkUp x l then sendTwin l twinHeartbeat b x else x) s)

/-- HEARTBEAT (R432, R436): the path is heard. -/
def execHeartbeat (link : Nat) (m : Message) (s : State) : Host.Outcome State Fault Refusal :=
  .next (twinReceive link twinHeartbeat noExempt m (fun x => x) s)

/-- R432: the twin's block as read: what stands in host memory is what the command tells. -/
def readTwinBlock (b : List Byte) (s : State) : State :=
  match s.twin.record with
  | none => s
  | some r =>
    let a := blockAddr r (1 - s.pins.twinSide.toNat)
    let s1 := moduleWrite a (slice b 0 64) s
    let epoch : BitVec 32 := BitVec.ofNat 32 (field b 0 32)
    let n : Word := BitVec.ofNat 64 (field b 64 64)
    let s2 := if n = s1.twin.twinCount then s1
      else { s1 with twin := { s1.twin with twinCount := n, sharedSeen := s1.time, lastHeard := s1.time, isolated := false } }
    if s2.twin.pairEpoch < epoch ∧ fenceable s2 then enterFenced none s2 else s2

/-- HEARTBEAT_BLOCK (R432): every 10 ms the module writes its own block and reads the twin's. -/
def execHeartbeatBlock (twin : Option (List Byte)) (s : State) : Host.Outcome State Fault Refusal :=
  .next (if !beats s then s
    else
      let s1 := writeOwnBlock s
      match twin, s1.twin.record with
      | some b, some r => if farOk s1 (blockAddr r (1 - s1.pins.twinSide.toNat)) 64 false then settleRuns (readTwinBlock b s1) else s1
      | _, _ => s1)

/-! ## Takeover and detachment (R433 to R435) -/

/-- The time at which a path has been silent for TAKEOVER_MS. -/
def silentAt (s : State) (t : Word) : Nat := t.toNat + ((s.twin.record.map (·.takeoverMs)).getD 0) * 1000000

/-- R433 step 3: the module serves SOLO. -/
def serveSolo (reason : Nat) (s : State) : State :=
  let s1 := completeTwin (replyOf .partnerLost) (dropRefetches s)
  resumeFlips (takeoverEvent reason { s1 with twin := { s1.twin with
    state := .solo, servesBoth := true, staging := [], takeovers := s1.twin.takeovers + 1, unackedBytes := [], copying := false
    during := [] } })

/-- R433 steps 1 to 3: a new epoch, the read-back, and the two reads of the twin's block. A failed write or read leaves the module
ISOLATED under the epoch it had (DESIGN CHOICE, log entry 68). -/
def takeOver (readBack : Bool) (confirm : List (BitVec 32)) (s : State) : State :=
  let old := s.twin.pairEpoch
  let s1 := writeOwnBlock { s with twin := { s.twin with pairEpoch := nextPairEpoch s } }
  let writable : Bool := (s.twin.record.map (fun r => farOk s (blockAddr r s.pins.twinSide.toNat) 64 true)).getD false
  if !readBack ∨ !writable then
    let s2 := takeoverEvent 4 s1
    resumeFlips { s2 with twin := { s2.twin with pairEpoch := old, isolated := true } }
  else
    let s2 := atLeast (s1.time.toNat + 20000000) s1
    if confirm.any (fun e => decide (s2.twin.pairEpoch < e)) then enterFenced none s2 else serveSolo 1 s2

/-- TAKEOVER (R433, R440, R428): all three paths have been silent for TAKEOVER_MS. A module that releases its pair stays PAIRED,
and one whose copy is under way fails its command. -/
def execTakeover (readBack : Bool) (confirm : List (BitVec 32)) (s : State) : Host.Outcome State Fault Refusal :=
  .next (
    let s1 := atLeast (silentAt s s.twin.sharedSeen) (atLeast (silentAt s s.twin.heard1) (atLeast (silentAt s s.twin.heard0) s))
    if !fwRunning s then s
    else match s.twin.state with
      | .paired => if s.twin.isolated then s else settleRuns (takeOver readBack confirm s1)
      | .releasing => settleRuns (completeTwin (replyOf .partnerLost) { s1 with twin := { s1.twin with state := .paired } })
      | _ => if s.twin.copying ∧ s.twin.command.isSome then settleTransition (failPair .partnerLost s1) else s)

/-- DETACH (R435): both links are silent and the shared path is alive under ON_LINKS_DOWN = DETACH. -/
def execDetach (s : State) : Host.Outcome State Fault Refusal :=
  .next (
    if fwRunning s ∧ s.twin.state = .paired ∧ (s.twin.record.map (·.detachOnLinksDown)).getD false then
      let s1 := dropRefetches (atLeast (silentAt s s.twin.heard1) (atLeast (silentAt s s.twin.heard0) s))
      let s2 := completeTwin (replyOf .partnerLost) s1
      settleRuns (resumeFlips (takeoverEvent 3 { s2 with twin := { s2.twin with
        state := .detached, staging := [], unackedBytes := [], copying := false, during := [] } }))
    else s)

/-- TWIN_STALE (R436): the answer carries the higher epoch of the module that gave it, which fences this one. -/
def execTwinStale (link : Nat) (m : Message) (s : State) : Host.Outcome State Fault Refusal :=
  .next (twinReceive link twinStaleKind noExempt m (fun x => x) s)

/-! ## Release (R440) -/

/-- TWIN_RELEASE (R440): drain, handover, leave. -/
def twinReleaseBody (r : CmdRef) (c : Chain) (s : State) : State :=
  let target := parN c 0
  if target ≠ 2 ∧ target ≠ 3 then complete r (replyOf .badPacket) s
  else if s.twin.state ≠ .paired then complete r (replyOf .access) s
  else if livePlans s ≠ [] ∨ s.twin.command.isSome ∨ s.twin.copying then complete r (replyOf .busy) s
  else
    tryHandover { s with twin := { s.twin with
      state := .releasing, command := some r, commandOp := if target = 2 then 3 else 4 } }

/-- What the command table says of TWIN_RELEASE. -/
def twinReleaseRule : CommandRule := { plainRule 0x00B1 with adminOnly := true, used := [0x3] }

/-- TWIN_RELEASE (R440). -/
def execTwinRelease (r : RingId) (p : Packet) (s : State) : Host.Outcome State Fault Refusal :=
  .next (hostCommand r twinReleaseRule twinReleaseBody p s)

/-- HANDOVER (R440 step 2): the twin leaves: a new epoch, the block, SOLO, the event, and the answer. -/
def execHandover (link : Nat) (m : Message) (s : State) : Host.Outcome State Fault Refusal :=
  .next (twinReceive link twinHandover noExempt m
    (fun x =>
      if x.twin.state ≠ .paired then x
      else
        let y := writeOwnBlock { x with twin := { x.twin with pairEpoch := nextPairEpoch x } }
        sendTwin link twinHandoverAck [] (serveSolo 2 y)) s)

/-- HANDOVER_ACK (R440 step 3): UNPAIRED, and the target state is entered as POWER_SET does. -/
def execHandoverAck (link : Nat) (m : Message) (s : State) : Host.Outcome State Fault Refusal :=
  .next (twinReceive link twinHandoverAck (fun x => x.twin.state = .releasing) m
    (fun x =>
      if x.twin.state ≠ .releasing then x
      else
        let target : PowerState := if x.twin.commandOp = 3 then .dormant else .cold
        let c := x.twin.command
        let y := dropRefetches { x with twin := { x.twin with
          state := .unpaired, record := none, command := none, servesBoth := false, staging := [], unackedBytes := [], hello := none } }
        beginTransition target c y) s)

/-! ## Refetched rows (R448) -/

/-- ROW_REFETCH (R448): answered once MIRROR_COUNT commits have been applied; a FENCED module sends no answer (R437). -/
def execRowRefetch (link : Nat) (m : Message) (s : State) : Host.Outcome State Fault Refusal :=
  .next (twinReceive link twinRefetch noExempt m
    (fun x =>
      if isFenced x then x
      else if (mirrorHead m.payload).2.2.2 ≤ x.twin.commitsApplied then answerRefetch link m x
      else { x with twin := { x.twin with refetchWaiting := x.twin.refetchWaiting ++ [m] } }) s)

/-- R448, R457: refetched bytes are written back whole and delivered to the open steps; what belongs on a bypassed position is only
delivered, to the operators that wait for it. -/
def deliverSector (sector : Nat) (bs : List Byte) (s : State) : State :=
  let gone := sectorGone s sector
  (livePlans s).foldl
    (fun x p => onStep p.handle (fun o => { o with
      view := { o.view with near := memWrite o.view.near (sector * 64) bs }
      fetched := if gone then sector :: o.fetched else o.fetched }) x)
    (if gone then s else moduleWrite (sector * 64) bs s)

/-- ROW_REFETCH_DATA (R448): the sector is written back whole, or only delivered (R457), and its readers go on. -/
def execRowRefetchData (link : Nat) (m : Message) (s : State) : Host.Outcome State Fault Refusal :=
  .next (twinReceive link twinRefetchData noExempt m
    (fun x =>
      let h := mirrorHead m.payload
      match x.twin.refetches.find? (fun r => decide (r.window = h.1 ∧ r.offset = h.2.1)) with
      | none => x
      | some r =>
        let y := deliverSector r.sector (slice m.payload 64 64) x
        resumeWork { y with
          twin := { y.twin with refetches := y.twin.refetches.erase r }
          err := { y.err with rowsRefetched := y.err.rowsRefetched + 1 } }) s)

/-- REFETCH_TIMEOUT (R448): no answer within TAKEOVER_MS: the sector is poisoned instead. -/
def execRefetchTimeout (index : Nat) (s : State) : Host.Outcome State Fault Refusal :=
  .next (match s.twin.refetches[index]? with
    | none => s
    | some r =>
      let y := poisonSector r.sector s
      settleRuns (resumeWork { y with twin := { y.twin with refetches := y.twin.refetches.eraseIdx index } }))

/-! ## TWIN_STATUS (R442) -/

/-- R442: the twin's COUNT changed within TAKEOVER_MS. -/
def sharedAlive (s : State) : Bool :=
  s.twin.record.isSome && s.twin.twinCount ≠ 0 && decide (s.time.toNat ≤ silentAt s s.twin.sharedSeen)

/-- R442: the record of TWIN_STATUS. -/
def twinStatusBytes (s : State) : List Byte :=
  record 64 [(0, pairCode s.twin.state), (3, s.pins.twinSide.toNat), (4, bitOf (twinLinkUp s 0)), (5, bitOf (twinLinkUp s 1)),
    (6, bitOf (sharedAlive s)), (7, bitOf ((s.twin.record.map (·.async)).getD false)), (8, (s.twin.record.map (·.partner)).getD 0),
    (32, s.twin.pairEpoch.toNat), (64, mirrorLag s), (96, s.twin.twinCommits.length), (128, s.twin.mirrorBytes % 2 ^ 64),
    (192, s.twin.staleTwin % 2 ^ 32), (224, s.twin.takeovers % 2 ^ 32), (256, s.twin.lastHeard.toNat)] ++
    s.twin.twinCommits.flatMap commitRecordBytes

/-- What the command table says of TWIN_STATUS. -/
def twinStatusRule : CommandRule := { plainRule 0x00B2 with adminOnly := true, whenFenced := true }

/-- TWIN_STATUS (R442). -/
def execTwinStatus (r : RingId) (p : Packet) (s : State) : Host.Outcome State Fault Refusal :=
  .next (hostCommand r twinStatusRule
    (fun r _ s => completeData r (replyData (twinStatusBytes s)) s) p s)

end Sys2Proof.Machine
end

