-- ==== Sys2Proof/Machine/Debug.lean ====
section
/-!
DEFINITION. The test access port: boundary scan, the debug module of the Caldera harts, core debug, system-bus access, access levels
and tokens (chapter 20, R509 to R516).
-/

namespace Sys2Proof.Machine

/-! ## The port (R509) -/

/-- The debug unit changed. -/
def onDebug (f : DebugUnit → DebugUnit) (s : State) : State := { s with dbg := f s.dbg }

/-- A value is shifted out on TDO. -/
def shiftOut (v : Nat) (s : State) : State := { s with pins := { s.pins with tdo := s.pins.tdo ++ [v] } }

/-- R509: an instruction of the test access port, which answers while the main rails are up (DESIGN CHOICE, log entry 69). -/
def tapInstr (code : BitVec 8) (act : State → State) (s : State) : State :=
  if railsUp s then act (onDebug (fun d => { d with ir := code }) s) else s

/-- R509: EXTEST, CLAMP or HIGHZ takes the pins: CXL and fabric links drop. -/
def takePins (how : Nat) (s : State) : State :=
  onDebug (fun d => { d with pinsTaken := how })
    { onPorts linkDown s with
      fabric := { s.fabric with
        ports := s.fabric.ports.map (fun q => if q.enabled then { q with state := .down, reason := 1 } else q) } }

/-- R509: the pins come back to the functional logic, and links train. -/
def givePins (s : State) : State :=
  if s.dbg.pinsTaken = 0 then s
  else
    let s1 := onDebug (fun d => { d with pinsTaken := 0 }) s
    startTraining 0 (startTraining 1 { s1 with
      fabric := { s1.fabric with
        ports := s1.fabric.ports.map (fun q =>
          if q.enabled ∧ q.cable ∧ !q.outOfService then { q with state := .training, reason := 0 } else q) } })

/-- JTAG_TRST_N (R509): Test-Logic-Reset, in which IDCODE is selected. -/
def execJtagTrstN (s : State) : Host.Outcome State Fault Refusal := .next (givePins (onDebug (fun d => { d with ir := 0x01 }) s))

/-- R509: the identity code. -/
def idcodeValue : Nat := 1 <<< 28 + 0x0A24 <<< 12 + Config.jedecId.toNat <<< 1 + 1

/-- IDCODE (R509). -/
def execIdcode (s : State) : Host.Outcome State Fault Refusal := .next (tapInstr 0x01 (shiftOut idcodeValue) s)

/-- SAMPLE/PRELOAD (R509): the pins as they stand are shifted out, and the boundary register is loaded. -/
def execSamplePreload (pins shifted : Nat) (s : State) : Host.Outcome State Fault Refusal :=
  .next (tapInstr 0x02 (fun x => shiftOut pins (onDebug (fun d => { d with boundary := shifted }) x)) s)

/-- EXTEST (R509). -/
def execExtest (shifted : Nat) (s : State) : Host.Outcome State Fault Refusal :=
  .next (tapInstr 0x03 (fun x => takePins 1 (onDebug (fun d => { d with boundary := shifted }) x)) s)

/-- CLAMP (R509). -/
def execClamp (s : State) : Host.Outcome State Fault Refusal := .next (tapInstr 0x04 (takePins 2) s)

/-- HIGHZ (R509). -/
def execHighz (s : State) : Host.Outcome State Fault Refusal := .next (tapInstr 0x05 (takePins 3) s)

/-- The codes of R509 that are not BYPASS. -/
def tapCodes : List (BitVec 8) := [0x01, 0x02, 0x03, 0x04, 0x05, 0x10, 0x11, 0x12, 0x13, 0x14]

/-- BYPASS (R509), and every code that is no instruction. -/
def execBypass (code : BitVec 8) (s : State) : Host.Outcome State Fault Refusal :=
  .next (if tapCodes.contains code then s else tapInstr 0xFF (fun x => x) s)

/-! ## Levels (R514) -/

/-- R514: an access above the level sets DENIED. -/
def deny (s : State) : State := onDebug (fun d => { d with denied := true }) s

def mayObserve (s : State) : Bool := s.dbg.level ≠ .locked
def mayWriteDebug (s : State) : Bool := s.dbg.level = .full

/-- ZDBG_TOKEN (R515, R516): a token that passes sets the level. -/
def execZdbgToken (token : List Byte) (s : State) : Host.Outcome State Fault Refusal :=
  .next (tapInstr 0x12 (fun x => if (tokenCheck x token).isNone then setLevel token x else x) s)

/-- ZDBG_CTL (R509, R514): level in bits 1:0, DENIED in bit 2, the ZSBA error in bit 3, the boot nonce in bits 127:64. The manual
gives no layout (DESIGN CHOICE, log entry 69). -/
def execZdbgCtl (s : State) : Host.Outcome State Fault Refusal :=
  .next (tapInstr 0x13 (fun x =>
    shiftOut (levelCode x.dbg.level + bitOf x.dbg.denied <<< 2 + bitOf x.dbg.zsbaError <<< 3 + x.dbg.bootNonce.toNat <<< 64) x) s)

/-- ZDBG_TRIGGER (R498): TRIGGER written in ZDBG_CTL. -/
def execZdbgTrigger (s : State) : Host.Outcome State Fault Refusal := .next (tapInstr 0x13 (fire srcDebug) s)

/-! ## Core debug registers (R511) -/

def watchOf (s : State) (crater w : Nat) : Watch :=
  (sget s.dbg.watches (crater * 4 + w)).getD
    { addr := 0, lenLog2 := 4, read := false, write := false, action := 0, enable := false, hit := false }

def breakOf (s : State) (die b : Nat) : Breakpoint :=
  (sget s.dbg.breakpoints (die * 4 + b)).getD { plan := 0, stage := 0, op := 0, enable := false, hit := false }

/-- R511: WATCH_CTL as it reads. -/
def watchCtl (w : Watch) : Nat :=
  w.lenLog2 + bitOf w.read <<< 8 + bitOf w.write <<< 9 + w.action <<< 10 + bitOf w.enable <<< 12 + bitOf w.hit <<< 13

/-- R511: WATCH_CTL written; HIT is cleared by a 1. The reserved ACTION leaves ACTION as it is, and a LEN_LOG2 outside 4 to 20 leaves
LEN_LOG2 as it is (DESIGN CHOICE, log entry 69). -/
def putWatchCtl (v : Nat) (w : Watch) : Watch where
  addr := w.addr
  lenLog2 := if 4 ≤ v % 32 ∧ v % 32 ≤ 20 then v % 32 else w.lenLog2
  read := v.testBit 8
  write := v.testBit 9
  action := if v / 1024 % 4 = 3 then w.action else v / 1024 % 4
  enable := v.testBit 12
  hit := w.hit && !v.testBit 13

/-- Slots of a mask. -/
def slotsOf (crater : Nat) (mask : BitVec 33) : List (Nat × Nat) :=
  ((List.range 33).filter (fun k => bit mask k)).map (fun k => (crater, k))

/-- R511: an operator that uses the slot has begun and is still under way. -/
def slotBusy (s : State) (x : Nat × Nat) : Bool :=
  (livePlans s).any (fun p => ((p.run.bind (·.openStep)).map (fun o =>
    (List.range p.bin.ops.length).any (fun op => opHeld o op && !o.done.contains op &&
      (stageSlots s p (stageOfOp p.bin op)).contains x))).getD false)

/-- R511, R513: slots are asked to halt: at once between operators, else after the one under way. -/
def haltSlots (crater : Nat) (mask : BitVec 33) (s : State) : State :=
  onDebug (fun d => { d with
      haltReq := (slotsOf crater mask).foldl (fun m x => putSlot true x m) d.haltReq
      halted := ((slotsOf crater mask).filter (fun x => !slotBusy s x)).foldl (fun m x => putSlot true x m) d.halted }) s

/-- R511: slots resume, for one operator under STEP. -/
def resumeSlots (crater : Nat) (mask : BitVec 33) (step : Bool) (s : State) : State :=
  let l := (slotsOf crater mask).filter (slotBit s.dbg.halted)
  settleRuns (resumeWork (onDebug (fun d => { d with
      haltReq := (slotsOf crater mask).foldl (fun m x => putSlot false x m) d.haltReq
      halted := l.foldl (fun m x => putSlot false x m) d.halted
      stepping := if step then l.foldl (fun m x => putSlot true x m) d.stepping else d.stepping
      resumed := l.foldl (fun m x => putSlot true x m) d.resumed }) s))

/-- A write to a core-debug register through the port: it needs FULL. -/
def coreWrite (act : State → State) (s : State) : State :=
  if !railsUp s then s else if mayWriteDebug s then act s else deny s

/-- CDBG_HALT (R511). -/
def execCdbgHalt (crater : Fin 32) (slots : BitVec 33) (s : State) : Host.Outcome State Fault Refusal :=
  .next (coreWrite (haltSlots crater slots) s)

/-- CDBG_RESUME (R511). -/
def execCdbgResume (crater : Fin 32) (slots : BitVec 33) (s : State) : Host.Outcome State Fault Refusal :=
  .next (coreWrite (resumeSlots crater slots false) s)

/-- CDBG_RESUME with STEP (R511). -/
def execCdbgStep (crater : Fin 32) (slots : BitVec 33) (s : State) : Host.Outcome State Fault Refusal :=
  .next (coreWrite (resumeSlots crater slots true) s)

/-! ## System-bus access (R508, R512, R380) -/

/-- R511: a crater's registers as bytes. -/
def craterBlock (s : State) (c : Nat) : List Byte :=
  natLE ((sget s.dbg.haltReq c).getD 0).toNat 8 ++ zeros 8 ++ natLE ((sget s.dbg.halted c).getD 0).toNat 8 ++ zeros 8 ++
    (List.range 4).flatMap (fun w => natLE (watchOf s c w).addr.toNat 8 ++ natLE (watchCtl (watchOf s c w)) 8)

/-- R511: a breakpoint as bytes. -/
def breakBytes (b : Breakpoint) : List Byte :=
  record 16 [(0, b.plan.toNat), (64, b.stage), (80, b.op % 2 ^ 14), (126, bitOf b.enable), (127, bitOf b.hit)]

/-- R380: row `r` of the Basin of die `d`. -/
def basinRow (s : State) (d r : Nat) : List Byte :=
  let seg := d * 16 + r / 65536
  let per := ((s.basin.segments.getD seg { width := 128, owner := none }).width) / 128
  let i := r % 65536
  match sget s.basin.entries (seg * 65536 + i / per) with
  | none => record 32 [(177, bitOf (i % per = 0))]
  | some e =>
    let part := e.key / 2 ^ (128 * (i % per)) % 2 ^ 128
    if i % per = 0 then record 32 [(0, part), (128, e.resultId.toNat), (160, e.priority.toNat), (176, 1), (177, 1)]
    else record 32 [(0, part)]

/-- R508, R511: the control and status registers that the manual places, as a block of bytes and its first address; at 0xF000 of the
snapshot range the summary stands before the record of island 15. -/
def csrBlock (s : State) (a : Nat) : Option (Nat × List Byte) :=
  let off := a % 0x1000
  let k := a / 0x1000 % 0x1000
  if 0x30000100F000 ≤ a ∧ a < 0x30000100F040 then some (off, snapSummary s.tremor)
  else if 0x300001000000 ≤ a ∧ a < 0x30000102D000 then some (off, snapRecord s.tremor k)
  else if 0x300002000000 ≤ a ∧ a < 0x300002020000 then some (off, craterBlock s k)
  else if 0x300003000000 ≤ a ∧ a < 0x300003002000 then
    some (off, (List.range 4).flatMap (fun b => breakBytes (breakOf s k b)))
  else none

/-- A bus read's bytes: `none` where nothing is decoded. -/
def windowAt (a base size count : Nat) : Option (Nat × Nat) :=
  if base ≤ a ∧ a < base + size * count then some ((a - base) / size, (a - base) % size) else none

/-- R141, R161: LOCAL bytes of a plan's logical core as its Pools hold them now: under what the open step's stages wrote there. -/
def localNow (p : Plan) (core off n : Nat) : List Byte :=
  let writes := (((p.run.bind (·.openStep)).map (·.localWrites)).getD []).filter (fun e =>
    (coresOf (p.craters.getD e.1 [])).contains core)
  writes.foldl (fun bs e => overlay bs e.2 off) (memRead ((sget p.localMem core).getD []) off n)

/-- The logical cores of a plan that a physical core runs. -/
def coresHere (s : State) (p : Plan) (core : Nat) : List Nat :=
  (coresOf (p.craters.flatten.dedup)).filter (fun l =>
    hostCore p l / 32 * 33 + slotOfRole s (hostCore p l / 32) (hostCore p l % 32) = core)

/-- R38: a Pool as debug reads it: what debug writes left, and in a core that a loaded plan runs on, where firmware placed the plan's
pieces is not stated, so its bytes are free values but for LOCAL operands. -/
def poolRead (s : State) (core off n : Nat) : List Byte :=
  let users := s.plans.filter (fun p => (coresUsed p).any (fun l => l / 32 * 33 + slotOfRole s (l / 32) (l % 32) = core))
  match users with
  | [] => memRead s.pools (core * 0x100000 + off) n
  | p :: _ =>
    let here := localNow p ((coresHere s p core).headD 0) off n
    let spans := (p.bin.descs.filter (fun d => d.space = .localPools)).flatMap (touchedRows true)
    (freeBytes s.freeCount n).zipIdx.map (fun (b, i) =>
      if spans.any (fun t => decide (t.1.toNat ≤ off + i ∧ off + i < t.1.toNat + t.2)) then
        here.getD i 0
      else b)

/-- R473: the bytes that the save set takes of each die's always-on store, its items one after the other (DEDUCED, log entry 79). -/
def saveSetBytes (d : Nat) : Nat := if d = 0 then 0x28400 else 0x14000

/-- R38, R473: an always-on store as debug reads it; the top 64 KiB are secret (R512). -/
def storeRead (s : State) (d off n : Nat) : List Byte :=
  (memRead s.aonStore (d * 0x100000 + off) n).zipIdx.map (fun (b, i) =>
    let a := off + i
    let rewritten := s.power.savedOver.any (fun w => decide (w.1 ≤ d * 0x100000 + a ∧ d * 0x100000 + a < w.1 + w.2))
    if 0x30000 ≤ a then 0
    else match s.power.savedFrom with
      | some k => if a < saveSetBytes d ∧ !rewritten then BitVec.ofNat 8 (Config.freeValue (k + d * 0x40000 + a)).toNat else b
      | none => b)

/-- Debug writes an always-on store. -/
def storeWrite (d off : Nat) (bs : List Byte) (s : State) : State :=
  { s with
    aonStore := memWrite s.aonStore (d * 0x100000 + off) bs
    power := { s.power with savedOver := s.power.savedOver ++ [(d * 0x100000 + off, bs.length)] } }

/-- R38, R508, R511, R512: what a bus read gives. -/
def busRead (s : State) (a n : Nat) : Option (List Byte) :=
  if a < nearEnd then (if nearOk s a n then some (memRead s.near a n) else none)
  else if a < 0x110000000000 then (if farOk s a n false then some (moduleRead s.boot.config.windows s.near s.far a n) else none)
  else match windowAt a 0x200000000000 0x100000 1056 with
    | some (c, off) => if off + n ≤ 0xC0000 then some (poolRead s c off n) else none
    | none => match windowAt a 0x210000000000 0x4000000 2 with
      | some (d, off) => if off + n ≤ 0x3000000 then some (memRead s.staging (d * 0x4000000 + off) n) else none
      | none => match windowAt a 0x220000000000 0x10000000 2 with
        | some (d, off) =>
          if off + n ≤ 0x2000000 then
            some (slice ((List.range (n / 32 + 2)).flatMap (fun i => basinRow s d (off / 32 + i))) (off % 32) n)
          else none
        | none => match windowAt a 0x230000000000 0x100000 2 with
          | some (d, off) =>
            if off + n ≤ 0x40000 then
              some (storeRead s d off n)
            else none
          | none => match csrBlock s a with
            | some (off, bs) => if off + n ≤ bs.length then some (slice bs off n) else none
            | none => none

/-- R6, R508, R511: a range of read-only registers: snapshot records, and CDBG_STATUS with the words beside it. -/
def csrReadOnly (s : State) (a n : Nat) : Bool :=
  match csrBlock s a with
  | none => false
  | some (off, bs) => decide (n ≠ 0 ∧ off + n ≤ bs.length) &&
      (decide (a < 0x300002000000) || decide (a < 0x300003000000 ∧ 0x10 ≤ off ∧ off + n ≤ 0x20))

/-- R6, R511: one register of the crater block, or half a breakpoint, written; a write to a read-only register is ignored. -/
def csrWrite (a v : Nat) (s : State) : Option State :=
  let off := a % 0x1000
  let k := a / 0x1000 % 0x1000
  let mask : BitVec 33 := BitVec.ofNat 33 v
  if 0x300002000000 ≤ a ∧ a < 0x300002020000 then
    if off = 0 then some (haltSlots k mask s)
    else if off = 8 then some (resumeSlots k mask (v.testBit 63) s)
    else if 0x20 ≤ off ∧ off < 0x60 then
      let w := (off - 0x20) / 16
      let x := watchOf s k w
      let y : Watch := if off % 16 = 0 then { x with addr := BitVec.ofNat 64 (v / 16 * 16) } else putWatchCtl v x
      some (onDebug (fun d => { d with watches := sset d.watches (k * 4 + w) y }) s)
    else if csrReadOnly s a 8 then some s else none
  else if 0x300003000000 ≤ a ∧ a < 0x300003002000 ∧ off < 0x40 then
    let x := breakOf s k (off / 16)
    let y : Breakpoint := if off % 16 = 0 then { x with plan := BitVec.ofNat 64 v }
      else { x with stage := v % 2 ^ 16, op := v / 2 ^ 16 % 2 ^ 14, enable := v.testBit 62, hit := x.hit && !v.testBit 63 }
    some (onDebug (fun d => { d with breakpoints := sset d.breakpoints (k * 4 + off / 16) y }) s)
  else if csrReadOnly s a 8 then some s else none

/-- Whole registers written one after the other. -/
def csrWrites (a : Nat) : List (List Byte) → State → Option State
  | [], s => some s
  | b :: bs, s => if b.length ≠ 8 then none else (csrWrite a (leNat b) s).bind (csrWrites (a + 8) bs)

/-- R444: the rows of a core's Pools that a range meets. -/
def poolRows (off n : Nat) : List Nat := if n = 0 then [] else (List.range ((off + n - 1) / 16 - off / 16 + 1)).map (off / 16 + ·)

/-- R444: the parity bits of row `r` of a core's Pools: a Pool holds 1,024 rows. -/
def poolRowParity (pools : Memory) (core r : Nat) : BitVec 16 :=
  rowParity 10 (r % 1024) (memRead pools (core * 0x100000 + 16 * r) 16)

/-- R444: the parity bits that are stored for row `r` of a core's Pools. -/
def storedParity (s : State) (core r : Nat) : BitVec 16 := (sget s.poolParity (core * 0x10000 + r)).getD (rowParity 10 (r % 1024) [])

/-- R443, R446: a debug read of Pool rows checks their parity; a row that fails is charged to its core, and replays nothing. -/
def checkPool (core off n : Nat) (s : State) : State :=
  if (poolRows off n).all (fun r => poolRowParity s.pools core r = storedParity s core r) then s
  else chargeRate (unitId 1 core) none s

/-- R443: what a bus read checks on its way. -/
def checkBus (a n : Nat) (s : State) : State :=
  match windowAt a 0x200000000000 0x100000 1056 with
  | some (c, off) => checkPool c off n s
  | none => s

/-- R444, R512: a debug write into a Pool, with the parity of its rows; it reaches the LOCAL bytes of the plans that run on the core. -/
def poolWrite (core off : Nat) (bs : List Byte) (s : State) : State :=
  let keep (w : List Host.Cell) : List Host.Cell := w.filter (fun x => decide (x.1 < off ∨ off + bs.length ≤ x.1))
  let put (p : Plan) : Plan :=
    let mine := coresHere s p core
    { p with
      localMem := mine.foldl (fun m l => sset m l (memWrite ((sget m l).getD []) off bs)) p.localMem
      run := p.run.map (fun r => { r with openStep := r.openStep.map (fun o => { o with
        localWrites := o.localWrites.map (fun e =>
          if (coresOf (p.craters.getD e.1 [])).any mine.contains then (e.1, keep e.2) else e) }) }) }
  let pools := memWrite s.pools (core * 0x100000 + off) bs
  { s with
    pools := pools
    poolParity := (poolRows off bs.length).foldl (fun m r => sset m (core * 0x10000 + r) (poolRowParity pools core r)) s.poolParity
    plans := s.plans.map put }

/-- R6, R38, R511, R512: a bus write: `none` where nothing is decoded, and then nothing is written; Basin rows and snapshot records are
read-only, and a write to them is ignored. -/
def busWrite (a : Nat) (bs : List Byte) (s : State) : Option State :=
  let n := bs.length
  if a < nearEnd then (if nearOk s a n then some (moduleWrite a bs s) else none)
  else if a < 0x110000000000 then (if farOk s a n true then some (moduleWrite a bs s) else none)
  else match windowAt a 0x200000000000 0x100000 1056 with
    | some (c, off) => if off + n ≤ 0xC0000 then some (poolWrite c off bs s) else none
    | none => match windowAt a 0x210000000000 0x4000000 2 with
      | some (d, off) => if off + n ≤ 0x3000000 then some (putStaging (d * 0x4000000 + off) bs s) else none
      | none => match windowAt a 0x230000000000 0x100000 2 with
        | some (d, off) =>
          if off + n ≤ 0x40000 then some (storeWrite d off bs s) else none
        | none => match windowAt a 0x220000000000 0x10000000 2 with
          | some (_, off) => if off + n ≤ 0x2000000 then some s else none
          | none =>
            if csrReadOnly s a n then some s
            else if a % 8 = 0 ∧ n ≠ 0 then csrWrites a (cut 8 n bs) s else none

/-- R511: registers of the core-debug range that OBSERVE reads: CDBG_STATUS and the watchpoints. -/
def observable (a n : Nat) : Bool :=
  if 0x300002000000 ≤ a ∧ a < 0x300002020000 then decide (0x10 ≤ a % 0x1000) && decide (a % 0x1000 + n ≤ 0x60) else true

/-- R512: with a session, the address is translated with its permission checks, piece by piece. -/
def sessionBus (s : State) (sid addr len : Nat) (write : Bool) : Option (List (Nat × Nat)) :=
  match sessionPieces s sid (if write then needWrite else needRead) addr len with
  | none => none
  | some ps => if farPiecesOk s ps write then some ps else none

/-- ZSBA (R512): reads are shifted out; a failure sets the error field and writes nothing. -/
def zsbaAccess (write : Bool) (session : Option Nat) (addr : Word) (len : Nat) (data : List Byte) (s : State) : State :=
  let a := addr.toNat
  let allowed := if write then mayWriteDebug s else mayObserve s && (session.isSome || observable a len || mayWriteDebug s)
  let failed (x : State) : State :=
    let y := onDebug (fun d => { d with zsbaError := true }) x
    if write then y else shiftOut 0 y
  let good (x : State) : State := onDebug (fun d => { d with zsbaError := false }) x
  if !allowed then (if write then deny s else shiftOut 0 (deny s))
  else match session with
    | some sid => match sessionBus s sid a (if write then data.length else len) write with
      | none => failed s
      | some ps => if write then good (writePieces ps data s) else shiftOut (leNat (readPieces s ps)) (good s)
    | none =>
      if write then match busWrite a data s with
        | none => failed s
        | some x => good x
      else match busRead s a len with
        | none => failed s
        | some bs => shiftOut (leNat bs) (takeFresh (len / 8 + 1) (checkBus a len (good s)))

/-- ZSBA (R512). -/
def execZsba (write : Bool) (session : Option Nat) (addr : Word) (len : Nat) (data : List Byte) (s : State) :
    Host.Outcome State Fault Refusal :=
  .next (tapInstr 0x14 (zsbaAccess write session addr len data) s)

/-! ## The debug module of the Caldera harts (R510; PRESUMED, RISC-V External Debug Support 1.0, log entry 70) -/

/-- DTMCS: version 1.0, 7 address bits, no busy state. -/
def execDtmcs (value : BitVec 32) (s : State) : Host.Outcome State Fault Refusal :=
  .next (tapInstr 0x10 (fun x =>
    shiftOut (0x71 + (bits x.dbg.dtmcs 11 10) <<< 10)
      (if bit value 16 || bit value 17 then onDebug (fun d => { d with dtmcs := 0 }) x else x)) s)

def dmReg (s : State) (a : Nat) : Nat := ((sget s.dbg.dmi a).getD 0).toNat

def putDm (a v : Nat) (s : State) : State :=
  onDebug (fun d => { d with dmi := sset d.dmi a (BitVec.ofNat 32 v) }) s

/-- The selected hart. -/
def hartSel (s : State) : Nat := dmReg s 0x10 / 2 ^ 16 % 1024 + dmReg s 0x10 / 2 ^ 6 % 1024 * 1024

def hartAt (s : State) (h : Nat) : Hart := s.dbg.harts.getD h { halted := false, regs := [] }

/-- dmstatus. -/
def dmStatus (s : State) : Nat :=
  let h := hartSel s
  let none_ : Bool := 2 ≤ h
  let away : Bool := !none_ && !dieUp s h
  let halted : Bool := !none_ && !away && (hartAt s h).halted
  let running : Bool := !none_ && !away && !(hartAt s h).halted
  3 + 1 <<< 7 + bitOf halted * 0x300 + bitOf running * 0xC00 + bitOf away * 0x3000 + bitOf none_ * 0xC000 +
    bitOf ((dmReg s 0x11).testBit 16) * 0x30000

/-- cmderr: the first error stands. -/
def cmdError (e : Nat) (s : State) : State := if dmReg s 0x16 = 0 then putDm 0x16 e s else s

/-- Abstract command: access register (32 or 64 bits); a register that nothing has written holds a free value. -/
def abstractCommand (v : Nat) (s : State) : State :=
  let size := v / 2 ^ 20 % 8
  let regno := v % 65536
  let h := hartSel s
  let known : Bool := regno < 0x1020
  if dmReg s 0x16 ≠ 0 then s
  else if v / 2 ^ 24 ≠ 0 ∨ (size ≠ 2 ∧ size ≠ 3) ∨ !known then cmdError 2 s
  else if 2 ≤ h ∨ !(hartAt s h).halted then cmdError 4 s
  else
    let mask : Nat := if size = 2 then 2 ^ 32 else 2 ^ 64
    let old : Word := if regno = 0x1000 then 0 else (sget (hartAt s h).regs regno).getD (freshValue s)
    let put (w : Word) (x : State) : State :=
      onDebug (fun d => { d with harts := modAt d.harts h (fun t =>
        { t with regs := if regno = 0x1000 then t.regs else sset t.regs regno w }) }) x
    let s1 := if !v.testBit 17 then s
      else if v.testBit 16 then
        put (BitVec.ofNat 64 ((dmReg s 0x04 + dmReg s 0x05 * 2 ^ 32) % mask)) s
      else
        let w := old.toNat % mask
        let x := putDm 0x04 (w % 2 ^ 32) (put old (takeFresh 1 s))
        if size = 3 then putDm 0x05 (w / 2 ^ 32) x else x
    if v.testBit 18 then onDebug (fun d => { d with harts := modAt d.harts h (fun t => { t with regs := [] }) }) s1 else s1

/-- dmcontrol written: the hart is selected, halted or resumed. A hart that steps is halted again, its registers free. -/
def dmControl (v : Nat) (s : State) : State :=
  if !v.testBit 0 then onDebug (fun d => { d with dmi := [] }) s
  else
    let s1 := putDm 0x10 (v % 2 ^ 30 / 2 ^ 6 * 2 ^ 6 + v % 4) s
    let h := hartSel s1
    if 2 ≤ h then s1
    else if v.testBit 31 then onDebug (fun d => { d with harts := modAt d.harts h (fun t => { t with halted := true }) }) s1
    else if v.testBit 30 ∧ (hartAt s1 h).halted then
      let step := ((sget (hartAt s1 h).regs 0x7B0).map (fun w => bit w 2)).getD false
      let s2 := putDm 0x11 0x10000 s1
      onDebug (fun d => { d with harts := modAt d.harts h (fun t =>
        if step then { t with regs := t.regs.filter (fun e => e.1 = 0x7B0) } else { t with halted := false, regs := t.regs }) }) s2
    else s1

/-- System-bus access of the debug module: sbcs at 0x38, sbaddress at 0x39 and 0x3A, sbdata at 0x3C and 0x3D. -/
def sbcsValue (s : State) : Nat := 1 <<< 29 + dmReg s 0x38 % 2 ^ 21 / 2 ^ 12 * 2 ^ 12 + 64 <<< 5 + 0xF
def sbSize (s : State) : Nat := 2 ^ (dmReg s 0x38 / 2 ^ 17 % 8)
def sbAddr (s : State) : Nat := dmReg s 0x39 + dmReg s 0x3A * 2 ^ 32

/-- The bus address moves on under autoincrement. -/
def sbAdvance (s : State) : State :=
  if (dmReg s 0x38).testBit 16 then
    let a := sbAddr s + sbSize s
    putDm 0x39 (a % 2 ^ 32) (putDm 0x3A (a / 2 ^ 32 % 2 ^ 32) s)
  else s

/-- sberror. -/
def sbError (e : Nat) (s : State) : State := putDm 0x38 (dmReg s 0x38 % 2 ^ 12 + e <<< 12 + dmReg s 0x38 / 2 ^ 15 * 2 ^ 15) s

/-- R444, R511, R512, R514: a read is held to the level as one through ZSBA is. -/
def sbRead (s : State) : State :=
  if 8 < sbSize s then sbError 4 s
  else if !observable (sbAddr s) (sbSize s) ∧ !mayWriteDebug s then putDm 0x3D 0 (putDm 0x3C 0 (deny s))
  else match busRead s (sbAddr s) (sbSize s) with
    | none => sbError 2 s
    | some bs => sbAdvance (putDm 0x3D (leNat (bs.drop 4)) (putDm 0x3C (leNat (bs.take 4)) (takeFresh 2 (checkBus (sbAddr s) (sbSize s) s))))

def sbWrite (s : State) : State :=
  if 8 < sbSize s then sbError 4 s
  else match busWrite (sbAddr s) ((natLE (dmReg s 0x3C) 4 ++ natLE (dmReg s 0x3D) 4).take (sbSize s)) s with
    | none => sbError 2 s
    | some x => sbAdvance x

/-- A register of the debug module as it reads. -/
def dmRead (s : State) (a : Nat) : Nat :=
  if a = 0x11 then dmStatus s
  else if a = 0x16 then 0x08000002 + dmReg s 0x16 <<< 8
  else if a = 0x38 then sbcsValue s
  else if a = 0x40 then bitOf (hartAt s 0).halted + bitOf (hartAt s 1).halted * 2
  else if a = 0x17 ∨ a = 0x12 then 0
  else dmReg s a

/-- A write of the debug module that needs OBSERVE only: what selects, reads and addresses. -/
def dmReadOnly (a v : Nat) : Bool :=
  (a = 0x10 && v / 2 ^ 28 % 16 = 0 && !v.testBit 1) ||
    (a = 0x17 && v / 2 ^ 24 = 0 && !v.testBit 16 && !v.testBit 18) || a = 0x16 || a = 0x38 || a = 0x39 || a = 0x3A

/-- A register of the debug module written. -/
def dmWrite (a v : Nat) (s : State) : State :=
  if a = 0x10 then dmControl v s
  else if (dmReg s 0x10) % 2 = 0 then s
  else if a = 0x17 then abstractCommand v s
  else if a = 0x16 then (if v / 2 ^ 8 % 8 = 0 then s else putDm 0x16 0 s)
  else if a = 0x38 then
    putDm 0x38 (v % 2 ^ 21 / 2 ^ 15 * 2 ^ 15 + (if v / 2 ^ 12 % 8 = 0 then dmReg s 0x38 / 2 ^ 12 % 8 * 2 ^ 12 else 0)) s
  else if a = 0x39 then
    (let x := putDm a v s
    if (dmReg x 0x38).testBit 20 then sbRead x else x)
  else if a = 0x3C then sbWrite (putDm a v s)
  else if a = 0x11 ∨ a = 0x12 ∨ a = 0x40 then s
  else putDm a v s

/-- DMI (R510): reading needs OBSERVE; halting, stepping and writing need FULL. What is shifted out is the answer to this access. -/
def dmiAccess (a op v : Nat) (s : State) : State :=
  if !mayObserve s then shiftOut 0 (deny s)
  else if op = 2 then
    if mayWriteDebug s || dmReadOnly a v then shiftOut (a <<< 34 + v <<< 2) (dmWrite a v s) else shiftOut 0 (deny s)
  else if op = 1 then
    let out := a <<< 34 + dmRead s a <<< 2
    shiftOut out (if a = 0x3C ∧ (dmReg s 0x38).testBit 15 then sbRead s else s)
  else shiftOut (a <<< 34) s

/-- DMI (R510). -/
def execDmi (addr : BitVec 7) (op : BitVec 2) (data : BitVec 32) (s : State) : Host.Outcome State Fault Refusal :=
  .next (tapInstr 0x11 (dmiAccess addr.toNat op.toNat data.toNat) s)

end Sys2Proof.Machine
end

