-- ==== Sys2Proof/Machine/Dispatch.lean ====
section
/-!
DEFINITION. Which meaning each command has.
-/

namespace Sys2Proof.Machine

/-- The meaning of each command, one arm per command; the queue is no business of a meaning. -/
def exec (i : Instr) (s : State) : Host.Outcome State Fault Refusal :=
  match i with
  | .devInfo r p => Sys2Proof.Machine.execDevInfo r p s
  | .devStatus r p => Sys2Proof.Machine.execDevStatus r p s
  | .sessionOpen r p => Sys2Proof.Machine.execSessionOpen r p s
  | .adminSetup r p => Sys2Proof.Machine.execAdminSetup r p s
  | .sessionClose r p => Sys2Proof.Machine.execSessionClose r p s
  | .memMap r p => Sys2Proof.Machine.execMemMap r p s
  | .memUnmap r p => Sys2Proof.Machine.execMemUnmap r p s
  | .dataPut r p => Sys2Proof.Machine.execDataPut r p s
  | .dataGet r p => Sys2Proof.Machine.execDataGet r p s
  | .planLoad r p => Sys2Proof.Machine.execPlanLoad r p s
  | .planRun r p => Sys2Proof.Machine.execPlanRun r p s
  | .planCancel r p => Sys2Proof.Machine.execPlanCancel r p s
  | .planResume r p => Sys2Proof.Machine.execPlanResume r p s
  | .planFree r p => Sys2Proof.Machine.execPlanFree r p s
  | .tableCreate r p => Sys2Proof.Machine.execTableCreate r p s
  | .tablePublish r p => Sys2Proof.Machine.execTablePublish r p s
  | .tableRetire r p => Sys2Proof.Machine.execTableRetire r p s
  | .tableMigratePolicy r p => Sys2Proof.Machine.execTableMigratePolicy r p s
  | .tableMigratePolicyQuery r p => Sys2Proof.Machine.execTableMigratePolicyQuery r p s
  | .basinLoadWrite r p => Sys2Proof.Machine.execBasinLoadWrite r p s
  | .basinLoadClear r p => Sys2Proof.Machine.execBasinLoadClear r p s
  | .basinLoadRelease r p => Sys2Proof.Machine.execBasinLoadRelease r p s
  | .basinSearch r p => Sys2Proof.Machine.execBasinSearch r p s
  | .tapAttach r p => Sys2Proof.Machine.execTapAttach r p s
  | .tapRead r p => Sys2Proof.Machine.execTapRead r p s
  | .tapWrite r p => Sys2Proof.Machine.execTapWrite r p s
  | .codecCtxSpill r p => Sys2Proof.Machine.execCodecCtxSpill r p s
  | .codecCtxFree r p => Sys2Proof.Machine.execCodecCtxFree r p s
  | .powerSetActive r p => Sys2Proof.Machine.execPowerSetActive r p s
  | .powerSetSimmer r p => Sys2Proof.Machine.execPowerSetSimmer r p s
  | .powerSetDormant r p => Sys2Proof.Machine.execPowerSetDormant r p s
  | .powerSetCold r p => Sys2Proof.Machine.execPowerSetCold r p s
  | .powerSetPark r p => Sys2Proof.Machine.execPowerSetPark r p s
  | .powerQuery r p => Sys2Proof.Machine.execPowerQuery r p s
  | .snapArm r p => Sys2Proof.Machine.execSnapArm r p s
  | .snapRead r p => Sys2Proof.Machine.execSnapRead r p s
  | .twinPair r p => Sys2Proof.Machine.execTwinPair r p s
  | .resync r p => Sys2Proof.Machine.execResync r p s
  | .handback r p => Sys2Proof.Machine.execHandback r p s
  | .twinRelease r p => Sys2Proof.Machine.execTwinRelease r p s
  | .twinStatus r p => Sys2Proof.Machine.execTwinStatus r p s
  | .fabricConfig r p => Sys2Proof.Machine.execFabricConfig r p s
  | .fabricConfigQuery r p => Sys2Proof.Machine.execFabricConfigQuery r p s
  | .ownerTableSet r p => Sys2Proof.Machine.execOwnerTableSet r p s
  | .fwStage r p => Sys2Proof.Machine.execFwStage r p s
  | .fwCommit r p => Sys2Proof.Machine.execFwCommit r p s
  | .attest r p => Sys2Proof.Machine.execAttest r p s
  | .configPut r p => Sys2Proof.Machine.execConfigPut r p s
  | .enroll r p => Sys2Proof.Machine.execEnroll r p s
  | .configPutRelease r p => Sys2Proof.Machine.execConfigPutRelease r p s
  | .debugToken r p => Sys2Proof.Machine.execDebugToken r p s
  | .debugTokenQuery r p => Sys2Proof.Machine.execDebugTokenQuery r p s
  | .marginReport r p => Sys2Proof.Machine.execMarginReport r p s
  | .testRunQuick r p => Sys2Proof.Machine.execTestRunQuick r p s
  | .testRunFull r p => Sys2Proof.Machine.execTestRunFull r p s
  | .unitRetire r p => Sys2Proof.Machine.execUnitRetire r p s
  | .restore r p => Sys2Proof.Machine.execRestore r p s
  | .unitRetireQuery r p => Sys2Proof.Machine.execUnitRetireQuery r p s
  | .unknownOpcode r opcode p => Sys2Proof.Machine.execUnknownOpcode r opcode p s
  | .resetCtlWarm port value b => Sys2Proof.Machine.execResetCtlWarm port value b s
  | .resetCtlRecovery port value b => Sys2Proof.Machine.execResetCtlRecovery port value b s
  | .tremorFire port value => Sys2Proof.Machine.execTremorFire port value s
  | .ringDb r value => Sys2Proof.Machine.execRingDb r value s
  | .hostEventMask port value => Sys2Proof.Machine.execHostEventMask port value s
  | .msixUnmask port vector => Sys2Proof.Machine.execMsixUnmask port vector s
  | .bar0BadAccess port offset write => Sys2Proof.Machine.execBar0BadAccess port offset write s
  | .registerWrite port space offset value => Sys2Proof.Machine.execRegisterWrite port space offset value s
  | .bar2Write port offset data => Sys2Proof.Machine.execBar2Write port offset data s
  | .vauxUp addr => Sys2Proof.Machine.execVauxUp addr s
  | .pwrEnRise vinOk b => Sys2Proof.Machine.execPwrEnRise vinOk b s
  | .pwrEnFall => Sys2Proof.Machine.execPwrEnFall s
  | .vauxLoss => Sys2Proof.Machine.execVauxLoss s
  | .vinFault => Sys2Proof.Machine.execVinFault s
  | .regulatorFault => Sys2Proof.Machine.execRegulatorFault s
  | .thermalTrip island => Sys2Proof.Machine.execThermalTrip island s
  | .resetN b => Sys2Proof.Machine.execResetN b s
  | .perstAssert port => Sys2Proof.Machine.execPerstAssert port s
  | .perstDeassert port b => Sys2Proof.Machine.execPerstDeassert port b s
  | .wakeReqN b => Sys2Proof.Machine.execWakeReqN b s
  | .thermN => Sys2Proof.Machine.execThermN s
  | .thermNRelease => Sys2Proof.Machine.execThermNRelease s
  | .timeSync => Sys2Proof.Machine.execTimeSync s
  | .trigIn falling => Sys2Proof.Machine.execTrigIn falling s
  | .cblPres port present => Sys2Proof.Machine.execCblPres port present s
  | .jtagTrstN => Sys2Proof.Machine.execJtagTrstN s
  | .idcode => Sys2Proof.Machine.execIdcode s
  | .samplePreload pins shifted => Sys2Proof.Machine.execSamplePreload pins shifted s
  | .extest shifted => Sys2Proof.Machine.execExtest shifted s
  | .clamp => Sys2Proof.Machine.execClamp s
  | .highz => Sys2Proof.Machine.execHighz s
  | .dtmcs value => Sys2Proof.Machine.execDtmcs value s
  | .dmi addr op data => Sys2Proof.Machine.execDmi addr op data s
  | .zdbgToken token => Sys2Proof.Machine.execZdbgToken token s
  | .zdbgCtl => Sys2Proof.Machine.execZdbgCtl s
  | .zdbgTrigger => Sys2Proof.Machine.execZdbgTrigger s
  | .zsba write session addr len data => Sys2Proof.Machine.execZsba write session addr len data s
  | .bypass code => Sys2Proof.Machine.execBypass code s
  | .cdbgHalt crater slots => Sys2Proof.Machine.execCdbgHalt crater slots s
  | .cdbgResume crater slots => Sys2Proof.Machine.execCdbgResume crater slots s
  | .cdbgStep crater slots => Sys2Proof.Machine.execCdbgStep crater slots s
  | .timeSet seconds => Sys2Proof.Machine.execTimeSet seconds s
  | .timeGet => Sys2Proof.Machine.execTimeGet s
  | .pldmRequest body => Sys2Proof.Machine.execPldmRequest body s
  | .mctpControl body => Sys2Proof.Machine.execMctpControl body s
  | .fwHeartbeat => Sys2Proof.Machine.execFwHeartbeat s
  | .heartbeatWatchdog => Sys2Proof.Machine.execHeartbeatWatchdog s
  | .coalTimer r => Sys2Proof.Machine.execCoalTimer r s
  | .cqHeadPoll r head => Sys2Proof.Machine.execCqHeadPoll r head s
  | .cxlLinkUp port width rate => Sys2Proof.Machine.execCxlLinkUp port width rate s
  | .linkRetrain port width rate => Sys2Proof.Machine.execLinkRetrain port width rate s
  | .farTierCompletion plan op bad => Sys2Proof.Machine.execFarTierCompletion plan op bad s
  | .farTierTimeout plan op => Sys2Proof.Machine.execFarTierTimeout plan op s
  | .stepBoundary plan f => Sys2Proof.Machine.execStepBoundary plan f s
  | .stepReplay plan => Sys2Proof.Machine.execStepReplay plan s
  | .emitDelivery plan => Sys2Proof.Machine.execEmitDelivery plan s
  | .migrationDecision table => Sys2Proof.Machine.execMigrationDecision table s
  | .migrationCopy table block => Sys2Proof.Machine.execMigrationCopy table block s
  | .basinScrub badRows => Sys2Proof.Machine.execBasinScrub badRows s
  | .islandReplan plan => Sys2Proof.Machine.execIslandReplan plan s
  | .marginSample samples eyes => Sys2Proof.Machine.execMarginSample samples eyes s
  | .powerSample avg1 avg10 over2ms => Sys2Proof.Machine.execPowerSample avg1 avg10 over2ms s
  | .junctionSample temps cool10ms => Sys2Proof.Machine.execJunctionSample temps cool10ms s
  | .sleepNoAnswer unit => Sys2Proof.Machine.execSleepNoAnswer unit s
  | .eventCondition status => Sys2Proof.Machine.execEventCondition status s
  | .scheduledFire => Sys2Proof.Machine.execScheduledFire s
  | .fabricLinkUp port peer => Sys2Proof.Machine.execFabricLinkUp port peer s
  | .flitRetry port lane => Sys2Proof.Machine.execFlitRetry port lane s
  | .retrainTimeout port => Sys2Proof.Machine.execRetrainTimeout port s
  | .fabricForward port m credits => Sys2Proof.Machine.execFabricForward port m credits s
  | .escapeWait m => Sys2Proof.Machine.execEscapeWait m s
  | .rowRead link m => Sys2Proof.Machine.execRowRead link m s
  | .rowData link m => Sys2Proof.Machine.execRowData link m s
  | .update link m => Sys2Proof.Machine.execUpdate link m s
  | .ack link m => Sys2Proof.Machine.execAck link m s
  | .ackTimer src flow => Sys2Proof.Machine.execAckTimer src flow s
  | .stale link m => Sys2Proof.Machine.execStale link m s
  | .fence link m => Sys2Proof.Machine.execFence link m s
  | .unreachable link m => Sys2Proof.Machine.execUnreachable link m s
  | .arrive link m => Sys2Proof.Machine.execArrive link m s
  | .release link m => Sys2Proof.Machine.execRelease link m s
  | .exchangeData link m => Sys2Proof.Machine.execExchangeData link m s
  | .reduceData link m => Sys2Proof.Machine.execReduceData link m s
  | .gatherData link m => Sys2Proof.Machine.execGatherData link m s
  | .topkList link m => Sys2Proof.Machine.execTopkList link m s
  | .relayFragment link m => Sys2Proof.Machine.execRelayFragment link m s
  | .search link m => Sys2Proof.Machine.execSearch link m s
  | .searchResult link m => Sys2Proof.Machine.execSearchResult link m s
  | .reqTimeout plan op => Sys2Proof.Machine.execReqTimeout plan op s
  | .collTimeout plan op => Sys2Proof.Machine.execCollTimeout plan op s
  | .cascadeWord word => Sys2Proof.Machine.execCascadeWord word s
  | .cascadeSync count => Sys2Proof.Machine.execCascadeSync count s
  | .cascadeLockTimeout => Sys2Proof.Machine.execCascadeLockTimeout s
  | .searchTimeout plan seq => Sys2Proof.Machine.execSearchTimeout plan seq s
  | .heartbeatSend => Sys2Proof.Machine.execHeartbeatSend s
  | .heartbeatBlock twin => Sys2Proof.Machine.execHeartbeatBlock twin s
  | .heartbeat link m => Sys2Proof.Machine.execHeartbeat link m s
  | .takeover readBack confirm => Sys2Proof.Machine.execTakeover readBack confirm s
  | .detach => Sys2Proof.Machine.execDetach s
  | .pairTimeout => Sys2Proof.Machine.execPairTimeout s
  | .pairHello link m => Sys2Proof.Machine.execPairHello link m s
  | .mirrorWrite link m => Sys2Proof.Machine.execMirrorWrite link m s
  | .mirrorCommit link m => Sys2Proof.Machine.execMirrorCommit link m s
  | .mirrorAck link m => Sys2Proof.Machine.execMirrorAck link m s
  | .resyncData link m => Sys2Proof.Machine.execResyncData link m s
  | .handover link m => Sys2Proof.Machine.execHandover link m s
  | .handoverAck link m => Sys2Proof.Machine.execHandoverAck link m s
  | .rowRefetch link m => Sys2Proof.Machine.execRowRefetch link m s
  | .rowRefetchData link m => Sys2Proof.Machine.execRowRefetchData link m s
  | .refetchTimeout index => Sys2Proof.Machine.execRefetchTimeout index s
  | .twinStale link m => Sys2Proof.Machine.execTwinStale link m s
  | .imageRequest link m => Sys2Proof.Machine.execImageRequest link m s
  | .imageData link m => Sys2Proof.Machine.execImageData link m s
  | .recoveryPoll => Sys2Proof.Machine.execRecoveryPoll s
  | .recoveryStall => Sys2Proof.Machine.execRecoveryStall s
  | .scan plan op f => Sys2Proof.Machine.execScan plan op f s
  | .batchTimeout plan => Sys2Proof.Machine.execBatchTimeout plan s
  | .decode plan op f => Sys2Proof.Machine.execDecode plan op f s
  | .encode plan op f => Sys2Proof.Machine.execEncode plan op f s
  | .check plan op f => Sys2Proof.Machine.execCheck plan op f s
  | .relayout plan op f => Sys2Proof.Machine.execRelayout plan op f s
  | .filter plan op f => Sys2Proof.Machine.execFilter plan op f s
  | .project plan op f => Sys2Proof.Machine.execProject plan op f s
  | .hash plan op f => Sys2Proof.Machine.execHash plan op f s
  | .bucket plan op f => Sys2Proof.Machine.execBucket plan op f s
  | .normalise plan op f => Sys2Proof.Machine.execNormalise plan op f s
  | .stats plan op f => Sys2Proof.Machine.execStats plan op f s
  | .joinBuild plan op f => Sys2Proof.Machine.execJoinBuild plan op f s
  | .joinProbe plan op f => Sys2Proof.Machine.execJoinProbe plan op f s
  | .groupAgg plan op f => Sys2Proof.Machine.execGroupAgg plan op f s
  | .sort plan op f => Sys2Proof.Machine.execSort plan op f s
  | .gather plan op f => Sys2Proof.Machine.execGather plan op f s
  | .poolGather plan op f => Sys2Proof.Machine.execPoolGather plan op f s
  | .scatterUpdate plan op f => Sys2Proof.Machine.execScatterUpdate plan op f s
  | .dense plan op f => Sys2Proof.Machine.execDense plan op f s
  | .activate plan op f => Sys2Proof.Machine.execActivate plan op f s
  | .norm plan op f => Sys2Proof.Machine.execNorm plan op f s
  | .interact plan op f => Sys2Proof.Machine.execInteract plan op f s
  | .attendShort plan op f => Sys2Proof.Machine.execAttendShort plan op f s
  | .softmax plan op f => Sys2Proof.Machine.execSoftmax plan op f s
  | .denseGradInput plan op f => Sys2Proof.Machine.execDenseGradInput plan op f s
  | .denseGradWeight plan op f => Sys2Proof.Machine.execDenseGradWeight plan op f s
  | .optStep plan op f => Sys2Proof.Machine.execOptStep plan op f s
  | .topk plan op f => Sys2Proof.Machine.execTopk plan op f s
  | .topkCollective plan op f => Sys2Proof.Machine.execTopkCollective plan op f s
  | .topkMergeNode plan op node => Sys2Proof.Machine.execTopkMergeNode plan op node s
  | .matchOp plan op f => Sys2Proof.Machine.execMatchOp plan op f s
  | .exchangeSend plan op f => Sys2Proof.Machine.execExchangeSend plan op f s
  | .exchangeReturn plan op f => Sys2Proof.Machine.execExchangeReturn plan op f s
  | .reduce plan op f => Sys2Proof.Machine.execReduce plan op f s
  | .allgather plan op f => Sys2Proof.Machine.execAllgather plan op f s
  | .barrier plan op f => Sys2Proof.Machine.execBarrier plan op f s
  | .emit plan op f => Sys2Proof.Machine.execEmit plan op f s
  | .refclkStable port => Sys2Proof.Machine.execRefclkStable port s
  | .cascadeLockLoss => Sys2Proof.Machine.execCascadeLockLoss s
  | .fabricSignalLoss port => Sys2Proof.Machine.execFabricSignalLoss port s
  | .timeSetNoEdge => Sys2Proof.Machine.execTimeSetNoEdge s
  | .attestBucketRefill => Sys2Proof.Machine.execAttestBucketRefill s
  | .aonOverload => Sys2Proof.Machine.execAonOverload s

end Sys2Proof.Machine
end

