-- ==== Sys2Proof/Safety.lean ====
section
/-!
DEFINITION. The terms that statements are made in: the canonical form of the module's memories, a host packet that is
taken and starts its command, and the command, its chain and the state it then acts on.
-/

namespace Sys2Proof.Machine

/-! ## Host packets (R86 to R93) -/

/-- The packet stands at HEAD, is intact, starts a command of one packet and passes the judging of R92: its command acts. -/
abbrev Starts (s : State) (r : RingId) (rule : CommandRule) (p : Packet) : Prop :=
  packetAtHead s r rule.opcode p = true ∧
    headerStop (ringOf s r.port r.idx) (headerBytes rule.opcode p) = none ∧
    (ringOf s r.port r.idx).cq ≠ none ∧ (ringOf s r.port r.idx).chain = none ∧
    bit p.flags 0 = false ∧ judge s r rule p = none

/-- What a command of one packet brings. -/
def startOf (rule : CommandRule) (p : Packet) : Chain :=
  { startChain rule.opcode p none with payload := p.payload, taken := p.payload.length }

/-- Where the completions of an accepted packet go. -/
def refFor (r : RingId) (rule : CommandRule) (p : Packet) : CmdRef := refOf r (startChain rule.opcode p none)

/-- The state on which an accepted command acts: HEAD has passed the packet (R87), the ring was the last served (R100), and
the command is outstanding (R102). -/
def takenBy (s : State) (r : RingId) (rule : CommandRule) (p : Packet) : State :=
  onRingOf r (fun x => { x with chain := none })
    (onRingOf r (fun x => { x with outstanding := x.outstanding ++ [refFor r rule p] }) (passPacket r p s))

/-- The command completes with one reply on the state with its packet passed (R87, R102). -/
def answeredBy (s : State) (r : RingId) (rule : CommandRule) (p : Packet) (reply : Reply) : State :=
  complete (refFor r rule p) reply (takenBy s r rule p)

/-- As `answeredBy`, after an effect on the module. -/
def answeredAfter (s : State) (r : RingId) (rule : CommandRule) (p : Packet) (reply : Reply) (f : State → State) : State :=
  complete (refFor r rule p) reply (f (takenBy s r rule p))

/-! ## Every host packet (R87 to R93) -/

/-- What the row of a host packet names: its ring, what the command table says of it, the packet with the fields that the row fixes,
what a packet of a chain does on its own, and what the command does as a whole. -/
structure HostRow where
  ring : RingId
  rule : CommandRule
  packet : Packet
  gather : Packet → Chain → State → State × Chain
  body : CmdRef → Chain → State → State

/-- A row whose payload acts when it is whole. -/
def hostRow (r : RingId) (rule : CommandRule) (p : Packet) (body : CmdRef → Chain → State → State) : HostRow :=
  { ring := r, rule := rule, packet := p, gather := gatherPayload, body := body }

/-- The host packets of the table, but for the packet that sets up an admin ring, and opcodes that the table lacks. -/
def packetRow : Instr → Option HostRow
  | .devInfo r p => some (hostRow r devInfoRule p devInfoBody)
  | .devStatus r p => some (hostRow r devStatusRule p devStatusBody)
  | .sessionOpen r p => some (hostRow r sessionOpenRule (fixP0 0x80000000 0 p) sessionOpenBody)
  | .sessionClose r p => some (hostRow r sessionCloseRule p sessionCloseBody)
  | .memMap r p => some (hostRow r memMapRule p memMapBody)
  | .memUnmap r p => some (hostRow r memUnmapRule p memUnmapBody)
  | .dataPut r p => some { hostRow r dataPutRule p dataPutBody with gather := gatherPut r.port }
  | .dataGet r p => some (hostRow r dataGetRule p dataGetBody)
  | .planLoad r p => some (hostRow r planLoadRule p planLoadBody)
  | .planRun r p => some (hostRow r planRunRule p planRunBody)
  | .planCancel r p => some (hostRow r planCancelRule p planCancelBody)
  | .planResume r p => some (hostRow r planResumeRule p planResumeBody)
  | .planFree r p => some (hostRow r planFreeRule p planFreeBody)
  | .tableCreate r p => some (hostRow r tableCreateRule p tableCreateBody)
  | .tablePublish r p => some (hostRow r (tableSlotRule 0x0051) p tablePublishBody)
  | .tableRetire r p => some (hostRow r (tableSlotRule 0x0052) p tableRetireBody)
  | .tableMigratePolicy r p => some (hostRow r policyRule (fixP0 1 0 p) policyBody)
  | .tableMigratePolicyQuery r p => some (hostRow r policyRule (fixP0 1 1 p) policyQueryBody)
  | .basinLoadWrite r p => some (hostRow r basinLoadRule (fixLoadOp 0 p) basinLoadBody)
  | .basinLoadClear r p => some (hostRow r basinLoadRule (fixP0 0x300 0x100 p) basinLoadBody)
  | .basinLoadRelease r p => some (hostRow r basinLoadRule (fixP0 0x300 0x200 p) basinLoadBody)
  | .basinSearch r p => some (hostRow r basinSearchRule p basinSearchBody)
  | .tapAttach r p => some (hostRow r tapAttachRule p tapAttachBody)
  | .tapRead r p => some (hostRow r tapReadRule p tapReadBody)
  | .tapWrite r p => some (hostRow r tapWriteRule p tapWriteBody)
  | .codecCtxSpill r p => some (hostRow r ctxSpillRule p ctxSpillBody)
  | .codecCtxFree r p => some (hostRow r ctxFreeRule p ctxFreeBody)
  | .powerSetActive r p => some (hostRow r powerSetRule (fixP0 0x7 0 p) powerSetActiveBody)
  | .powerSetSimmer r p => some (hostRow r powerSetRule (fixP0 0x7 1 p) (powerSetBody .simmer))
  | .powerSetDormant r p => some (hostRow r powerSetRule (fixP0 0x7 2 p) (powerSetBody .dormant))
  | .powerSetCold r p => some (hostRow r powerSetRule (fixP0 0x7 3 p) (powerSetBody .cold))
  | .powerSetPark r p => some (hostRow r powerSetRule (fixP0 0x4 0x4 p) powerSetParkBody)
  | .powerQuery r p => some (hostRow r powerQueryRule p powerQueryBody)
  | .snapArm r p => some (hostRow r snapArmRule p snapArmBody)
  | .snapRead r p => some (hostRow r snapReadRule p snapReadBody)
  | .twinPair r p => some (hostRow r twinPairRule (fixPairOp 0 p) (pairBody 0))
  | .resync r p => some (hostRow r twinPairRule (fixPairOp 1 p) (pairBody 1))
  | .handback r p => some (hostRow r twinPairRule (fixPairOp 2 p) handbackBody)
  | .twinRelease r p => some (hostRow r twinReleaseRule p twinReleaseBody)
  | .twinStatus r p => some (hostRow r twinStatusRule p (fun r _ s => completeData r (replyData (twinStatusBytes s)) s))
  | .fabricConfig r p => some (hostRow r fabricConfigRule (fixP0 1 0 p) fabricConfigBody)
  | .fabricConfigQuery r p => some (hostRow r fabricConfigRule (fixP0 1 1 p) fabricQueryBody)
  | .ownerTableSet r p => some (hostRow r ownerTableRule p ownerTableBody)
  | .fwStage r p => some (hostRow r fwStageRule p fwStageBody)
  | .fwCommit r p => some (hostRow r fwCommitRule p fwCommitBody)
  | .attest r p => some (hostRow r attestRule p attestCmdBody)
  | .configPut r p => some (hostRow r configPutRule (if p.p0 &&& 3 = 3 then p else fixP0 3 0 p) configPutBody)
  | .enroll r p => some (hostRow r configPutRule (fixP0 3 1 p) enrollBody)
  | .configPutRelease r p => some (hostRow r configPutRule (fixP0 3 2 p) configPutReleaseBody)
  | .debugToken r p => some (hostRow r debugTokenRule (fixP0 1 0 p) debugTokenBody)
  | .debugTokenQuery r p => some (hostRow r debugTokenRule (fixP0 1 1 p) debugTokenQueryBody)
  | .marginReport r p => some (hostRow r marginReportRule p (fun c _ x => complete c (replyData (marginRecord x)) x))
  | .testRunQuick r p => some (hostRow r testRunRule (if p.p1 &&& 2 = 2 then p else fixP1 3 0 p) testRunBody)
  | .testRunFull r p => some (hostRow r testRunRule (fixP1 3 1 p) testRunBody)
  | .unitRetire r p => some (hostRow r unitRetireRule (if p.p1 &&& 3 = 3 then p else fixP1 3 0 p) unitRetireBody)
  | .restore r p => some (hostRow r unitRetireRule (fixP1 3 1 p) restoreBody)
  | .unitRetireQuery r p => some (hostRow r unitRetireRule (fixP1 3 2 p) unitRetireQueryBody)
  | _ => none

/-- The packet of a row stands at HEAD, its header is intact, and its ring has a completion ring if it must. -/
abbrev Intact (s : State) (w : HostRow) : Prop :=
  packetAtHead s w.ring w.rule.opcode w.packet = true ∧
    headerStop (ringOf s w.ring.port w.ring.idx) (headerBytes w.rule.opcode w.packet) = none ∧
    (w.ring.idx = 0 → (ringOf s w.ring.port 0).cq ≠ none)

/-- R105: the opcodes of the commands marked A. -/
def adminOpcodes : List (BitVec 16) :=
  [0x10, 0x53, 0x90, 0xA0, 0xA1, 0xB0, 0xB1, 0xB2, 0xC0, 0xC1, 0xD0, 0xD1, 0xD3, 0xD4, 0xE1, 0xE2]

/-- R103: the opcodes of the commands accepted while FENCED. -/
def fencedOpcodes : List (BitVec 16) := [0x01, 0x02, 0x11, 0x91, 0xA1, 0xB0, 0xB2, 0xC0, 0xD0, 0xD1, 0xD2]

/-! ## Messages from other modules (R408, R413) -/

/-- The messages that belong to flows: link, message, TYPE and class. -/
def flowMessage : Instr → Option (Nat × Message × Nat × Nat)
  | .rowRead l m => some (l, m, kindRowRead, classRequest)
  | .rowData l m => some (l, m, kindRowData, classResponse)
  | .update l m => some (l, m, kindUpdate, classRequest)
  | .arrive l m => some (l, m, kindArrive, classCollective)
  | .release l m => some (l, m, kindRelease, classCollective)
  | .exchangeData l m => some (l, m, kindExchange, classCollective)
  | .reduceData l m => some (l, m, kindReduce, classCollective)
  | .gatherData l m => some (l, m, kindGather, classCollective)
  | .topkList l m => some (l, m, kindTopk, classCollective)
  | .relayFragment l m => some (l, m, kindRelay, classCollective)
  | .search l m => some (l, m, kindSearch, classCollective)
  | .searchResult l m => some (l, m, kindSearchResult, classResponse)
  | _ => none

/-- R413: a message passes the epoch checks. -/
abbrev EpochsPass (s : State) (m : Message) : Prop :=
  (sget s.fabric.minEpoch m.src.toNat).getD 0 ≤ m.srcEpoch ∧ (m.dstEpoch = 0 ∨ m.dstEpoch = s.fabric.epoch)

/-- R436: a TWIN message of a type has come by a twin link that is up, under the module's own epoch. -/
abbrev TwinHears (s : State) (link kind : Nat) (m : Message) : Prop :=
  link < 2 ∧ twinLinkUp s link = true ∧ fwRunning s = true ∧ m.cls = 3 ∧ m.kind.toNat = kind ∧ m.srcEpoch = s.twin.pairEpoch

/-! ## Operators (R150, R153, R161) -/

/-- What the row of an operator names: the plan and the place of the operator in it, the faults its reads meet, the operator and
its mode, the checks made before data moves, and its effect. -/
structure OperatorRow where
  plan : Word
  op : Nat
  faults : ReadFaults
  kind : Operator
  mode : OpEntry → Bool
  pre : Ctx → Option Status
  body : Ctx → OpEnd

/-- A row whose operator has one mode. -/
def plainRow (h : Word) (op : Nat) (f : ReadFaults) (kind : Operator) (pre : Ctx → Option Status) (body : Ctx → OpEnd) :
    OperatorRow :=
  { plan := h, op := op, faults := f, kind := kind, mode := fun _ => true, pre := pre, body := body }

/-- The operator that a row of the table runs. -/
def operatorRow : Instr → Option OperatorRow
  | .scan h op f => some (plainRow h op f .scan wholeOperands scanOp)
  | .decode h op f => some (plainRow h op f .decode wholeOperands (decodeOp f))
  | .encode h op f => some (plainRow h op f .encode wholeOperands encodeOp)
  | .check h op f => some (plainRow h op f .check wholeOperands (checkOp f))
  | .relayout h op f => some (plainRow h op f .relayout relayoutPre relayoutBody)
  | .filter h op f => some (plainRow h op f .filter wholeOperands filterBody)
  | .project h op f => some (plainRow h op f .project wholeOperands projectBody)
  | .hash h op f => some (plainRow h op f .hash wholeOperands hashBody)
  | .bucket h op f => some (plainRow h op f .bucket wholeOperands bucketBody)
  | .normalise h op f => some (plainRow h op f .normalise wholeOperands normaliseBody)
  | .stats h op f => some (plainRow h op f .stats wholeOperands statsBody)
  | .joinBuild h op f => some (plainRow h op f .joinBuild wholeOperands joinBuildBody)
  | .joinProbe h op f => some (plainRow h op f .joinProbe wholeOperands joinProbeBody)
  | .groupAgg h op f => some (plainRow h op f .groupAgg wholeOperands groupAggBody)
  | .sort h op f => some (plainRow h op f .sort wholeOperands sortBody)
  | .gather h op f => some (plainRow h op f .gather (embedPre .gather) gatherBody)
  | .poolGather h op f => some (plainRow h op f .poolGather (embedPre .poolGather) poolGatherBody)
  | .scatterUpdate h op f => some (plainRow h op f .scatterUpdate (embedPre .scatterUpdate) scatterUpdateBody)
  | .dense h op f => some (plainRow h op f .dense (fun c => weightPre (!denseRelay c.e) c) denseBody)
  | .activate h op f => some (plainRow h op f .activate wholeOperands activateBody)
  | .norm h op f => some (plainRow h op f .norm wholeOperands normBody)
  | .interact h op f => some (plainRow h op f .interact wholeOperands interactBody)
  | .attendShort h op f => some (plainRow h op f .attendShort wholeOperands attendShortBody)
  | .softmax h op f => some (plainRow h op f .softmax wholeOperands softmaxBody)
  | .denseGradInput h op f =>
    some { plainRow h op f .denseGrad denseGradPre denseGradBody with mode := fun e => !gradWeight e }
  | .denseGradWeight h op f => some { plainRow h op f .denseGrad denseGradPre denseGradBody with mode := gradWeight }
  | .optStep h op f => some (plainRow h op f .optStep (fun c => nearOperands [c.e.in0, c.e.in1] c) optStepBody)
  | .topk h op f => some { plainRow h op f .topk wholeOperands topkBody with mode := fun e => !topCollective e }
  | .topkCollective h op f => some { plainRow h op f .topk wholeOperands topkCollectiveBody with mode := topCollective }
  | .matchOp h op f => some (plainRow h op f .matchOp matchPre matchBody)
  | .exchangeSend h op f =>
    some { plainRow h op f .exchange wholeOperands exchangeBody with mode := fun e => !exchangeReturn e }
  | .exchangeReturn h op f => some { plainRow h op f .exchange wholeOperands exchangeBody with mode := exchangeReturn }
  | .reduce h op f => some (plainRow h op f .reduce (fun c => nearOperands [c.e.in0, c.e.out0] c) reduceBody)
  | .allgather h op f => some (plainRow h op f .allgather wholeOperands allgatherBody)
  | .barrier h op f => some (plainRow h op f .barrier wholeOperands barrierBody)
  | .emit h op f => some (plainRow h op f .emit wholeOperands emitBody)
  | _ => none

/-- The crater and slot of every core that takes part in an operator. -/
def rowSlots (w : OperatorRow) (s : State) (c : Ctx) : List (Nat × Nat) := stageSlots s c.p (stageOfOp c.p.bin w.op)

/-- The operator of a row is the next one of its stage in the open step of a running plan (R153, R161). -/
abbrev RowReady (w : OperatorRow) (s : State) (c : Ctx) : Prop :=
  ctxOf s w.plan w.op = some c ∧ c.e.op = w.kind ∧ w.mode c.e = true ∧ isRunning c.p = true ∧ s.power.state = .active ∧
    opReady c.p c.o w.op = true

/-- No core that takes part is halted, no breakpoint stops it and no row that it reads is being refetched (R448, R511). -/
abbrev RowFree (w : OperatorRow) (s : State) (c : Ctx) : Prop :=
  anyHalted s (rowSlots w s c) = false ∧ waitsRefetch s c.p = false ∧ breakHits s c.p (stageOfOp c.p.bin w.op) w.op = []

/-- Its reads meet no fault that has an effect. -/
abbrev ReadsClean (f : ReadFaults) : Prop := f.units.any unitValid = false ∧ f.badSectors = [] ∧ f.farFail = false

/-- The state in which an operator that begins works: faults that it had kept while it waited are taken, rereads are counted (R442) and
poison is seen (R449). -/
def begun (w : OperatorRow) (s : State) : State :=
  let x := onStep w.plan (faultsTaken w.op) s
  refreshPoison w.plan { x with err := { x.err with sectorRereads := x.err.sectorRereads + w.faults.rereads, linkRetries := x.err.linkRetries + w.faults.linkRetries } }

/-- Its blocks all have valid owner entries, and the requests of its cores pass the incarnation check (R16, R23). -/
abbrev BlocksServed (c : Ctx) : Prop := blocksRefused c = false ∧ requestsDropped c = 0

/-- The operator of a row begins: `c0` is its context in the state before the command, `c` the one it works in. -/
abbrev OpBegins (w : OperatorRow) (s : State) (c0 c : Ctx) : Prop :=
  RowReady w s c0 ∧ RowFree w s c0 ∧ ReadsClean w.faults ∧ ctxOf (begun w s) w.plan w.op = some c ∧ BlocksServed c ∧ w.pre c = none

/-- The operator is done, leaving `c`: it is marked in its step, and taps and watchpoints have seen it (R161, R253, R511). -/
def opDone (w : OperatorRow) (s : State) (c0 c : Ctx) : State :=
  let l := rowSlots w s c0
  afterOp l (applyWatches c l (foldTaps c (installStep w.plan (markDone c))))

/-- The operator of a row that begins in `c`, with no element written yet (R138), is done by the command, and what it leaves holds
`P`. -/
def Completes (i : Instr) (w : OperatorRow) (s : State) (c0 c : Ctx) (P : Ctx → Prop) : Prop :=
  ∃ c', w.body (startWrites c) = .done c' ∧ P c' ∧ exec i s = .next (opDone w s c0 c')

/-- R161: an operator has written its outputs and counters in the step, and nothing else but what the taps saw of it (R253) and the
free values it has taken. -/
abbrev WritesOutputs (c c' : Ctx) : Prop :=
  c' = { c with
    s := { c.s with taps := c'.s.taps, freeCount := c'.s.freeCount }
    o := { c.o with
      scratch := c'.o.scratch
      commitBuf := c'.o.commitBuf
      pieceWrites := c'.o.pieceWrites
      localWrites := c'.o.localWrites
      stageWrites := c'.o.stageWrites
      aliased := c'.o.aliased
      rowKeys := c'.o.rowKeys
      counters := c'.o.counters } }

/-- An empty table under JOIN_BUILD. -/
def noRows : Building := { slots := [], full := false, inserted := 0, dups := 0, skipped := 0, reads := 0 }

/-! ## Memories -/

/-- Every memory of the module has its canonical form. -/
abbrev MemoriesOk (s : State) : Prop := memWf s.near ∧ memWf s.far ∧ memWf s.staging ∧ memWf s.pools ∧ memWf s.aonStore

end Sys2Proof.Machine
end

