-- ==== Sys2Proof/Certificates/Slice0/Obligations.lean ====
section
/-!
DEFINITION. The statements for the provers.
-/

open Sys2Proof Sys2Proof.Machine

/-! ## Host commands that return a record -/

/-- R106, R107, R482, R442, R407, R516, R495, R463, R256, R504, R328: a query that is taken completes DONE with its record, built
from the state as it stood, and changes nothing but the rings, or for FABRIC_CONFIG the CORRECTED counts that it reports; SNAP_READ of
the summary among them. -/
def Obligations.QueriesReturnTheirRecords : Prop :=
  (∀ s r p, Starts s r devInfoRule p →
    exec (.devInfo r p) s = .next (answeredBy s r devInfoRule p (replyData (devInfoRecord s r.port)))) ∧
  (∀ s r p, Starts s r devStatusRule p →
    exec (.devStatus r p) s = .next (answeredBy s r devStatusRule p (replyData (devStatusRecord s r.port)))) ∧
  (∀ s r p, Starts s r powerQueryRule p →
    exec (.powerQuery r p) s = .next (answeredBy s r powerQueryRule p (replyData (powerRecord s)))) ∧
  (∀ s r p, Starts s r twinStatusRule p →
    exec (.twinStatus r p) s =
      .next (completeData (refFor r twinStatusRule p) (replyData (twinStatusBytes s)) (takenBy s r twinStatusRule p))) ∧
  (∀ s r p x, Starts s r fabricConfigRule (fixP0 1 1 p) → p.payload = [] →
    x = countCorrections (takenBy s r fabricConfigRule (fixP0 1 1 p)) →
    exec (.fabricConfigQuery r p) s =
      .next (completeData (refFor r fabricConfigRule (fixP0 1 1 p))
        (replyData (fabricHeader s ++ (x.fabric.ports.map portRecord).flatten)) x)) ∧
  (∀ s r p, Starts s r debugTokenRule (fixP0 1 1 p) →
    exec (.debugTokenQuery r p) s = .next (answeredBy s r debugTokenRule (fixP0 1 1 p)
      (replyData (record 32 [(0, levelCode s.dbg.level), (2, s.boot.config.debugCap % 4), (64, Config.serial.toNat),
        (128, s.dbg.bootNonce.toNat)])))) ∧
  (∀ s r p, Starts s r marginReportRule p →
    exec (.marginReport r p) s = .next (answeredBy s r marginReportRule p (replyData (marginRecord s)))) ∧
  (∀ s r p, Starts s r unitRetireRule (fixP1 3 2 p) → p.p0 = 0 →
    exec (.unitRetireQuery r p) s = .next (answeredBy s r unitRetireRule (fixP1 3 2 p) (replyData (retiredRecord s)))) ∧
  (∀ s r p, Starts s r tapReadRule p → tapUseCheck s (startOf tapReadRule p) = none →
    exec (.tapRead r p) s = .next (answeredBy s r tapReadRule p (replyData (tapRecord (tapAt s (bits p.p0 7 0)))))) ∧
  (∀ s r p, Starts s r snapReadRule p → bits p.p0 7 0 = 0xFF →
    exec (.snapRead r p) s = .next (answeredBy s r snapReadRule p (replyData (snapSummary s.tremor)))) ∧
  (∀ s r p t, Starts s r policyRule (fixP0 1 1 p) → p.payload = [] → tableOf s p.handle = some t →
    exec (.tableMigratePolicyQuery r p) s =
      .next (completeData (refFor r policyRule (fixP0 1 1 p))
        (replyData (policyRecord (t.policy.getD noPolicy) ++
          record 64 [(0, t.promotions % 2 ^ 64), (64, t.demotions % 2 ^ 64), (128, t.aborts % 2 ^ 64),
            (192, (t.frames.filter (fun f => (dirEntry s t f.2.1 f.2.2).hot)).length), (224, t.migrations.length),
            (256, t.writebackBytes % 2 ^ 64)])) (takenBy s r policyRule (fixP0 1 1 p))))

/-! ## Sessions, mappings and data -/

/-- R108: SESSION_OPEN gives the lowest free number, its rings with their completion rings and its slices, and answers with the
number and the ring indices. -/
def Obligations.SessionOpens : Prop :=
  ∀ s r p sid rings small large, Starts s r sessionOpenRule (fixP0 0x80000000 0 p) →
    openCheck false (startOf sessionOpenRule (fixP0 0x80000000 0 p)) = none →
    openPlan (takenBy s r sessionOpenRule (fixP0 0x80000000 0 p)) r.port (startOf sessionOpenRule (fixP0 0x80000000 0 p)) =
      some (sid, rings, small, large) →
    sget s.sessions sid = none ∧
    ∃ t, exec (.sessionOpen r p) s = .next t ∧
      t = { s with ports := t.ports
                   sessions := sset s.sessions sid
                     { port := r.port, rings := rings, smallBase := small, smallPages := p.p1.toNat, largeBase := large,
                       largePages := p.p2.toNat, closing := none } } ∧
      t = answeredAfter s r sessionOpenRule (fixP0 0x80000000 0 p) (replyData (natLE sid 8 ++ rings.map (BitVec.ofNat 8)))
        (fun x => (rings.zip (cqList (startOf sessionOpenRule (fixP0 0x80000000 0 p)))).foldl
          (fun y e => onPort r.port (onRing e.1 (fun _ => openRing sid (cqOf e.2))) y)
          { x with sessions := t.sessions })

/-- R78, R108: the first packet of the admin ring, ADMIN_SETUP, installs the ring's completion ring and opens no session: it
answers DONE with 0xFFFF, and nothing but the ports changes. -/
def Obligations.AdminSetupInstalls : Prop :=
  ∀ s r p q, q = fixP0 0x80000000 0x80000000 p → r.idx = 0 → packetAtHead s r adminSetupRule.opcode q = true →
    (ringOf s r.port 0).cq = none → headerStop (ringOf s r.port 0) (headerBytes adminSetupRule.opcode q) = none →
    bit p.flags 0 = false → judge s r adminSetupRule q = none → openCheck true (startOf adminSetupRule q) = none →
    exec (.adminSetup r p) s =
      .next (complete (refFor r adminSetupRule q) (replyData (natLE 0xFFFF 8))
        (onRingOf r (fun x => { x with outstanding := x.outstanding ++ [refFor r adminSetupRule q] })
          (passPacket r q (onRingOf r (fun x => { x with cq := some (cqOf (slice p.payload 0 32)) }) s)))) ∧
    ∀ t, exec (.adminSetup r p) s = .next t → t = { s with ports := t.ports }

/-- R109: SESSION_CLOSE of a session with no live run, and with no command of its rings outstanding or completion waiting, frees all that
the session holds - plans, tables, contexts, mappings, taps and Basin segments - answers DONE, disables its rings and frees its number. -/
def Obligations.SessionCloses : Prop :=
  ∀ s r p ss sid, Starts s r sessionCloseRule p → sid = p.handle.toNat → sget s.sessions sid = some ss → ss.closing = none →
    (∀ q ∈ s.plans, q.session = sid → q.run = none ∧ (planOf s q.handle).bind (·.run) = none) →
    (∀ i ∈ ss.rings, (ringOf s ss.port i).outstanding = [] ∧ holdsCompletions (ringOf s ss.port i) = false) →
    (∀ q ∈ s.ports, ∀ x ∈ q.rings, ∀ c, x.chain = some c → c.session.toNat ≠ sid) →
    exec (.sessionClose r p) s =
      .next (dropSession sid ss (answeredAfter s r sessionCloseRule p (replyOf .done) (freeSessionState sid))) ∧
    ∃ t, exec (.sessionClose r p) s = .next t ∧
      sget t.sessions sid = none ∧ (∀ k, k ≠ sid → sget t.sessions k = sget s.sessions k) ∧
      (∀ i ∈ ss.rings, (ringOf t ss.port i).enabled = false) ∧
      (∀ q ∈ t.plans, q.session ≠ sid) ∧ (∀ q ∈ t.tables, q.session ≠ sid) ∧ (∀ q ∈ t.contexts, q.session ≠ sid) ∧
      (∀ k, (overlaps k 1 ss.smallBase ss.smallPages = true ∨ overlaps k 1 ss.largeBase ss.largePages = true) →
        sget t.xlate k = none) ∧
      (∀ x ∈ t.taps, x.attached = true → x.session ≠ sid) ∧ (∀ g ∈ t.basin.segments, g.owner ≠ some sid) ∧
      t.near = s.near ∧ t.far = s.far

/-- R110, R111: MEM_MAP maps near-tier pages that are zeroed first, or far-tier pages in ascending order; MEM_UNMAP removes the
entries; each answers DONE with the number of pages. -/
def Obligations.MappingsChange : Prop :=
  (∀ s r p ss x c size targets, Starts s r memMapRule p → x = takenBy s r memMapRule p → c = startOf memMapRule p →
    size = (if parBits c 5 4 4 = 1 then 0x200000 else 0x10000) →
    sget x.sessions p.session.toNat = some ss → parN c 4 ≠ 0 → parBits c 5 6 5 = 0 → parBits c 5 8 7 ≠ 3 → par64 c 2 = 0 →
    mapRangeCheck x ss (par64 c 0) (parN c 4) (parBits c 5 4 4 = 1) false 0 (parBits c 5 8 7) = none →
    (∀ k < parN c 4, sget x.xlate (entryIndex ss (par64 c 0 + k * size)) = none) → parN c 4 * size ≤ nearFree x →
    pickPages (nearPageOk x (parBits c 5 8 7) size) size x.freeCount (parN c 4) (mappedNear x) = some targets →
    exec (.memMap r p) s =
      .next (answeredAfter s r memMapRule p { replyOf .done with count0 := parN c 4 } (fun y =>
        takeFresh (parN c 4) (mapPages p.session.toNat ss (par64 c 0) (parBits c 5 4 4 = 1) (parBits c 5 3 0) targets
          (zeroPages size targets y))))) ∧
  (∀ s r p ss x c size, Starts s r memMapRule p → x = takenBy s r memMapRule p → c = startOf memMapRule p →
    size = (if parBits c 5 4 4 = 1 then 0x200000 else 0x10000) →
    sget x.sessions p.session.toNat = some ss → parN c 4 ≠ 0 → parBits c 5 6 5 = 1 → parBits c 5 8 7 ≠ 3 →
    mapRangeCheck x ss (par64 c 0) (parN c 4) (parBits c 5 4 4 = 1) true (par64 c 2) (parBits c 5 8 7) = none →
    (∀ k < parN c 4, sget x.xlate (entryIndex ss (par64 c 0 + k * size)) = none) →
    farTargetOk x (par64 c 2) (parN c 4 * size) (parBits c 5 3 0) = true →
    exec (.memMap r p) s =
      .next (answeredAfter s r memMapRule p { replyOf .done with count0 := parN c 4 } (fun y =>
        mapPages p.session.toNat ss (par64 c 0) (parBits c 5 4 4 = 1) (parBits c 5 3 0)
          ((List.range (parN c 4)).map (fun k => par64 c 2 + k * size)) y))) ∧
  (∀ s r p ss x c size idx, Starts s r memUnmapRule p → x = takenBy s r memUnmapRule p → c = startOf memUnmapRule p →
    size = (if parBits c 5 4 4 = 1 then 0x200000 else 0x10000) →
    sget x.sessions p.session.toNat = some ss → parN c 4 ≠ 0 →
    mapRangeCheck x ss (par64 c 0) (parN c 4) (parBits c 5 4 4 = 1) false 0 0 = none →
    idx = (List.range (parN c 4)).map (fun k => entryIndex ss (par64 c 0 + k * size)) →
    (∀ k ∈ idx, ∃ e, sget x.xlate k = some e ∧ e.session = p.session.toNat) →
    rangeBound x p.session.toNat (par64 c 0) (parN c 4 * size) = false →
    tableMemory x p.session.toNat (par64 c 0) (parN c 4 * size) = false →
    anyWindow x p.session.toNat (par64 c 0) (parN c 4 * size) = false →
    exec (.memUnmap r p) s =
      .next (answeredAfter s r memUnmapRule p { replyOf .done with count0 := parN c 4 } (fun y =>
        { y with xlate := idx.foldl (fun m k => sdel m k) y.xlate })))

/-- R112, R113, R253: DATA_PUT of one packet writes its payload to the session's memory, or to the plan's staging region, before it
answers DONE with the bytes written; DATA_GET answers with the bytes of its range; what comes by a CXL port passes its tap. -/
def Obligations.DataMoves : Prop :=
  (∀ s r p x c, Starts s r dataPutRule p →
    x = onRingOf r (fun y => { y with outstanding := y.outstanding ++ [refFor r dataPutRule p] }) (passPacket r p s) →
    c = startChain dataPutRule.opcode p none → putCheck x p c = none → parN c 4 = 0 → p.payload.length = par64 c 2 →
    exec (.dataPut r p) s =
      .next (complete (refFor r dataPutRule p) { replyOf .done with count0 := p.payload.length }
        (onRingOf r (fun y => { y with chain := none })
          (foldStream 6 r.port r.port p.session.toNat (par64 c 0) p.payload
            (storeSession p.session.toNat (par64 c 0) p.payload x))))) ∧
  (∀ s r p x c q, Starts s r dataPutRule p →
    x = onRingOf r (fun y => { y with outstanding := y.outstanding ++ [refFor r dataPutRule p] }) (passPacket r p s) →
    c = startChain dataPutRule.opcode p none → putCheck x p c = none → parN c 4 = 1 → planOf x p.handle = some q →
    p.payload.length = par64 c 2 →
    exec (.dataPut r p) s =
      .next (complete (refFor r dataPutRule p) { replyOf .done with count0 := p.payload.length }
        (onRingOf r (fun y => { y with chain := none })
          (putStaging (stagingAddress q (parN c 5) (par64 c 0)) p.payload x)))) ∧
  (∀ s r p x c ps, Starts s r dataGetRule p → x = takenBy s r dataGetRule p → c = startOf dataGetRule p →
    par64 c 2 ≠ 0 → par64 c 2 ≤ 2 ^ 40 → sessionPieces x p.session.toNat needRead (par64 c 0) (par64 c 2) = some ps →
    farPiecesOk x ps false = true →
    exec (.dataGet r p) s =
      .next (completeData (refFor r dataGetRule p) (replyData (readPieces s ps))
        (foldFarReads p.session.toNat (par64 c 0) ps (takenBy s r dataGetRule p))))

/-! ## Plans -/

/-- R151, R156, R157, R158, R159: PLAN_LOAD of a binary that passes every check places the plan and answers with its handle, the
bytes reserved and the cores placed; PLAN_RUN starts a run; PLAN_CANCEL of a loaded plan answers DONE and of a run outside its
commit ends it; PLAN_RESUME lets a suspended run go on; PLAN_FREE removes the plan. -/
def Obligations.PlanCommandsAct : Prop :=
  (∀ s r p x q, Starts s r planLoadRule p → x = takenBy s r planLoadRule p →
    binaryCheck x p.session.toNat p.payload = none → entriesCheck x p.session.toNat p.payload (parsePlan p.payload) = none →
    placePlan x p.session.toNat (parsePlan p.payload) = .ok q →
    exec (.planLoad r p) s =
      .next (answeredAfter s r planLoadRule p
        { replyData (natLE q.handle.toNat 8) with count0 := q.nearBytes, count1 := coresPlaced q } (addPlan q)) ∧
    (∃ t, exec (.planLoad r p) s = .next t ∧ t.plans = s.plans ++ [q] ∧ t.planSerial = s.planSerial + 1)) ∧
  (∀ s r p x q, Starts s r planRunRule p → x = takenBy s r planRunRule p → planOf x p.handle = some q →
    planRunCheck (refFor r planRunRule p) x q = none →
    exec (.planRun r p) s =
      .next (settleRuns (startRun (refFor r planRunRule p) q p.p0.toNat (p.p1.toNat + p.p2.toNat <<< 32) x))) ∧
  (∀ s r p q, Starts s r planCancelRule p → planOf s p.handle = some q → q.run = none →
    exec (.planCancel r p) s = .next (answeredBy s r planCancelRule p (replyOf .done))) ∧
  (∀ s r p x q u, Starts s r planCancelRule p → x = takenBy s r planCancelRule p → planOf x p.handle = some q →
    q.run = some u → inCommit q = false →
    anyHalted x ((List.range q.bin.stages.length).flatMap (stageSlots x q)) = false →
    exec (.planCancel r p) s =
      .next (settleRuns (startSteps 0 (resumeCloses (complete (refFor r planCancelRule p)
        { replyOf .done with count0 := u.committedSteps } (endRun p.handle .cancelled x)))))) ∧
  (∀ s r p x q u why op y, Starts s r planResumeRule p → x = takenBy s r planResumeRule p → planOf x p.handle = some q →
    q.run = some u → u.suspended = some (why, op) →
    resumeCheck (refFor r planResumeRule p) (startOf planResumeRule p) x q why = none → restoreContext q u op x = some y →
    exec (.planResume r p) s =
      .next (settleRuns (goOn (refFor r planResumeRule p) (startOf planResumeRule p) p.handle why op y))) ∧
  (∀ s r p q, Starts s r planFreeRule p → planOf s p.handle = some q → q.run = none →
    ∃ t, exec (.planFree r p) s = .next t ∧ planOf t p.handle = none ∧
      t = answeredAfter s r planFreeRule p (replyOf .done) (freePlan p.handle))

/-! ## Tables and codec contexts -/

/-- R302, R311, R312, R328, R244: TABLE_CREATE adds the table with a new handle; TABLE_PUBLISH of a LOADED slot makes it CURRENT;
TABLE_RETIRE starts its retirement; the policy is stored; a suspended codec context is spilled to memory or freed. -/
def Obligations.TableCommandsAct : Prop :=
  (∀ s r p x, Starts s r tableCreateRule p → x = takenBy s r tableCreateRule p →
    tableCreateCheck x p.payload p.session.toNat = none →
    ∃ t e, exec (.tableCreate r p) s = .next t ∧ t.tables = s.tables ++ [e] ∧ t.tableSerial = s.tableSerial + 1 ∧
      e.handle = tableHandle p.session.toNat s.tableSerial
        (((List.range 4096).find? (fun n => !s.tables.any (fun y => tableNumber y = n))).getD 0) ∧
      e.rows = (tdTable p.payload p.session.toNat).rows) ∧
  (∀ s r p k e, Starts s r (tableSlotRule 0x0051) p → k = bits p.p0 1 0 → tableOf s p.handle = some e →
    (slotOf e k).state = .loaded → (e.hashed = true → indexHeaderOk s e k = true) →
    exec (.tablePublish r p) s = .next (answeredAfter s r (tableSlotRule 0x0051) p (replyOf .done) (fun y =>
      onTable e.handle (onSlot k (fun v => { v with state := .current }))
        (match currentSlot e with
          | none => y
          | some j => onTable e.handle (onSlot j (fun v => { v with state := .loaded })) (abortSlot e.handle j y))))) ∧
  (∀ s r p k e, Starts s r (tableSlotRule 0x0052) p → k = bits p.p0 1 0 → tableOf s p.handle = some e →
    (slotOf e k).state = .loaded →
    exec (.tableRetire r p) s =
      .next (answeredAfter s r (tableSlotRule 0x0052) p { replyOf .done with count0 := (slotOf e k).refs } (fun y =>
        settleSlot e.handle k
          (onTable e.handle (onSlot k (fun v => { v with state := .retiring })) (abortSlot e.handle k y))))) ∧
  (∀ s r p e, Starts s r policyRule (fixP0 1 0 p) → tableOf s p.handle = some e → p.payload.length = 64 →
    field p.payload 142 2 = 0 → field p.payload 176 336 = 0 → (parsePolicy p.payload).maxPerStep ≤ 16 →
    (parsePolicy p.payload).intervalSteps ≠ 0 → (parsePolicy p.payload).hotVa % 64 = 0 →
    hotPagesOk s e (parsePolicy p.payload) = true → e.frames = [] →
    exec (.tableMigratePolicy r p) s = .next (answeredAfter s r policyRule (fixP0 1 0 p) (replyOf .done)
      (onTable e.handle (fun y => { y with policy := some (parsePolicy p.payload) })))) ∧
  (∀ s r p va x, Starts s r ctxSpillRule p → va = p.p0.toNat + p.p1.toNat <<< 32 → contextOfHandle s p.handle = some x →
    va % 64 = 0 → writable s x.session va 512 = true → x.spilled = none → contextBusy s x = false →
    exec (.codecCtxSpill r p) s = .next (answeredAfter s r ctxSpillRule p (replyOf .done) (fun y =>
      storeSession x.session va (stateBlock x.ctx)
        { y with contexts := y.contexts.map (fun z =>
            if z.handle = p.handle then { z with slot := none, spilled := some va } else z) }))) ∧
  (∀ s r p x, Starts s r ctxFreeRule p → contextOfHandle s p.handle = some x → contextBusy s x = false →
    ∃ t, exec (.codecCtxFree r p) s = .next t ∧ contextOfHandle t p.handle = none ∧
      t = answeredAfter s r ctxFreeRule p (replyOf .done)
        (fun y => { y with contexts := y.contexts.filter (fun z => z.handle ≠ p.handle) }))

/-! ## The Basin and the taps -/

/-- R255, R257, R381, R383, R390: WRITE, CLEAR and RELEASE of BASIN_LOAD, with no plan to govern the segment and no load that waits,
claim the segment, apply at once and answer with the entries written and 0xFFFF_FFFF: WRITE stores the payload's records from
FIRST_ENTRY on, CLEAR sets the width and leaves no entry, RELEASE leaves no entry and no owner; BASIN_SEARCH answers with one record a
key; TAP_ATTACH attaches a tap at Init or detaches it; TAP_WRITE sets a tap's running value. -/
def Obligations.BasinAndTapCommandsAct : Prop :=
  (∀ s r p i q c x seg op w l, i = .basinLoadWrite r p ∧ q = fixLoadOp 0 p ∨ i = .basinLoadClear r p ∧ q = fixP0 0x300 0x100 p ∨
      i = .basinLoadRelease r p ∧ q = fixP0 0x300 0x200 p →
    Starts s r basinLoadRule q → c = startOf basinLoadRule q → x = takenBy s r basinLoadRule q → basinLoadCheck c x = none →
    seg = parBits c 0 4 0 → op = parBits c 0 9 8 → matchPlans s seg = [] → s.basin.loads = [] → w = pendingWidth x seg →
    l = { segment := seg, op := op, width := if op = 1 then basinWidth (parBits c 0 11 10) else w, session := p.session.toNat
          first := parN c 1
          records := if op = 0 then (cut (entryBytes w) (parN c 2) p.payload).map (loadRecord w) else []
          atStep := par64 c 3, plan := noPlan, reply := refFor r basinLoadRule q } →
    exec i s = .next (answeredAfter s r basinLoadRule q
      { replyOf .done with count0 := l.records.length, count1 := 0xFFFFFFFF } (fun y =>
        { y with basin := applyLoad l { y.basin with segments := modAt y.basin.segments seg (fun g =>
            if op = 2 then g else { g with owner := some p.session.toNat }) } }))) ∧
  (∀ l b, l.op = 0 → (∀ k, k < l.first ∨ l.first + l.records.length ≤ k → k < 65536 →
      sget (applyLoad l b).entries (l.segment * 65536 + k) = sget b.entries (l.segment * 65536 + k)) ∧
    ∀ k e, l.records[k]? = some e → sget (applyLoad l b).entries (l.segment * 65536 + l.first + k) = if e.1 then some e.2 else none) ∧
  (∀ l b k, l.op ≠ 0 → k < 65536 → sget (applyLoad l b).entries (l.segment * 65536 + k) = none) ∧
  (∀ s r p w n, Starts s r basinSearchRule p → w = basinWidth (bits p.p1 1 0) → n = p.p2.toNat → bits p.p1 1 0 ≠ 3 → 0 < n →
    n ≤ 65536 → p.payload.length = 64 + n * (w / 8) → segmentsOk s p.session.toNat p.p0.toNat w = true →
    exec (.basinSearch r p) s = .next (answeredBy s r basinSearchRule p (replyData
      ((List.range n).map (fun i =>
        let h := (searchBasin s.basin p.p0.toNat w (leNat (slice p.payload (64 + i * (w / 8)) (w / 8)))
          (leNat (p.payload.take 64))).map (localHit w)
        hitRecord i 0 (bitOf h.isSome) false h)).flatten))) ∧
  (∀ s r p c k, Starts s r tapAttachRule p → c = startOf tapAttachRule p →
    tapAttachCheck (takenBy s r tapAttachRule p) p.session.toNat c = none →
    chooseTap (takenBy s r tapAttachRule p) (parBits c 0 7 0) (parBits c 0 11 8) (parBits c 0 15 12) = some k →
    exec (.tapAttach r p) s =
      .next (answeredAfter s r tapAttachRule p (replyData (natLE k 8)) (attachTap p.session.toNat c k))) ∧
  (∀ s r p c k, Starts s r tapWriteRule p → c = startOf tapWriteRule p → k = bits p.p0 7 0 →
    tapUseCheck (takenBy s r tapWriteRule p) c = none → par64 c 1 / 2 ^ tapWidth (tapAt s k).poly = 0 →
    exec (.tapWrite r p) s = .next (answeredAfter s r tapWriteRule p (replyOf .done) (fun y =>
      { y with taps := modAt y.taps k (fun t =>
          { t with running := BitVec.ofNat 64 (par64 c 1), byteCount := par64 c 3, seqFault := false }) })))

/-! ## Power states and snapshots -/

/-- R466, R467, R470, R472, R475, R479, R481: POWER_SET takes the module to its target and completes DONE: out of SIMMER, into
SIMMER when no group refuses, into DORMANT and COLD when nothing is left to refuse, and to a new parked set. -/
def Obligations.PowerSetTakesEffect : Prop :=
  (∀ s r p, Starts s r powerSetRule (fixP0 0x7 0 p) → p.p1 = 0 → s.power.transition = none →
    exec (.powerSetActive r p) s =
      .next (if s.power.state = .simmer then answeredAfter s r powerSetRule (fixP0 0x7 0 p) (replyOf .done) (exitSimmer 0)
        else answeredBy s r powerSetRule (fixP0 0x7 0 p) (replyOf .done))) ∧
  (∀ s r p x t, Starts s r powerSetRule (fixP0 0x7 1 p) → x = takenBy s r powerSetRule (fixP0 0x7 1 p) → p.p1 = 0 →
    s.power.transition = none → s.power.state = .active → s.power.heldReset = none → s.power.wakeLatched = false →
    t = { target := .simmer, fromState := .active, reply := some (refFor r powerSetRule (fixP0 0x7 1 p)), draining := true } →
    drained x t = true → preCheck s .simmer = none → groupRefusal s .simmer = none →
    exec (.powerSetSimmer r p) s =
      .next (powerDone .simmer .active .simmer none (answeredAfter s r powerSetRule (fixP0 0x7 1 p) (replyOf .done) (fun y =>
        { y with power := { y.power with state := .simmer, transition := none, lastResult := 0, lastTime := y.time } }))))
    ∧
  (∀ s r p x t, Starts s r powerSetRule (fixP0 0x7 2 p) → x = takenBy s r powerSetRule (fixP0 0x7 2 p) → p.p1 = 0 →
    s.power.transition = none → s.power.state ≠ .dormant → s.power.heldReset = none → s.power.wakeLatched = false →
    t = { target := .dormant, fromState := s.power.state, reply := some (refFor r powerSetRule (fixP0 0x7 2 p)),
          draining := true } →
    drained x t = true → preCheck s .dormant = none → groupRefusal s .dormant = none →
    ∃ u, exec (.powerSetDormant r p) s = .next u ∧ u.power.state = .dormant ∧ u.power.transition = none ∧
      u.power.dormantEntries = s.power.dormantEntries + 1 ∧ u.clock.saved = some s.time ∧ u.pins.pwrgdOut = false ∧
      u.staging = [] ∧ u.pools = [] ∧ u.near = s.near ∧ u.far = s.far ∧ u.sessions = s.sessions ∧ u.tables = s.tables ∧
      u.aonStore = s.aonStore ∧ u.xlate = s.xlate) ∧
  (∀ s r p x t, Starts s r powerSetRule (fixP0 0x7 3 p) → x = takenBy s r powerSetRule (fixP0 0x7 3 p) → p.p1 = 0 →
    s.power.transition = none → s.power.state ≠ .cold → s.power.heldReset = none → s.power.wakeLatched = false →
    t = { target := .cold, fromState := s.power.state, reply := some (refFor r powerSetRule (fixP0 0x7 3 p)), draining := true } →
    drained x t = true → preCheck s .cold = none → groupRefusal s .cold = none →
    ∃ u, exec (.powerSetCold r p) s = .next u ∧ u.power.state = .cold ∧ u.near = [] ∧ u.aonStore = [] ∧ u.plans = [] ∧
      u.sessions = [] ∧ u.boot.nor.cleanShutdown = true ∧ u.pins.pwrgdOut = false ∧ u.pins.coldLatched = true ∧
      u.far = s.far) ∧
  (∀ s r p x mask y, Starts s r powerSetRule (fixP0 0x4 0x4 p) → x = takenBy s r powerSetRule (fixP0 0x4 0x4 p) →
    bits p.p0 1 0 = 0 → s.power.transition = none → s.power.state ≠ .simmer → s.power.parkReply = none →
    mask = (List.range 32).foldl (fun m i => if isRetired s (unitId 2 i) then clearBit m i else m) p.p1 → y = withParked mask x →
    coresActive y ≠ 0 → allPlaceable y = true →
    exec (.powerSetPark r p) s =
        .next (settleParking (replaceIdle { y with power := { y.power with
          parkReply := some (refFor r powerSetRule (fixP0 0x4 0x4 p)) } })) ∧
      (s.plans = [] → exec (.powerSetPark r p) s =
        .next (answeredAfter s r powerSetRule (fixP0 0x4 0x4 p) (replyOf .done) (withParked mask))))

/-- R498, R503, R504, R505: SNAP_ARM arms the trigger unit with its record and fires at once under IMMEDIATE; SNAP_READ of an
island answers with its record and marks it read. -/
def Obligations.SnapshotCommandsAct : Prop :=
  (∀ s r p, Starts s r snapArmRule p → snapArmCheck s p.payload = none → s.tremor.state ≠ .latched →
    exec (.snapArm r p) s = .next (answeredAfter s r snapArmRule p (replyOf .done) (fun y =>
      fire 1 { y with tremor := { y.tremor with state := .armed, arm := armOf p.payload } }))) ∧
  (∀ s r p, Starts s r snapArmRule p → snapArmCheck s p.payload = none → s.tremor.state = .latched →
    exec (.snapArm r p) s = .next (answeredAfter s r snapArmRule p (replyOf .done) (fun y =>
      fire 1 { y with tremor := { releaseSnap y.tremor with state := .armed, arm := armOf p.payload } }))) ∧
  (∀ s r p, Starts s r snapReadRule p → bits p.p0 7 0 < 45 →
    exec (.snapRead r p) s =
      .next (answeredAfter s r snapReadRule p (replyData (snapRecord s.tremor (bits p.p0 7 0)))
        (fun y => { y with tremor := markRead (bits p.p0 7 0) y.tremor })))

/-! ## The twin and the fabric -/

/-- R427 to R429, R438 to R440: TWIN_PAIR takes the record of a payload that passes and sends hello on both links; HANDBACK waits
for the boundary, or gives the windows back at once when no plan is live; TWIN_RELEASE of a pair with nothing left to acknowledge
sends HANDOVER. -/
def Obligations.TwinCommandsAct : Prop :=
  (∀ s r p q, q = fixPairOp 0 p → Starts s r twinPairRule q → pairCheck s 0 q.payload = none →
    exec (.twinPair r p) s =
      .next (takeHello (sendHello 0 (let x := takenBy s r twinPairRule q
        { x with twin := { x.twin with
            state := .pairing, priorRecord := none, record := some (parseRecord s q.payload),
            command := some (refFor r twinPairRule q), commandOp := 0, copying := false, windowsLeft := 0,
            isolated := false } })))) ∧
  (∀ s r p q, q = fixPairOp 1 p → Starts s r twinPairRule q → pairCheck s 1 q.payload = none →
    exec (.resync r p) s =
      .next (takeHello (sendHello 1 (let x := takenBy s r twinPairRule q
        { x with twin := { x.twin with
            priorRecord := x.twin.record, record := some (parseRecord s q.payload),
            command := some (refFor r twinPairRule q), commandOp := 1, copying := false, windowsLeft := 0,
            isolated := false } })))) ∧
  (∀ s r p q x, q = fixPairOp 2 p → Starts s r twinPairRule q → pairFormOk 2 q.payload = true → s.twin.command = none →
    s.twin.copying = false → s.twin.state = .paired → bindsInbound s = false →
    x = (let y := takenBy s r twinPairRule q
      { y with twin := { y.twin with command := some (refFor r twinPairRule q), commandOp := 2 } }) →
    exec (.handback r p) s = .next (if livePlans s = [] then settleHandback x else x)) ∧
  (∀ s r p, Starts s r twinReleaseRule p → (p.p0 = 2 ∨ p.p0 = 3) → s.twin.state = .paired → livePlans s = [] →
    s.twin.command = none → s.twin.copying = false →
    exec (.twinRelease r p) s =
      .next (tryHandover (let x := takenBy s r twinReleaseRule p
        { x with twin := { x.twin with
            state := .releasing, command := some (refFor r twinReleaseRule p), commandOp := if p.p0 = 2 then 3 else 4 } })))

/-- R405, R406, R414, R415: FABRIC_CONFIG that passes its checks applies the configuration, and an UNPAIRED module that a fence had
fenced serves again; OWNER_TABLE_SET raises MIN_EPOCH and loads both banks at once, or the shadow bank while its plan is live. -/
def Obligations.FabricTablesAreSet : Prop :=
  (∀ s r p q b, q = fixP0 1 0 p → Starts s r fabricConfigRule q → b = p.payload → fabricPayloadOk b = true →
    fabricRangeOk b = true → (∀ n < 6, field b (64 + n) 1 = 1 → bit s.boot.config.fabricEn n = true) →
    s.fabric.epoch.toNat ≤ field b 32 32 → (∀ f, s.fabric.fencedBy = some f → f.toNat < field b 32 32) →
    (field b 0 12 ≠ s.fabric.moduleId ∨ field b 16 16 ≠ s.fabric.fabricId.toNat →
      ∀ z ∈ s.plans, z.bin.fabricRanks ≤ 1) →
    exec (.fabricConfig r p) s = .next (answeredAfter s r fabricConfigRule q (replyOf .done)
      (fun y => retryWaiting (applyFabricConfig b (leaveFenced y))))) ∧
  (∀ s r p es l, Starts s r ownerTableRule p → es = ownerEntries p.payload → p.payload.length % 16 = 0 →
    (∀ k < es.length, ownerReservedOk (slice p.payload (16 * k) 16) = true) → (∀ e ∈ es, ownerIndexOk e = true) →
    es.length ≤ 1048576 →
    l = { plan := p.handle, atStep := p.p0.toNat + p.p1.toNat <<< 32
          owners := (es.filter (fun e => e.kind = 0)).map (fun e => (e.index, ownerValue e.value))
          ranks := (es.filter (fun e => e.kind = 1)).map (fun e => (e.index, rankValue e.value)) } →
    exec (.ownerTableSet r p) s =
      .next (answeredAfter s r ownerTableRule p { replyOf .done with count0 := es.length } (fun y =>
        if (planOf s p.handle).any isLive then
          { raiseMinEpoch es y with owner := { y.owner with shadow := loadBank l y.owner.shadow, loads := y.owner.loads ++ [l] } }
        else applyOwnerLoad l (raiseMinEpoch es y))))

/-! ## Firmware, configuration, ownership, attestation and debug tokens -/

/-- R526, R527, R528, R531, R532, R516, R533: what a firmware, configuration or token command does is decided by the first check
that its payload fails, which its completion names with nothing else changed, and without one by its own effect. Whether a
signature verifies is the module's own doing, which no statement here leans on. -/
def Obligations.FirmwareCommandsAct : Prop :=
  (∀ s r p, Starts s r fwStageRule p → 8192 ≤ p.p0.toNat → p.p0.toNat ≤ 16777216 → p.payload.length = p.p0.toNat →
    s.boot.phase ≠ .recovery →
    exec (.fwStage r p) s = .next (match imageCheck s.boot.config.minSvn p.payload with
      | some st => answeredAfter s r fwStageRule p (replyOf st) (fun y => { y with boot := { y.boot with staged := none } })
      | none => answeredAfter s r fwStageRule p
          { replyOf .done with count0 := field p.payload 48 8, count1 := field p.payload 64 16 }
          (fun y => { y with boot := { y.boot with staged := some p.payload } }))) ∧
  (∀ s r p, Starts s r fwStageRule p → 8192 ≤ p.p0.toNat → p.p0.toNat ≤ 16777216 → p.payload.length = p.p0.toNat →
    s.boot.phase = .recovery → s.boot.recoverySource < 2 → otherStaging s r.port = false →
    ∃ t, exec (.fwStage r p) s = .next t ∧ t.boot.nor = { s.boot.nor with image := p.payload } ∧
      t.boot.stage = .recoveryLoad ∧ t.boot.recoverySource = 1 ∧ t = { s with ports := t.ports, boot := t.boot }) ∧
  (∀ s r p b, Starts s r fwCommitRule p → s.boot.phase ≠ .recovery → s.boot.staged = some b →
    exec (.fwCommit r p) s = .next (answeredAfter s r fwCommitRule p
      (replyOf (if (imageCheck s.boot.config.minSvn b).isSome then .checkMismatch else .done))
      (fun y => programImage b { y with boot := { y.boot with staged := none } }))) ∧
  (∀ s r p, Starts s r configPutRule (fixP0 3 0 p) → p.p0 &&& 3 ≠ 3 →
    exec (.configPut r p) s = .next (match configCheck s p.payload with
      | some st => answeredBy s r configPutRule (fixP0 3 0 p) (replyOf st)
      | none => answeredAfter s r configPutRule (fixP0 3 0 p)
          { replyOf .done with count0 := (configOf (norInUse s.boot) p.payload).sequence.toNat }
          (putConfig (configOf (norInUse s.boot) p.payload)))) ∧
  (∀ s r p, Starts s r configPutRule (fixP0 3 1 p) →
    exec (.enroll r p) s = .next (match enrollCheck s p.payload with
      | some st => answeredBy s r configPutRule (fixP0 3 1 p) (replyOf st)
      | none => answeredAfter s r configPutRule (fixP0 3 1 p) (replyOf .done)
          (putOwner (slice p.payload 24 68)))) ∧
  (∀ s r p, Starts s r configPutRule (fixP0 3 2 p) →
    exec (.configPutRelease r p) s = .next (match releaseCheck s p.payload with
      | some st => answeredBy s r configPutRule (fixP0 3 2 p) (replyOf st)
      | none => answeredAfter s r configPutRule (fixP0 3 2 p) (replyOf .done) (fun y =>
          { onNor (fun n => { n with ownerKey := none }) y with dbg := { y.dbg with level := .locked } }))) ∧
  (∀ s r p, Starts s r debugTokenRule (fixP0 1 0 p) →
    exec (.debugToken r p) s = .next (match tokenCheck s p.payload with
      | some st => answeredBy s r debugTokenRule (fixP0 1 0 p) (replyOf st)
      | none => answeredAfter s r debugTokenRule (fixP0 1 0 p) { replyOf .done with count0 := field p.payload 40 2 }
          (setLevel p.payload))) ∧
  (∀ s r p b, Starts s r attestRule p → p.payload.length = 32 → 0 < s.boot.bucket → reserveIndex s.boot = some b →
    exec (.attest r p) s = .next (answeredAfter s r attestRule p
      { status := .done, count0 := b.nextIndex, count1 := 0
        payload := attestBody s b.nextIndex p.payload ++ slice Config.devicePk 0 68 ++ slice Config.deviceCert 0 2820 ++
          slice (Config.xmssSign b.nextIndex (attestBody s b.nextIndex p.payload)) 0 2820 }
      (fun y => { y with boot := { b with nextIndex := b.nextIndex + 1, bucket := b.bucket - 1 } })))

/-! ## Units -/

/-- R447, R460 to R463: TEST_RUN answers with its result record, whose result, errors, duration and address are free values (log entry
8), and the bad sectors that a QUICK scrub of a position finds are refetched or poisoned;
UNIT_RETIRE records the unit and answers before the retirement takes effect; RESTORE marks a unit that has passed its test; an
opcode outside the command table completes UNSUPPORTED (R92). -/
def Obligations.UnitCommandsAct : Prop :=
  (∀ s r p full q u free result retires errors found x, q = fixP1 3 (if full then 1 else 0) p → (full = false → p.p1 &&& 2 ≠ 2) →
    Starts s r testRunRule q → u = p.p0 → testCheck (takenBy s r testRunRule q) u (if full then 1 else 0) = none →
    free = (fun k => (Config.freeValue (s.freeCount + k)).toNat) → result = free 0 % 3 →
    retires = (decide (result = 1) && bit p.p1 2) →
    errors = (if result = 1 then free 1 else 0) → found = scrubSectors (takenBy s r testRunRule q) u full errors →
    x = (let y := found.foldl (fun z n => scrubSector n z) (takeFresh (4 + errors) (testLeaves u (takenBy s r testRunRule q)))
      if result = 0 ∧ (full = true ∨ hasFull (unitClass u) = false) then
        { y with err := { y.err with
            retired := y.err.retired.map (fun e => if e.unit = u then { e with testPassed := true } else e) } }
      else y) →
    exec (if full then .testRunFull r p else .testRunQuick r p) s = .next (
      let rec_ := testRecord u result (if result = 0 then 0 else free 1) (free 2)
        (if result = 0 then 0 else (found.head?.map (· * 64)).getD (free 3)) retires
      if retires then
        let z := complete (refFor r testRunRule q) (replyData rec_) (recordUnit u reasonTest x)
        if isRetired x u then z else settleTransition (settleRetired (retireTarget x u) z)
      else complete (refFor r testRunRule q) (replyData rec_) x)) ∧
  (∀ s r p q x, q = fixP1 3 0 p → p.p1 &&& 3 ≠ 3 → Starts s r unitRetireRule q → x = takenBy s r unitRetireRule q →
    unitValid p.p0 = true → isRetired x p.p0 = false → retireBlocked x p.p0 = false →
    exec (.unitRetire r p) s = .next (settleTransition (settleRetired (retireTarget x p.p0)
      (answeredAfter s r unitRetireRule q (replyOf .done) (recordUnit p.p0 reasonCommand))))) ∧
  (∀ s r p q, q = fixP1 3 1 p → Starts s r unitRetireRule q → unitValid p.p0 = true →
    (∃ e ∈ s.err.retired, e.unit = p.p0 ∧ e.testPassed = true) →
    exec (.restore r p) s = .next (answeredAfter s r unitRetireRule q (replyOf .done) (fun y =>
      let z := { y with err := { y.err with
        retired := y.err.retired.map (fun e => if e.unit = p.p0 then { e with restoring := true } else e) } }
      if livePlans s = [] then restoreNow z else z))) ∧
  (∀ s r op p, knownOpcodes.contains op.toNat = false → packetAtHead s r op p = true →
    headerStop (ringOf s r.port r.idx) (headerBytes op p) = none → (ringOf s r.port r.idx).cq ≠ none →
    (ringOf s r.port r.idx).chain = none →
    exec (.unknownOpcode r op p) s =
      .next (answeredBy s r { plainRule op with known := false } p (replyOf .unsupported)))

/-! ## Supplies, resets and links -/

/-- R546, R547, R548, R478: VAUX_UP and PWR_EN_RISE boot the module cold once both supplies and PWR_EN are there; PWR_EN_FALL
writes the clean-shutdown marker and drops the rails, and loses the near tier in DORMANT; a power fault drops the rails with its
cause and no marker; the loss of VAUX_3V3 or of the always-on rail loses the always-on contents, and with PWR_EN high the former is
a power fault as well. -/
def Obligations.SuppliesSwitchTheModule : Prop :=
  (∀ s addr x, x = { s with pins := { s.pins with vauxUp := true, smbAddr := addr } } →
    exec (.vauxUp addr) s = .next (if x.pins.pwrEn ∧ x.pins.vinOk ∧ !x.pins.pwrgdOut ∧ x.power.state = .cold ∧ x.pins.fault = 0 ∧
        !x.pins.coldLatched then coldBoot (bootInputsNow x) x else x)) ∧
  (∀ s v b x, x = { s with pins := { s.pins with pwrEn := true, vinOk := v } } →
    exec (.pwrEnRise v b) s = .next (if x.pins.vauxUp ∧ v ∧ !x.pins.pwrgdOut ∧ x.power.state = .cold ∧ x.pins.fault = 0 ∧
        !x.pins.coldLatched then coldBoot b x else x)) ∧
  (∀ s, s.pins.pwrgdOut = true → ∃ t, exec .pwrEnFall s = .next t ∧ t.power.state = .cold ∧ t.pins.pwrEn = false ∧
    t.pins.pwrgdOut = false ∧ t.pins.fault = 0 ∧ t.boot.nor = { s.boot.nor with cleanShutdown := true } ∧ t.near = [] ∧
    t.staging = [] ∧ t.pools = [] ∧ t.sessions = [] ∧ t.plans = [] ∧ t.far = s.far ∧ t.aonStore = s.aonStore) ∧
  (∀ s, s.pins.pwrgdOut = false → s.power.state = .dormant → ∃ t, exec .pwrEnFall s = .next t ∧
    t = { s with near := [], err := t.err, pins := t.pins } ∧ t.err = { s.err with poison := [] } ∧
    t.pins = { s.pins with pwrEn := false, fault := 0, coldLatched := false, retentionLost := true }) ∧
  (∀ s, s.pins.pwrgdOut = false → s.power.state ≠ .dormant →
    exec .pwrEnFall s = .next { s with pins := { s.pins with pwrEn := false, fault := 0, coldLatched := false } }) ∧
  (∀ s i cause detail isl, s.pins.pwrgdOut = true → s.pins.fault = 0 →
    (i = .vinFault ∧ cause = 2 ∧ detail = 4 ∨ i = .regulatorFault ∧ cause = 3 ∧ detail = 5 ∨
      i = .thermalTrip isl ∧ cause = 1 ∧ detail = 0) →
    ∃ t, exec i s = .next t ∧ t.power.state = .cold ∧ t.pins.pwrgdOut = false ∧ t.pins.fault = cause ∧
      t.pins.brownDetail = some detail ∧ t.boot.nor = s.boot.nor ∧ t.near = [] ∧ t.sessions = [] ∧ t.far = s.far ∧
      t.aonStore = s.aonStore) ∧
  (∀ s, s.pins.pwrgdOut = false → s.power.state = .dormant → s.pins.fault = 0 →
    exec .vinFault s = .next { s with
      near := [], err := { s.err with poison := [] }, pins := { s.pins with vinOk := false, retentionLost := true, fault := 2 } }) ∧
  (∀ s, ∃ t, exec .vauxLoss s = .next t ∧ t.aonStore = [] ∧ t.boot.aonFlags = 0x01 ∧ t.age = AgeUnit.reset ∧
    t.pins.vauxUp = false ∧ t.pins.aonLost = true ∧ t.pins.brownDetail = some 0 ∧ t.boot.nor = s.boot.nor ∧
    (s.pins.pwrgdOut = true → t.power.state = .cold ∧ t.near = []) ∧
    (s.pins.pwrgdOut = false → t.power.state = s.power.state ∧ t.near = s.near) ∧
    (s.pins.pwrEn = true → s.pins.vauxUp = true → s.pins.fault = 0 → t.pins.fault = 2) ∧
    (s.pins.pwrEn = false → s.pins.pwrgdOut = false → t.pins.fault = s.pins.fault)) ∧
  (∀ s, s.power.state = .dormant → ∃ t, exec .aonOverload s = .next t ∧ t.aonStore = [] ∧ t.boot.aonFlags = 0x01 ∧
    t.power.savedFrom = none ∧ t.power.state = .dormant ∧
    t = { s with
      aonStore := [], age := AgeUnit.reset, boot := t.boot, power := t.power, pins := { s.pins with aonLost := true } })

/-- R519, R547, R554, R465: a cold boot with no failure and an image that boots ends RUNNING in ACTIVE, with module time at 0, an
empty near tier, no session, plan or table, the debug level LOCKED, and the far tier as it was. -/
def Obligations.ColdBootRuns : Prop :=
  ∀ s b c, s.pins.vauxUp = true → s.pins.pwrgdOut = false → s.power.state = .cold → s.pins.fault = 0 →
    s.pins.coldLatched = false → b.bootMode = 0 → b.pufOk = true → b.die1Joins = true → b.badPositions = [] → b.islands = [] →
    (∀ e ∈ s.err.retired, unitClass e.unit ≠ 12 ∧ unitClass e.unit ≠ 13) → s.boot.nor.image = [] → b.norBad = 0 →
    b.imageBad = none → chooseConfig s.boot.nor = some c → c.minSvn = 0 →
    ∃ t, exec (.pwrEnRise true b) s = .next t ∧ t.boot.phase = .running ∧ t.boot.stage = .running ∧ t.power.state = .active ∧
      t.boot.config = c ∧ t.boot.die0Up = true ∧ t.boot.die1Up = true ∧ t.time = 0 ∧ t.near = [] ∧ t.far = s.far ∧
      t.staging = [] ∧ t.pools = [] ∧ t.sessions = [] ∧ t.plans = [] ∧ t.tables = [] ∧ t.xlate = [] ∧
      t.dbg.level = .locked ∧ t.boot.nor.cleanShutdown = false ∧ t.pins.pwrgdOut = true

/-- R55, R61, R62, R549: a warm reset by RESET_CTL or RESET_N drops sessions, mappings, plans, tables and contexts, the contents
of Pools and staging, and the debug level, and keeps the far tier and the NOR; a recovery reset ends in RECOVERY_WAIT; one that
arrives during a power transition is held; a write of RESET_CTL in the instant of a reset is ignored, unless it is the first to ask
for RECOVERY; any other value sets BAR_FAULT. -/
def Obligations.ResetsDropWork : Prop :=
  (∀ s i (port : Fin 2) b, s.power.transition = none →
    (i = .resetCtlWarm port 0xC1A50001 b ∧ barUp s port = true ∧ resetNow s = none ∨
      i = .resetN b ∧ s.pins.pwrEn = true ∧ railsUp s = true ∧ s.dbg.pinsTaken = 0) →
    ∃ t, exec i s = .next t ∧ t = resetModule false b s ∧ t.sessions = [] ∧ t.xlate = [] ∧ t.plans = [] ∧ t.tables = [] ∧
      t.contexts = [] ∧ t.staging = [] ∧ t.pools = [] ∧ t.dbg.level = .locked ∧ t.far = s.far ∧ t.aonStore = s.aonStore ∧
      t.boot.nor = s.boot.nor ∧ bit t.boot.aonFlags aonWarmReset = true) ∧
  (∀ s (port : Fin 2) b, s.power.transition = none → barUp s port = true → resetNow s ≠ some true →
    ∃ t, exec (.resetCtlRecovery port 0xC1A50002 b) s = .next t ∧ t.boot.phase = .recovery ∧ t.boot.stage = .recoveryWait ∧
      t.sessions = [] ∧ t.plans = [] ∧ t.tables = [] ∧ t.far = s.far ∧ t.near = s.near ∧
      bit t.boot.aonFlags aonRecoveryReq = true) ∧
  (∀ s i (port : Fin 2) b x rec_, s.power.transition = some x →
    (i = .resetCtlWarm port 0xC1A50001 b ∧ barUp s port = true ∧ resetNow s = none ∧ rec_ = false ∨
      i = .resetCtlRecovery port 0xC1A50002 b ∧ barUp s port = true ∧ resetNow s ≠ some true ∧ rec_ = true ∨
      i = .resetN b ∧ s.pins.pwrEn = true ∧ railsUp s = true ∧ s.dbg.pinsTaken = 0 ∧ rec_ = false) →
    exec i s = .next { s with power := { s.power with
      heldReset := some (rec_ || ((s.power.heldReset.map (·.1)).getD false), b) } }) ∧
  (∀ s (port : Fin 2) b, barUp s port = true →
    (resetNow s ≠ none → exec (.resetCtlWarm port 0xC1A50001 b) s = .next s) ∧
    (resetNow s = some true → exec (.resetCtlRecovery port 0xC1A50002 b) s = .next s)) ∧
  (∀ s (port : Fin 2) v b, barUp s port = true → v ≠ 0xC1A50001 → v ≠ 0xC1A50002 →
    exec (.resetCtlWarm port v b) s = .next (barFault port s) ∧ exec (.resetCtlRecovery port v b) s = .next (barFault port s))

/-- R43, R69, R70, R71, R475, R476, R480, R549: PERST closes the port's sessions and takes its link down; its release, a stable
REFCLK and DL_Active bring the port up, with its rings open at a service point; a link that retrains sets LINK_DEGRADED, away from the
service points closes its rings and keeps HEAD and TAIL, and back at one opens them; WAKE_REQ_N leaves SIMMER and DORMANT and is latched during a transition; a cage without
a cable takes its port DOWN. -/
def Obligations.LinksAndWakes : Prop :=
  (∀ s (port : Fin 2), s.power.transition = none →
    ∃ t, exec (.perstAssert port) s = .next t ∧
      (s.ports.length = 2 → (portOf t port).perst = true ∧ (portOf t port).linkUp = false ∧
        (portOf t port).ringsOpen = false ∧ (portOf t port).hostEvent = 0) ∧
      (railsUp s = false → t = { s with ports := t.ports })) ∧
  (∀ s (port : Fin 2) b,
    s.power.state ≠ .dormant ∨ (portOf s port).perst = false ∨ s.pins.pwrEn = false ∨ s.pins.vauxUp = false →
    exec (.perstDeassert port b) s =
      .next (startTraining port (onPort port (fun q => { q with perst := false, wakeOut := false }) s))) ∧
  (∀ s (port : Fin 2) b, s.power.state = .dormant → (portOf s port).perst = true →
    s.pins.pwrEn = true → s.pins.vauxUp = true →
    exec (.perstDeassert port b) s =
      .next (wakeUp (2 + port.val) b (onPort port (fun q => { q with perst := false, wakeOut := false }) s))) ∧
  (∀ s (port : Fin 2), ∃ t, exec (.refclkStable port) s = .next t ∧ t = { s with ports := t.ports } ∧
    (s.ports.length = 2 → (portOf t port).refclk = true ∧
      ((portOf t port).training = true ↔ (portOf s port).training = true ∨
        s.dbg.pinsTaken = 0 ∧ (portOf s port).perst = false ∧ s.pins.pwrgdOut = true ∧ cxlEnabled s port = true ∧
          (portOf s port).linkUp = false ∧ s.power.state ≠ .dormant))) ∧
  (∀ s (port : Fin 2) width rate, (portOf s port).training = true → s.power.transition = none → s.ports.length = 2 →
    (∀ e ∈ s.sessions, e.2.closing = none) →
    ∃ t, exec (.cxlLinkUp port width rate) s = .next t ∧ t = { s with ports := t.ports } ∧ (portOf t port).linkUp = true ∧
      (portOf t port).training = false ∧ (portOf t port).width = width ∧ (portOf t port).rate = rate ∧
      (servicePoint width rate = true → s.boot.phase = .running → dieUp s port = true → cxlRetired s port = false →
        (portOf t port).ringsOpen = true)) ∧
  (∀ s (port : Fin 2) width rate, (portOf s port).linkUp = true →
    ¬ ((portOf s port).width = width ∧ (portOf s port).rate = rate) → s.ports.length = 2 →
    ∃ t, exec (.linkRetrain port width rate) s = .next t ∧ t = { s with ports := t.ports } ∧ (portOf t port).width = width ∧
      (portOf t port).rate = rate ∧ bit (portOf t port).hostEvent evLinkDegraded = true ∧
      (servicePoint width rate = false → (portOf t port).ringsOpen = false ∧ (portOf t port).rings = (portOf s port).rings) ∧
      (servicePoint width rate = true → servicePoint (portOf s port).width (portOf s port).rate = false →
        s.boot.phase = .running → dieUp s port = true → cxlRetired s port = false → (portOf t port).ringsOpen = true)) ∧
  (∀ s b, s.pins.pwrEn = true → s.pins.vauxUp = true → s.dbg.pinsTaken = 0 →
    exec (.wakeReqN b) s = .next (
      if s.power.transition ≠ none then { s with power := { s.power with wakeLatched := true } }
      else if s.power.state = .simmer then exitSimmer 1 s
      else if s.power.state = .dormant then wakeUp 1 b s
      else s)) ∧
  (∀ s (port : Fin 6) present q, s.fabric.ports[port.val]? = some q →
    ∃ t, exec (.cblPres port present) s = .next t ∧ t = { s with fabric := { s.fabric with ports := t.fabric.ports } } ∧
      (∀ k, k ≠ port.val → t.fabric.ports[k]? = s.fabric.ports[k]?) ∧
      t.fabric.ports[port.val]? = some (if present then
        { q with cable := true, reason := 0, state := if q.enabled ∧ !q.outOfService then .training else q.state }
      else { q with cable := false, state := if q.enabled then .down else .disabled, reason := if q.enabled then 1 else 0 }))

/-! ## Registers, doorbells, ring windows and triggers -/

/-- R48, R54, R57, R64, R65, R67, R88, R89: a doorbell moves TAIL, restarts a stopped ring at HEAD, or stops the ring with reason
0x4; HOST_EVENT_MASK and MSI-X writes send what nothing holds back any more; a bad access sets BAR_FAULT; a ring window takes the
bytes written to an enabled ring. Each of these changes nothing but its port. -/
def Obligations.RegisterWritesAct : Prop :=
  (∀ s (r : RingId) v q, q = ringOf s r.port r.idx → barUp s r.port = true → bits v 63 32 = 0 → q.enabled = true →
    (portOf s r.port).ringsOpen = true →
    exec (.ringDb r v) s = .next (
      if q.stopped then
        (if v.setWidth 32 = q.head then onRingOf r (fun x => { x with stopped := false, tail := x.head }) s else s)
      else if 65536 < (v.setWidth 32 - q.head).toNat ∨ (v.setWidth 32 - q.head).toNat < (q.tail - q.head).toNat then stopRing r 4 s
      else onRingOf r (fun x => { x with tail := v.setWidth 32 }) s)) ∧
  (∀ s (r : RingId) v, barUp s r.port = true → bits v 63 32 ≠ 0 → exec (.ringDb r v) s = .next (barFault r.port s)) ∧
  (∀ s (port : Fin 2) v, s.ports.length = 2 → barUp s port = true →
    ∃ t, exec (.hostEventMask port v) s = .next t ∧ t = { s with ports := t.ports } ∧
      (portOf t port).hostEventMask = v &&& 0x3FF ∧ (portOf t port).hostEvent = (portOf s port).hostEvent ∧
      (v &&& 0x3FF &&& ~~~ (portOf s port).hostEventMask &&& (portOf s port).hostEvent ≠ 0 →
        vectorBlocked (portOf s port) 64 = false → (portOf t port).sent = (portOf s port).sent ++ [.msix 64])) ∧
  (∀ s (port : Fin 2) (v : Fin 65), s.ports.length = 2 → (portOf s port).msix.length = 65 → barUp s port = true →
    ∃ t, exec (.msixUnmask port (some v)) s = .next t ∧ t = { s with ports := t.ports } ∧
      ((portOf t port).msix.getD v MsixEntry.reset).masked = false ∧
      ((portOf s port).msixEnable = true → (portOf s port).msixFuncMask = false → bit (portOf t port).pba v = false)) ∧
  (∀ s (port : Fin 2), s.ports.length = 2 → (portOf s port).linkUp = true →
    ∃ t, exec (.msixUnmask port none) s = .next t ∧ t = { s with ports := t.ports } ∧ (portOf t port).msixEnable = true ∧
      (portOf t port).msixFuncMask = false ∧
      (∀ v < 65, ((portOf s port).msix.getD v MsixEntry.reset).masked = false → bit (portOf t port).pba v = false)) ∧
  (∀ s (port : Fin 2) off w, s.ports.length = 2 → barUp s port = true →
    ∃ t, exec (.bar0BadAccess port off w) s = .next t ∧ t = { s with ports := t.ports } ∧
      bit (portOf t port).hostEvent evBarFault = true ∧ (portOf t port).rings = (portOf s port).rings) ∧
  (∀ s (port : Fin 2) off data i o, windowUp s port = true → i = off / 0x400000 → o = off % 0x400000 → i < 64 →
    s.ports.length = 2 → (portOf s port).rings.length = 64 →
    ∃ t, exec (.bar2Write port off data) s = .next t ∧ t = { s with ports := t.ports } ∧
      ((ringOf s port i).enabled = true → ∀ a, memByte (ringOf t port i).window a =
        if o ≤ a ∧ a < o + (data.take (0x400000 - o)).length then (data.take (0x400000 - o)).getD (a - o) 0
        else memByte (ringOf s port i).window a) ∧
      ((ringOf s port i).enabled = false → t = barFault port s))

/-- R6, R46, R47, R49, R60, R69, R72: a write to HOST_EVENT or AON_FLAGS clears the bits written as ones; a write to a read-only register
changes nothing; Command and the CXL DVSEC give the port its Memory Space Enable, Bus Master Enable and UIO enable; the BARs take the
address bits above their sizes; Device Control takes a Max_Payload_Size of at most 256 and a Max_Read_Request_Size of at most 4,096
bytes. The places of Device Control, the MSI-X capability and the DVSEC, and what a larger size does, are the model's choice (log entry
35). -/
def Obligations.OtherRegisterWritesAct : Prop :=
  (∀ s (port : Fin 2) v, barUp s port = true →
    exec (.registerWrite port .bar0 0x0018 v) s =
      .next (onPort port (fun q => { q with hostEvent := q.hostEvent &&& ~~~ v }) s)) ∧
  (∀ s (port : Fin 2) v, barUp s port = true →
    exec (.registerWrite port .bar0 0x0810 v) s =
      .next { s with boot := { s.boot with aonFlags := s.boot.aonFlags &&& ~~~ (v.setWidth 6) } }) ∧
  (∀ s (port : Fin 2) (off : BitVec 16) v, barUp s port = true → off.toNat % 8 = 0 →
    off.toNat ∉ [0x0018, 0x0020, 0x0040, 0x0048, 0x0810] → ¬ (0x0100 ≤ off.toNat ∧ off.toNat < 0x0300) →
    ¬ (0x8000 ≤ off.toNat ∧ off.toNat < 0x8410) → exec (.registerWrite port .bar0 off v) s = .next s) ∧
  (∀ s (port : Fin 2) (off : BitVec 16) v, s.ports.length = 2 → (portOf s port).linkUp = true → s.power.transition = none →
    (∀ e ∈ s.sessions, e.2.closing = none) →
    ∃ t, exec (.registerWrite port .config off v) s = .next t ∧ t = { s with ports := t.ports } ∧
      (off = 0x04 → (portOf t port).memEnable = bit v 1 ∧ (portOf t port).busMaster = bit v 2) ∧
      (off = 0x10 → (portOf t port).bar0.toNat = bits v 63 16 <<< 16) ∧
      (off = 0x18 → (portOf t port).bar2.toNat = bits v 63 28 <<< 28) ∧
      (off = 0x60 → (portOf t port).mps = (if bits v 7 5 ≤ 1 then bits v 7 5 else (portOf s port).mps) ∧
        (portOf t port).mrrs = (if bits v 14 12 ≤ 5 then bits v 14 12 else (portOf s port).mrrs)) ∧
      (off = 0x80 → (portOf t port).uioEnable = bit v 0) ∧
      (off ∉ [0x04, 0x10, 0x18, 0x40, 0x60, 0x80] → (portOf t port).memEnable = (portOf s port).memEnable ∧
        (portOf t port).busMaster = (portOf s port).busMaster ∧ (portOf t port).bar0 = (portOf s port).bar0 ∧
        (portOf t port).bar2 = (portOf s port).bar2 ∧ (portOf t port).mps = (portOf s port).mps ∧
        (portOf t port).mrrs = (portOf s port).mrrs ∧ (portOf t port).uioEnable = (portOf s port).uioEnable))

/-- R56, R498, R499, R500, R501, R502: while the trigger unit is armed, each of its enabled sources latches a snapshot: SEQ goes
up by one, SOURCES names the source, and the trigger time is module time; while a snapshot is held, it is counted in MISSED and the
snapshot stays. -/
def Obligations.TriggersLatch : Prop :=
  ∀ s i src, (i = .tremorFire 0 1 ∧ barUp s 0 = true ∧ src = srcRegister ∨ i = .tremorFire 1 1 ∧ barUp s 1 = true ∧ src = srcRegister ∨
      i = .trigIn s.tremor.arm.trigInFalling ∧ s.dbg.pinsTaken = 0 ∧ src = srcTrigIn ∨
      i = .zdbgTrigger ∧ src = srcDebug) →
    railsUp s = true → src &&& s.tremor.arm.sources ≠ 0 →
    (s.tremor.state = .armed → ∃ t, exec i s = .next t ∧ t.tremor.state = .latched ∧ t.tremor.seq = s.tremor.seq + 1 ∧
      t.tremor.source = src &&& s.tremor.arm.sources ∧ t.tremor.triggerTime = s.time ∧ t.tremor.snaps.length = 45 ∧
      (∀ k < 45, bit s.tremor.arm.islandMask k = false → (t.tremor.snaps.getD k ⟨3, 0, 0, 0, []⟩).rstate = 2) ∧
      t = { s with tremor := t.tremor, ports := t.ports, freeCount := t.freeCount, dbg := t.dbg }) ∧
    (s.tremor.state = .latched → ∃ t, exec i s = .next t ∧ t.tremor = { s.tremor with missed := s.tremor.missed + 1 } ∧
      t = { s with tremor := t.tremor, dbg := t.dbg })

/-- R501, R502: EVENT_CONDITION and SCHEDULED_FIRE latch a snapshot when their condition holds in an armed unit; the scheduled
time has come by then, which is how the model takes the row (log entry 2). -/
def Obligations.ConditionsLatch : Prop :=
  (∀ s st, fwRunning s = true → s.tremor.state = .armed → eventHolds s st = true → bit s.tremor.arm.sources 4 = true →
    railsUp s = true →
    ∃ t, exec (.eventCondition st) s = .next t ∧ t.tremor.state = .latched ∧ t.tremor.source = srcEvent ∧
      t.tremor.triggerTime = s.time) ∧
  (∀ s, s.tremor.state = .armed → bit s.tremor.arm.sources 5 = true → railsUp s = true →
    s.tremor.triggerTime.toNat < s.tremor.arm.fireTime.toNat →
    ∃ t, exec .scheduledFire s = .next t ∧ t.tremor.state = .latched ∧ t.tremor.source = srcScheduled ∧
      t.tremor.triggerTime = t.time ∧ s.tremor.arm.fireTime.toNat ≤ t.time.toNat ∧ s.time.toNat ≤ t.time.toNat)

/-! ## Module time, the management bus and the timers of the host attachment -/

/-- R553, R554: an edge of TIME_SYNC sets module time to SECONDS of a TIME_SET that waits, or, as the first one, to the nearest
second; later ones slew it within 500 ppm when they come 0.9 s to 1.1 s after the one before, and are ignored otherwise. TIME_SET
waits for the edge, and without one its value is discarded and the answer says NO_EDGE; TIME_GET answers with module time. A step of
module time leaves what is counted from a reset or a heartbeat as it is. -/
def Obligations.ModuleTimeIsKept : Prop :=
  (∀ s, s.pins.pwrgdOut = true → s.dbg.pinsTaken = 0 →
    ∃ t, exec .timeSync s = .next t ∧ t = { s with time := t.time, clock := t.clock, pins := t.pins, boot := t.boot } ∧
      t.boot = { s.boot with
        resetTime := s.boot.resetTime + (t.time - s.time), heartbeatTime := s.boot.heartbeatTime + (t.time - s.time) } ∧
      (∀ sec at_, s.clock.setPending = some (sec, at_) → t.time = sec * 1000000000 ∧ t.clock.setPending = none ∧
        t.clock.lastEdge = some t.time ∧ t.clock.accepted = s.clock.accepted + 1 ∧
        t.pins.smbSent = s.pins.smbSent ++ [timeResponse 1 0 t.time]) ∧
      (s.clock.setPending = none → s.clock.firstPending = true →
        t.time = BitVec.ofNat 64 ((s.time.toNat + 500000000) / 1000000000 * 1000000000) ∧ t.clock.firstPending = false ∧
        t.clock.accepted = s.clock.accepted + 1 ∧ t.pins = s.pins) ∧
      (∀ e, s.clock.setPending = none → s.clock.firstPending = false → s.clock.lastEdge = some e → t.time = s.time ∧
        t.clock.lastEdge = some s.time ∧ t.pins = s.pins ∧
        (((s.time - e).toNat < 900000000 ∨ 1100000000 < (s.time - e).toNat) →
          t.clock.ignored = s.clock.ignored + 1 ∧ t.clock.accepted = 0 ∧ t.clock.slewPpm = s.clock.slewPpm) ∧
        (900000000 ≤ (s.time - e).toNat → (s.time - e).toNat ≤ 1100000000 →
          t.clock.accepted = s.clock.accepted + 1 ∧ -500 ≤ t.clock.slewPpm ∧ t.clock.slewPpm ≤ 500))) ∧
  (∀ s sec, s.pins.vauxUp = true →
    exec (.timeSet sec) s = .next { s with clock := { s.clock with setPending := some (sec, s.time) } }) ∧
  (∀ s sec at_, s.clock.setPending = some (sec, at_) →
    ∃ t, exec .timeSetNoEdge s = .next t ∧ t.clock = { s.clock with setPending := none } ∧
      t.pins.smbSent = s.pins.smbSent ++ [timeResponse 1 1 t.time] ∧
      t = { s with time := t.time, clock := t.clock, pins := t.pins } ∧
      (at_.toNat + 2000000000 < 2 ^ 64 → s.time.toNat ≤ t.time.toNat ∧ at_.toNat + 2000000000 ≤ t.time.toNat)) ∧
  (∀ s, s.pins.vauxUp = true →
    exec .timeGet s = .next { s with pins := { s.pins with smbSent := s.pins.smbSent ++ [timeResponse 2 0 s.time] } })

/-- R555, R556: the SMBus endpoint answers a PLDM request with the sensor's reading and lets SMB_ALERT go, and Set Endpoint ID
gives it its EID; the layouts are the model's choice (log entry 36). -/
def Obligations.ManagementBusAnswers : Prop :=
  (∀ s body, s.pins.vauxUp = true →
    exec (.pldmRequest body) s = .next { s with
      freeCount := s.freeCount + 1
      pins := { s.pins with
        smbAlert := false
        smbSent := s.pins.smbSent ++ [body.take 2 ++ (match sensorReading s (field body 0 16) with
          | some v => 0 :: natLE (v % 2 ^ 64).toNat 8
          | none => [1])] } }) ∧
  (∀ s body, s.pins.vauxUp = true → field body 0 8 = 1 →
    exec (.mctpControl body) s = .next { s with pins := { s.pins with
      eid := BitVec.ofNat 8 (field body 16 8)
      smbSent := s.pins.smbSent ++ [[1, 0, BitVec.ofNat 8 (field body 16 8)]] } }) ∧
  (∀ s body, s.pins.vauxUp = true → field body 0 8 ≠ 1 →
    ∃ b, exec (.mctpControl body) s = .next { s with pins := { s.pins with smbSent := s.pins.smbSent ++ [b] } })

/-- R53, R97, R99, R534: the heartbeat counts, sets FW_ALIVE and ends a stall; the watchdog clears it and tells the ports that are up;
the coalescing timer fires the ring's vector; while a completion lacks room the head word is taken, never below the last one nor above
what is written, and the completion or event that then fits is written; the attestation bucket refills by one up to four. -/
def Obligations.TimersAct : Prop :=
  (∀ s, fwRunning s = true →
    exec .fwHeartbeat s = .next { s with boot := { s.boot with
      heartbeat := s.boot.heartbeat + 1, heartbeatTime := s.time, fwAlive := true, fwStalled := false } }) ∧
  (∀ s, s.boot.phase = .running → railsUp s = true → s.boot.fwStalled = false →
    ∃ t, exec .heartbeatWatchdog s = .next t ∧ t.boot = { s.boot with fwAlive := false, fwStalled := true } ∧
      t = { s with time := t.time, boot := t.boot, ports := t.ports } ∧
      (∀ k, (portOf s k).linkUp = true → k < s.ports.length → bit (portOf t k).hostEvent evFwStall = true)) ∧
  (∀ s (r : RingId) c at_, (ringOf s r.port r.idx).cq = some c → c.firstPending = some at_ → s.ports.length = 2 →
    (portOf s r.port).rings.length = 64 →
    ∃ t, exec (.coalTimer r) s = .next t ∧ t = { s with time := t.time, ports := t.ports } ∧
      (ringOf t r.port r.idx).cq = some { c with pendingIrq := 0, firstPending := none } ∧
      (vectorBlocked (portOf s r.port) r.idx = false →
        (portOf t r.port).sent = (portOf s r.port).sent ++ [.msix r.idx.val])) ∧
  (∀ s (r : RingId) head, lacksRoom (ringOf s r.port r.idx) = false → exec (.cqHeadPoll r head) s = .next s) ∧
  (∀ s (r : RingId) head c x n new_, x = ringOf s r.port r.idx → x.cq = some c →
    ((∃ d rest, c.held = d :: rest ∧ n = completionUnits d) ∨ c.held = [] ∧ x.events ≠ [] ∧ n = 2) →
    c.released + cqUnits c < c.written + n → new_ = max c.released (min head.toNat c.written) →
    s.power.transition = none → (∀ e ∈ s.sessions, e.2.closing = none) → s.ports.length = 2 → (portOf s r.port).rings.length = 64 →
    (mayWrite (portOf s r.port) = false ∨ new_ + cqUnits c < c.written + n →
      exec (.cqHeadPoll r head) s = .next (onRingOf r (fun y => { y with cq := some { c with released := new_ } }) s)) ∧
    (mayWrite (portOf s r.port) = true → c.written + n ≤ new_ + cqUnits c →
      ∃ t q, exec (.cqHeadPoll r head) s = .next t ∧ t = { s with ports := t.ports } ∧
        (ringOf t r.port r.idx).cq = some q ∧ q.released = new_ ∧ c.written + n ≤ q.written ∧
        ∀ d, (∃ rest, c.held = d :: rest) ∨ c.held = [] ∧ (∃ e es, x.events = e :: es ∧ d = eventCompletion e x.lost.toNat) →
          (portOf s r.port).sent ++ completionWrites (maxWrite (portOf s r.port)) c
            { d with phase := decide ((c.written / cqUnits c) % 2 = 0) } <+: (portOf t r.port).sent)) ∧
  (∀ s, fwRunning s = true →
    ∃ t, exec .attestBucketRefill s = .next t ∧ t.boot = { s.boot with bucket := min 4 (s.boot.bucket + 1), bucketTime := t.time } ∧
      t = { s with time := t.time, boot := t.boot } ∧
      (s.boot.bucketTime.toNat + 900000000000 < 2 ^ 64 → s.boot.bucketTime.toNat + 900000000000 ≤ t.time.toNat))

/-! ## The test access port -/

/-- R509, R511, R512, R514, R516, R498: while the main rails are up each instruction is selected and does its work: IDCODE, ZDBG_CTL
and SAMPLE/PRELOAD shift out their values; EXTEST, CLAMP and HIGHZ take the pins, and the links drop; JTAG_TRST_N selects IDCODE and
gives the pins back; other codes are BYPASS. The layout of ZDBG_CTL and when the port answers are the model's choice (log entry 69),
the layout of DTMCS is presumed (log entry 70). -/
def Obligations.TestAccessPortActs : Prop :=
  (∀ s, railsUp s = true →
    exec .idcode s = .next { s with
      dbg := { s.dbg with ir := 0x01 }
      pins := { s.pins with tdo := s.pins.tdo ++ [2 ^ 28 + 0x0A24 * 2 ^ 12 + Config.jedecId.toNat * 2 + 1] } }) ∧
  (∀ s pins v, railsUp s = true →
    exec (.samplePreload pins v) s = .next { s with
      dbg := { s.dbg with ir := 0x02, boundary := v }, pins := { s.pins with tdo := s.pins.tdo ++ [pins] } }) ∧
  (∀ s i how ir, railsUp s = true →
    ((∃ v, i = .extest v ∧ how = 1 ∧ ir = 0x03) ∨ i = .clamp ∧ how = 2 ∧ ir = 0x04 ∨ i = .highz ∧ how = 3 ∧ ir = 0x05) →
    ∃ t, exec i s = .next t ∧ t.dbg.pinsTaken = how ∧ t.dbg.ir = ir ∧ (∀ v, i = .extest v → t.dbg.boundary = v) ∧
      (∀ q ∈ t.ports, q.linkUp = false ∧ q.training = false ∧ q.ringsOpen = false) ∧
      (∀ q ∈ t.fabric.ports, q.enabled = true → q.state = .down) ∧
      t = { s with ports := t.ports, dbg := t.dbg, fabric := { s.fabric with ports := t.fabric.ports } }) ∧
  (∀ s, ∃ t, exec .jtagTrstN s = .next t ∧ t.dbg = { s.dbg with ir := 0x01, pinsTaken := 0 } ∧
    t = { s with ports := t.ports, dbg := t.dbg, fabric := { s.fabric with ports := t.fabric.ports } } ∧
    (s.dbg.pinsTaken = 0 → t.ports = s.ports ∧ t.fabric = s.fabric)) ∧
  (∀ s (code : BitVec 8), railsUp s = true → code ∉ [0x01, 0x02, 0x03, 0x04, 0x05, 0x10, 0x11, 0x12, 0x13, 0x14] →
    exec (.bypass code) s = .next { s with dbg := { s.dbg with ir := 0xFF } }) ∧
  (∀ s, railsUp s = true →
    exec .zdbgCtl s = .next { s with
      dbg := { s.dbg with ir := 0x13 }
      pins := { s.pins with tdo := s.pins.tdo ++
        [levelCode s.dbg.level + bitOf s.dbg.denied * 4 + bitOf s.dbg.zsbaError * 8 + s.dbg.bootNonce.toNat * 2 ^ 64] } }) ∧
  (∀ s token, railsUp s = true →
    exec (.zdbgToken token) s = .next (
      if tokenCheck s token = none then
        { s with dbg := { s.dbg with ir := 0x12, level := levelOf (field token 40 2) } }
      else { s with dbg := { s.dbg with ir := 0x12 } })) ∧
  (∀ s value, railsUp s = true →
    ∃ t v, exec (.dtmcs value) s = .next t ∧ t.pins = { s.pins with tdo := s.pins.tdo ++ [v] } ∧ t.dbg.ir = 0x10 ∧
      t = { s with pins := t.pins, dbg := t.dbg })

/-- R510, R511, R512, R514: what the debug level allows. Below it a debug-module access, a core-debug write or a system-bus access
sets DENIED and does nothing else; at it, a bus write stores its bytes, in a Pool with the parity of its rows (R444), and a bus read
shifts out what it reads, with and without a session; FULL halts and resumes core slots, and the halted ones at once when no operator holds them. -/
def Obligations.DebugLevelsGovern : Prop :=
  (∀ s addr op data, railsUp s = true → s.dbg.level = .locked →
    exec (.dmi addr op data) s = .next { s with
      dbg := { s.dbg with ir := 0x11, denied := true }, pins := { s.pins with tdo := s.pins.tdo ++ [0] } }) ∧
  (∀ s addr data, railsUp s = true → s.dbg.level ≠ .locked → addr ≠ 0x3C →
    exec (.dmi addr 1 data) s = .next { s with
      dbg := { s.dbg with ir := 0x11 }
      pins := { s.pins with tdo := s.pins.tdo ++
        [addr.toNat * 2 ^ 34 + dmRead { s with dbg := { s.dbg with ir := 0x11 } } addr.toNat * 4] } }) ∧
  (∀ s addr data, railsUp s = true → s.dbg.level = .full →
    exec (.dmi addr 2 data) s = .next (shiftOut (addr.toNat <<< 34 + data.toNat <<< 2)
      (dmWrite addr.toNat data.toNat { s with dbg := { s.dbg with ir := 0x11 } }))) ∧
  (∀ s i c m, railsUp s = true → s.dbg.level ≠ .full → (i = .cdbgHalt c m ∨ i = .cdbgResume c m ∨ i = .cdbgStep c m) →
    exec i s = .next { s with dbg := { s.dbg with denied := true } }) ∧
  (∀ s (c : Fin 32) (m : BitVec 33), railsUp s = true → s.dbg.level = .full →
    ∃ t, exec (.cdbgHalt c m) s = .next t ∧ t = { s with dbg := t.dbg } ∧
      (∀ k < 33, bit m k = true → bit ((sget t.dbg.haltReq c.val).getD 0) k = true ∧
        (slotBusy s (c.val, k) = false → bit ((sget t.dbg.halted c.val).getD 0) k = true))) ∧
  (∀ s (c : Fin 32) (m : BitVec 33) (step : Bool) l, railsUp s = true → s.dbg.level = .full →
    l = (slotsOf c m).filter (slotBit s.dbg.halted) →
    exec (if step then .cdbgStep c m else .cdbgResume c m) s =
      .next (settleRuns (resumeWork { s with dbg := { s.dbg with
        haltReq := (slotsOf c m).foldl (fun x e => putSlot false e x) s.dbg.haltReq
        halted := l.foldl (fun x e => putSlot false e x) s.dbg.halted
        stepping := if step then l.foldl (fun x e => putSlot true e x) s.dbg.stepping else s.dbg.stepping
        resumed := l.foldl (fun x e => putSlot true e x) s.dbg.resumed } }))) ∧
  (∀ s session addr len data, railsUp s = true → s.dbg.level ≠ .full →
    exec (.zsba true session addr len data) s = .next { s with dbg := { s.dbg with ir := 0x14, denied := true } }) ∧
  (∀ s addr len data, railsUp s = true → s.dbg.level = .full → addr.toNat + data.length ≤ nearEnd → data ≠ [] →
    nearOk s addr.toNat data.length = true →
    ∃ t, exec (.zsba true none addr len data) s = .next t ∧ t.dbg = { s.dbg with ir := 0x14, zsbaError := false } ∧
      t = { s with near := t.near, err := t.err, dbg := t.dbg } ∧
      ∀ a, memByte t.near a =
        if addr.toNat ≤ a ∧ a < addr.toNat + data.length then data.getD (a - addr.toNat) 0 else memByte s.near a) ∧
  (∀ s addr core off len data, railsUp s = true → s.dbg.level = .full → core < 1056 → off + data.length ≤ 0xC0000 → data ≠ [] →
    addr.toNat = 0x200000000000 + core * 0x100000 + off →
    ∃ t, exec (.zsba true none addr len data) s = .next t ∧
      t = { s with pools := t.pools, poolParity := t.poolParity, plans := t.plans, dbg := t.dbg } ∧
      (∀ a, memByte t.pools a = if core * 0x100000 + off ≤ a ∧ a < core * 0x100000 + off + data.length then
        data.getD (a - (core * 0x100000 + off)) 0 else memByte s.pools a) ∧
      (∀ r ∈ poolRows off data.length, storedParity t core r = poolRowParity t.pools core r) ∧
      (∀ r, r ∉ poolRows off data.length → r < 0x10000 → storedParity t core r = storedParity s core r)) ∧
  (∀ s addr len data, railsUp s = true → s.dbg.level ≠ .locked → addr.toNat < nearEnd → nearOk s addr.toNat len = true →
    ∃ t, exec (.zsba false none addr len data) s = .next t ∧
      t.pins.tdo = s.pins.tdo ++ [leNat (memRead s.near addr.toNat len)] ∧ t.near = s.near ∧ t.far = s.far) ∧
  (∀ s sid addr len data ps, railsUp s = true → s.dbg.level ≠ .locked →
    sessionPieces s sid needRead addr.toNat len = some ps → farPiecesOk s ps false = true →
    exec (.zsba false (some sid) addr len data) s = .next { s with
      dbg := { s.dbg with ir := 0x14, zsbaError := false }
      pins := { s.pins with tdo := s.pins.tdo ++ [leNat (readPieces s ps)] } })

/-! ## Clock islands, power and temperature -/

/-- R490, R491, R496: a re-plan puts a measured point to use at once while no plan runs and sets the time of the next one a day
later; a margin sample that holds the guard band is recorded, and changes no operating point. -/
def Obligations.IslandSamplesAct : Prop :=
  (∀ s i pt, fwRunning s = true → replans s i = true → pointOk i pt = true → s.age.islands.length = 45 →
    s.plans.any isRunning = false →
    ∃ t, exec (.islandReplan [{ island := i, point := some pt }]) s = .next t ∧ (islandAt t i).freqMhz = pt.1 ∧
      (islandAt t i).voltMv = pt.2 ∧ (∀ k, k ≠ i → islandAt t k = islandAt s k) ∧ t.age.lastReplan = t.time ∧
      t.age.nextReplan = t.time + 86400000000000 ∧ t = { s with time := t.time, age := t.age }) ∧
  (∀ s e, fwRunning s = true → e.island < 45 → (islandAt s e.island).retired = false → 40 ≤ e.marginPs →
    s.age.islands.length = 45 →
    ∃ t, exec (.marginSample [e] { positions := [], fabricLanes := [], cxlPorts := [] }) s = .next t ∧
      (islandAt t e.island).marginPs = e.marginPs ∧ (islandAt t e.island).shiftPpm = e.shiftPpm ∧
      t.age.lastSample = t.time ∧ (∀ k, (islandAt t k).freqMhz = (islandAt s k).freqMhz ∧
        (islandAt t k).voltMv = (islandAt s k).voltMv) ∧ t = { s with time := t.time, age := t.age, ports := t.ports })

/-- R537, R538, R549, R468: power above the limit lowers the crater cap by one step, not below 700 MHz; a junction above 100 °C
lowers it, pulls THERM_N low and tells of it; a low THERM_N lowers it; a block that does not answer its sleep request refuses the
transition, which is rolled back. -/
def Obligations.CapsAndSleepAct : Prop :=
  (∀ s avg1 avg10, fwRunning s = true → s.boot.config.powerLimitW < avg1 → 700 < capAsked s →
    since s s.age.lastCap 1000000 = true →
    ∃ t, exec (.powerSample avg1 avg10 false) s = .next t ∧ capAsked t = max 700 (capAsked s - 25) ∧ t.age.lastCap = s.time ∧
      t = { s with age := t.age } ∧ (s.plans.any isRunning = true → t.age.craterCapMhz = s.age.craterCapMhz)) ∧
  (∀ s avg1 avg10 over2, fwRunning s = true → avg1 ≤ s.boot.config.powerLimitW → s.boot.config.powerLimitW * 95 ≤ avg10 * 100 →
    exec (.powerSample avg1 avg10 over2) s = .next s) ∧
  (∀ s temps cool, fwRunning s = true → 1000 < (hottest temps).2 → since s s.age.lastCap 1000000 = true →
    ∃ t, exec (.junctionSample temps cool) s = .next t ∧ capAsked t = max 700 (capAsked s - 25) ∧ t.pins.thermOut = true ∧
      t.pins.smbAlert = true ∧ (∀ q ∈ t.ports, bit q.hostEvent evThermal = true) ∧
      t = { s with pins := t.pins, age := t.age, ports := t.ports }) ∧
  (∀ s, fwRunning s = true →
    ∃ t, exec .thermN s = .next t ∧ capAsked t = max 700 (capAsked s - 25) ∧ t.pins = { s.pins with thermIn := true } ∧
      (∀ q ∈ t.ports, bit q.hostEvent evThermal = true) ∧ t = { s with pins := t.pins, age := t.age, ports := t.ports }) ∧
  (∀ s, exec .thermNRelease s = .next { s with pins := { s.pins with thermIn := false } }) ∧
  (∀ s unit x, s.power.transition = some x → s.power.heldReset = none →
    ∃ t, exec (.sleepNoAnswer unit) s = .next t ∧ t.power.state = x.fromState ∧ t.power.transition = none ∧
      t.power.lastResult = 1 ∧ t.power.lastReason = refuseCode .noAnswer ∧ t.power.lastBlock = unit ∧
      t = { s with power := t.power, ports := t.ports })

/-! ## Steps of a run -/

/-- R27, R76, R77, R162, R166, R169, R172, R450: the boundary of a step whose operators are done merges, commits and flips; a step
in which something was detected runs again, and after the fourth attempt its run ends REPLAY_LIMIT; held EMIT records are delivered
in one completion with MORE; a failed or late far-tier read is a detection charged to no unit. -/
def Obligations.StepsGoOn : Prop :=
  (∀ s h p r o p1 r1 o1 s1, planOf s h = some p → p.run = some r → r.openStep = some o → isRunning p = true →
    s.power.state = .active → o.committed = false → stepDrained s p o = true → waitsRefetch s p = false →
    s1 = refreshPoison h (applyFaults h noFaults (onStep h (faultsTaken (barrierOp p)) s)).s → planOf s1 h = some p1 → p1.run = some r1 → r1.openStep = some o1 →
    exec (.stepBoundary h noFaults) s = .next (settleRuns (tryFlip h (mergeAndCommit (opCtx p1 r1 o1 s1 (barrierOp p1)))))) ∧
  (∀ s h p r o, planOf s h = some p → p.run = some r → r.openStep = some o → isRunning p = true → s.power.state = .active →
    o.committed = false → o.detections ≠ [] → p.bin.fabricRanks ≤ 1 → o.attempt < 4 →
    exec (.stepReplay h) s = .next (settleRuns (
      let x := holdStep (opCtx p r o s (barrierOp p))
      let cores := twiceCharged r.detections
      if 2 ≤ o.attempt then
        dropPosted h (cores.filter (fun k => !coreDead x k)) (restartStep h (declareDead h cores x))
      else restartStep h x))) ∧
  (∀ s h p r o, planOf s h = some p → p.run = some r → r.openStep = some o → isRunning p = true → s.power.state = .active →
    o.committed = false → o.detections ≠ [] → p.bin.fabricRanks ≤ 1 → 4 ≤ o.attempt → chained p = false →
    exec (.stepReplay h) s = .next (settleRuns (startSteps h (resumeCloses
      (((mostCharged r.detections).map (fun u x => retireUnit u reasonReplayLimit x)).getD (fun x => x)
        (endRun h .replayLimit (holdStep (opCtx p r o s (barrierOp p))))))))) ∧
  (∀ s h p r o q qs got left, planOf s h = some p → p.run = some r → isRunning p = true → r.openStep = some o →
    r.queue = q :: qs → q.records ≠ [] →
    takeRecords (maxPayload (ringOf s r.reply.port r.reply.ring)) r.budget q.records = (got, left, []) →
    exec (.emitDelivery h) s = .next (settleTransition (postReplies r.reply true
      [{ status := .done, count0 := q.step, count1 := got.length, payload := got.flatten }]
      (onRun h (fun x => { x with budget := left, delivered := x.delivered + got.length, queue := qs }) s)))) ∧
  (∀ s h op c, ctxOf s h op = some c → isRunning c.p = true → c.o.done.contains op = false → c.o.committed = false →
    s.power.state = .active →
    exec (.farTierCompletion h op true) s = .next (detect h none s) ∧ exec (.farTierCompletion h op false) s = .next s ∧
      exec (.farTierTimeout h op) s = .next (detect h none (atLeast (c.o.began.toNat + 10000000) s)))

/-- R329, R330, R446: at a boundary that its interval names, a table's candidates are taken and all its counts decayed, once; a
migration whose copy reaches the block's end has the rows from its pointer on at the destination; a Basin row that fails the scrub is charged to its
segment. -/
def Obligations.TablesMigrate : Prop :=
  (∀ s h t pol k p, tableOf s h = some t → t.policy = some pol → currentSlot t = some k → governing s h k = some p →
    0 < p.nextStep → p.nextStep % max pol.intervalSteps 1 = 0 → t.decided ≠ some (p.handle, p.nextStep) →
    s.power.state = .active →
    exec (.migrationDecision h) s = .next (onTable h (fun x => { x with decided := some (p.handle, p.nextStep) })
      (decayCounts t pol.decayShift (if pol.enable then
        (candidates s t pol k p.nextStep).foldl (fun x b => takeCandidate h pol k b x) s else s)))) ∧
  (∀ s h t b m p n, tableOf s h = some t → t.migrations.find? (fun x => x.block = b && !x.copied) = some m →
    governing s h m.slot = some p → s.power.state = .active → n = rowsOfBlock t b → m.pointer ≤ n →
    exec (.migrationCopy h b) s = .next (onTable h (fun x => { x with
      migrations := x.migrations.map (fun y => if y = m then { y with copied := true, pointer := n } else y) })
      (copySession t.session (migrationSource s t m m.pointer) (migrationTarget t m m.pointer)
        ((n - m.pointer) * rowBytesOf t) s))) ∧
  (∀ s rows, s.power.state = .active → s.boot.phase = .running → s.plans = [] → (∀ r ∈ rows, r < 2097152) →
    exec (.basinScrub rows) s = .next (rows.foldl (fun x r => chargeRate (unitId 4 (r / 65536)) none x) s))

/-! ## Fabric links and messages -/

/-- R402, R403, R404, R407: training ends UP, at 7/8 width with one failed lane, or DOWN with its reason; a failed flit is counted
and replayed, and the eighth in a row costs its lane; a retrain that times out and a silent far end leave the port DOWN. Each of
these changes its port only, but that messages which waited for a port may leave. -/
def Obligations.FabricLinksAct : Prop :=
  (∀ s (port : Fin 6) q, s.fabric.ports[port.val]? = some q → q.state = .training → s.dbg.pinsTaken = 0 →
    exec (.fabricLinkUp port .noSignal) s =
      .next { s with fabric := { s.fabric with ports := s.fabric.ports.set port.val { q with state := .down, reason := 1 } } }) ∧
  (∀ s (port : Fin 6) q fid mid pp epoch lanes fail x y, s.fabric.ports[port.val]? = some q → q.state = .training →
    s.dbg.pinsTaken = 0 → fail = q.laneFail ||| lanes ||| retiredLanes s port →
    x = { q with laneFail := fail, neighbor := mid.toNat, neighborPort := pp, flitFails := 0 } →
    y = (if 2 ≤ laneCount fail then { x with state := .down, reason := 4 }
      else if fid = 0xFFFF ∧ mid = 0 ∨ s.boot.phase = .recovery then
        { x with state := if fail = 0 then .up else .up78, reason := 0, recovery := true }
      else if fid ≠ s.fabric.fabricId then { x with state := .down, reason := 2 }
      else if mid.toNat = s.fabric.moduleId then { x with state := .down, reason := 3 }
      else { x with state := if fail = 0 then .up else .up78, reason := 0, recovery := false }) →
    exec (.fabricLinkUp port (.exchanged fid mid pp epoch lanes)) s =
      .next (retryWaiting { s with fabric := { s.fabric with ports := s.fabric.ports.set port.val y } })) ∧
  (∀ s (port : Fin 6) lane q, s.fabric.ports[port.val]? = some q → portUp s port = true →
    ∃ x, exec (.flitRetry port lane) s =
        .next { s with fabric := { s.fabric with ports := s.fabric.ports.set port.val x } } ∧
      x.retries = q.retries + 1 ∧
      (q.flitFails < 7 → x = { q with retries := q.retries + 1, flitFails := q.flitFails + 1 }) ∧
      (7 ≤ q.flitFails → bit x.laneFail lane = true ∧ x.flitFails = 0 ∧ (x.state = .training ∨ x.state = .down))) ∧
  (∀ s (port : Fin 6) q, s.fabric.ports[port.val]? = some q → q.state = .training →
    exec (.retrainTimeout port) s =
      .next { s with fabric := { s.fabric with ports := s.fabric.ports.set port.val { q with state := .down, reason := 5 } } }) ∧
  (∀ s (port : Fin 6) q, s.fabric.ports[port.val]? = some q → q.enabled = true → q.state ≠ .disabled →
    exec (.fabricSignalLoss port) s =
      .next { s with fabric := { s.fabric with ports := s.fabric.ports.set port.val { q with state := .down, reason := 1 } } })

/-- R411: a message for another module leaves by the adaptive port with the most credits, or waits; one that has made its last hop
or has no route is discarded and counted, and a request is answered UNREACHABLE; one that has waited leaves on the escape channel. -/
def Obligations.TransitForwards : Prop :=
  (∀ s (port : Fin 6) m credits n, portRoutes s port = true → m.dest.toNat ≠ s.fabric.moduleId → m.cls ≠ 3 →
    n = { m with hops := m.hops + 1 } → n.hops ≠ 15 → routeValid s m.dest.toNat = true →
    exec (.fabricForward port m credits) s = .next (routeMessage credits n s) ∧
    (m.escape = false → ∀ k, adaptivePort s m.dest.toNat credits = some k →
      exec (.fabricForward port m credits) s =
          .next { s with fabric := { s.fabric with sent := s.fabric.sent ++ [{ port := k, escape := false, msg := n }] } } ∧
        bit (routeOf s m.dest.toNat) k = true ∧ portRoutes s k = true ∧ 0 < credits.getD k 0 ∧
        ∀ j < 6, bit (routeOf s m.dest.toNat) j = true → portRoutes s j = true → credits.getD j 0 ≤ credits.getD k 0)) ∧
  (∀ s (port : Fin 6) m credits q, s.fabric.ports[port.val]? = some q → portRoutes s port = true →
    m.dest.toNat ≠ s.fabric.moduleId → m.cls ≠ 3 → m.cls ≠ 0 → (m.hops = 14 ∨ routeValid s m.dest.toNat = false) →
    exec (.fabricForward port m credits) s =
      .next { s with fabric := { s.fabric with ports := s.fabric.ports.set port.val { q with unroutable := q.unroutable + 1 } } }) ∧
  (∀ s m k, m ∈ s.fabric.waiting → m.escape = false → windowOpen s m = true → escapePort s m.dest.toNat = some k →
    exec (.escapeWait m) s = .next { s with fabric := { s.fabric with
      waiting := s.fabric.waiting.erase m
      sent := s.fabric.sent ++ [{ port := k, escape := true, msg := { m with escape := true } }] } })

/-- R253, R408, R410, R412, R413: ROW_READ, ROW_DATA, UPDATE, ARRIVE, RELEASE, EXCHANGE_DATA, REDUCE_DATA, GATHER_DATA, TOPK_LIST,
RELAY_FRAGMENT, SEARCH and SEARCH_RESULT: a message of a flow that reaches the module and passes the epoch checks passes the tap of its
port, joins its flow, and what has its turn is delivered: the next one of its flow, for the open step of the plan on the fabric, is
delivered at once - a row is served, a contribution staged, or data handed to its operator; with no run on the fabric it waits in its
flow, which is all that changes; one delivered before is dropped; one that fails an epoch check is counted and not delivered. -/
def Obligations.FlowMessagesJoin : Prop :=
  (∀ l m, flowMessage (.rowRead l m) = some (l, m, kindRowRead, classRequest) ∧
    flowMessage (.rowData l m) = some (l, m, kindRowData, classResponse) ∧
    flowMessage (.update l m) = some (l, m, kindUpdate, classRequest) ∧
    flowMessage (.arrive l m) = some (l, m, kindArrive, classCollective) ∧
    flowMessage (.release l m) = some (l, m, kindRelease, classCollective) ∧
    flowMessage (.exchangeData l m) = some (l, m, kindExchange, classCollective) ∧
    flowMessage (.reduceData l m) = some (l, m, kindReduce, classCollective) ∧
    flowMessage (.gatherData l m) = some (l, m, kindGather, classCollective) ∧
    flowMessage (.topkList l m) = some (l, m, kindTopk, classCollective) ∧
    flowMessage (.relayFragment l m) = some (l, m, kindRelay, classCollective) ∧
    flowMessage (.search l m) = some (l, m, kindSearch, classCollective) ∧
    flowMessage (.searchResult l m) = some (l, m, kindSearchResult, classResponse)) ∧
  (∀ i link m kind cls s, flowMessage i = some (link, m, kind, cls) → reaches link m kind s = true → m.cls.toNat = cls →
    (EpochsPass s m → exec i s = .next (settleTransition (drainAll (joinFlow m (foldArrival link m s))))) ∧
    (∀ p f g, EpochsPass s m → fabricPlan s = some p → (p.run.bind (·.openStep)).isSome = true →
      m.step = BitVec.ofNat 32 p.nextStep → f = flowInOf s m → m.seq.toNat = f.nextSeq % 65536 →
      (∀ x ∈ f.early, x.seq ≠ m.seq) → (∀ x ∈ s.fabric.flowsIn, headOf s x = none) → g = { f with early := f.early ++ [m] } →
      exec i s = .next (settleTransition (drainFlows ((s.fabric.flowsIn.map (fun x => x.early.length)).sum)
        (acceptOne g m .now (putFlowIn g (foldArrival link m s))))) ∧
      ∀ x y, y = putFlowIn { g with nextSeq := g.nextSeq + 1, early := g.early.erase m, unacked := g.unacked + 1 } x →
        g.unacked < 63 → fabricPlan x = some p →
        acceptOne g m .now x = (if kind = kindRowRead then serveRow m p.handle y
          else if kind = kindUpdate then takeUpdate p.handle m y else takeData p.handle m y)) ∧
    (EpochsPass s m → fabricPlan s = none → s.power.transition = none →
      ∃ t, exec i s = .next t ∧ t = { s with fabric := { s.fabric with flowsIn := t.fabric.flowsIn } } ∧
        ((m.seq.toNat + 65536 - (flowInOf s m).nextSeq % 65536) % 65536 < 32768 →
          ∃ f ∈ t.fabric.flowsIn, flowOf m f = true ∧ ∃ x ∈ f.early, x.seq = m.seq) ∧
        (32768 ≤ (m.seq.toNat + 65536 - (flowInOf s m).nextSeq % 65536) % 65536 → t = s)) ∧
    (¬ EpochsPass s m → fabricPlan s = none →
      ∃ t, exec i s = .next t ∧ t.fabric.staleDrops = s.fabric.staleDrops + 1 ∧ t.fabric.flowsIn = s.fabric.flowsIn ∧
        t = { s with fabric := t.fabric }))

/-- R410, R411, R413, R414: ACK opens the window of its flow; the timer acknowledges what was delivered; STALE and UNREACHABLE end
the run whose step sent the request; FENCE with a higher epoch fences the module. -/
def Obligations.PlainMessagesAct : Prop :=
  (∀ s link m, reaches link m kindAck s = true → EpochsPass s m →
    exec (.ack link m) s = .next (retryWaiting { s with fabric := { s.fabric with
      flowsOut := s.fabric.flowsOut.map (fun f =>
        if f.dest = m.src.toNat ∧ f.flow = m.flow.toNat ∧
            f.acked + (m.seq.toNat + 65536 - f.acked % 65536) % 65536 ≤ f.nextSeq then
          { f with acked := f.acked + (m.seq.toNat + 65536 - f.acked % 65536) % 65536 }
        else f) } })) ∧
  (∀ s f, s.fabric.flowsIn.Nodup → f ∈ s.fabric.flowsIn → 0 < f.unacked →
    (∀ g ∈ s.fabric.flowsIn, g.src = f.src → g.flow = f.flow → g = f) →
    ∃ t, exec (.ackTimer f.src f.flow) s = .next t ∧ { f with unacked := 0 } ∈ t.fabric.flowsIn ∧
      t = { s with fabric := t.fabric } ∧
      (∀ k, mayTalk s = true → adaptivePort s (f.src % 4096) ownCredits = some k →
        ∃ l, t.fabric.sent = s.fabric.sent ++ [l] ∧ l.port = k ∧ l.msg.kind = BitVec.ofNat 8 kindAck ∧
          l.msg.seq = BitVec.ofNat 16 f.nextSeq)) ∧
  (∀ s link m p i kind st, (i = .stale link m ∧ kind = kindStale ∧ st = .staleEpoch ∨
      i = .unreachable link m ∧ kind = kindUnreachable ∧ st = .fabricTimeout) →
    reaches link m kind s = true → EpochsPass s m → fabricPlan s = some p → m.step = BitVec.ofNat 32 p.nextStep →
    (p.run.bind (·.openStep)).isSome = true → exec i s = .next (endRun p.handle st s)) ∧
  (∀ s link m, reaches link m kindFence s = true → EpochsPass s m → s.fabric.epoch < BitVec.ofNat 32 (field m.payload 0 32) →
    isFenced s = false →
    exec (.fence link m) s = .next (enterFenced (some (BitVec.ofNat 32 (field m.payload 0 32))) s))

/-- R395, R397, R421: a request, collective, cascade lock or search that is not answered in time ends the run of its plan with
FABRIC_TIMEOUT and no replay; a lock that is lost ends the runs on the cascade. -/
def Obligations.TimeoutsEndRuns : Prop :=
  (∀ s h op c, ctxOf s h op = some c → isRunning c.p = true → 1 < c.p.bin.fabricRanks → c.o.done.contains op = false →
    exec (.reqTimeout h op) s = .next (endRun h .fabricTimeout s)) ∧
  (∀ s h op p o, planOf s h = some p → isRunning p = true → 1 < p.bin.fabricRanks → p.run.bind (·.openStep) = some o →
    o.done.contains op = false → exec (.collTimeout h op) s = .next (endRun h .fabricTimeout s)) ∧
  (∀ s, chainUp s = true → s.pins.cascPos = 0 ∨ s.basin.cascade.locked = false →
    exec .cascadeLockTimeout s = .next (endCascadeRuns s)) ∧
  (∀ s, chainUp s = true → s.pins.cascPos ≠ 0 → s.basin.cascade.locked = true →
    exec .cascadeLockLoss s = .next (endCascadeRuns { s with basin := { s.basin with
      cascade := { s.basin.cascade with locked := false, syncSeen := 0 } } })) ∧
  (∀ s h seq p op c, planOf s h = some p → chainUp s = true → isRunning p = true → ctxOf s h op = some c →
    op < p.bin.ops.length → c.e.op = .matchOp → 2 ≤ (matchParams c.e).chain → s.pins.cascPos = 0 →
    isMarked c.o op (searchPhase c.o.attempt seq) (ownRank c) 0x17 = true → finalWord c seq = none →
    exec (.searchTimeout h seq) s = .next (endRun h .fabricTimeout s)) ∧
  (∀ s, chainUp s = true → s.pins.cascPos = 0 → exec .cascadeLockLoss s = .next (endCascadeRuns s))

/-- R392, R393, R395, R397: SYNC words lock the cascade, and a word that is not SYNC breaks a run of them; on a locked cascade an
idle word changes nothing, a word that carries the next result is taken and folded, and one that does not check is a chain error. -/
def Obligations.CascadeWordsAct : Prop :=
  (∀ s i n, (i = .cascadeSync n ∨ i = .cascadeWord 0x5A3CC35AFFFFFFFF ∧ n = 1) → chainUp s = true → s.pins.cascPos ≠ 0 →
    ∃ t, exec i s = .next t ∧ t = { s with basin := { s.basin with cascade := t.basin.cascade } } ∧
      t.basin.cascade.syncOut = s.basin.cascade.syncOut + n ∧
      (s.basin.cascade.locked = true → t.basin.cascade.locked = true ∧ t.basin.cascade.syncSeen = s.basin.cascade.syncSeen) ∧
      (s.basin.cascade.locked = false → t.basin.cascade.syncSeen = s.basin.cascade.syncSeen + n ∧
        (t.basin.cascade.locked = true ↔ 64 ≤ s.basin.cascade.syncSeen + n))) ∧
  (∀ s w, chainUp s = true → s.pins.cascPos ≠ 0 → w ≠ syncWord → s.basin.cascade.locked = false →
    exec (.cascadeWord w) s =
      .next { s with basin := { s.basin with cascade := { s.basin.cascade with syncSeen := 0 } } }) ∧
  (∀ s, chainUp s = true → s.pins.cascPos ≠ 0 → s.basin.cascade.locked = true →
    exec (.cascadeWord idleWord) s = .next s) ∧
  (∀ s w x c res, chainUp s = true → s.pins.cascPos ≠ 0 → w ≠ syncWord → w ≠ idleWord → s.basin.cascade.locked = true →
    chainCtx s = some (x, c) → parseWord w s.basin.cascade.nextSeq = some res →
    exec (.cascadeWord w) s = .next (installStep x.plan (memberResolve (matchParams c.e) ((chainShares c).getD []) x
      { c with s := { s with basin := { s.basin with cascade := { s.basin.cascade with
        nextSeq := s.basin.cascade.nextSeq + 1
        upstream := sset s.basin.cascade.upstream s.basin.cascade.nextSeq res } } } }))) ∧
  (∀ s w x c, chainUp s = true → s.pins.cascPos ≠ 0 → w ≠ syncWord → w ≠ idleWord → s.basin.cascade.locked = true →
    chainCtx s = some (x, c) → parseWord w s.basin.cascade.nextSeq = none →
    exec (.cascadeWord w) s = .next (chainError x c))

/-! ## Messages between twins -/

/-- R430, R431, R432, R441: mirrored writes wait in staging, and the commit that follows applies them, keeps its records, counts,
and is acknowledged; an acknowledgement moves the count of acknowledged commits; a heartbeat is heard. A message under the pair's own
epoch marks its link as heard. The layout of the payloads is the model's choice (log entry 14). -/
def Obligations.MirrorMessagesAct : Prop :=
  (∀ s link m, TwinHears s link twinHeartbeat m → exec (.heartbeat link m) s = .next (settleRuns (hear link s))) ∧
  (∀ s link m h, TwinHears s link twinWrite m → takesMirror s = true → h = mirrorHead m.payload →
    exec (.mirrorWrite link m) s = .next (settleRuns (let x := hear link s
      { x with twin := { x.twin with
          staging := s.twin.staging ++ [{ window := h.1, offset := h.2.1, data := (m.payload.drop 64).take h.2.2.1 }] } }))) ∧
  (∀ s link m x y, TwinHears s link twinCommit m → takesMirror s = true →
    x = s.twin.staging.foldl (fun z w => storeWindow w.window w.offset w.data z) (hear link s) →
    y = { x with twin := { x.twin with
      staging := []
      commitsApplied := s.twin.commitsApplied + 1
      twinCommits := ((List.range (m.payload.length / 64)).map (fun i => parseCommit (slice m.payload (64 * i) 64))).foldl
        (fun l r => putCommit r l) s.twin.twinCommits } } →
    exec (.mirrorCommit link m) s =
      .next (settleRuns (answerWaiting (sendTwin link twinAck (ackBytes false (s.twin.commitsApplied + 1)) y)))) ∧
  (∀ s link m, TwinHears s link twinAck m → takesMirror s = true → field m.payload 0 1 = 0 →
    exec (.mirrorAck link m) s = .next (settleRuns (ackCommits (field m.payload 64 64) (hear link s)))) ∧
  (∀ s link m, TwinHears s link twinAck m → field m.payload 0 1 = 1 → s.twin.copying = true → s.twin.command = none →
    2 ≤ s.twin.windowsLeft →
    exec (.mirrorAck link m) s = .next (settleRuns (let x := hear link s
      { x with twin := { x.twin with windowsLeft := s.twin.windowsLeft - 1 } }))) ∧
  (∀ s link m w h, TwinHears s link twinCopy m → h = mirrorHead m.payload → twinWindowOf s h.1 = some w →
    h.2.1 + ((m.payload.drop 64).take h.2.2.1).length < w.len → takesMirror s = true ∨ s.twin.copying = true →
    exec (.resyncData link m) s =
      .next (settleRuns (storeWindow h.1 h.2.1 ((m.payload.drop 64).take h.2.2.1) (hear link s)))) ∧
  (∀ s link m w h, TwinHears s link twinCopy m → h = mirrorHead m.payload → twinWindowOf s h.1 = some w →
    s.twin.command = none → w.len ≤ h.2.1 + ((m.payload.drop 64).take h.2.2.1).length →
    takesMirror s = true ∨ s.twin.copying = true →
    exec (.resyncData link m) s = .next (settleRuns (sendTwin link twinAck (ackBytes true h.1)
      (storeWindow h.1 h.2.1 ((m.payload.drop 64).take h.2.2.1) (hear link s)))))

/-- R429, R433, R434, R435, R436, R437, R440: a message of a lower epoch is dropped, counted and answered STALE, and one of a higher
epoch fences a PAIRED, SOLO or DETACHED module; hello is checked, HANDOVER makes the twin SOLO under a new epoch of its side's
parity, and HANDOVER_ACK ends the release. -/
def Obligations.PairStatesChange : Prop :=
  (∀ s i link m kind, (i = .heartbeat link m ∧ kind = twinHeartbeat ∨ i = .mirrorWrite link m ∧ kind = twinWrite ∨
      i = .mirrorCommit link m ∧ kind = twinCommit ∨ i = .mirrorAck link m ∧ kind = twinAck ∨
      i = .resyncData link m ∧ kind = twinCopy ∨ i = .handover link m ∧ kind = twinHandover ∨
      i = .rowRefetch link m ∧ kind = twinRefetch ∨ i = .rowRefetchData link m ∧ kind = twinRefetchData ∨
      i = .twinStale link m ∧ kind = twinStaleKind) →
    link < 2 → twinLinkUp s link = true → fwRunning s = true → m.cls = 3 → m.kind.toNat = kind →
    (m.srcEpoch < s.twin.pairEpoch → ∃ t, exec i s = .next t ∧ t.twin.staleTwin = s.twin.staleTwin + 1 ∧
      t = { s with twin := { s.twin with staleTwin := t.twin.staleTwin, sent := t.twin.sent } } ∧
      (isFenced s = false → ∃ x, t.twin.sent = s.twin.sent ++ [(link, x)] ∧ x.kind = BitVec.ofNat 8 twinStaleKind ∧
        x.srcEpoch = s.twin.pairEpoch)) ∧
    (s.twin.pairEpoch < m.srcEpoch → fenceable s = true → exec i s = .next (settleRuns (enterFenced none s))) ∧
    (s.twin.pairEpoch < m.srcEpoch → fenceable s = false → exec i s = .next s)) ∧
  (∀ s link m, TwinHears s link twinStaleKind m → exec (.twinStale link m) s = .next (settleRuns (hear link s))) ∧
  (∀ s m, twinLinkUp s 0 = true → fwRunning s = true → m.cls = 3 → m.kind.toNat = twinHello →
    ((parseHello (hear 0 s) m.payload m.srcEpoch).op ≠ 1 ∨ s.twin.command ≠ none) →
    exec (.pairHello 0 m) s = .next (settleRuns (takeHello (let x := hear 0 s
      { x with twin := { x.twin with hello := some (m.payload, m.srcEpoch) } })))) ∧
  (∀ s link m, TwinHears s link twinHandover m → s.twin.state = .paired →
    exec (.handover link m) s = .next (settleRuns (sendTwin link twinHandoverAck [] (serveSolo 2
      (writeOwnBlock (let x := hear link s
        { x with twin := { x.twin with pairEpoch := nextPairEpoch s } })))))) ∧
  (∀ s link m, link < 2 → twinLinkUp s link = true → fwRunning s = true → m.cls = 3 → m.kind.toNat = twinHandoverAck →
    s.twin.state = .releasing →
    exec (.handoverAck link m) s =
      .next (settleRuns (beginTransition (if s.twin.commandOp = 3 then .dormant else .cold) s.twin.command
        (dropRefetches (let x := hear link s
          { x with twin := { x.twin with
              state := .unpaired, record := none, command := none, servesBoth := false, staging := [], unackedBytes := [],
              hello := none } }))))) ∧
  (∀ s, s.twin.command ≠ none → s.twin.commandOp < 2 → s.twin.copying = false →
    exec .pairTimeout s = .next (settleTransition (failPair .partnerLost s))) ∧
  (∀ s, s.twin.pairEpoch.toNat < 2 ^ 32 - 2 → s.pins.twinSide.toNat < 2 →
    s.twin.pairEpoch.toNat < (nextPairEpoch s).toNat ∧ (nextPairEpoch s).toNat ≤ s.twin.pairEpoch.toNat + 2 ∧
      (nextPairEpoch s).toNat % 2 = (if s.pins.twinSide = 0 then 1 else 0))

/-- R432, R433, R434, R435: heartbeats go out on the links that are up and into the module's block; after silence on all three
paths a PAIRED module takes over and serves SOLO, stays under its epoch when the shared path fails, or is fenced by what it reads;
with both links silent and the shared path alive it detaches where its record says so. -/
def Obligations.SilenceIsActedOn : Prop :=
  (∀ s, beats s = true → twinLinkUp s 0 = true → twinLinkUp s 1 = true →
    ∃ t a b, exec .heartbeatSend s = .next t ∧ t = { s with twin := { s.twin with sent := s.twin.sent ++ [(0, a), (1, b)] } } ∧
      a.kind = BitVec.ofNat 8 twinHeartbeat ∧ a.srcEpoch = s.twin.pairEpoch ∧ b = a ∧
      a.payload = record 32 [(0, s.twin.pairEpoch.toNat), (32, pairCode s.twin.state), (64, s.time.toNat)]) ∧
  (∀ s, beats s = true → exec (.heartbeatBlock none) s = .next (writeOwnBlock s)) ∧
  (∀ s b r, beats s = true → s.twin.record = some r →
    farOk s (blockAddr r (1 - s.pins.twinSide.toNat)) 64 false = true →
    exec (.heartbeatBlock (some b)) s = .next (settleRuns (readTwinBlock b (writeOwnBlock s)))) ∧
  (∀ s r readBack confirm x, fwRunning s = true → s.twin.state = .paired → s.twin.isolated = false → s.twin.record = some r →
    x = atLeast (silentAt s s.twin.sharedSeen) (atLeast (silentAt s s.twin.heard1) (atLeast (silentAt s s.twin.heard0) s)) →
    exec (.takeover readBack confirm) s = .next (settleRuns (takeOver readBack confirm x)) ∧
    (readBack = false → exec (.takeover readBack confirm) s = .next (settleRuns (resumeFlips ((fun y : State =>
      { y with twin := { y.twin with pairEpoch := s.twin.pairEpoch, isolated := true } })
        (takeoverEvent 4 (writeOwnBlock { x with twin := { x.twin with pairEpoch := nextPairEpoch s } })))))) ∧
    (readBack = true → farOk s (blockAddr r s.pins.twinSide.toNat) 64 true = true → confirm = [] →
      exec (.takeover readBack confirm) s = .next (settleRuns (serveSolo 1 ((fun y : State => atLeast (y.time.toNat + 20000000) y)
        (writeOwnBlock { x with twin := { x.twin with pairEpoch := nextPairEpoch s } })))))) ∧
  (∀ s x readBack confirm, fwRunning s = true → s.twin.state = .releasing →
    x = atLeast (silentAt s s.twin.sharedSeen) (atLeast (silentAt s s.twin.heard1) (atLeast (silentAt s s.twin.heard0) s)) →
    exec (.takeover readBack confirm) s =
      .next (settleRuns (completeTwin (replyOf .partnerLost) { x with twin := { x.twin with state := .paired } }))) ∧
  (∀ s r x, fwRunning s = true → s.twin.state = .paired → s.twin.record = some r → r.detachOnLinksDown = true →
    x = completeTwin (replyOf .partnerLost)
      (dropRefetches (atLeast (silentAt s s.twin.heard1) (atLeast (silentAt s s.twin.heard0) s))) →
    exec .detach s = .next (settleRuns (resumeFlips (takeoverEvent 3 { x with twin := { x.twin with
      state := .detached, staging := [], unackedBytes := [], copying := false, during := [] } }))))

/-- R448, R457: a refetch is answered once its commits have been applied, and waits otherwise; its answer is written back, or on a
bypassed position only delivered, and its readers go on; without one in time the sector is poisoned. -/
def Obligations.RefetchesResolve : Prop :=
  (∀ s link m w h, TwinHears s link twinRefetch m → h = mirrorHead m.payload → h.2.2.2 ≤ s.twin.commitsApplied →
    twinWindowOf s h.1 = some w → isFenced s = false →
    exec (.rowRefetch link m) s = .next (settleRuns (sendTwin link twinRefetchData
      (mirrorPayload h.1 h.2.1 h.2.2.1 h.2.2.2 (sessionRead s w.session (w.va + h.2.1) h.2.2.1)) (hear link s)))) ∧
  (∀ s link m, TwinHears s link twinRefetch m → s.twin.commitsApplied < (mirrorHead m.payload).2.2.2 → isFenced s = false →
    exec (.rowRefetch link m) s = .next (settleRuns (let x := hear link s
      { x with twin := { x.twin with refetchWaiting := s.twin.refetchWaiting ++ [m] } }))) ∧
  (∀ s link m f, TwinHears s link twinRefetchData m →
    s.twin.refetches.find? (fun r => decide (r.window = (mirrorHead m.payload).1 ∧ r.offset = (mirrorHead m.payload).2.1)) = some f →
    exec (.rowRefetchData link m) s = .next (settleRuns (resumeWork
      (let x := deliverSector f.sector (slice m.payload 64 64) (hear link s)
      { x with twin := { x.twin with refetches := x.twin.refetches.erase f }
               err := { x.err with rowsRefetched := x.err.rowsRefetched + 1 } })))) ∧
  (∀ s k f, s.twin.refetches[k]? = some f →
    exec (.refetchTimeout k) s = .next (settleRuns (resumeWork (let x := poisonSector f.sector s
      { x with twin := { x.twin with refetches := x.twin.refetches.eraseIdx k } }))))

/-- R436, R441, R528: IMAGE_REQUEST is answered with the committed image in pieces of at most 4,096 bytes at epoch 0; in recovery
the module polls its twin, gathers the bytes that come, and waits anew when the stream stalls. -/
def Obligations.ImagesTravel : Prop :=
  (∀ s link m, fwRunning s = true → storedImageFails s = none →
    ∃ t, exec (.imageRequest link m) s = .next t ∧ t = { s with twin := { s.twin with sent := t.twin.sent } } ∧
      ∃ l, t.twin.sent = s.twin.sent ++ l ∧ (l.map (fun x => x.2.payload)).flatten = storedImage s.boot.nor ∧
        ∀ x ∈ l, x.1 = link ∧ x.2.srcEpoch = 0 ∧ x.2.payload.length ≤ 4096) ∧
  (∀ s, s.boot.stage = .recoveryWait → hostDelivering s = false → twinLinkUp s 0 = true → twinLinkUp s 1 = false →
    ∃ x, exec .recoveryPoll s = .next { s with twin := { s.twin with sent := s.twin.sent ++ [(0, x)] } } ∧
      x.kind = 0x2A ∧ x.srcEpoch = 0) ∧
  (∀ s link m, s.boot.phase = .recovery → s.boot.recoverySource = 0 ∨ s.boot.recoverySource = 2 + link → hostDelivering s = false →
    m.payload ≠ [] → streamComplete (s.boot.recoveryBytes ++ m.payload) = false →
    exec (.imageData link m) s = .next { s with boot := { s.boot with
      stage := .recoveryLoad, recoverySource := 2 + link, recoveryBytes := s.boot.recoveryBytes ++ m.payload,
      recoveryTime := s.time, nor := { s.boot.nor with image := s.boot.recoveryBytes ++ m.payload } } }) ∧
  (∀ s, s.boot.phase = .recovery → 2 ≤ s.boot.recoverySource →
    ∃ t, exec .recoveryStall s = .next t ∧ t.boot = { s.boot with stage := .recoveryWait, recoverySource := 0, recoveryBytes := [] } ∧
      t = { s with time := t.time, boot := t.boot })

/-! ## Operators -/

/-- R16, R23, R36, R150, R153, R161, R166, R169, R447, R448, R449, R511: an operator that is not the next one of its stage in a running
plan's open step does nothing; one whose cores are halted, whose row is being refetched or that stops at a breakpoint is held, with the
faults that its reads are to meet; one whose reads meet a detection leaves a step to replay; one whose block has no valid owner entry
ends the run with ACCESS, and one whose requests are dropped counts them and does not go on in this attempt; one that fails its checks
ends the run; and one that begins ends as it says. What the taps saw of one that does not finish is free (the model's choice, log entry
64). -/
def Obligations.OperatorsBeginInOrder : Prop :=
  (∀ i w s, operatorRow i = some w → ctxOf s w.plan w.op = none → exec i s = .next s) ∧
  (∀ i w s c, operatorRow i = some w → ctxOf s w.plan w.op = some c →
    (c.e.op ≠ w.kind ∨ w.mode c.e = false ∨ isRunning c.p = false ∨ s.power.state ≠ .active ∨ opReady c.p c.o w.op = false) →
    exec i s = .next s) ∧
  (∀ i w s c, operatorRow i = some w → RowReady w s c → (anyHalted s (rowSlots w s c) = true ∨ waitsRefetch s c.p = true) →
    exec i s = .next (onStep w.plan (heldWith w.op w.faults) s)) ∧
  (∀ i w s c hits, operatorRow i = some w → RowReady w s c → anyHalted s (rowSlots w s c) = false → waitsRefetch s c.p = false →
    hits = breakHits s c.p (stageOfOp c.p.bin w.op) w.op → hits ≠ [] →
    exec i s = .next (onStep w.plan (heldWith w.op w.faults) (applyBreaks hits s)) ∧
      ∀ e ∈ hits, ∀ b, (e.1, b) ∈ (applyBreaks hits s).dbg.breakpoints → b.hit = true) ∧
  (∀ i w s c, operatorRow i = some w → RowReady w s c → RowFree w s c →
    (w.faults.farFail = true ∨ w.faults.units.any unitValid = true) →
    exec i s = .next (foldBroken c
      (refreshPoison w.plan (applyFaults w.plan w.faults (onStep w.plan (faultsTaken w.op) s)).s))) ∧
  (∀ i w s c0 c, operatorRow i = some w → RowReady w s c0 → RowFree w s c0 → ReadsClean w.faults →
    ctxOf (begun w s) w.plan w.op = some c →
    (blocksRefused c = true → exec i s = .next (endRun w.plan .access (begun w s))) ∧
    (blocksRefused c = false → 0 < requestsDropped c →
      exec i s = .next (dropRequests w.plan w.op (requestsDropped c) (begun w s))) ∧
    (∀ st, BlocksServed c → w.pre c = some st → exec i s = .next (endRun w.plan st (begun w s)))) ∧
  (∀ i w s c0 c, operatorRow i = some w → OpBegins w s c0 c →
    (∀ st, w.body (startWrites c) = .fail st → exec i s = .next (endRun w.plan st (foldBroken c (begun w s)))) ∧
    (∀ x st, w.body (startWrites c) = .failWith x st → exec i s = .next (endRun w.plan st
      (onRun w.plan (fun r => withOpenExt x.p r x.op) (leaveTaps c (installStep w.plan x))))) ∧
    (∀ x, w.body (startWrites c) = .hold x → exec i s = .next (installStep w.plan (markHeld x))) ∧
    (∀ x, w.body (startWrites c) = .suspend x → exec i s = .next (suspendRun w.plan .outputSpace x.op (foldBroken c
      (installStep w.plan { x with o := { x.o with heldFaults := sset x.o.heldFaults x.op (checksOnly w.faults) } })))) ∧
    (w.body (startWrites c) = .noInput →
      exec i s = .next (finishRun w.plan (onRun w.plan (fun r => { r with inputEnded := true }) (begun w s)))) ∧
    (∀ x u, w.body (startWrites c) = .detected x u →
      exec i s = .next (detect w.plan u (foldBroken c (installStep w.plan x)))))

/-- R161, R247, R269, R272, R274, R284, R297, R353 to R359, R368: ENCODE, FILTER, PROJECT, HASH, NORMALISE, SORT, ACTIVATE, NORM,
INTERACT, ATTEND_SHORT, SOFTMAX, DENSE_GRAD of both modes and TOPK, once begun, are done by their command, having written outputs
and counters only; FILTER's mask selects the rows that IN1 selects and that some group that holds terms passes whole. -/
def Obligations.OutputOperatorsComplete : Prop :=
  (∀ h op f i w s c0 c, i ∈ [Instr.encode h op f, .filter h op f, .project h op f, .hash h op f, .normalise h op f, .sort h op f,
      .activate h op f, .norm h op f, .interact h op f, .attendShort h op f, .softmax h op f, .denseGradInput h op f,
      .denseGradWeight h op f, .topk h op f] →
    operatorRow i = some w → OpBegins w s c0 c → Completes i w s c0 c (WritesOutputs c)) ∧
  (∀ h op f w s c0 c b k, operatorRow (.filter h op f) = some w → OpBegins w s c0 c → b = startWrites c → k = c.e.in0.getD 0 →
    ∃ pool, Completes (.filter h op f) w s c0 c (fun c' => c' =
      bumps [(1, ((rowsOf b k).filter (maskBit b c.e.in1)).length),
          (2, ((rowsOf b k).filter (fun r => maskBit b c.e.in1 r && groupsPass (filterTerms c.e) (rowRead b k r))).length),
          (3, rowCount (cDesc b k) * pool)]
        (maskWrite (c.e.out0.getD 0) (spreadRows b k (fun _ => false)
          ((rowsOf b k).map (fun r => maskBit b c.e.in1 r && (List.range 4).any (fun g =>
            (filterTerms c.e).any (fun t => t.group = g) &&
              (filterTerms c.e).all (fun t => t.group ≠ g || termTrue (rowRead b k r) t))))) b)))

/-- R178, R258, R277, R286, R288, R289, R351, R360, R389, R420: BUCKET over boundaries in order, RELAYOUT of well-formed cells,
JOIN_BUILD of rows that leave the table a quarter empty, JOIN_PROBE of a table that fits it, OPT_STEP from its first step on, CHECK of
data whose stored values are right, DENSE over well-formed weights, its own or relayed, and MATCH outside a cascade are done by their
command. -/
def Obligations.CheckedOperatorsComplete : Prop :=
  (∀ h op f w s c0 c b, operatorRow (.bucket h op f) = some w → OpBegins w s c0 c → b = startWrites c →
    (∀ x ∈ bucketEntries c.e, boundaryOk (cDesc b (c.e.in2.getD 0)).format (boundsOf b x) = true) →
    Completes (.bucket h op f) w s c0 c (WritesOutputs b)) ∧
  (∀ h op f w s c0 c b, operatorRow (.relayout h op f) = some w → OpBegins w s c0 c → b = startWrites c →
    rlMalformed b (cDesc b (c.e.in0.getD 0)) (cDesc b (c.e.out0.getD 0)) = false →
    Completes (.relayout h op f) w s c0 c (WritesOutputs b)) ∧
  (∀ h op f w s c0 c b k, operatorRow (.joinBuild h op f) = some w → OpBegins w s c0 c → b = startWrites c →
    k = c.e.in0.getD 0 → tableFar b (c.e.out0.getD 0) = false →
    ((((canonicalRows b k).filter (maskBit b c.e.in1)).map (rowRead b k)).foldl (buildRow c.e) noRows).full = false →
    Completes (.joinBuild h op f) w s c0 c (WritesOutputs b)) ∧
  (∀ h op f w s c0 c b t, operatorRow (.joinProbe h op f) = some w → OpBegins w s c0 c → b = startWrites c →
    t = bytesOf b (c.e.in2.getD 0) → tableFar b (c.e.in2.getD 0) = false → probeHeadOk c.e t.length (parseTable t) = true →
    Completes (.joinProbe h op f) w s c0 c (WritesOutputs b)) ∧
  (∀ h op f w s c0 c b, operatorRow (.optStep h op f) = some w → OpBegins w s c0 c → b = startWrites c →
    par c 192 64 ≤ c.p.nextStep → Completes (.optStep h op f) w s c0 c (WritesOutputs b)) ∧
  (∀ h op f w s c0 c b, operatorRow (.check h op f) = some w → OpBegins w s c0 c → b = startWrites c →
    (∀ x ∈ (segmentValues f b).zipIdx, x.1.toNat = storedValue b x.2) →
    Completes (.check h op f) w s c0 c (WritesOutputs b)) ∧
  (∀ h op f w s c0 c b, operatorRow (.dense h op f) = some w → OpBegins w s c0 c → b = startWrites c →
    c.p.bin.fabricRanks ≤ 1 → denseRelay c.e = false → weightsBad (cDesc b (c.e.in1.getD 0)) (weightRows b) = false →
    Completes (.dense h op f) w s c0 c (WritesOutputs b)) ∧
  (∀ h op f w s c0 c b x d bs tree, operatorRow (.dense h op f) = some w → OpBegins w s c0 c → b = startWrites c →
    1 < c.p.bin.fabricRanks → denseRelay c.e = true → barrierRun b.op 0 (fun _ => relayShare b) relayAnswer b = (x, some d) →
    d.headD 0 ≠ 0 → tree = relayTree (parseShares d.length (d.drop 1)) (denseRank c.e) →
    arrivedData x.o kindRelay b.op 0 (tree.getD ((tree.findIdx (· = ownRank b) - 1) / 2) 0) (ownRank b) = some bs →
    weightsBad (cDesc b (c.e.in1.getD 0))
      (cut (rowDataBytes (cDesc b (c.e.in1.getD 0)).format (dimOf (cDesc b (c.e.in1.getD 0)) 0)) bs.length bs) = false →
    Completes (.dense h op f) w s c0 c (fun c' => c'.p = c.p ∧ c'.op = c.op)) ∧
  (∀ h op f w s c0 c b, operatorRow (.matchOp h op f) = some w → OpBegins w s c0 c → b = startWrites c →
    (matchParams c.e).chain = 0 → Completes (.matchOp h op f) w s c0 c (WritesOutputs b))

/-- R27, R171, R281, R294, R317, R319, R323: GROUP_AGG stages a contribution for every selected row with a key; STATS under ACCUM
stages its partials and otherwise writes its record; GATHER and POOL_GATHER of rows of this module read them and count the accesses;
SCATTER_UPDATE stages its contributions, up to MAX_CONTRIB with those that others have brought; EMIT holds its records. Memory and
tables stay as they are until the step commits. -/
def Obligations.StagingOperatorsComplete : Prop :=
  (∀ h op f w s c0 c b old, operatorRow (.groupAgg h op f) = some w → OpBegins w s c0 c → b = startWrites c →
    tableFar b (c.e.out0.getD 0) = false → (∀ q, c.e.in2 = some q → tableFar b q = false ∧ old = parseTable (bytesOf b q)) →
    (c.e.in2 = none → old = groupHead c.e) → { old with entries := 0 } = groupHead c.e →
    Completes (.groupAgg h op f) w s c0 c (fun c' => c'.s = c.s ∧ c'.o.staged = c.o.staged ++ (groupStage b).1 ∧
      ((groupStage b).1.map (·.key)) = ((rowsOf b (c.e.in0.getD 0)).filter (fun r => maskBit b c.e.in1 r &&
        (tableKey (rowRead b (c.e.in0.getD 0) r) (joinKey c.e)).isSome)).map (fun r => mergeKey b (c.e.in0.getD 0) r 0))) ∧
  (∀ h op f w s c0 c b, operatorRow (.stats h op f) = some w → OpBegins w s c0 c → b = startWrites c → statAccum c.e = true →
    Completes (.stats h op f) w s c0 c (fun c' => c'.o.stats = c.o.stats ++ statPartials b ∧ c'.s = c.s)) ∧
  (∀ h op f w s c0 c b, operatorRow (.stats h op f) = some w → OpBegins w s c0 c → b = startWrites c → statAccum c.e = false →
    (statGlobal c.e = false ∨ c.p.bin.fabricRanks ≤ 1) →
    Completes (.stats h op f) w s c0 c (WritesOutputs b)) ∧
  (∀ h op f w s c0 c b t k, operatorRow (.gather h op f) = some w → OpBegins w s c0 c → b = startWrites c →
    opTable b (embedParams .gather c.e).binding = some (t, k) → (t.sharded = false ∨ c.p.bin.fabricRanks ≤ 1) →
    ((embedParams .gather c.e).poisonFail = false ∨ c.o.view.poison = []) →
    (gatherFormat c.e = none ∨ ∀ row bs, readRow b t k row = some bs → badRow t bs = false) →
    Completes (.gather h op f) w s c0 c (fun c' =>
      c'.s = { c.s with rowDir := c'.s.rowDir, freeCount := c'.s.freeCount } ∧ c'.o.staged = c.o.staged)) ∧
  (∀ h op f w s c0 c b t k, operatorRow (.poolGather h op f) = some w → OpBegins w s c0 c → b = startWrites c →
    opTable b (embedParams .poolGather c.e).binding = some (t, k) → (t.sharded = false ∨ c.p.bin.fabricRanks ≤ 1) →
    ((embedParams .poolGather c.e).poisonFail = false ∨ c.o.view.poison = []) →
    (∀ row bs, readRow b t k row = some bs → badRow t bs = false) →
    Completes (.poolGather h op f) w s c0 c (fun c' =>
      c'.s = { c.s with rowDir := c'.s.rowDir, freeCount := c'.s.freeCount } ∧ c'.o.staged = c.o.staged)) ∧
  (∀ h op f w s c0 c b t k p, operatorRow (.scatterUpdate h op f) = some w → OpBegins w s c0 c → b = startWrites c →
    p = embedParams .scatterUpdate c.e → opTable b p.binding = some (t, k) → (t.sharded = false ∨ c.p.bin.fabricRanks ≤ 1) →
    stagedBy b.o b.op +
      (((rowsOf b (c.e.in0.getD 0)).filter (fun r => maskBit b c.e.in1 r && present (rowRead b (c.e.in0.getD 0) r) p.idx)).map
        (fun r => (refCodes (rowRead b (c.e.in0.getD 0) r) p.idx).length)).sum ≤ pf c.e 192 64 →
    Completes (.scatterUpdate h op f) w s c0 c (fun c' => c'.s = c.s ∧
      ∃ l, c'.o.staged = c.o.staged ++ l ∧ ∀ g ∈ l, g.op = c.op ∧ g.key.step = c.p.nextStep)) ∧
  (∀ h op f w s c0 c, operatorRow (.emit h op f) = some w → OpBegins w s c0 c → c.r.queue.length < 2 →
    (emitKind c.e = 2 → (emitManifest (startWrites c) (c.e.in0.getD 0)).isSome = true) →
    Completes (.emit h op f) w s c0 c (fun c' => c'.s = { c.s with freeCount := c'.s.freeCount } ∧
      ∃ l, c'.o = { (startWrites c).o with emits := c.o.emits ++ l } ∧ ∀ r ∈ l, r.op = c.op))

/-- R372, R373, R374, R417, R418, R419, R420: BARRIER is done once every rank of the module is released, at once in a plan of one
rank, and held before; EXCHANGE, REDUCE and ALLGATHER whose ranks agree are done once everything has come; TOPK under COLLECTIVE on
one module scans its shards and is done when every record is written; and a merge node merges the lists of its two children. -/
def Obligations.CollectivesComplete : Prop :=
  (∀ h op f w s c0 c, operatorRow (.barrier h op f) = some w → OpBegins w s c0 c → c.p.bin.fabricRanks ≤ 1 →
    Completes (.barrier h op f) w s c0 c (fun c' => c' = startWrites c)) ∧
  (∀ h op f w s c0 c x d, operatorRow (.barrier h op f) = some w → OpBegins w s c0 c →
    barrierRun c.op 0 (fun _ => []) (fun _ => []) (startWrites c) = (x, d) →
    (d.isSome = true → Completes (.barrier h op f) w s c0 c (fun c' => c' = x)) ∧
    (d = none → exec (.barrier h op f) s = .next (installStep w.plan (markHeld x)))) ∧
  (∀ h op f w s c0 c d x l1 l2 rows o at_, operatorRow (.exchangeSend h op f) = some w → OpBegins w s c0 c →
    d = cDesc c (c.e.in0.getD 0) →
    startAgreement (natLE (par c 47 2) 1 ++ natLE (formatCode d.format) 1 ++ natLE d.rank 1 ++ natLE (rowWidth d) 4)
      (startWrites c) = (x, some true) →
    (∀ e ∈ exchangeDests x, ∀ r, e.1 = some r → r < planRanks x) → receivedAll kindExchange 1 (exchangeSent x) = some l1 →
    receivedAll kindExchange 2 (exchangeSent x) = some l2 → rows = exchangeRows (rowWidth d) l2 → o = c.e.out0.getD 0 →
    rows.length ≤ rowCount (cDesc c o) →
    at_ = bump 6 ((exchangeDests x).countP (fun e => e.1.isNone))
      (countReceived l2 (fun bs => bs.length / (24 + rowWidth d)) (exchangeSent x)) →
    Completes (.exchangeSend h op f) w s c0 c (fun c' => c'.p = c.p ∧ c'.op = c.op ∧ exchangeFill rows at_ = .done c')) ∧
  (∀ h op f w s c0 c d x l1 l2 rows o at_, operatorRow (.exchangeReturn h op f) = some w → OpBegins w s c0 c →
    d = cDesc c (c.e.in0.getD 0) →
    startAgreement (natLE (par c 47 2) 1 ++ natLE (formatCode d.format) 1 ++ natLE d.rank 1 ++ natLE (rowWidth d) 4)
      (startWrites c) = (x, some true) →
    (∀ e ∈ exchangeDests x, ∀ r, e.1 = some r → r < planRanks x) → receivedAll kindExchange 1 (exchangeSent x) = some l1 →
    receivedAll kindExchange 2 (exchangeSent x) = some l2 → rows = exchangeRows (rowWidth d) l2 → o = c.e.out0.getD 0 →
    (∀ e ∈ rows, leNat (slice e.data (par c 64 32) 8) % 2 ^ 40 < rowCount (cDesc c o)) →
    at_ = bump 6 ((exchangeDests x).countP (fun e => e.1.isNone))
      (countReceived l2 (fun bs => bs.length / (24 + rowWidth d)) (exchangeSent x)) →
    Completes (.exchangeReturn h op f) w s c0 c (fun c' => c'.p = c.p ∧ c'.op = c.op ∧ exchangeLand rows at_ = .done c')) ∧
  (∀ h op f w s c0 c x, operatorRow (.reduce h op f) = some w → OpBegins w s c0 c →
    startAgreement (natLE (par c 0 1) 1 ++ shapeShare (cDesc c (c.e.in0.getD 0))) (startWrites c) = (x, some true) →
    (∀ seg < planRanks x, (received kindReduce 2 seg (ownRank x) (reduceSent x)).isSome = true) →
    Completes (.reduce h op f) w s c0 c (fun c' => c'.p = c.p ∧ c'.op = c.op ∧ reduceMain x = .done c')) ∧
  (∀ h op f w s c0 c x, operatorRow (.allgather h op f) = some w → OpBegins w s c0 c →
    startAgreement (shapeShare (cDesc c (c.e.in0.getD 0))) (startWrites c) = (x, some true) →
    (receivedAll kindGather 1 (allgatherSent x)).isSome = true →
    Completes (.allgather h op f) w s c0 c (fun c' => c'.p = c.p ∧ c'.op = c.op ∧ allgatherMain x = .done c')) ∧
  (∀ h op f w s c0 c x, operatorRow (.topkCollective h op f) = some w → OpBegins w s c0 c → topFabric c = false →
    x = topAdvanced [] (startWrites c) →
    exec (.topkCollective h op f) s = .next (if topWritten x then opDone w s c0 x else installStep w.plan (markHeld x))) ∧
  (∀ h op node s c shares x y l, ctxOf s h op = some c → c.e.op = .topk → topCollective c.e = true → isRunning c.p = true →
    s.power.state = .active → opReady c.p c.o op = true → l = stageSlots s c.p (stageOfOp c.p.bin op) → anyHalted s l = false →
    topMarked c.o op topScanned = true → topKnown c = some shares → mergeNode node shares c = some x → y = topAdvanced shares x →
    exec (.topkMergeNode h op node) s = .next (if topWritten y then
        afterOp l (applyWatches y l (foldTaps y (installStep h (markDone y)))) else installStep h (markHeld y)))

/-- R213, R218, R220, R222, R236, R238: SCAN forms its step's batch from where discovery stands - up to the point where a TIMEOUT closed
it, which is free - a replay takes the batch of the first attempt, and a run whose input has ended ends; DECODE of frames that pass
their checks decodes all of them; and a batch whose time is over closes TIMEOUT. -/
def Obligations.IngestOperatorsComplete : Prop :=
  (∀ h op f w s c0 c b pr x timed admits g, operatorRow (.scan h op f) = some w → OpBegins w s c0 c → b = startWrites c →
    pr = scanParams c.e.params → x = scanInput pr b → (∀ k, c.e.in1 = some k → (augIndex (bytesOf b k)).isSome = true) →
    c.r.inputEnded = false → inputOver x c.r.ordinal c.r.offset = false →
    (pr.inputFormat = 2 → parquetStart pr ((c.e.in2.map (bytesOf b)).getD []) = none) → c.r.manifest = none →
    timed = (c.o.batch.map (fun y => decide (y.close = some .timeout))).getD false →
    admits = (if timed then some ((Config.freeValue c.s.freeCount).toNat % (pr.batchRows + pr.maxRejects + 1)) else none) →
    formBatch pr (c.e.in1.map (bytesOf b)) (dimOf (cDesc c (c.e.out0.getD 0)) 0) x (pr.batchRows + pr.maxRejects + 1) admits
      { batch := emptyBatch c.r.ordinal (startOffset x c.r.ordinal c.r.offset), rows := [], nans := 0, passed := 0, seen := [] } =
      .ok g →
    Completes (.scan h op f) w s c0 c (fun c' => c'.o.batch.isSome = true ∧
      ((planOf c'.s c.p.handle).bind (·.run)).map (·.manifest) =
        (((planOf c.s c.p.handle).bind (·.run)).map (fun _ => c'.o.batch)))) ∧
  (∀ h op f w s c0 c b pr x m, operatorRow (.scan h op f) = some w → OpBegins w s c0 c → b = startWrites c →
    pr = scanParams c.e.params → x = scanInput pr b → (∀ k, c.e.in1 = some k → (augIndex (bytesOf b k)).isSome = true) →
    c.r.inputEnded = false → inputOver x c.r.ordinal c.r.offset = false →
    (pr.inputFormat = 2 → parquetStart pr ((c.e.in2.map (bytesOf b)).getD []) = none) → c.r.manifest = some m →
    Completes (.scan h op f) w s c0 c (fun c' => ∃ y, c'.o.batch = some y ∧ y.firstOffset = m.firstOffset ∧
      y.nextOffset = m.nextOffset ∧ y.rejects = m.rejects ∧ m.slots <+: y.slots)) ∧
  (∀ h op f w s c0 c b pr, operatorRow (.scan h op f) = some w → OpBegins w s c0 c → b = startWrites c →
    pr = scanParams c.e.params → (∀ k, c.e.in1 = some k → (augIndex (bytesOf b k)).isSome = true) →
    (c.r.inputEnded = true ∨ inputOver (scanInput pr b) c.r.ordinal c.r.offset = true) →
    exec (.scan h op f) s =
      .next (finishRun h (onRun h (fun r => { r with inputEnded := true }) (begun w s)))) ∧
  (∀ h op f w s c0 c b x t n lens, operatorRow (.decode h op f) = some w → OpBegins w s c0 c → b = startWrites c → n = par c 0 32 →
    (∀ k < n, prepassFrame b f k = none) →
    lens = (List.range n).map (fun k => field (linearRead b (c.e.in0.getD 0) (frameEntry b k).1 32) 64 40) →
    decodeFrames f b (List.range n) 0 b { frames := 0, consumed := 0, codes := 0, clears := 0 } = (x, t, .all) →
    Completes (.decode h op f) w s c0 c (fun c' =>
      c' = setExts (tallyExts t t.consumed lens.sum 0 (extOf b 7) 0 ++ [(9, 0)] ++ failExts noFrame 0) (dropHeld x))) ∧
  (∀ h s p r o e k, planOf s h = some p → p.run = some r → r.openStep = some o → isRunning p = true →
    p.bin.ops.zipIdx.find? (fun x => x.1.op = .scan) = some (e, k) → o.done.contains k = false → r.manifest = none →
    (scanParams e.params).timeoutUs ≠ 0 →
    exec (.batchTimeout h) s = .next (onStep h (fun x =>
      { x with batch := some { emptyBatch r.ordinal r.offset with close := some .timeout } }) s))

/-- R25, R161: an operator that writes its outputs changes only its own step, what taps, watchpoints and the trigger unit see, and
the free values taken: no byte of memory, no table, no session and no other plan, and its own step is marked with it. -/
def Obligations.OperatorsChangeOnlyTheirStep : Prop :=
  ∀ i w s c0 c c' t, operatorRow i = some w → OpBegins w s c0 c → w.body (startWrites c) = .done c' → WritesOutputs c c' →
    exec i s = .next t →
    t = { s with
      plans := t.plans
      err := { s.err with sectorRereads := s.err.sectorRereads + w.faults.rereads, linkRetries := s.err.linkRetries + w.faults.linkRetries }
      taps := t.taps
      dbg := t.dbg
      tremor := t.tremor
      ports := t.ports
      freeCount := t.freeCount } ∧
    (∀ g, g ≠ w.plan → planOf t g = planOf s g) ∧
    planOf t w.plan = some { c.p with run := some { c.r with openStep := some { c'.o with done := c.op :: c'.o.done } } } ∧
    (∀ sid va len, sessionRead t sid va len = sessionRead s sid va len)

/-- R287, R288, R290, R294: JOIN_BUILD and GROUP_AGG never fill a table past three quarters of its slots, JOIN_BUILD of rows that
cannot do so never fails for want of room, and a key inserted where its probe ended is found there. -/
def Obligations.HashTablesKeepRoom : Prop :=
  (∀ (e : OpEntry) (rows : List (List Byte)), 4 * (rows.foldl (buildRow e) noRows).slots.length ≤ 3 * 2 ^ joinLog2 e) ∧
  (∀ (e : OpEntry) (rows : List (List Byte)), 4 * rows.length ≤ 3 * 2 ^ joinLog2 e → (rows.foldl (buildRow e) noRows).full = false) ∧
  (∀ (e : OpEntry) (l : List Staged) (start : Grouping), 4 * start.slots.length ≤ 3 * 2 ^ joinLog2 e →
    4 * (l.foldl (applyGroup e) start).slots.length ≤ 3 * 2 ^ joinLog2 e) ∧
  (∀ (m : Sparse TableSlot) log2 key i n x, lookup (sget m) log2 key = (i, none, n) → sget m i = none →
    x.hash = (fm64 0 key).toNat → x.key = key → lookup (sget (sset m i x)) log2 key = (i, some x, n))

/-- R297: SORT only reorders the rows of a piece, and the selected ones come first. -/
def Obligations.SortReordersRows : Prop :=
  ∀ c rows, (sortedRows c rows).Perm rows ∧
    (∀ r ∈ (sortedRows c rows).take (rows.filter (maskBit c c.e.in1)).length, maskBit c c.e.in1 r = true) ∧
    (sortedRows c rows).drop (rows.filter (maskBit c c.e.in1)).length = rows.filter (fun r => !maskBit c c.e.in1 r)

/-! ## The block as a whole -/

/-- A step takes the command at the front of the queue and runs it on the state with the queue's rest; on an empty queue it is a
tick of module time (the model's choice, log entry 2). -/
def Obligations.StepsRunTheFrontCommand : Prop :=
  (∀ (s : State) c q, step { s with pending := c :: q } = exec c { s with pending := q }) ∧
  (∀ s : State, s.pending = [] → step s = .next (tick s))

/-- R22, R38, R53, R78, R302, R306: the module after reset: no memory, session, plan or table, both links down, no ring open, and
every memory in its canonical form (the unpowered module stands for reset: the model's choice, log entry 1). -/
def Obligations.ResetIsEmpty : Prop :=
  MemoriesOk State.reset ∧ State.reset.pending = [] ∧ State.reset.sessions = [] ∧ State.reset.plans = [] ∧
    State.reset.tables = [] ∧ State.reset.rowDir = [] ∧ (∀ a, memByte State.reset.near a = 0) ∧
    (∀ q ∈ State.reset.ports, q.linkUp = false ∧ q.ringsOpen = false ∧ ∀ r ∈ q.rings, r.enabled = false ∧ r.outstanding = []) ∧
    (∀ c, incarnationOf State.reset c = 1)

/-- R38, R39, R75: whatever a step does, every memory of the module keeps its canonical form, so that equal contents are equal data. -/
def Obligations.StepsKeepMemories : Prop := ∀ s t, MemoriesOk s → step s = .next t → MemoriesOk t

/-- R38, R75: bytes stored in a memory are read back, every other byte stays, and the canonical form is kept; the near and the far
tier hold what is stored at their module addresses. -/
def Obligations.MemoryReadsWhatWasWritten : Prop :=
  (∀ m a bs x, memByte (memWrite m a bs) x = if a ≤ x ∧ x < a + bs.length then bs.getD (x - a) 0 else memByte m x) ∧
  (∀ m a bs, memWf m → memWf (memWrite m a bs)) ∧
  (∀ m a n, memWf m → memRead m a n = (List.range n).map (fun i => memByte m (a + i))) ∧
  (∀ m a n, memWf m → memWf (memClear m a n) ∧
    ∀ x, memByte (memClear m a n) x = if a ≤ x ∧ x < a + n then 0 else memByte m x) ∧
  (∀ s a bs, memWf s.near → a < nearEnd →
    moduleRead s.boot.config.windows (moduleWrite a bs s).near (moduleWrite a bs s).far a bs.length = bs ∧
      (moduleWrite a bs s).far = s.far) ∧
  (∀ s a bs w, memWf s.far → nearEnd ≤ a → farWindow s.boot.config.windows a = some w →
    moduleRead s.boot.config.windows (moduleWrite a bs s).near (moduleWrite a bs s).far a bs.length = bs ∧
      (moduleWrite a bs s).near = s.near) ∧
  (∀ s a bs, nearEnd ≤ a → farWindow s.boot.config.windows a = none → moduleWrite a bs s = s)

/-- R95, R96, R97: a completion that fits is written, its payload first and then its header, at the next unit with the phase of its pass, and
takes one unit and its payload's;
one that does not, or whose port may not write, is held; and the module never writes past what the head word has
released. -/
def Obligations.CompletionsFit : Prop :=
  (∀ time i c q cq, (ringAt q i).cq = some cq → cq.held = [] → (ringAt q i).events = [] → mayWrite q = true →
    cq.written + 1 + ceilDiv c.payload.length 32 ≤ cq.released + cqUnits cq →
    (∃ l, (postCompletion time i c q).sent =
      q.sent ++ completionWrites (maxWrite q) cq { c with phase := decide ((cq.written / cqUnits cq) % 2 = 0) } ++ l) ∧
    ∃ cq', (ringAt (postCompletion time i c q) i).cq = some cq' ∧
      cq'.written = cq.written + 1 + ceilDiv c.payload.length 32 ∧ cq'.held = []) ∧
  (∀ time i c q cq, (ringAt q i).cq = some cq → cq.held = [] →
    (mayWrite q = false ∨ cq.released + cqUnits cq < cq.written + 1 + ceilDiv c.payload.length 32) →
    (postCompletion time i c q).sent = q.sent ∧
      (ringAt (postCompletion time i c q) i).outstanding = (ringAt q i).outstanding ∧
      (ringAt (postCompletion time i c q) i).cq = some { cq with held := [c] }) ∧
  (∀ time i c q cq, (ringAt q i).cq = some cq → cq.written ≤ cq.released + cqUnits cq →
    ∃ cq', (ringAt (postCompletion time i c q) i).cq = some cq' ∧ cq'.released = cq.released ∧ cq'.log2Size = cq.log2Size ∧
      cq'.written ≤ cq'.released + cqUnits cq')

/-- R98: the completions of a command: each payload is at most the smaller of 4,194,272 bytes and half the ring less 32, together they
are the whole result, in order, all with the command's TAG, and MORE stands on every one but the last. -/
def Obligations.LongResultsAreSplit : Prop :=
  ∀ c reply s q, (ringOf s c.port c.ring).cq = some q → 6 < q.log2Size →
    ∃ l : List Completion,
      complete c reply s = l.foldl (fun x k => onPort c.port (postCompletion s.time c.ring k) x) s ∧
      (l.map (·.payload)).flatten = reply.payload ∧
      (∀ k ∈ l, k.payload.length ≤ 4194272 ∧ k.payload.length ≤ 2 ^ (q.log2Size - 1) - 32 ∧ k.tag = c.tag ∧
        k.opcode = c.opcode ∧ k.status = reply.status) ∧
      l.map (·.more) = List.replicate (l.length - 1) true ++ [false]

/-- R81, R92, R103, R104, R528: a packet of one command that meets a fault completes with the status of the first in order, and
the ring carries on: in recovery a command that the boot ROM does not serve, a reserved bit, the TAG, the SESSION field, HANDLE,
CHAIN, a session that is closing, an A command on a session ring, and FENCED; an A command on a session ring gives ACCESS, and a
FENCED module gives FENCED to every command but those it accepts. -/
def Obligations.PacketsAreJudged : Prop :=
  (∀ i w s r p st, packetRow i = some w → r = w.ring → p = w.packet → Intact s w → (ringOf s r.port r.idx).chain = none →
    bit p.flags 0 = false →
    ([(decide (s.boot.phase = .recovery) && !w.rule.inRecovery, Status.unsupported),
        (!reservedClear w.rule p, .badPacket),
        (decide (p.tag = 0xFFFFFFFF) || (ringOf s r.port r.idx).outstanding.any (fun o => o.tag = p.tag), .badPacket),
        (!sessionBound s r p, .badPacket),
        (!handleNames s w.rule.handle p, .access),
        (decide (w.rule.opcode ≠ 0x0011) &&
          (sget s.sessions p.session.toNat).any (fun ss => ss.closing.isSome), .cancelled),
        (w.rule.adminOnly && decide (r.idx ≠ 0), .access),
        (isFenced s && !w.rule.whenFenced, .fenced)].find? (·.1)).map (·.2) = some st →
    exec i s = .next (answeredBy s r w.rule p (replyOf st))) ∧
  (∀ i w s, packetRow i = some w → Intact s w → (ringOf s w.ring.port w.ring.idx).chain = none → bit w.packet.flags 0 = false →
    w.rule.opcode ∈ adminOpcodes → w.ring.idx ≠ 0 →
    judge s w.ring { w.rule with adminOnly := false, whenFenced := true, needsSession := false, busyInSimmer := false } w.packet =
      none →
    exec i s = .next (answeredBy s w.ring w.rule w.packet (replyOf .access))) ∧
  (∀ i w, packetRow i = some w → w.rule.opcode ∉ adminOpcodes → w.rule.adminOnly = false) ∧
  (∀ i w s, packetRow i = some w → Intact s w → (ringOf s w.ring.port w.ring.idx).chain = none → bit w.packet.flags 0 = false →
    isFenced s = true → w.rule.opcode ∉ fencedOpcodes →
    judge s w.ring { w.rule with whenFenced := true, needsSession := false, busyInSimmer := false } w.packet = none →
    exec i s = .next (answeredBy s w.ring w.rule w.packet (replyOf .fenced))) ∧
  (∀ i w s, packetRow i = some w → w.rule.opcode ∈ fencedOpcodes → judge s w.ring w.rule w.packet ≠ some .fenced)

/-- R87, R88, R93, R100, R102: a packet that is not the next one its port takes, or meets 64 outstanding commands, changes nothing; a
header error stops the ring with HEAD where it is; packets of a chain gather and act once with the whole payload, under the first
packet's parameters (the model's choice, log entry 13); and a packet of another command abandons the chain with BAD_PACKET, and waits at
HEAD while it may not start itself. -/
def Obligations.PacketsStopAndChain : Prop :=
  (∀ i w s, packetRow i = some w → packetAtHead s w.ring w.rule.opcode w.packet = false → exec i s = .next s) ∧
  (∀ i w s, packetRow i = some w → 64 ≤ (ringOf s w.ring.port w.ring.idx).outstanding.length →
    (ringOf s w.ring.port w.ring.idx).chain = none →
    headerStop (ringOf s w.ring.port w.ring.idx) (headerBytes w.rule.opcode w.packet) = none → exec i s = .next s) ∧
  (∀ i w s reason, packetRow i = some w → packetAtHead s w.ring w.rule.opcode w.packet = true →
    headerStop (ringOf s w.ring.port w.ring.idx) (headerBytes w.rule.opcode w.packet) = some reason →
    exec i s = .next (stopRing w.ring reason s) ∧
      ∀ t, exec i s = .next t → t = { s with ports := t.ports } ∧
        (ringOf t w.ring.port w.ring.idx).head = (ringOf s w.ring.port w.ring.idx).head ∧
        (ringOf t w.ring.port w.ring.idx).stopped = true) ∧
  (∀ i w s, packetRow i = some w → Intact s w → (ringOf s w.ring.port w.ring.idx).chain = none → bit w.packet.flags 0 = true →
    w.rule.chainable = true → w.packet.payloadLen.toNat % 64 = 0 → judge s w.ring w.rule w.packet = none →
    i ≠ .dataPut w.ring w.packet →
    exec i s = .next (onRingOf w.ring (fun x => { x with
        chain := some (startOf w.rule w.packet)
        outstanding := x.outstanding ++ [refFor w.ring w.rule w.packet] }) (passPacket w.ring w.packet s))) ∧
  (∀ i w s c, packetRow i = some w → Intact s w → (ringOf s w.ring.port w.ring.idx).chain = some c →
    continuesChain (ringOf s w.ring.port w.ring.idx) (headerBytes w.rule.opcode w.packet) = true →
    reservedClear w.rule w.packet = true → c.failed = none → bit w.packet.flags 0 = false → i ≠ .dataPut w.ring w.packet →
    exec i s = .next (w.body (refOf w.ring c)
      { c with payload := c.payload ++ w.packet.payload, taken := c.taken + w.packet.payload.length }
      (onRingOf w.ring (fun x => { x with chain := none }) (passPacket w.ring w.packet s)))) ∧
  (∀ i w s c x, packetRow i = some w → Intact s w → (ringOf s w.ring.port w.ring.idx).chain = some c →
    continuesChain (ringOf s w.ring.port w.ring.idx) (headerBytes w.rule.opcode w.packet) = false →
    x = complete (refOf w.ring c) { replyOf .badPacket with count0 := if c.opcode = 0x0030 then c.taken else 0 }
      (onRingOf w.ring (fun y => { y with chain := none }) s) →
    (mayStart (ringOf x w.ring.port w.ring.idx) (headerBytes w.rule.opcode w.packet) = false → exec i s = .next x) ∧
    (∀ st, mayStart (ringOf x w.ring.port w.ring.idx) (headerBytes w.rule.opcode w.packet) = true → bit w.packet.flags 0 = false →
      judge x w.ring w.rule w.packet = some st → exec i s = .next (answeredBy x w.ring w.rule w.packet (replyOf st))))
end

