-- ==== Sys2Proof/Laws/Host.lean ====
section
/-!
SUPPORT. What taking a host packet does: an accepted packet runs its command's body, one that is not at HEAD does nothing.
-/

namespace Sys2Proof.Machine

theorem abandonChain_none (s : State) (r : RingId) (h : (ringOf s r.port r.idx).chain = none) : abandonChain r s = s := by
  simp [abandonChain, h]

/-- An accepted packet runs the body of its command on the state with the packet passed. -/
theorem hostCommand_accepted {s : State} {r : RingId} {rule : CommandRule} {p : Packet}
    (body : CmdRef → Chain → State → State) (h : Starts s r rule p) :
    hostCommand r rule body p s = body (refFor r rule p) (startOf rule p) (takenBy s r rule p) := by
  obtain ⟨h1, h2, h3, h4, h5, h6⟩ := h
  have hc : continuesChain (ringOf s r.port r.idx) (headerBytes rule.opcode p) = false := by simp [continuesChain, h4]
  simp only [hostCommand, h1, if_true, takePacket, h2, h3, and_false, if_false, hc, Bool.false_eq_true, abandonChain_none s r h4,
    h4, h6, h5, false_and]
  simp [consumePacket, h6, h5, finishChain, startChain, gatherPayload, refFor, startOf, takenBy, refOf]

/-- A packet that is not the next one its port takes changes nothing (R87, R100). -/
theorem hostCommand_not_at_head {s : State} {r : RingId} {rule : CommandRule} {p : Packet}
    (body : CmdRef → Chain → State → State) (h : packetAtHead s r rule.opcode p = false) : hostCommand r rule body p s = s := by
  simp [hostCommand, h]

/-- Every row of a host packet takes its packet when it stands at HEAD, and does nothing otherwise. -/
theorem exec_packet {i : Instr} {w : HostRow} {s : State} (h : packetRow i = some w) :
    exec i s = .next (if packetAtHead s w.ring w.rule.opcode w.packet = true
      then takePacket w.ring w.rule w.gather w.body w.packet s else s) := by
  cases i <;> simp only [packetRow, Option.some.injEq, reduceCtorEq] at h <;> subst h <;>
    (simp only [exec, hostRow, hostCommand, execDataPut,
      execDevInfo, execDevStatus, execSessionOpen, execSessionClose, execMemMap, execMemUnmap, execDataGet,
      execPlanLoad, execPlanRun, execPlanCancel, execPlanResume, execPlanFree, execTableCreate, execTablePublish,
      execTableRetire, execTableMigratePolicy, execTableMigratePolicyQuery, execBasinLoadWrite, execBasinLoadClear,
      execBasinLoadRelease, execBasinSearch, execTapAttach, execTapRead, execTapWrite, execCodecCtxSpill,
      execCodecCtxFree, execPowerSetActive, execPowerSetSimmer, execPowerSetDormant, execPowerSetCold, execPowerSetPark,
      execPowerQuery, execSnapArm, execSnapRead, execTwinPair, execResync, execHandback, execTwinRelease, execTwinStatus,
      execFabricConfig, execFabricConfigQuery, execOwnerTableSet, execFwStage, execFwCommit, execAttest, execConfigPut,
      execEnroll, execConfigPutRelease, execDebugToken, execDebugTokenQuery, execMarginReport, execTestRunQuick,
      execTestRunFull, execUnitRetire, execRestore, execUnitRetireQuery] <;> rfl)

end Sys2Proof.Machine
end

