-- ==== Sys2Proof/Laws/Memory.lean ====
section
/-!
SUPPORT. The byte memories: every operation on them keeps the canonical form (R38), and a read gives back what was written.
-/

namespace Sys2Proof.Machine

@[simp] theorem memWf_nil : memWf [] := ⟨List.Pairwise.nil, by simp⟩

/-- Part of a memory in canonical form is in canonical form. -/
theorem memWf_filter {m : Memory} (f : Host.Cell → Bool) (h : memWf m) : memWf (m.filter f) :=
  ⟨h.1.filter f, fun c hc => h.2 c (List.mem_of_mem_filter hc)⟩

/-- The cells of a byte string lie between its first address and its end. -/
theorem cellsFrom_range {bs : List Byte} {a : Nat} {c : Host.Cell} (h : c ∈ cellsFrom a bs) : a ≤ c.1 ∧ c.1 < a + bs.length := by
  induction bs generalizing a with
  | nil => simp [cellsFrom] at h
  | cons b bs ih =>
    rw [cellsFrom, List.mem_cons] at h
    rcases h with rfl | h
    · simp
    · have := ih h
      simp only [List.length_cons]
      omega

/-- Their addresses rise. -/
theorem cellsFrom_rising (bs : List Byte) (a : Nat) : (cellsFrom a bs).Pairwise (fun x y => x.1 < y.1) := by
  induction bs generalizing a with
  | nil => exact List.Pairwise.nil
  | cons b bs ih => exact List.Pairwise.cons (fun c hc => (cellsFrom_range hc).1) (ih (a + 1))

/-- A write keeps the canonical form. -/
theorem memWf_memWrite {m : Memory} (a : Nat) (bs : List Byte) (h : memWf m) : memWf (memWrite m a bs) := by
  have hmid : ∀ c ∈ (cellsFrom a bs).filter (fun c => c.2 != 0), a ≤ c.1 ∧ c.1 < a + bs.length ∧ c.2 ≠ 0 := by
    intro c hc
    rw [List.mem_filter] at hc
    exact ⟨(cellsFrom_range hc.1).1, (cellsFrom_range hc.1).2, by simpa using hc.2⟩
  refine ⟨?_, ?_⟩
  · rw [memWrite, List.append_assoc, List.pairwise_append, List.pairwise_append]
    refine ⟨h.1.filter _, ⟨(cellsFrom_rising bs a).filter _, h.1.filter _, ?_⟩, ?_⟩
    · intro c hc d hd
      have := hmid c hc
      simp only [List.mem_filter, decide_eq_true_eq] at hd
      omega
    · intro c hc d hd
      simp only [List.mem_filter, decide_eq_true_eq] at hc
      rw [List.mem_append] at hd
      rcases hd with hd | hd
      · have := hmid d hd
        omega
      · simp only [List.mem_filter, decide_eq_true_eq] at hd
        omega
  · intro c hc
    rw [memWrite, List.mem_append, List.mem_append] at hc
    rcases hc with (hc | hc) | hc
    · exact h.2 c (List.mem_of_mem_filter hc)
    · exact (hmid c hc).2.2
    · exact h.2 c (List.mem_of_mem_filter hc)

/-- Clearing keeps the canonical form. -/
theorem memWf_memClear {m : Memory} (a n : Nat) (h : memWf m) : memWf (memClear m a n) := memWf_filter _ h

/-- A walk over no cells reads zeros. -/
@[simp] theorem walkCells_nil (a n : Nat) : walkCells [] a n = zeros n := by
  induction n generalizing a with
  | zero => rfl
  | succ n ih => simp [walkCells, ih, zeros, List.replicate_succ]

/-- A walk past the last cell goes on with zeros. -/
theorem walkCells_past {l : List Host.Cell} {a k : Nat} (hs : l.Pairwise (fun x y => x.1 < y.1))
    (hr : ∀ c ∈ l, a ≤ c.1 ∧ c.1 < a + k) (n : Nat) : walkCells l a (k + n) = walkCells l a k ++ zeros n := by
  induction k generalizing a l with
  | zero =>
    cases l with
    | nil => simp [zeros]
    | cons c l => have := hr c (by simp); omega
  | succ k ih =>
    rw [show k + 1 + n = (k + n) + 1 from by omega]
    cases l with
    | nil => simp [zeros]; omega
    | cons c l =>
      have h1 := hr c (by simp)
      by_cases hc : c.1 = a
      · simp only [walkCells, hc, if_true, List.cons_append]
        rw [ih (List.pairwise_cons.mp hs).2]
        intro d hd
        have := (List.pairwise_cons.mp hs).1 d hd
        have := hr d (by simp [hd])
        omega
      · simp only [walkCells, hc, if_false, List.cons_append]
        rw [ih hs]
        intro d hd
        have := hr d hd
        rw [List.mem_cons] at hd
        rcases hd with rfl | hd
        · omega
        · have := (List.pairwise_cons.mp hs).1 d hd
          omega

/-- A walk over the cells of a byte string that are listed gives the byte string. -/
theorem walkCells_cellsFrom (bs : List Byte) (a : Nat) :
    walkCells ((cellsFrom a bs).filter (fun c => c.2 != 0)) a bs.length = bs := by
  induction bs generalizing a with
  | nil => rfl
  | cons b bs ih =>
    have ahead : ∀ l : List Host.Cell, (∀ c ∈ l, a + 1 ≤ c.1) → walkCells l a (bs.length + 1) = 0 :: walkCells l (a + 1) bs.length := by
      intro l hl
      cases l with
      | nil => rfl
      | cons c l =>
        have : c.1 ≠ a := by have := hl c (by simp); omega
        simp [walkCells, this]
    rw [cellsFrom, List.length_cons]
    by_cases hb : b = 0
    · rw [List.filter_cons_of_neg (by simp [hb]), ahead, ih, hb]
      intro c hc
      exact (cellsFrom_range (List.mem_of_mem_filter hc)).1
    · rw [List.filter_cons_of_pos (by simpa using hb)]
      simp only [walkCells, if_true, ih]

/-- A read of what was just written gives it back. -/
theorem memRead_memWrite_self (m : Memory) (a : Nat) (bs : List Byte) : memRead (memWrite m a bs) a bs.length = bs := by
  have h : (memWrite m a bs).filter (fun c => decide (a ≤ c.1 ∧ c.1 < a + bs.length)) =
      (cellsFrom a bs).filter (fun c => c.2 != 0) := by
    rw [memWrite, List.filter_append, List.filter_append]
    have h1 : (m.filter (fun c => decide (c.1 < a))).filter (fun c => decide (a ≤ c.1 ∧ c.1 < a + bs.length)) = [] := by
      rw [List.filter_eq_nil_iff]
      intro c hc
      simp only [List.mem_filter, decide_eq_true_eq] at hc
      rw [decide_eq_true_eq]
      omega
    have h2 : (m.filter (fun c => decide (a + bs.length ≤ c.1))).filter (fun c => decide (a ≤ c.1 ∧ c.1 < a + bs.length)) = [] := by
      rw [List.filter_eq_nil_iff]
      intro c hc
      simp only [List.mem_filter, decide_eq_true_eq] at hc
      rw [decide_eq_true_eq]
      omega
    have h3 : ((cellsFrom a bs).filter (fun c => c.2 != 0)).filter (fun c => decide (a ≤ c.1 ∧ c.1 < a + bs.length)) =
        (cellsFrom a bs).filter (fun c => c.2 != 0) := by
      rw [List.filter_eq_self]
      intro c hc
      simpa using cellsFrom_range (List.mem_of_mem_filter hc)
    rw [h1, h2, h3]
    simp
  rw [memRead, h, walkCells_cellsFrom]

end Sys2Proof.Machine
end

