-- ==== Sys2Proof/Laws/Operators.lean ====
section
/-!
SUPPORT. What an operator's row does: one that begins ends as its body says; one that is not ready does nothing.
-/

namespace Sys2Proof.Machine

/-- An operator's effect, as its row calls it. -/
def runRow (w : OperatorRow) (s : State) : State := runOp w.plan w.op w.kind w.faults w.pre w.body s

/-- Units that are not valid are not charged. -/
theorem foldl_no_unit (h : Word) (l : List (BitVec 32)) (s : State) (hl : l.any unitValid = false) :
    l.foldl (fun x u => if unitValid u then detect h (some u) x else x) s = s := by
  induction l generalizing s with
  | nil => rfl
  | cons u l ih =>
    simp only [List.any_cons, Bool.or_eq_false_iff] at hl
    simp [hl.1, ih s hl.2]

/-- Reads without a fault that has an effect leave the state with its rereads counted. -/
theorem applyFaults_clean (h : Word) (f : ReadFaults) (s : State) (hf : ReadsClean f) :
    applyFaults h f s =
      { s := { s with err := { s.err with sectorRereads := s.err.sectorRereads + f.rereads, linkRetries := s.err.linkRetries + f.linkRetries } }
        replay := false, wait := false, poisoned := false } := by
  obtain ⟨h1, h2, h3⟩ := hf
  simp [applyFaults, h1, h2, h3, foldl_no_unit]

/-- A row that begins runs its body on the step as it then stands. -/
theorem runRow_begins {w : OperatorRow} {s : State} {c0 c : Ctx} (hb : OpBegins w s c0 c) :
    runRow w s = endOp w.plan (rowSlots w s c0) c (keepChecks w.faults (w.body (startWrites c))) (begun w s) := by
  obtain ⟨⟨h1, h2, h3, h4, h5, h6⟩, ⟨g1, g2, g3⟩, hf, hc, ⟨b1, b2⟩, hp⟩ := hb
  simp only [rowSlots] at g1
  simp [runRow, runOp, h1, h2, h4, h5, h6, g1, g2, g3, applyFaults_clean w.plan w.faults _ hf]
  rw [begun] at hc
  dsimp only at hc
  simp [hc, b1, b2, hp, rowSlots, begun]

/-- The meaning of every row is `runRow`, once its mode is the operator's. -/
theorem exec_row {i : Instr} {w : OperatorRow} {s : State} {c : Ctx} (hi : operatorRow i = some w)
    (hc : ctxOf s w.plan w.op = some c) (hm : w.mode c.e = true) : exec i s = .next (runRow w s) := by
  cases i <;> simp only [operatorRow, Option.some.injEq, reduceCtorEq] at hi <;> subst hi <;>
    simp_all [exec, runRow, plainRow, execScan, execDecode, execEncode, execCheck, execRelayout, execFilter, execProject, execHash,
      execBucket, execNormalise, execStats, execJoinBuild, execJoinProbe, execGroupAgg, execSort, execGather, execPoolGather,
      execScatterUpdate, execDense, execActivate, execNorm, execInteract, execAttendShort, execSoftmax, execDenseGradInput,
      execDenseGradWeight, execOptStep, execTopk, execTopkCollective, execMatchOp, execExchangeSend, execExchangeReturn,
      execReduce, execAllgather, execBarrier, execEmit, gradModeOk, topModeOk, exchangeModeOk]

/-- A row whose operator begins: what exec answers. -/
theorem exec_begins {i : Instr} {w : OperatorRow} {s : State} {c0 c : Ctx} (hi : operatorRow i = some w)
    (hb : OpBegins w s c0 c) : 
    exec i s = .next (endOp w.plan (rowSlots w s c0) c (keepChecks w.faults (w.body (startWrites c))) (begun w s)) := by
  rw [exec_row hi hb.1.1 hb.1.2.2.1, runRow_begins hb]

/-- An operator that begins and whose body is done completes. -/
theorem completes_of_done {i : Instr} {w : OperatorRow} {s : State} {c0 c c' : Ctx} {P : Ctx → Prop}
    (hi : operatorRow i = some w) (hb : OpBegins w s c0 c) 
    (hd : w.body (startWrites c) = .done c') (hp : P c') : Completes i w s c0 c P :=
  ⟨c', hd, hp, by rw [exec_begins hi hb, hd]; rfl⟩

end Sys2Proof.Machine
end

