-- ==== Sys2Proof/Laws/State.lean ====
section
/-!
SUPPORT. What each shared update of the state does to each of its fields.
-/

namespace Sys2Proof.Machine

/-! ### `takeFresh` -/

@[simp] theorem takeFresh_pending (n : Nat) (s : State) : (takeFresh n s).pending = s.pending := rfl
@[simp] theorem takeFresh_time (n : Nat) (s : State) : (takeFresh n s).time = s.time := rfl
@[simp] theorem takeFresh_freeCount (n : Nat) (s : State) : (takeFresh n s).freeCount = s.freeCount + n := rfl
@[simp] theorem takeFresh_near (n : Nat) (s : State) : (takeFresh n s).near = s.near := rfl
@[simp] theorem takeFresh_far (n : Nat) (s : State) : (takeFresh n s).far = s.far := rfl
@[simp] theorem takeFresh_staging (n : Nat) (s : State) : (takeFresh n s).staging = s.staging := rfl
@[simp] theorem takeFresh_pools (n : Nat) (s : State) : (takeFresh n s).pools = s.pools := rfl
@[simp] theorem takeFresh_poolParity (n : Nat) (s : State) : (takeFresh n s).poolParity = s.poolParity := rfl
@[simp] theorem takeFresh_aonStore (n : Nat) (s : State) : (takeFresh n s).aonStore = s.aonStore := rfl
@[simp] theorem takeFresh_xlate (n : Nat) (s : State) : (takeFresh n s).xlate = s.xlate := rfl
@[simp] theorem takeFresh_sessions (n : Nat) (s : State) : (takeFresh n s).sessions = s.sessions := rfl
@[simp] theorem takeFresh_ports (n : Nat) (s : State) : (takeFresh n s).ports = s.ports := rfl
@[simp] theorem takeFresh_plans (n : Nat) (s : State) : (takeFresh n s).plans = s.plans := rfl
@[simp] theorem takeFresh_tables (n : Nat) (s : State) : (takeFresh n s).tables = s.tables := rfl
@[simp] theorem takeFresh_planSerial (n : Nat) (s : State) : (takeFresh n s).planSerial = s.planSerial := rfl
@[simp] theorem takeFresh_tableSerial (n : Nat) (s : State) : (takeFresh n s).tableSerial = s.tableSerial := rfl
@[simp] theorem takeFresh_ctxSerial (n : Nat) (s : State) : (takeFresh n s).ctxSerial = s.ctxSerial := rfl
@[simp] theorem takeFresh_rowDir (n : Nat) (s : State) : (takeFresh n s).rowDir = s.rowDir := rfl
@[simp] theorem takeFresh_contexts (n : Nat) (s : State) : (takeFresh n s).contexts = s.contexts := rfl
@[simp] theorem takeFresh_taps (n : Nat) (s : State) : (takeFresh n s).taps = s.taps := rfl
@[simp] theorem takeFresh_basin (n : Nat) (s : State) : (takeFresh n s).basin = s.basin := rfl
@[simp] theorem takeFresh_owner (n : Nat) (s : State) : (takeFresh n s).owner = s.owner := rfl
@[simp] theorem takeFresh_fabric (n : Nat) (s : State) : (takeFresh n s).fabric = s.fabric := rfl
@[simp] theorem takeFresh_twin (n : Nat) (s : State) : (takeFresh n s).twin = s.twin := rfl
@[simp] theorem takeFresh_err (n : Nat) (s : State) : (takeFresh n s).err = s.err := rfl
@[simp] theorem takeFresh_power (n : Nat) (s : State) : (takeFresh n s).power = s.power := rfl
@[simp] theorem takeFresh_age (n : Nat) (s : State) : (takeFresh n s).age = s.age := rfl
@[simp] theorem takeFresh_tremor (n : Nat) (s : State) : (takeFresh n s).tremor = s.tremor := rfl
@[simp] theorem takeFresh_dbg (n : Nat) (s : State) : (takeFresh n s).dbg = s.dbg := rfl
@[simp] theorem takeFresh_boot (n : Nat) (s : State) : (takeFresh n s).boot = s.boot := rfl
@[simp] theorem takeFresh_pins (n : Nat) (s : State) : (takeFresh n s).pins = s.pins := rfl
@[simp] theorem takeFresh_clock (n : Nat) (s : State) : (takeFresh n s).clock = s.clock := rfl

/-! ### `onPort` -/

@[simp] theorem onPort_pending (p : Nat) (f : Port → Port) (s : State) : (onPort p f s).pending = s.pending := rfl
@[simp] theorem onPort_time (p : Nat) (f : Port → Port) (s : State) : (onPort p f s).time = s.time := rfl
@[simp] theorem onPort_freeCount (p : Nat) (f : Port → Port) (s : State) : (onPort p f s).freeCount = s.freeCount := rfl
@[simp] theorem onPort_near (p : Nat) (f : Port → Port) (s : State) : (onPort p f s).near = s.near := rfl
@[simp] theorem onPort_far (p : Nat) (f : Port → Port) (s : State) : (onPort p f s).far = s.far := rfl
@[simp] theorem onPort_staging (p : Nat) (f : Port → Port) (s : State) : (onPort p f s).staging = s.staging := rfl
@[simp] theorem onPort_pools (p : Nat) (f : Port → Port) (s : State) : (onPort p f s).pools = s.pools := rfl
@[simp] theorem onPort_poolParity (p : Nat) (f : Port → Port) (s : State) : (onPort p f s).poolParity = s.poolParity := rfl
@[simp] theorem onPort_aonStore (p : Nat) (f : Port → Port) (s : State) : (onPort p f s).aonStore = s.aonStore := rfl
@[simp] theorem onPort_xlate (p : Nat) (f : Port → Port) (s : State) : (onPort p f s).xlate = s.xlate := rfl
@[simp] theorem onPort_sessions (p : Nat) (f : Port → Port) (s : State) : (onPort p f s).sessions = s.sessions := rfl
@[simp] theorem onPort_ports (p : Nat) (f : Port → Port) (s : State) : (onPort p f s).ports = modAt s.ports p f := rfl
@[simp] theorem onPort_plans (p : Nat) (f : Port → Port) (s : State) : (onPort p f s).plans = s.plans := rfl
@[simp] theorem onPort_tables (p : Nat) (f : Port → Port) (s : State) : (onPort p f s).tables = s.tables := rfl
@[simp] theorem onPort_planSerial (p : Nat) (f : Port → Port) (s : State) : (onPort p f s).planSerial = s.planSerial := rfl
@[simp] theorem onPort_tableSerial (p : Nat) (f : Port → Port) (s : State) : (onPort p f s).tableSerial = s.tableSerial := rfl
@[simp] theorem onPort_ctxSerial (p : Nat) (f : Port → Port) (s : State) : (onPort p f s).ctxSerial = s.ctxSerial := rfl
@[simp] theorem onPort_rowDir (p : Nat) (f : Port → Port) (s : State) : (onPort p f s).rowDir = s.rowDir := rfl
@[simp] theorem onPort_contexts (p : Nat) (f : Port → Port) (s : State) : (onPort p f s).contexts = s.contexts := rfl
@[simp] theorem onPort_taps (p : Nat) (f : Port → Port) (s : State) : (onPort p f s).taps = s.taps := rfl
@[simp] theorem onPort_basin (p : Nat) (f : Port → Port) (s : State) : (onPort p f s).basin = s.basin := rfl
@[simp] theorem onPort_owner (p : Nat) (f : Port → Port) (s : State) : (onPort p f s).owner = s.owner := rfl
@[simp] theorem onPort_fabric (p : Nat) (f : Port → Port) (s : State) : (onPort p f s).fabric = s.fabric := rfl
@[simp] theorem onPort_twin (p : Nat) (f : Port → Port) (s : State) : (onPort p f s).twin = s.twin := rfl
@[simp] theorem onPort_err (p : Nat) (f : Port → Port) (s : State) : (onPort p f s).err = s.err := rfl
@[simp] theorem onPort_power (p : Nat) (f : Port → Port) (s : State) : (onPort p f s).power = s.power := rfl
@[simp] theorem onPort_age (p : Nat) (f : Port → Port) (s : State) : (onPort p f s).age = s.age := rfl
@[simp] theorem onPort_tremor (p : Nat) (f : Port → Port) (s : State) : (onPort p f s).tremor = s.tremor := rfl
@[simp] theorem onPort_dbg (p : Nat) (f : Port → Port) (s : State) : (onPort p f s).dbg = s.dbg := rfl
@[simp] theorem onPort_boot (p : Nat) (f : Port → Port) (s : State) : (onPort p f s).boot = s.boot := rfl
@[simp] theorem onPort_pins (p : Nat) (f : Port → Port) (s : State) : (onPort p f s).pins = s.pins := rfl
@[simp] theorem onPort_clock (p : Nat) (f : Port → Port) (s : State) : (onPort p f s).clock = s.clock := rfl

/-! ### `onPorts` -/

@[simp] theorem onPorts_pending (f : Port → Port) (s : State) : (onPorts f s).pending = s.pending := rfl
@[simp] theorem onPorts_time (f : Port → Port) (s : State) : (onPorts f s).time = s.time := rfl
@[simp] theorem onPorts_freeCount (f : Port → Port) (s : State) : (onPorts f s).freeCount = s.freeCount := rfl
@[simp] theorem onPorts_near (f : Port → Port) (s : State) : (onPorts f s).near = s.near := rfl
@[simp] theorem onPorts_far (f : Port → Port) (s : State) : (onPorts f s).far = s.far := rfl
@[simp] theorem onPorts_staging (f : Port → Port) (s : State) : (onPorts f s).staging = s.staging := rfl
@[simp] theorem onPorts_pools (f : Port → Port) (s : State) : (onPorts f s).pools = s.pools := rfl
@[simp] theorem onPorts_poolParity (f : Port → Port) (s : State) : (onPorts f s).poolParity = s.poolParity := rfl
@[simp] theorem onPorts_aonStore (f : Port → Port) (s : State) : (onPorts f s).aonStore = s.aonStore := rfl
@[simp] theorem onPorts_xlate (f : Port → Port) (s : State) : (onPorts f s).xlate = s.xlate := rfl
@[simp] theorem onPorts_sessions (f : Port → Port) (s : State) : (onPorts f s).sessions = s.sessions := rfl
@[simp] theorem onPorts_ports (f : Port → Port) (s : State) : (onPorts f s).ports = s.ports.map f := rfl
@[simp] theorem onPorts_plans (f : Port → Port) (s : State) : (onPorts f s).plans = s.plans := rfl
@[simp] theorem onPorts_tables (f : Port → Port) (s : State) : (onPorts f s).tables = s.tables := rfl
@[simp] theorem onPorts_planSerial (f : Port → Port) (s : State) : (onPorts f s).planSerial = s.planSerial := rfl
@[simp] theorem onPorts_tableSerial (f : Port → Port) (s : State) : (onPorts f s).tableSerial = s.tableSerial := rfl
@[simp] theorem onPorts_ctxSerial (f : Port → Port) (s : State) : (onPorts f s).ctxSerial = s.ctxSerial := rfl
@[simp] theorem onPorts_rowDir (f : Port → Port) (s : State) : (onPorts f s).rowDir = s.rowDir := rfl
@[simp] theorem onPorts_contexts (f : Port → Port) (s : State) : (onPorts f s).contexts = s.contexts := rfl
@[simp] theorem onPorts_taps (f : Port → Port) (s : State) : (onPorts f s).taps = s.taps := rfl
@[simp] theorem onPorts_basin (f : Port → Port) (s : State) : (onPorts f s).basin = s.basin := rfl
@[simp] theorem onPorts_owner (f : Port → Port) (s : State) : (onPorts f s).owner = s.owner := rfl
@[simp] theorem onPorts_fabric (f : Port → Port) (s : State) : (onPorts f s).fabric = s.fabric := rfl
@[simp] theorem onPorts_twin (f : Port → Port) (s : State) : (onPorts f s).twin = s.twin := rfl
@[simp] theorem onPorts_err (f : Port → Port) (s : State) : (onPorts f s).err = s.err := rfl
@[simp] theorem onPorts_power (f : Port → Port) (s : State) : (onPorts f s).power = s.power := rfl
@[simp] theorem onPorts_age (f : Port → Port) (s : State) : (onPorts f s).age = s.age := rfl
@[simp] theorem onPorts_tremor (f : Port → Port) (s : State) : (onPorts f s).tremor = s.tremor := rfl
@[simp] theorem onPorts_dbg (f : Port → Port) (s : State) : (onPorts f s).dbg = s.dbg := rfl
@[simp] theorem onPorts_boot (f : Port → Port) (s : State) : (onPorts f s).boot = s.boot := rfl
@[simp] theorem onPorts_pins (f : Port → Port) (s : State) : (onPorts f s).pins = s.pins := rfl
@[simp] theorem onPorts_clock (f : Port → Port) (s : State) : (onPorts f s).clock = s.clock := rfl

/-! ### `onRingOf` -/

@[simp] theorem onRingOf_pending (r : RingId) (f : Ring → Ring) (s : State) : (onRingOf r f s).pending = s.pending := rfl
@[simp] theorem onRingOf_time (r : RingId) (f : Ring → Ring) (s : State) : (onRingOf r f s).time = s.time := rfl
@[simp] theorem onRingOf_freeCount (r : RingId) (f : Ring → Ring) (s : State) : (onRingOf r f s).freeCount = s.freeCount := rfl
@[simp] theorem onRingOf_near (r : RingId) (f : Ring → Ring) (s : State) : (onRingOf r f s).near = s.near := rfl
@[simp] theorem onRingOf_far (r : RingId) (f : Ring → Ring) (s : State) : (onRingOf r f s).far = s.far := rfl
@[simp] theorem onRingOf_staging (r : RingId) (f : Ring → Ring) (s : State) : (onRingOf r f s).staging = s.staging := rfl
@[simp] theorem onRingOf_pools (r : RingId) (f : Ring → Ring) (s : State) : (onRingOf r f s).pools = s.pools := rfl
@[simp] theorem onRingOf_poolParity (r : RingId) (f : Ring → Ring) (s : State) : (onRingOf r f s).poolParity = s.poolParity := rfl
@[simp] theorem onRingOf_aonStore (r : RingId) (f : Ring → Ring) (s : State) : (onRingOf r f s).aonStore = s.aonStore := rfl
@[simp] theorem onRingOf_xlate (r : RingId) (f : Ring → Ring) (s : State) : (onRingOf r f s).xlate = s.xlate := rfl
@[simp] theorem onRingOf_sessions (r : RingId) (f : Ring → Ring) (s : State) : (onRingOf r f s).sessions = s.sessions := rfl
@[simp] theorem onRingOf_ports (r : RingId) (f : Ring → Ring) (s : State) : (onRingOf r f s).ports = modAt s.ports r.port (onRing r.idx f) := rfl
@[simp] theorem onRingOf_plans (r : RingId) (f : Ring → Ring) (s : State) : (onRingOf r f s).plans = s.plans := rfl
@[simp] theorem onRingOf_tables (r : RingId) (f : Ring → Ring) (s : State) : (onRingOf r f s).tables = s.tables := rfl
@[simp] theorem onRingOf_planSerial (r : RingId) (f : Ring → Ring) (s : State) : (onRingOf r f s).planSerial = s.planSerial := rfl
@[simp] theorem onRingOf_tableSerial (r : RingId) (f : Ring → Ring) (s : State) : (onRingOf r f s).tableSerial = s.tableSerial := rfl
@[simp] theorem onRingOf_ctxSerial (r : RingId) (f : Ring → Ring) (s : State) : (onRingOf r f s).ctxSerial = s.ctxSerial := rfl
@[simp] theorem onRingOf_rowDir (r : RingId) (f : Ring → Ring) (s : State) : (onRingOf r f s).rowDir = s.rowDir := rfl
@[simp] theorem onRingOf_contexts (r : RingId) (f : Ring → Ring) (s : State) : (onRingOf r f s).contexts = s.contexts := rfl
@[simp] theorem onRingOf_taps (r : RingId) (f : Ring → Ring) (s : State) : (onRingOf r f s).taps = s.taps := rfl
@[simp] theorem onRingOf_basin (r : RingId) (f : Ring → Ring) (s : State) : (onRingOf r f s).basin = s.basin := rfl
@[simp] theorem onRingOf_owner (r : RingId) (f : Ring → Ring) (s : State) : (onRingOf r f s).owner = s.owner := rfl
@[simp] theorem onRingOf_fabric (r : RingId) (f : Ring → Ring) (s : State) : (onRingOf r f s).fabric = s.fabric := rfl
@[simp] theorem onRingOf_twin (r : RingId) (f : Ring → Ring) (s : State) : (onRingOf r f s).twin = s.twin := rfl
@[simp] theorem onRingOf_err (r : RingId) (f : Ring → Ring) (s : State) : (onRingOf r f s).err = s.err := rfl
@[simp] theorem onRingOf_power (r : RingId) (f : Ring → Ring) (s : State) : (onRingOf r f s).power = s.power := rfl
@[simp] theorem onRingOf_age (r : RingId) (f : Ring → Ring) (s : State) : (onRingOf r f s).age = s.age := rfl
@[simp] theorem onRingOf_tremor (r : RingId) (f : Ring → Ring) (s : State) : (onRingOf r f s).tremor = s.tremor := rfl
@[simp] theorem onRingOf_dbg (r : RingId) (f : Ring → Ring) (s : State) : (onRingOf r f s).dbg = s.dbg := rfl
@[simp] theorem onRingOf_boot (r : RingId) (f : Ring → Ring) (s : State) : (onRingOf r f s).boot = s.boot := rfl
@[simp] theorem onRingOf_pins (r : RingId) (f : Ring → Ring) (s : State) : (onRingOf r f s).pins = s.pins := rfl
@[simp] theorem onRingOf_clock (r : RingId) (f : Ring → Ring) (s : State) : (onRingOf r f s).clock = s.clock := rfl

/-! ### `setAon` -/

@[simp] theorem setAon_pending (b : Nat) (s : State) : (setAon b s).pending = s.pending := rfl
@[simp] theorem setAon_time (b : Nat) (s : State) : (setAon b s).time = s.time := rfl
@[simp] theorem setAon_freeCount (b : Nat) (s : State) : (setAon b s).freeCount = s.freeCount := rfl
@[simp] theorem setAon_near (b : Nat) (s : State) : (setAon b s).near = s.near := rfl
@[simp] theorem setAon_far (b : Nat) (s : State) : (setAon b s).far = s.far := rfl
@[simp] theorem setAon_staging (b : Nat) (s : State) : (setAon b s).staging = s.staging := rfl
@[simp] theorem setAon_pools (b : Nat) (s : State) : (setAon b s).pools = s.pools := rfl
@[simp] theorem setAon_poolParity (b : Nat) (s : State) : (setAon b s).poolParity = s.poolParity := rfl
@[simp] theorem setAon_aonStore (b : Nat) (s : State) : (setAon b s).aonStore = s.aonStore := rfl
@[simp] theorem setAon_xlate (b : Nat) (s : State) : (setAon b s).xlate = s.xlate := rfl
@[simp] theorem setAon_sessions (b : Nat) (s : State) : (setAon b s).sessions = s.sessions := rfl
@[simp] theorem setAon_ports (b : Nat) (s : State) : (setAon b s).ports = s.ports := rfl
@[simp] theorem setAon_plans (b : Nat) (s : State) : (setAon b s).plans = s.plans := rfl
@[simp] theorem setAon_tables (b : Nat) (s : State) : (setAon b s).tables = s.tables := rfl
@[simp] theorem setAon_planSerial (b : Nat) (s : State) : (setAon b s).planSerial = s.planSerial := rfl
@[simp] theorem setAon_tableSerial (b : Nat) (s : State) : (setAon b s).tableSerial = s.tableSerial := rfl
@[simp] theorem setAon_ctxSerial (b : Nat) (s : State) : (setAon b s).ctxSerial = s.ctxSerial := rfl
@[simp] theorem setAon_rowDir (b : Nat) (s : State) : (setAon b s).rowDir = s.rowDir := rfl
@[simp] theorem setAon_contexts (b : Nat) (s : State) : (setAon b s).contexts = s.contexts := rfl
@[simp] theorem setAon_taps (b : Nat) (s : State) : (setAon b s).taps = s.taps := rfl
@[simp] theorem setAon_basin (b : Nat) (s : State) : (setAon b s).basin = s.basin := rfl
@[simp] theorem setAon_owner (b : Nat) (s : State) : (setAon b s).owner = s.owner := rfl
@[simp] theorem setAon_fabric (b : Nat) (s : State) : (setAon b s).fabric = s.fabric := rfl
@[simp] theorem setAon_twin (b : Nat) (s : State) : (setAon b s).twin = s.twin := rfl
@[simp] theorem setAon_err (b : Nat) (s : State) : (setAon b s).err = s.err := rfl
@[simp] theorem setAon_power (b : Nat) (s : State) : (setAon b s).power = s.power := rfl
@[simp] theorem setAon_age (b : Nat) (s : State) : (setAon b s).age = s.age := rfl
@[simp] theorem setAon_tremor (b : Nat) (s : State) : (setAon b s).tremor = s.tremor := rfl
@[simp] theorem setAon_dbg (b : Nat) (s : State) : (setAon b s).dbg = s.dbg := rfl
@[simp] theorem setAon_boot (b : Nat) (s : State) : (setAon b s).boot = { s.boot with aonFlags := setBit s.boot.aonFlags b } := rfl
@[simp] theorem setAon_pins (b : Nat) (s : State) : (setAon b s).pins = s.pins := rfl
@[simp] theorem setAon_clock (b : Nat) (s : State) : (setAon b s).clock = s.clock := rfl

/-! ### `onNor` -/

@[simp] theorem onNor_pending (f : Nor → Nor) (s : State) : (onNor f s).pending = s.pending := rfl
@[simp] theorem onNor_time (f : Nor → Nor) (s : State) : (onNor f s).time = s.time := rfl
@[simp] theorem onNor_freeCount (f : Nor → Nor) (s : State) : (onNor f s).freeCount = s.freeCount := rfl
@[simp] theorem onNor_near (f : Nor → Nor) (s : State) : (onNor f s).near = s.near := rfl
@[simp] theorem onNor_far (f : Nor → Nor) (s : State) : (onNor f s).far = s.far := rfl
@[simp] theorem onNor_staging (f : Nor → Nor) (s : State) : (onNor f s).staging = s.staging := rfl
@[simp] theorem onNor_pools (f : Nor → Nor) (s : State) : (onNor f s).pools = s.pools := rfl
@[simp] theorem onNor_poolParity (f : Nor → Nor) (s : State) : (onNor f s).poolParity = s.poolParity := rfl
@[simp] theorem onNor_aonStore (f : Nor → Nor) (s : State) : (onNor f s).aonStore = s.aonStore := rfl
@[simp] theorem onNor_xlate (f : Nor → Nor) (s : State) : (onNor f s).xlate = s.xlate := rfl
@[simp] theorem onNor_sessions (f : Nor → Nor) (s : State) : (onNor f s).sessions = s.sessions := rfl
@[simp] theorem onNor_ports (f : Nor → Nor) (s : State) : (onNor f s).ports = s.ports := rfl
@[simp] theorem onNor_plans (f : Nor → Nor) (s : State) : (onNor f s).plans = s.plans := rfl
@[simp] theorem onNor_tables (f : Nor → Nor) (s : State) : (onNor f s).tables = s.tables := rfl
@[simp] theorem onNor_planSerial (f : Nor → Nor) (s : State) : (onNor f s).planSerial = s.planSerial := rfl
@[simp] theorem onNor_tableSerial (f : Nor → Nor) (s : State) : (onNor f s).tableSerial = s.tableSerial := rfl
@[simp] theorem onNor_ctxSerial (f : Nor → Nor) (s : State) : (onNor f s).ctxSerial = s.ctxSerial := rfl
@[simp] theorem onNor_rowDir (f : Nor → Nor) (s : State) : (onNor f s).rowDir = s.rowDir := rfl
@[simp] theorem onNor_contexts (f : Nor → Nor) (s : State) : (onNor f s).contexts = s.contexts := rfl
@[simp] theorem onNor_taps (f : Nor → Nor) (s : State) : (onNor f s).taps = s.taps := rfl
@[simp] theorem onNor_basin (f : Nor → Nor) (s : State) : (onNor f s).basin = s.basin := rfl
@[simp] theorem onNor_owner (f : Nor → Nor) (s : State) : (onNor f s).owner = s.owner := rfl
@[simp] theorem onNor_fabric (f : Nor → Nor) (s : State) : (onNor f s).fabric = s.fabric := rfl
@[simp] theorem onNor_twin (f : Nor → Nor) (s : State) : (onNor f s).twin = s.twin := rfl
@[simp] theorem onNor_err (f : Nor → Nor) (s : State) : (onNor f s).err = s.err := rfl
@[simp] theorem onNor_power (f : Nor → Nor) (s : State) : (onNor f s).power = s.power := rfl
@[simp] theorem onNor_age (f : Nor → Nor) (s : State) : (onNor f s).age = s.age := rfl
@[simp] theorem onNor_tremor (f : Nor → Nor) (s : State) : (onNor f s).tremor = s.tremor := rfl
@[simp] theorem onNor_dbg (f : Nor → Nor) (s : State) : (onNor f s).dbg = s.dbg := rfl
@[simp] theorem onNor_boot (f : Nor → Nor) (s : State) : (onNor f s).boot = { s.boot with nor := f s.boot.nor } := rfl
@[simp] theorem onNor_pins (f : Nor → Nor) (s : State) : (onNor f s).pins = s.pins := rfl
@[simp] theorem onNor_clock (f : Nor → Nor) (s : State) : (onNor f s).clock = s.clock := rfl

/-! ### `onPlan` -/

@[simp] theorem onPlan_pending (h : Word) (f : Plan → Plan) (s : State) : (onPlan h f s).pending = s.pending := rfl
@[simp] theorem onPlan_time (h : Word) (f : Plan → Plan) (s : State) : (onPlan h f s).time = s.time := rfl
@[simp] theorem onPlan_freeCount (h : Word) (f : Plan → Plan) (s : State) : (onPlan h f s).freeCount = s.freeCount := rfl
@[simp] theorem onPlan_near (h : Word) (f : Plan → Plan) (s : State) : (onPlan h f s).near = s.near := rfl
@[simp] theorem onPlan_far (h : Word) (f : Plan → Plan) (s : State) : (onPlan h f s).far = s.far := rfl
@[simp] theorem onPlan_staging (h : Word) (f : Plan → Plan) (s : State) : (onPlan h f s).staging = s.staging := rfl
@[simp] theorem onPlan_pools (h : Word) (f : Plan → Plan) (s : State) : (onPlan h f s).pools = s.pools := rfl
@[simp] theorem onPlan_poolParity (h : Word) (f : Plan → Plan) (s : State) : (onPlan h f s).poolParity = s.poolParity := rfl
@[simp] theorem onPlan_aonStore (h : Word) (f : Plan → Plan) (s : State) : (onPlan h f s).aonStore = s.aonStore := rfl
@[simp] theorem onPlan_xlate (h : Word) (f : Plan → Plan) (s : State) : (onPlan h f s).xlate = s.xlate := rfl
@[simp] theorem onPlan_sessions (h : Word) (f : Plan → Plan) (s : State) : (onPlan h f s).sessions = s.sessions := rfl
@[simp] theorem onPlan_ports (h : Word) (f : Plan → Plan) (s : State) : (onPlan h f s).ports = s.ports := rfl
@[simp] theorem onPlan_plans (h : Word) (f : Plan → Plan) (s : State) : (onPlan h f s).plans = s.plans.map (fun p => if p.handle = h then f p else p) := rfl
@[simp] theorem onPlan_tables (h : Word) (f : Plan → Plan) (s : State) : (onPlan h f s).tables = s.tables := rfl
@[simp] theorem onPlan_planSerial (h : Word) (f : Plan → Plan) (s : State) : (onPlan h f s).planSerial = s.planSerial := rfl
@[simp] theorem onPlan_tableSerial (h : Word) (f : Plan → Plan) (s : State) : (onPlan h f s).tableSerial = s.tableSerial := rfl
@[simp] theorem onPlan_ctxSerial (h : Word) (f : Plan → Plan) (s : State) : (onPlan h f s).ctxSerial = s.ctxSerial := rfl
@[simp] theorem onPlan_rowDir (h : Word) (f : Plan → Plan) (s : State) : (onPlan h f s).rowDir = s.rowDir := rfl
@[simp] theorem onPlan_contexts (h : Word) (f : Plan → Plan) (s : State) : (onPlan h f s).contexts = s.contexts := rfl
@[simp] theorem onPlan_taps (h : Word) (f : Plan → Plan) (s : State) : (onPlan h f s).taps = s.taps := rfl
@[simp] theorem onPlan_basin (h : Word) (f : Plan → Plan) (s : State) : (onPlan h f s).basin = s.basin := rfl
@[simp] theorem onPlan_owner (h : Word) (f : Plan → Plan) (s : State) : (onPlan h f s).owner = s.owner := rfl
@[simp] theorem onPlan_fabric (h : Word) (f : Plan → Plan) (s : State) : (onPlan h f s).fabric = s.fabric := rfl
@[simp] theorem onPlan_twin (h : Word) (f : Plan → Plan) (s : State) : (onPlan h f s).twin = s.twin := rfl
@[simp] theorem onPlan_err (h : Word) (f : Plan → Plan) (s : State) : (onPlan h f s).err = s.err := rfl
@[simp] theorem onPlan_power (h : Word) (f : Plan → Plan) (s : State) : (onPlan h f s).power = s.power := rfl
@[simp] theorem onPlan_age (h : Word) (f : Plan → Plan) (s : State) : (onPlan h f s).age = s.age := rfl
@[simp] theorem onPlan_tremor (h : Word) (f : Plan → Plan) (s : State) : (onPlan h f s).tremor = s.tremor := rfl
@[simp] theorem onPlan_dbg (h : Word) (f : Plan → Plan) (s : State) : (onPlan h f s).dbg = s.dbg := rfl
@[simp] theorem onPlan_boot (h : Word) (f : Plan → Plan) (s : State) : (onPlan h f s).boot = s.boot := rfl
@[simp] theorem onPlan_pins (h : Word) (f : Plan → Plan) (s : State) : (onPlan h f s).pins = s.pins := rfl
@[simp] theorem onPlan_clock (h : Word) (f : Plan → Plan) (s : State) : (onPlan h f s).clock = s.clock := rfl

/-! ### `onTable` -/

@[simp] theorem onTable_pending (h : Word) (f : EmbTable → EmbTable) (s : State) : (onTable h f s).pending = s.pending := rfl
@[simp] theorem onTable_time (h : Word) (f : EmbTable → EmbTable) (s : State) : (onTable h f s).time = s.time := rfl
@[simp] theorem onTable_freeCount (h : Word) (f : EmbTable → EmbTable) (s : State) : (onTable h f s).freeCount = s.freeCount := rfl
@[simp] theorem onTable_near (h : Word) (f : EmbTable → EmbTable) (s : State) : (onTable h f s).near = s.near := rfl
@[simp] theorem onTable_far (h : Word) (f : EmbTable → EmbTable) (s : State) : (onTable h f s).far = s.far := rfl
@[simp] theorem onTable_staging (h : Word) (f : EmbTable → EmbTable) (s : State) : (onTable h f s).staging = s.staging := rfl
@[simp] theorem onTable_pools (h : Word) (f : EmbTable → EmbTable) (s : State) : (onTable h f s).pools = s.pools := rfl
@[simp] theorem onTable_poolParity (h : Word) (f : EmbTable → EmbTable) (s : State) : (onTable h f s).poolParity = s.poolParity := rfl
@[simp] theorem onTable_aonStore (h : Word) (f : EmbTable → EmbTable) (s : State) : (onTable h f s).aonStore = s.aonStore := rfl
@[simp] theorem onTable_xlate (h : Word) (f : EmbTable → EmbTable) (s : State) : (onTable h f s).xlate = s.xlate := rfl
@[simp] theorem onTable_sessions (h : Word) (f : EmbTable → EmbTable) (s : State) : (onTable h f s).sessions = s.sessions := rfl
@[simp] theorem onTable_ports (h : Word) (f : EmbTable → EmbTable) (s : State) : (onTable h f s).ports = s.ports := rfl
@[simp] theorem onTable_plans (h : Word) (f : EmbTable → EmbTable) (s : State) : (onTable h f s).plans = s.plans := rfl
@[simp] theorem onTable_tables (h : Word) (f : EmbTable → EmbTable) (s : State) : (onTable h f s).tables = s.tables.map (fun t => if t.handle = h then f t else t) := rfl
@[simp] theorem onTable_planSerial (h : Word) (f : EmbTable → EmbTable) (s : State) : (onTable h f s).planSerial = s.planSerial := rfl
@[simp] theorem onTable_tableSerial (h : Word) (f : EmbTable → EmbTable) (s : State) : (onTable h f s).tableSerial = s.tableSerial := rfl
@[simp] theorem onTable_ctxSerial (h : Word) (f : EmbTable → EmbTable) (s : State) : (onTable h f s).ctxSerial = s.ctxSerial := rfl
@[simp] theorem onTable_rowDir (h : Word) (f : EmbTable → EmbTable) (s : State) : (onTable h f s).rowDir = s.rowDir := rfl
@[simp] theorem onTable_contexts (h : Word) (f : EmbTable → EmbTable) (s : State) : (onTable h f s).contexts = s.contexts := rfl
@[simp] theorem onTable_taps (h : Word) (f : EmbTable → EmbTable) (s : State) : (onTable h f s).taps = s.taps := rfl
@[simp] theorem onTable_basin (h : Word) (f : EmbTable → EmbTable) (s : State) : (onTable h f s).basin = s.basin := rfl
@[simp] theorem onTable_owner (h : Word) (f : EmbTable → EmbTable) (s : State) : (onTable h f s).owner = s.owner := rfl
@[simp] theorem onTable_fabric (h : Word) (f : EmbTable → EmbTable) (s : State) : (onTable h f s).fabric = s.fabric := rfl
@[simp] theorem onTable_twin (h : Word) (f : EmbTable → EmbTable) (s : State) : (onTable h f s).twin = s.twin := rfl
@[simp] theorem onTable_err (h : Word) (f : EmbTable → EmbTable) (s : State) : (onTable h f s).err = s.err := rfl
@[simp] theorem onTable_power (h : Word) (f : EmbTable → EmbTable) (s : State) : (onTable h f s).power = s.power := rfl
@[simp] theorem onTable_age (h : Word) (f : EmbTable → EmbTable) (s : State) : (onTable h f s).age = s.age := rfl
@[simp] theorem onTable_tremor (h : Word) (f : EmbTable → EmbTable) (s : State) : (onTable h f s).tremor = s.tremor := rfl
@[simp] theorem onTable_dbg (h : Word) (f : EmbTable → EmbTable) (s : State) : (onTable h f s).dbg = s.dbg := rfl
@[simp] theorem onTable_boot (h : Word) (f : EmbTable → EmbTable) (s : State) : (onTable h f s).boot = s.boot := rfl
@[simp] theorem onTable_pins (h : Word) (f : EmbTable → EmbTable) (s : State) : (onTable h f s).pins = s.pins := rfl
@[simp] theorem onTable_clock (h : Word) (f : EmbTable → EmbTable) (s : State) : (onTable h f s).clock = s.clock := rfl

/-! ### `onDebug` -/

@[simp] theorem onDebug_pending (f : DebugUnit → DebugUnit) (s : State) : (onDebug f s).pending = s.pending := rfl
@[simp] theorem onDebug_time (f : DebugUnit → DebugUnit) (s : State) : (onDebug f s).time = s.time := rfl
@[simp] theorem onDebug_freeCount (f : DebugUnit → DebugUnit) (s : State) : (onDebug f s).freeCount = s.freeCount := rfl
@[simp] theorem onDebug_near (f : DebugUnit → DebugUnit) (s : State) : (onDebug f s).near = s.near := rfl
@[simp] theorem onDebug_far (f : DebugUnit → DebugUnit) (s : State) : (onDebug f s).far = s.far := rfl
@[simp] theorem onDebug_staging (f : DebugUnit → DebugUnit) (s : State) : (onDebug f s).staging = s.staging := rfl
@[simp] theorem onDebug_pools (f : DebugUnit → DebugUnit) (s : State) : (onDebug f s).pools = s.pools := rfl
@[simp] theorem onDebug_poolParity (f : DebugUnit → DebugUnit) (s : State) : (onDebug f s).poolParity = s.poolParity := rfl
@[simp] theorem onDebug_aonStore (f : DebugUnit → DebugUnit) (s : State) : (onDebug f s).aonStore = s.aonStore := rfl
@[simp] theorem onDebug_xlate (f : DebugUnit → DebugUnit) (s : State) : (onDebug f s).xlate = s.xlate := rfl
@[simp] theorem onDebug_sessions (f : DebugUnit → DebugUnit) (s : State) : (onDebug f s).sessions = s.sessions := rfl
@[simp] theorem onDebug_ports (f : DebugUnit → DebugUnit) (s : State) : (onDebug f s).ports = s.ports := rfl
@[simp] theorem onDebug_plans (f : DebugUnit → DebugUnit) (s : State) : (onDebug f s).plans = s.plans := rfl
@[simp] theorem onDebug_tables (f : DebugUnit → DebugUnit) (s : State) : (onDebug f s).tables = s.tables := rfl
@[simp] theorem onDebug_planSerial (f : DebugUnit → DebugUnit) (s : State) : (onDebug f s).planSerial = s.planSerial := rfl
@[simp] theorem onDebug_tableSerial (f : DebugUnit → DebugUnit) (s : State) : (onDebug f s).tableSerial = s.tableSerial := rfl
@[simp] theorem onDebug_ctxSerial (f : DebugUnit → DebugUnit) (s : State) : (onDebug f s).ctxSerial = s.ctxSerial := rfl
@[simp] theorem onDebug_rowDir (f : DebugUnit → DebugUnit) (s : State) : (onDebug f s).rowDir = s.rowDir := rfl
@[simp] theorem onDebug_contexts (f : DebugUnit → DebugUnit) (s : State) : (onDebug f s).contexts = s.contexts := rfl
@[simp] theorem onDebug_taps (f : DebugUnit → DebugUnit) (s : State) : (onDebug f s).taps = s.taps := rfl
@[simp] theorem onDebug_basin (f : DebugUnit → DebugUnit) (s : State) : (onDebug f s).basin = s.basin := rfl
@[simp] theorem onDebug_owner (f : DebugUnit → DebugUnit) (s : State) : (onDebug f s).owner = s.owner := rfl
@[simp] theorem onDebug_fabric (f : DebugUnit → DebugUnit) (s : State) : (onDebug f s).fabric = s.fabric := rfl
@[simp] theorem onDebug_twin (f : DebugUnit → DebugUnit) (s : State) : (onDebug f s).twin = s.twin := rfl
@[simp] theorem onDebug_err (f : DebugUnit → DebugUnit) (s : State) : (onDebug f s).err = s.err := rfl
@[simp] theorem onDebug_power (f : DebugUnit → DebugUnit) (s : State) : (onDebug f s).power = s.power := rfl
@[simp] theorem onDebug_age (f : DebugUnit → DebugUnit) (s : State) : (onDebug f s).age = s.age := rfl
@[simp] theorem onDebug_tremor (f : DebugUnit → DebugUnit) (s : State) : (onDebug f s).tremor = s.tremor := rfl
@[simp] theorem onDebug_dbg (f : DebugUnit → DebugUnit) (s : State) : (onDebug f s).dbg = f s.dbg := rfl
@[simp] theorem onDebug_boot (f : DebugUnit → DebugUnit) (s : State) : (onDebug f s).boot = s.boot := rfl
@[simp] theorem onDebug_pins (f : DebugUnit → DebugUnit) (s : State) : (onDebug f s).pins = s.pins := rfl
@[simp] theorem onDebug_clock (f : DebugUnit → DebugUnit) (s : State) : (onDebug f s).clock = s.clock := rfl

/-! ### `onFabricPort` -/

@[simp] theorem onFabricPort_pending (n : Nat) (f : FabricPort → FabricPort) (s : State) : (onFabricPort n f s).pending = s.pending := rfl
@[simp] theorem onFabricPort_time (n : Nat) (f : FabricPort → FabricPort) (s : State) : (onFabricPort n f s).time = s.time := rfl
@[simp] theorem onFabricPort_freeCount (n : Nat) (f : FabricPort → FabricPort) (s : State) : (onFabricPort n f s).freeCount = s.freeCount := rfl
@[simp] theorem onFabricPort_near (n : Nat) (f : FabricPort → FabricPort) (s : State) : (onFabricPort n f s).near = s.near := rfl
@[simp] theorem onFabricPort_far (n : Nat) (f : FabricPort → FabricPort) (s : State) : (onFabricPort n f s).far = s.far := rfl
@[simp] theorem onFabricPort_staging (n : Nat) (f : FabricPort → FabricPort) (s : State) : (onFabricPort n f s).staging = s.staging := rfl
@[simp] theorem onFabricPort_pools (n : Nat) (f : FabricPort → FabricPort) (s : State) : (onFabricPort n f s).pools = s.pools := rfl
@[simp] theorem onFabricPort_poolParity (n : Nat) (f : FabricPort → FabricPort) (s : State) : (onFabricPort n f s).poolParity = s.poolParity := rfl
@[simp] theorem onFabricPort_aonStore (n : Nat) (f : FabricPort → FabricPort) (s : State) : (onFabricPort n f s).aonStore = s.aonStore := rfl
@[simp] theorem onFabricPort_xlate (n : Nat) (f : FabricPort → FabricPort) (s : State) : (onFabricPort n f s).xlate = s.xlate := rfl
@[simp] theorem onFabricPort_sessions (n : Nat) (f : FabricPort → FabricPort) (s : State) : (onFabricPort n f s).sessions = s.sessions := rfl
@[simp] theorem onFabricPort_ports (n : Nat) (f : FabricPort → FabricPort) (s : State) : (onFabricPort n f s).ports = s.ports := rfl
@[simp] theorem onFabricPort_plans (n : Nat) (f : FabricPort → FabricPort) (s : State) : (onFabricPort n f s).plans = s.plans := rfl
@[simp] theorem onFabricPort_tables (n : Nat) (f : FabricPort → FabricPort) (s : State) : (onFabricPort n f s).tables = s.tables := rfl
@[simp] theorem onFabricPort_planSerial (n : Nat) (f : FabricPort → FabricPort) (s : State) : (onFabricPort n f s).planSerial = s.planSerial := rfl
@[simp] theorem onFabricPort_tableSerial (n : Nat) (f : FabricPort → FabricPort) (s : State) : (onFabricPort n f s).tableSerial = s.tableSerial := rfl
@[simp] theorem onFabricPort_ctxSerial (n : Nat) (f : FabricPort → FabricPort) (s : State) : (onFabricPort n f s).ctxSerial = s.ctxSerial := rfl
@[simp] theorem onFabricPort_rowDir (n : Nat) (f : FabricPort → FabricPort) (s : State) : (onFabricPort n f s).rowDir = s.rowDir := rfl
@[simp] theorem onFabricPort_contexts (n : Nat) (f : FabricPort → FabricPort) (s : State) : (onFabricPort n f s).contexts = s.contexts := rfl
@[simp] theorem onFabricPort_taps (n : Nat) (f : FabricPort → FabricPort) (s : State) : (onFabricPort n f s).taps = s.taps := rfl
@[simp] theorem onFabricPort_basin (n : Nat) (f : FabricPort → FabricPort) (s : State) : (onFabricPort n f s).basin = s.basin := rfl
@[simp] theorem onFabricPort_owner (n : Nat) (f : FabricPort → FabricPort) (s : State) : (onFabricPort n f s).owner = s.owner := rfl
@[simp] theorem onFabricPort_fabric (n : Nat) (f : FabricPort → FabricPort) (s : State) : (onFabricPort n f s).fabric = { s.fabric with ports := modAt s.fabric.ports n f } := rfl
@[simp] theorem onFabricPort_twin (n : Nat) (f : FabricPort → FabricPort) (s : State) : (onFabricPort n f s).twin = s.twin := rfl
@[simp] theorem onFabricPort_err (n : Nat) (f : FabricPort → FabricPort) (s : State) : (onFabricPort n f s).err = s.err := rfl
@[simp] theorem onFabricPort_power (n : Nat) (f : FabricPort → FabricPort) (s : State) : (onFabricPort n f s).power = s.power := rfl
@[simp] theorem onFabricPort_age (n : Nat) (f : FabricPort → FabricPort) (s : State) : (onFabricPort n f s).age = s.age := rfl
@[simp] theorem onFabricPort_tremor (n : Nat) (f : FabricPort → FabricPort) (s : State) : (onFabricPort n f s).tremor = s.tremor := rfl
@[simp] theorem onFabricPort_dbg (n : Nat) (f : FabricPort → FabricPort) (s : State) : (onFabricPort n f s).dbg = s.dbg := rfl
@[simp] theorem onFabricPort_boot (n : Nat) (f : FabricPort → FabricPort) (s : State) : (onFabricPort n f s).boot = s.boot := rfl
@[simp] theorem onFabricPort_pins (n : Nat) (f : FabricPort → FabricPort) (s : State) : (onFabricPort n f s).pins = s.pins := rfl
@[simp] theorem onFabricPort_clock (n : Nat) (f : FabricPort → FabricPort) (s : State) : (onFabricPort n f s).clock = s.clock := rfl

/-! ### `onChain` -/

@[simp] theorem onChain_pending (f : Cascade → Cascade) (s : State) : (onChain f s).pending = s.pending := rfl
@[simp] theorem onChain_time (f : Cascade → Cascade) (s : State) : (onChain f s).time = s.time := rfl
@[simp] theorem onChain_freeCount (f : Cascade → Cascade) (s : State) : (onChain f s).freeCount = s.freeCount := rfl
@[simp] theorem onChain_near (f : Cascade → Cascade) (s : State) : (onChain f s).near = s.near := rfl
@[simp] theorem onChain_far (f : Cascade → Cascade) (s : State) : (onChain f s).far = s.far := rfl
@[simp] theorem onChain_staging (f : Cascade → Cascade) (s : State) : (onChain f s).staging = s.staging := rfl
@[simp] theorem onChain_pools (f : Cascade → Cascade) (s : State) : (onChain f s).pools = s.pools := rfl
@[simp] theorem onChain_poolParity (f : Cascade → Cascade) (s : State) : (onChain f s).poolParity = s.poolParity := rfl
@[simp] theorem onChain_aonStore (f : Cascade → Cascade) (s : State) : (onChain f s).aonStore = s.aonStore := rfl
@[simp] theorem onChain_xlate (f : Cascade → Cascade) (s : State) : (onChain f s).xlate = s.xlate := rfl
@[simp] theorem onChain_sessions (f : Cascade → Cascade) (s : State) : (onChain f s).sessions = s.sessions := rfl
@[simp] theorem onChain_ports (f : Cascade → Cascade) (s : State) : (onChain f s).ports = s.ports := rfl
@[simp] theorem onChain_plans (f : Cascade → Cascade) (s : State) : (onChain f s).plans = s.plans := rfl
@[simp] theorem onChain_tables (f : Cascade → Cascade) (s : State) : (onChain f s).tables = s.tables := rfl
@[simp] theorem onChain_planSerial (f : Cascade → Cascade) (s : State) : (onChain f s).planSerial = s.planSerial := rfl
@[simp] theorem onChain_tableSerial (f : Cascade → Cascade) (s : State) : (onChain f s).tableSerial = s.tableSerial := rfl
@[simp] theorem onChain_ctxSerial (f : Cascade → Cascade) (s : State) : (onChain f s).ctxSerial = s.ctxSerial := rfl
@[simp] theorem onChain_rowDir (f : Cascade → Cascade) (s : State) : (onChain f s).rowDir = s.rowDir := rfl
@[simp] theorem onChain_contexts (f : Cascade → Cascade) (s : State) : (onChain f s).contexts = s.contexts := rfl
@[simp] theorem onChain_taps (f : Cascade → Cascade) (s : State) : (onChain f s).taps = s.taps := rfl
@[simp] theorem onChain_basin (f : Cascade → Cascade) (s : State) : (onChain f s).basin = { s.basin with cascade := f s.basin.cascade } := rfl
@[simp] theorem onChain_owner (f : Cascade → Cascade) (s : State) : (onChain f s).owner = s.owner := rfl
@[simp] theorem onChain_fabric (f : Cascade → Cascade) (s : State) : (onChain f s).fabric = s.fabric := rfl
@[simp] theorem onChain_twin (f : Cascade → Cascade) (s : State) : (onChain f s).twin = s.twin := rfl
@[simp] theorem onChain_err (f : Cascade → Cascade) (s : State) : (onChain f s).err = s.err := rfl
@[simp] theorem onChain_power (f : Cascade → Cascade) (s : State) : (onChain f s).power = s.power := rfl
@[simp] theorem onChain_age (f : Cascade → Cascade) (s : State) : (onChain f s).age = s.age := rfl
@[simp] theorem onChain_tremor (f : Cascade → Cascade) (s : State) : (onChain f s).tremor = s.tremor := rfl
@[simp] theorem onChain_dbg (f : Cascade → Cascade) (s : State) : (onChain f s).dbg = s.dbg := rfl
@[simp] theorem onChain_boot (f : Cascade → Cascade) (s : State) : (onChain f s).boot = s.boot := rfl
@[simp] theorem onChain_pins (f : Cascade → Cascade) (s : State) : (onChain f s).pins = s.pins := rfl
@[simp] theorem onChain_clock (f : Cascade → Cascade) (s : State) : (onChain f s).clock = s.clock := rfl

/-! ### `onIsland` -/

@[simp] theorem onIsland_pending (i : Nat) (f : Island → Island) (s : State) : (onIsland i f s).pending = s.pending := rfl
@[simp] theorem onIsland_time (i : Nat) (f : Island → Island) (s : State) : (onIsland i f s).time = s.time := rfl
@[simp] theorem onIsland_freeCount (i : Nat) (f : Island → Island) (s : State) : (onIsland i f s).freeCount = s.freeCount := rfl
@[simp] theorem onIsland_near (i : Nat) (f : Island → Island) (s : State) : (onIsland i f s).near = s.near := rfl
@[simp] theorem onIsland_far (i : Nat) (f : Island → Island) (s : State) : (onIsland i f s).far = s.far := rfl
@[simp] theorem onIsland_staging (i : Nat) (f : Island → Island) (s : State) : (onIsland i f s).staging = s.staging := rfl
@[simp] theorem onIsland_pools (i : Nat) (f : Island → Island) (s : State) : (onIsland i f s).pools = s.pools := rfl
@[simp] theorem onIsland_poolParity (i : Nat) (f : Island → Island) (s : State) : (onIsland i f s).poolParity = s.poolParity := rfl
@[simp] theorem onIsland_aonStore (i : Nat) (f : Island → Island) (s : State) : (onIsland i f s).aonStore = s.aonStore := rfl
@[simp] theorem onIsland_xlate (i : Nat) (f : Island → Island) (s : State) : (onIsland i f s).xlate = s.xlate := rfl
@[simp] theorem onIsland_sessions (i : Nat) (f : Island → Island) (s : State) : (onIsland i f s).sessions = s.sessions := rfl
@[simp] theorem onIsland_ports (i : Nat) (f : Island → Island) (s : State) : (onIsland i f s).ports = s.ports := rfl
@[simp] theorem onIsland_plans (i : Nat) (f : Island → Island) (s : State) : (onIsland i f s).plans = s.plans := rfl
@[simp] theorem onIsland_tables (i : Nat) (f : Island → Island) (s : State) : (onIsland i f s).tables = s.tables := rfl
@[simp] theorem onIsland_planSerial (i : Nat) (f : Island → Island) (s : State) : (onIsland i f s).planSerial = s.planSerial := rfl
@[simp] theorem onIsland_tableSerial (i : Nat) (f : Island → Island) (s : State) : (onIsland i f s).tableSerial = s.tableSerial := rfl
@[simp] theorem onIsland_ctxSerial (i : Nat) (f : Island → Island) (s : State) : (onIsland i f s).ctxSerial = s.ctxSerial := rfl
@[simp] theorem onIsland_rowDir (i : Nat) (f : Island → Island) (s : State) : (onIsland i f s).rowDir = s.rowDir := rfl
@[simp] theorem onIsland_contexts (i : Nat) (f : Island → Island) (s : State) : (onIsland i f s).contexts = s.contexts := rfl
@[simp] theorem onIsland_taps (i : Nat) (f : Island → Island) (s : State) : (onIsland i f s).taps = s.taps := rfl
@[simp] theorem onIsland_basin (i : Nat) (f : Island → Island) (s : State) : (onIsland i f s).basin = s.basin := rfl
@[simp] theorem onIsland_owner (i : Nat) (f : Island → Island) (s : State) : (onIsland i f s).owner = s.owner := rfl
@[simp] theorem onIsland_fabric (i : Nat) (f : Island → Island) (s : State) : (onIsland i f s).fabric = s.fabric := rfl
@[simp] theorem onIsland_twin (i : Nat) (f : Island → Island) (s : State) : (onIsland i f s).twin = s.twin := rfl
@[simp] theorem onIsland_err (i : Nat) (f : Island → Island) (s : State) : (onIsland i f s).err = s.err := rfl
@[simp] theorem onIsland_power (i : Nat) (f : Island → Island) (s : State) : (onIsland i f s).power = s.power := rfl
@[simp] theorem onIsland_age (i : Nat) (f : Island → Island) (s : State) : (onIsland i f s).age = { s.age with islands := modAt s.age.islands i f } := rfl
@[simp] theorem onIsland_tremor (i : Nat) (f : Island → Island) (s : State) : (onIsland i f s).tremor = s.tremor := rfl
@[simp] theorem onIsland_dbg (i : Nat) (f : Island → Island) (s : State) : (onIsland i f s).dbg = s.dbg := rfl
@[simp] theorem onIsland_boot (i : Nat) (f : Island → Island) (s : State) : (onIsland i f s).boot = s.boot := rfl
@[simp] theorem onIsland_pins (i : Nat) (f : Island → Island) (s : State) : (onIsland i f s).pins = s.pins := rfl
@[simp] theorem onIsland_clock (i : Nat) (f : Island → Island) (s : State) : (onIsland i f s).clock = s.clock := rfl

end Sys2Proof.Machine
end

