-- ==== Sys2Proof/Laws/Ops.lean ====
section
/-!
SUPPORT. What the shared operations do: sparse arrays, ports and rings, and the completions of a command, which change the
ports alone.
-/

namespace Sys2Proof.Machine

/-! ## Sparse arrays -/

/-- What was written is read back. -/
theorem sget_sset_self {α : Type} (m : Sparse α) (i : Nat) (v : α) : sget (sset m i v) i = some v := by
  have h : (m.filter (fun e => decide (e.1 < i))).find? (fun e => e.1 == i) = none := by
    rw [List.find?_eq_none]
    intro e he
    have := (List.mem_filter.1 he).2
    simp at this ⊢
    omega
  simp [sget, sset, List.find?_append, h]

/-- A write leaves every other entry. -/
theorem sget_sset_other {α : Type} (m : Sparse α) {i j : Nat} (v : α) (h : j ≠ i) : sget (sset m i v) j = sget m j := by
  have hf : ∀ p : Nat × α → Bool, (∀ e : Nat × α, e.1 = j → p e = true) → (m.filter p).find? (fun e => e.1 == j) =
      m.find? (fun e => e.1 == j) := by
    intro p hp
    induction m with
    | nil => rfl
    | cons e m ih =>
      by_cases he : e.1 = j
      · simp [hp e he, he]
      · by_cases hq : p e = true <;> simp [hq, he, ih]
  have hn : ∀ p : Nat × α → Bool, (∀ e : Nat × α, e.1 = j → p e = false) → (m.filter p).find? (fun e => e.1 == j) = none := by
    intro p hp
    rw [List.find?_eq_none]
    intro e he
    by_cases hj : e.1 = j
    · have := (List.mem_filter.1 he).2
      simp [hp e hj] at this
    · simp [hj]
  have hi : (i == j) = false := by simpa using fun x => h x.symm
  rcases Nat.lt_or_ge j i with hl | hl
  · rw [sget, sset, List.find?_append, List.find?_cons, hf _ (by rintro e rfl; simpa using hl), hn _ (by rintro e rfl; simp; omega)]
    simp only [sget, hi, Option.or_none]
  · rw [sget, sset, List.find?_append, List.find?_cons, hn _ (by rintro e rfl; simp; omega), hf _ (by rintro e rfl; simp; omega)]
    simp only [sget, hi, Option.none_or]

/-- An entry put back is not listed. -/
theorem sget_sdel_self {α : Type} (m : Sparse α) (i : Nat) : sget (sdel m i) i = none := by
  simp [sget, sdel]

/-! ## Ports and rings -/

/-- The port that was changed. -/
theorem portOf_onPort_self (s : State) {p : Nat} (f : Port → Port) (h : p < s.ports.length) :
    portOf (onPort p f s) p = f (portOf s p) := by
  simp [portOf, modAt, List.getD_eq_getElem?_getD, h]

/-- Another port. -/
theorem portOf_onPort_other (s : State) {p q : Nat} (f : Port → Port) (h : q ≠ p) : portOf (onPort p f s) q = portOf s q := by
  simp [portOf, modAt, List.getD_eq_getElem?_getD, h.symm]

/-- The ring that was changed. -/
theorem ringAt_onRing_self (q : Port) {i : Nat} (f : Ring → Ring) (h : i < q.rings.length) :
    ringAt (onRing i f q) i = f (ringAt q i) := by
  simp [ringAt, onRing, modAt, List.getD_eq_getElem?_getD, h]

/-- Another ring of the port. -/
theorem ringAt_onRing_other (q : Port) {i j : Nat} (f : Ring → Ring) (h : j ≠ i) : ringAt (onRing i f q) j = ringAt q j := by
  simp [ringAt, onRing, modAt, List.getD_eq_getElem?_getD, h.symm]

/-- The ring that a change of the module's state names. -/
theorem ringOf_onRingOf_self (s : State) (r : RingId) (f : Ring → Ring) (hp : r.port < s.ports.length)
    (hi : r.idx < (portOf s r.port).rings.length) : ringOf (onRingOf r f s) r.port r.idx = f (ringOf s r.port r.idx) := by
  rw [ringOf, onRingOf, portOf_onPort_self s _ hp, ringAt_onRing_self _ _ hi, ringOf]

/-! ## Completions -/

/-- The completions of a command change the ports alone. -/
theorem postReplies_ports (c : CmdRef) (m : Bool) (rs : List Reply) (s : State) :
    postReplies c m rs s = { s with ports := (postReplies c m rs s).ports } := by
  induction rs generalizing s with
  | nil => rfl
  | cons r rs ih => rw [postReplies, ih]; rfl

theorem complete_ports (c : CmdRef) (r : Reply) (s : State) : complete c r s = { s with ports := (complete c r s).ports } :=
  postReplies_ports ..

theorem completeData_ports (c : CmdRef) (r : Reply) (s : State) :
    completeData c r s = { s with ports := (completeData c r s).ports } := postReplies_ports ..

/-- An event changes the ports alone. -/
theorem postEvent_ports (code : EventCode) (unit d0 d1 : Nat) (s : State) :
    postEvent code unit d0 d1 s = { s with ports := (postEvent code unit d0 d1 s).ports } := by
  unfold postEvent
  split <;> rfl

/-- A module write changes the memories of the two tiers, and the sectors that are poisoned, alone. -/
theorem moduleWrite_memories (a : Nat) (bs : List Byte) (s : State) :
    moduleWrite a bs s = { s with
      near := (moduleWrite a bs s).near, far := (moduleWrite a bs s).far, err := { s.err with poison := (moduleWrite a bs s).err.poison } } := by
  unfold moduleWrite
  dsimp only
  repeat' split
  all_goals rfl

end Sys2Proof.Machine
end

