-- ==== Sys2Proof/WellFormed.lean ====
section
/-!
DEFINITION. The commands that can be: each bound that the spec sets on an operand whose type does not already hold it.
-/

namespace Sys2Proof

/-- R90: the payload of a packet is its PAYLOAD_LEN bytes. -/
def Packet.wellFormed (p : Packet) : Bool := p.payload.length = p.payloadLen.toNat

/-- R408: a message carries at most 4,096 bytes. -/
def Message.wellFormed (m : Message) : Bool := m.payload.length ≤ 4096

/-- R402: a message comes by one of the six fabric ports. -/
def fabricPortOk (link : Nat) : Bool := link < 6

/-- R424: a TWIN message comes by one of the two twin links. -/
def twinLinkOk (link : Nat) : Bool := link < 2

/-- R408: OP_INDEX has 16 bits. -/
def opIndexOk (op : Nat) : Bool := op < 2 ^ 16

/-- R484: the islands are numbered from 0 to 44. -/
def islandOk (i : Nat) : Bool := i < 45

/-- R490: a plan of operating points names each island at most once. -/
def islandPlansOk (ps : List IslandPlan) : Bool := ps.all (fun x => islandOk x.island) && (ps.map (·.island)).Nodup

/-- R40: the GDDR7 positions are numbered from 0 to 11. -/
def positionsOk (ps : List Nat) : Bool := ps.all (· < 12)

/-- R477: the causes that a wake can meet are the save set and the reference copy. -/
def BootInputs.wellFormed (b : BootInputs) : Bool :=
  positionsOk b.badPositions && islandPlansOk b.islands && b.wakeFault.all (fun c => c = 2 || c = 3)

/-- R56, R62, R63: ACTION of RESET_CTL is bits 1:0; the row of an action is a write of that action. -/
def actionIs (value : Word) (action : Nat) : Bool := value.toNat % 4 = action

/-- R42, R43: a port has at most 8 lanes, and settles at no more than 64 GT/s. -/
def linkPointOk (width rate : Nat) : Bool := 1 ≤ width && width ≤ 8 && 1 ≤ rate && rate ≤ 64

/-- R64: BAR2 holds 64 ring windows of 4 MiB, and a write stays in it. -/
def windowWriteOk (offset : Nat) (data : List Byte) : Bool := offset + data.length ≤ 0x10000000

/-- R512: ZSBA moves as many bytes as it says. -/
def zsbaOk (write : Bool) (len : Nat) (data : List Byte) : Bool := if write then data.length = len else data.isEmpty

/-- R446: the rows of the Basins, numbered through all of them. -/
def basinRowsOk (rows : List Nat) : Bool := rows.all (· < 2097152)

/-- R410: a flow is told by its source and its number. -/
def flowOk (src flow : Nat) : Bool := src < 4096 && flow < 2 ^ 16

/-- R491: lanes are numbered port × 8 + lane on the fabric, and by port on CXL. -/
def EyeSamples.wellFormed (e : EyeSamples) : Bool :=
  positionsOk e.positions && e.fabricLanes.all (· < 48) && e.cxlPorts.all (· < 2)

/-- The operands of a command are as the spec bounds them. -/
def Instr.wellFormed : Instr → Bool
  | .devInfo _ p | .devStatus _ p | .sessionOpen _ p | .adminSetup _ p | .sessionClose _ p | .memMap _ p | .memUnmap _ p
  | .dataPut _ p | .dataGet _ p | .planLoad _ p | .planRun _ p | .planCancel _ p | .planResume _ p | .planFree _ p
  | .tableCreate _ p | .tablePublish _ p | .tableRetire _ p | .tableMigratePolicy _ p | .tableMigratePolicyQuery _ p
  | .basinLoadWrite _ p | .basinLoadClear _ p | .basinLoadRelease _ p | .basinSearch _ p | .tapAttach _ p | .tapRead _ p
  | .tapWrite _ p | .codecCtxSpill _ p | .codecCtxFree _ p | .powerSetActive _ p | .powerSetSimmer _ p
  | .powerSetDormant _ p | .powerSetCold _ p | .powerSetPark _ p | .powerQuery _ p | .snapArm _ p | .snapRead _ p
  | .twinPair _ p | .resync _ p | .handback _ p | .twinRelease _ p | .twinStatus _ p | .fabricConfig _ p
  | .fabricConfigQuery _ p | .ownerTableSet _ p | .fwStage _ p | .fwCommit _ p | .attest _ p | .configPut _ p | .enroll _ p
  | .configPutRelease _ p | .debugToken _ p | .debugTokenQuery _ p | .marginReport _ p | .testRunQuick _ p
  | .testRunFull _ p | .unitRetire _ p | .restore _ p | .unitRetireQuery _ p | .unknownOpcode _ _ p => p.wellFormed
  | .resetCtlWarm _ v b => actionIs v 1 && b.wellFormed
  | .resetCtlRecovery _ v b => actionIs v 2 && b.wellFormed
  | .pwrEnRise _ b | .resetN b | .perstDeassert _ b | .wakeReqN b => b.wellFormed
  | .bar2Write _ offset data => windowWriteOk offset data
  | .cxlLinkUp _ width rate | .linkRetrain _ width rate => linkPointOk width rate
  | .zsba write _ _ len data => zsbaOk write len data
  | .thermalTrip i => islandOk i
  | .islandReplan ps => islandPlansOk ps
  | .marginSample samples eyes => samples.all (fun x => islandOk x.island) && eyes.wellFormed
  | .fabricForward _ m _ | .escapeWait m => m.wellFormed
  | .rowRead l m | .rowData l m | .update l m | .ack l m | .stale l m | .fence l m | .unreachable l m | .arrive l m
  | .release l m | .exchangeData l m | .reduceData l m | .gatherData l m | .topkList l m | .relayFragment l m | .search l m
  | .searchResult l m => fabricPortOk l && m.wellFormed
  | .heartbeat l m | .pairHello l m | .mirrorWrite l m | .mirrorCommit l m | .mirrorAck l m | .resyncData l m
  | .handover l m | .handoverAck l m | .rowRefetch l m | .rowRefetchData l m | .twinStale l m | .imageRequest l m
  | .imageData l m => twinLinkOk l && m.wellFormed
  | .scan _ op _ | .decode _ op _ | .encode _ op _ | .check _ op _ | .relayout _ op _ | .filter _ op _ | .project _ op _
  | .hash _ op _ | .bucket _ op _ | .normalise _ op _ | .stats _ op _ | .joinBuild _ op _ | .joinProbe _ op _
  | .groupAgg _ op _ | .sort _ op _ | .gather _ op _ | .poolGather _ op _ | .scatterUpdate _ op _ | .dense _ op _
  | .activate _ op _ | .norm _ op _ | .interact _ op _ | .attendShort _ op _ | .softmax _ op _ | .denseGradInput _ op _
  | .denseGradWeight _ op _ | .optStep _ op _ | .topk _ op _ | .topkCollective _ op _ | .matchOp _ op _
  | .exchangeSend _ op _ | .exchangeReturn _ op _ | .reduce _ op _ | .allgather _ op _ | .barrier _ op _ | .emit _ op _
  | .topkMergeNode _ op _ | .reqTimeout _ op | .collTimeout _ op | .farTierCompletion _ op _ | .farTierTimeout _ op =>
    opIndexOk op
  | .ackTimer src flow => flowOk src flow
  | .basinScrub rows => basinRowsOk rows
  | .tremorFire _ _ | .ringDb _ _ | .hostEventMask _ _ | .msixUnmask _ _ | .bar0BadAccess _ _ _ | .registerWrite _ _ _ _
  | .vauxUp _ | .pwrEnFall | .vauxLoss | .vinFault | .regulatorFault | .perstAssert _ | .thermN | .thermNRelease | .timeSync
  | .trigIn _ | .cblPres _ _ | .jtagTrstN | .idcode | .samplePreload _ _ | .extest _ | .clamp | .highz | .dtmcs _
  | .dmi _ _ _ | .zdbgToken _ | .zdbgCtl | .zdbgTrigger | .bypass _ | .cdbgHalt _ _ | .cdbgResume _ _ | .cdbgStep _ _
  | .timeSet _ | .timeGet | .pldmRequest _ | .mctpControl _ | .fwHeartbeat | .heartbeatWatchdog | .coalTimer _
  | .cqHeadPoll _ _ | .stepBoundary _ _ | .stepReplay _ | .emitDelivery _ | .migrationDecision _ | .migrationCopy _ _
  | .powerSample _ _ _ | .junctionSample _ _ | .sleepNoAnswer _ | .eventCondition _ | .scheduledFire | .fabricLinkUp _ _
  | .flitRetry _ _ | .retrainTimeout _ | .cascadeWord _ | .cascadeSync _ | .cascadeLockTimeout | .searchTimeout _ _
  | .heartbeatSend | .heartbeatBlock _ | .takeover _ _ | .detach | .pairTimeout | .refetchTimeout _ | .recoveryPoll
  | .recoveryStall | .batchTimeout _ | .refclkStable _ | .cascadeLockLoss | .fabricSignalLoss _ | .timeSetNoEdge
  | .attestBucketRefill | .aonOverload => true

end Sys2Proof
end

