-- ==== Sys2Proof/Tests/Slice0.lean ====
section
/-!
SUPPORT. Tests: the spec's own worked values, single commands on small states, a term that each check of well-formedness
refuses, and for each statement and clause a state and operands that meet its hypotheses together (`witness_<statement>_<clause>`).
-/

set_option Elab.async false
set_option linter.unusedVariables false

namespace Sys2Proof.Tests
open Sys2Proof Sys2Proof.Machine

/-- A completion ring of 64 KiB. -/
def ring64 : CompletionRing :=
  { base := 0x1000, headAddr := 0x800, log2Size := 16, coalCount := 0, coalUs := 0, written := 0, released := 0, pendingIrq := 0,
    firstPending := none, held := [] }

/-- A ring in use. -/
def openRing1 (sid : Option Nat) : Ring := { Ring.reset with enabled := true, session := sid, cq := some ring64 }

/-- A port whose link is up, with its admin ring, ring 1 of session 0, and so many idle rings. -/
def upPort (idle : Nat) : Port :=
  { Port.reset with
    perst := false, refclk := true, linkUp := true, width := 8, rate := 64, memEnable := true, busMaster := true, uioEnable := true
    msixEnable := true, ringsOpen := true
    rings := [openRing1 none, openRing1 (some 0)] ++ List.replicate idle Ring.reset }

/-- The module running, with session 0 open on port 0. -/
def live : State :=
  { State.reset with
    time := 5000000000
    ports := [upPort 2, upPort 2]
    sessions := [(0, { port := 0, rings := [1], smallBase := 0, smallPages := 16, largeBase := 16, largePages := 4, closing := none })]
    power := { PowerUnit.reset with state := .active }
    pins := { PinUnit.reset with vauxUp := true, pwrEn := true, vinOk := true, pwrgdOut := true, aonLost := false }
    boot := { BootUnit.reset with
      phase := .running, stage := .running, configValid := true, imageValid := true, die0Up := true, die1Up := true, fwAlive := true
      aonFlags := 0 } }

/-- The same with all 64 rings of each port. -/
def live64 : State := { live with ports := [upPort 62, upPort 62] }

/-- The same with one port in four pages of the near tier mapped for session 0, and a far window of 1 GiB behind port 0. -/
def mapped : State :=
  { live with
    xlate := (List.range 4).map (fun k =>
      (k, { large := false, read := true, write := true, table := true, weights := true, session := 0, mpage := 256 + k }))
    boot := { live.boot with config := { live.boot.config with
      windows := [{ port := 0, write := true, read := true, hpaBase := 16, size := 4, modBase := 0x1000 }] } } }

/-- A packet with nothing but a TAG and a session. -/
def plainPacket (tag : BitVec 32) (session : BitVec 16) : Packet :=
  { flags := 0, tag := tag, payloadLen := 0, session := session, rsv0 := 0, ringSeq := 0, rsv1 := 0, handle := 0,
    p0 := 0, p1 := 0, p2 := 0, p3 := 0, p4 := 0, p5 := 0, p6 := 0, hdrCrc := 0, payload := [] }

/-- A packet of session 0, and one that acts for no session. -/
def pkt : Packet := plainPacket 7 0
def apkt : Packet := plainPacket 7 0xFFFF

/-- The packet with its header check and length. -/
def sealed (op : BitVec 16) (p : Packet) : Packet :=
  let q := { p with payloadLen := BitVec.ofNat 32 p.payload.length }
  { q with hdrCrc := crc32c (headerBody op q) }

/-- A ring's window with the packet at its start, ready. -/
def put (r : RingId) (op : BitVec 16) (p : Packet) (s : State) : State :=
  let q := sealed op p
  onRingOf r (fun x => { x with
    tail := BitVec.ofNat 32 (packetUnits q.payload.length), window := memWrite [] 0 (headerBytes op q ++ q.payload) }) s

def admin : RingId := { port := 0, idx := 0 }
def ring1 : RingId := { port := 0, idx := 1 }

/-! ### Plans -/

/-- A tensor of session memory, its rows packed one after the other. -/
def tensor (f : Format) (base : Nat) (dims : List Nat) : Descriptor :=
  { base := base, format := f, rank := dims.length, aliasOk := false, reduce := 0, space := .session, bound := 0, stageDie := 0
    lane := false, block2d := false, fabric := false, dims := dims
    strides := (List.range dims.length).map (fun k =>
      ((if k = 0 then elemBytes f else rowDataBytes f (dims.getD 0 1) * ((dims.drop 1).take (k - 1)).foldl (· * ·) 1 : Nat) : Int))
    fabricMapBase := 0, blockCount := 0 }

/-- A plan of session 0 with one operator in a stage of a class. -/
def onePlan (cls : StageClass) (e : OpEntry) (ds : List Descriptor) : Plan :=
  { handle := 1, session := 0
    bin := { dies := 0, fabricRanks := 1
             stages := [{ firstOp := 0, opCount := 1, cls := cls, firstOnly := false, skipDerated := false
                          cores := if cls = .core then 32 else 0, craterMask := if cls = .core then 1 else 0 }]
             ops := [e], descs := ds, edges := [], binds := [] }
    craters := if cls = .core then [[0]] else [[]]
    otherCraters := []
    owners := [], guests := [], nearBytes := 0, stageBase := [0, 0], stageSize := [0x1000, 0], taps := [], dieMaps := [], craterMaps := []
    nextStep := 0, commit := none, mirrorSeqs := [], run := none, pieces := [], localMem := [] }

/-- An operator entry. -/
def entry (op : Operator) (ins outs : List Nat) (params : List Byte) : OpEntry :=
  { op := op, in0 := ins[0]?, in1 := ins[1]?, in2 := ins[2]?, out0 := outs[0]?, out1 := outs[1]?, params := params }

/-- The command that a run answers. -/
def runRef : CmdRef := { port := 0, ring := 1, tag := 9, ringSeq := 0, opcode := 0x41, noIrq := false }

/-- A run of a plan that has begun no step. -/
def runOf (p : Plan) : Run := newRun runRef p 1 0

/-- The step of a plan that begins in a state. -/
def stepOf (p : Plan) (s : State) : OpenStep :=
  freshStep p (runOf p) (viewNow s []) s.time

/-- The state with a plan loaded, and with the plan's step open. -/
def withPlan (p : Plan) (s : State) : State := { s with plans := s.plans ++ [p] }
def opened (p : Plan) (s : State) : Plan := { p with run := some { runOf p with openStep := some (stepOf p s) } }
def running (p : Plan) (s : State) : State := withPlan (opened p s) s

/-- A plan that only waits for its ranks. -/
def barrierPlan : Plan := onePlan .fabric (entry .barrier [] [] []) []

/-- A plan binary with one BARRIER, in blocks of 64 bytes: header with its check, stage, operator and descriptor. -/
def planHead (crc : Nat) : List Byte := record 64 [(0, 0x4E4C5046), (32, 1), (64, 1), (112, 1), (128, 1), (160, 1), (224, 320),
  (256, 64), (288, 128), (320, 192), (480, crc)]
def planStage : List Byte := record 64 [(32, 1), (48, 6)]
def planEntry : List Byte := record 64 [(0, 0x53), (64, 0xFFFFFFFF), (96, 0xFFFFFFFF), (128, 0xFFFFFFFF), (160, 0xFFFFFFFF), (192, 0xFFFFFFFF)]
def planDesc0 : List Byte := record 64 [(64, 8), (72, 1), (128, 64), (320, 1)]
def planBytes : List Byte := planHead 3224922604 ++ planStage ++ planEntry ++ planDesc0 ++ zeros 64

def session0 : Session := { port := 0, rings := [1], smallBase := 0, smallPages := 16, largeBase := 16, largePages := 4, closing := none }

/-- The running module before its admin ring has a completion ring. -/
def fresh : State := { live with ports := [{ upPort 2 with rings := [{ openRing1 none with cq := none }] }, upPort 2] }

/-- One page mapped, elsewhere than the first virtual page. -/
def mapped1 : State := { mapped with xlate := [] }

/-- A table of 64 rows of four FP32 values in version 0. -/
def table1 : EmbTable :=
  { handle := 1, session := 0, hashed := false, rowFormat := .fp32, merge := 0, sharded := false, log2Block := 6, log2Index := 0
    rowElems := 4, rows := 64, lr := 0, eps := 0, fabricMapBase := 0
    slots := { state := .loaded, storeVa := 0x1000, indexVa := 0xFFFFFFFFFFFFFFFF, dirBase := 0, refs := 0 } ::
      List.replicate 3 { state := .empty, storeVa := 0xFFFFFFFFFFFFFFFF, indexVa := 0xFFFFFFFFFFFFFFFF, dirBase := 0, refs := 0 }
    policy := none, frames := [], migrations := [], aborted := [], decided := none, promotions := 0, demotions := 0, aborts := 0
    writebackBytes := 0 }

def withTable : State := { mapped with tables := [table1] }

/-- A decode context held in a slot. -/
def context1 : CtxHolder :=
  { handle := 5, session := 0, die := 0, slot := some 0, spilled := none
    ctx := { plan := 1, op := 0, frame := 0, bitPos := 0, nextCode := 259, prevCode := none, k := 9, produced := 0, carry := [], runCrc := 0
             codes := 0, clears := 0, dict := [] } }

def withContext : State := { mapped with contexts := [context1] }

/-- The run of a plan whose step is open, and of one that is suspended. -/
def openRun (p : Plan) (s : State) : Run := { runOf p with openStep := some (stepOf p s) }
def suspendedRun (why : SuspendReason) : Run := { openRun barrierPlan live with suspended := some (why, 0) }
def suspendedPlan (why : SuspendReason) : Plan := { barrierPlan with run := some (suspendedRun why) }

/-- What `planBytes` loads as. -/
def placedPlan : Plan := { onePlan .fabric (entry .barrier [] [] []) [tensor .u8 0 [64]] with stageSize := [0, 0], otherCraters := List.range 32 }

/-- The check of the plan binary, block by block. -/
theorem planBytes_crc : crc32c (planBytes.take 60 ++ zeros 4 ++ planBytes.drop 64) = 3224922604 := by
  have h : planBytes.take 60 ++ zeros 4 ++ planBytes.drop 64 = planHead 0 ++ (planStage ++ (planEntry ++ (planDesc0 ++ zeros 64))) := by
    decide +kernel
  have h0 : (planHead 0).foldl (crcByteRef 0x82F63B78) (0xFFFFFFFF : BitVec 32) = 3520974471 := by decide +kernel
  have h1 : planStage.foldl (crcByteRef 0x82F63B78) (3520974471 : BitVec 32) = 873642602 := by decide +kernel
  have h2 : planEntry.foldl (crcByteRef 0x82F63B78) (873642602 : BitVec 32) = 295479501 := by decide +kernel
  have h3 : planDesc0.foldl (crcByteRef 0x82F63B78) (295479501 : BitVec 32) = 1334880431 := by decide +kernel
  have h4 : (zeros 64).foldl (crcByteRef 0x82F63B78) (1334880431 : BitVec 32) = 1070044691 := by decide +kernel
  rw [h, crc32c, crc32cRun, List.foldl_append, h0, List.foldl_append, h1, List.foldl_append, h2, List.foldl_append, h3, h4]
  decide +kernel

/-- A search that comes to a page that may be taken takes one. -/
theorem findPage_some (size : Nat) (ok : Nat → Bool) (total j : Nat) : ∀ fuel k, j < fuel → ok ((k + j) % total * size) = true →
    ∃ a, findPage [] size ok total fuel k = some a := by
  induction j with
  | zero =>
    intro fuel k hj h
    obtain ⟨f, rfl⟩ : ∃ f, fuel = f + 1 := ⟨fuel - 1, by omega⟩
    exact ⟨_, by rw [findPage]; simp only [Nat.add_zero] at h; simp [h]; rfl⟩
  | succ j ih =>
    intro fuel k hj h
    obtain ⟨f, rfl⟩ : ∃ f, fuel = f + 1 := ⟨fuel - 1, by omega⟩
    by_cases hk : ok (k % total * size) = true
    · exact ⟨_, by rw [findPage]; simp [hk]; rfl⟩
    · obtain ⟨a, ha⟩ := ih f (k + 1) (by omega) (by rw [show k + 1 + j = k + (j + 1) from by omega]; exact h)
      exact ⟨a, by rw [findPage]; simp [hk, ha]⟩

/-- Whatever page firmware looks at first, it finds one in an empty near tier. -/
theorem pick_one (s : State) (n : Nat) (hr : nearPageOk s 0 0x10000 0 = true) :
    ∃ t, pickPages (nearPageOk s 0 0x10000) 0x10000 n 1 [] = some t := by
  have e : nearEnd / 0x10000 = 1572864 := by decide
  obtain ⟨a, ha⟩ := findPage_some 0x10000 (nearPageOk s 0 0x10000) (nearEnd / 0x10000)
    (1572864 - Config.nearPick n % 1572864 - (if Config.nearPick n % 1572864 = 0 then 1572864 else 0)) (nearEnd / 0x10000)
    (Config.nearPick n) (by rw [e]; split <;> omega)
    (by
      rw [e, show (Config.nearPick n + _) % 1572864 = 0 from by split <;> omega]
      simpa using hr)
  exact ⟨[a], by simp only [pickPages, Nat.add_zero, ha]; rfl⟩

/-- A check that passes gives way to the next. -/
theorem findSome_skip {α β : Type} (f : α → Option β) (a : α) (l : List α) (h : f a = none) :
    (a :: l).findSome? f = l.findSome? f := by
  simp [h]

/-- Segment 3 of the Basins belongs to session 0 and holds one entry. -/
def withBasin : State :=
  { live with basin := { live.basin with
      segments := live.basin.segments.set 3 { width := 128, owner := some 0 }
      entries := [(3 * 65536, { key := 0x201, resultId := 77, priority := 5 })] } }

/-! ### Packets whose payload ends in zeros -/

/-- A packet with a header check over a given PAYLOAD_LEN. -/
def sealedLen (op : BitVec 16) (len : BitVec 32) (p : Packet) : Packet :=
  let q := { p with payloadLen := len }
  { q with hdrCrc := crc32c (headerBody op q) }

/-- A ring's window with the packet's header and the first bytes of its payload. -/
def putHead (r : RingId) (op : BitVec 16) (p : Packet) (head : List Byte) (s : State) : State :=
  onRingOf r (fun x => { x with
    tail := BitVec.ofNat 32 (packetUnits p.payloadLen.toNat), window := memWrite [] 0 (headerBytes op p ++ head) }) s

/-- What a window gives of a payload whose end is zeros. -/
theorem windowRead_zeros (q : Ring) (l : List Host.Cell) (k n : Nat) (hn : 64 + (k + n) ≤ 0x400000)
    (hq : q.window.filter (fun c => decide (64 ≤ c.1 ∧ c.1 < 64 + (k + n))) = l) (hs : l.Pairwise (fun x y => x.1 < y.1))
    (hr : ∀ c ∈ l, 64 ≤ c.1 ∧ c.1 < 64 + k) : windowRead q 1 (k + n) = walkCells l 64 k ++ zeros n := by
  have e : min (k + n) (0x400000 - 64) = k + n := by omega
  have e2 : k + n - (0x400000 - 64) = 0 := by omega
  simp only [windowRead, show 1 % 65536 * 64 = 64 from rfl, e, e2]
  rw [memRead, memRead, hq, walkCells_past hs hr]
  simp [zeros, walkCells]

/-- Such a packet stands at HEAD. -/
theorem packetAtHead_zeros (s : State) (r : RingId) (op : BitVec 16) (p : Packet) (l : List Host.Cell) (k n : Nat)
    (h : (ringsServed s r.port && ringCanServe s r.port r.idx && ringsTurn s r.port r.idx &&
      decide (windowRead (ringOf s r.port r.idx) (ringOf s r.port r.idx).head.toNat 64 = headerBytes op p)) = true)
    (h0 : (ringOf s r.port r.idx).head.toNat = 0) (hn : 64 + (k + n) ≤ 0x400000)
    (hq : (ringOf s r.port r.idx).window.filter (fun c => decide (64 ≤ c.1 ∧ c.1 < 64 + (k + n))) = l)
    (hs : l.Pairwise (fun x y => x.1 < y.1)) (hr : ∀ c ∈ l, 64 ≤ c.1 ∧ c.1 < 64 + k)
    (hl : p.payloadLen.toNat = k + n) (hp : p.payload = walkCells l 64 k ++ zeros n) : packetAtHead s r op p = true := by
  simp only [packetAtHead]
  rw [h0] at h
  rw [h0, h, hl, hp, windowRead_zeros _ l k n hn hq hs hr]
  simp

/-- A FABRIC_CONFIG payload: its header, and routes that are all invalid. -/
def fabricHead : List Byte := record 64 [(0, 2), (16, 9), (32, 1), (64, 63)]

theorem slice_zeros (h : List Byte) (n off : Nat) (hh : h.length ≤ off) (ho : off + 2 ≤ h.length + n) :
    slice (h ++ zeros n) off 2 = [0, 0] := by
  have e : ((h ++ zeros n).drop off).take 2 = [0, 0] := by
    rw [List.drop_append, List.drop_eq_nil_of_le hh, List.nil_append, zeros, List.drop_replicate, List.take_replicate,
      show min 2 (n - (off - h.length)) = 2 from by omega]
    rfl
  simp [slice, e]

theorem fabricHead_ok : fabricPayloadOk (fabricHead ++ zeros 8192) = true := by
  have hlen : fabricHead.length = 64 := by decide +kernel
  have hr : (List.range 4096).all (fun i =>
      let r := BitVec.ofNat 16 (leNat (slice (fabricHead ++ zeros 8192) (64 + 2 * i) 2))
      bits r 14 9 = 0 && (!bit r 15 || bits r 8 6 = 7 || (decide (bits r 8 6 ≤ 5) && bit r (bits r 8 6)))) = true := by
    rw [List.all_eq_true]
    intro i hi
    rw [List.mem_range] at hi
    rw [slice_zeros _ _ _ (by omega) (by omega)]
    decide
  have hf : (decide (field (fabricHead ++ zeros 8192) 12 4 = 0) && decide (field (fabricHead ++ zeros 8192) 70 26 = 0) &&
      decide (field (fabricHead ++ zeros 8192) 176 336 = 0) && decide (field (fabricHead ++ zeros 8192) 16 16 ≠ 0xFFFF)) = true := by
    decide +kernel
  have hl : (fabricHead ++ zeros 8192).length = 8256 := by rw [List.length_append, hlen, zeros, List.length_replicate]
  rw [Bool.and_eq_true, Bool.and_eq_true, Bool.and_eq_true] at hf
  simp only [fabricPayloadOk, hl]
  simp only [hf.1.1.1, hf.1.1.2, hf.1.2, hf.2, decide_true, Bool.true_and]
  exact hr

/-- FW_STAGE of an image of zeros. -/
def stagePacket : Packet := { sealedLen 0xD0 8192 { apkt with p0 := 8192 } with payload := zeros 8192 }

theorem stagePacket_length : stagePacket.payload.length = stagePacket.p0.toNat := by
  rw [show stagePacket.payload = zeros 8192 from rfl, zeros, List.length_replicate]
  decide +kernel

/-- FABRIC_CONFIG of module 2 in fabric 9. -/
def fabricPacket : Packet := { sealedLen 0xC0 8256 apkt with payload := fabricHead ++ zeros 8192 }

/-- A boot that meets nothing amiss. -/
def bootIn : BootInputs :=
  { bootMode := 0, twinSide := 0, cascPos := 0, pufOk := true, die1Joins := true, badPositions := [], wakeFault := none, islands := [], norBad := 0, imageBad := none }

/-- A transition to SIMMER under way. -/
def transition1 : Transition := { target := .simmer, fromState := .active, reply := none, draining := false }

/-- A completion without a payload. -/
def oneCompletion : Completion :=
  { tag := 7, status := .done, phase := false, more := false, opcode := 1, ringSeq := 0, count0 := 0, count1 := 0, payload := [], noIrq := false }

/-! ### Steps, tables, fabric and twin -/

/-- A plan whose run has a given step open, loaded in the running module. -/
def planAt (p : Plan) (o : OpenStep) : Plan := { p with run := some { runOf p with openStep := some o } }
def runAt (p : Plan) (o : OpenStep) : Run := { runOf p with openStep := some o }
def stateAt (p : Plan) (o : OpenStep) : State := withPlan (planAt p o) live
def step0 : OpenStep := stepOf barrierPlan live
def doneStep : OpenStep := { step0 with done := [0] }
def failedStep (n : Nat) : OpenStep := { step0 with attempt := n, detections := [{ unit := none, attempt := n }] }
def emitRun : Run :=
  { openRun barrierPlan live with queue := [{ step := 4, records := [{ op := 0, key := 5, body := zeros 64 }] }] }
def emitPlan : Plan := { barrierPlan with run := some emitRun }

/-- A plan of two ranks, and a plan that binds version 0 of `table2`. -/
def plan2 : Plan := { barrierPlan with bin := { barrierPlan.bin with fabricRanks := 2 } }
def boundPlan : Plan :=
  { barrierPlan with bin := { barrierPlan.bin with binds := [{ table := 1, fixed := some 0, update := false }] }, nextStep := 2 }
def boundState : State :=
  withPlan { boundPlan with run := some { runOf boundPlan with fixedSlots := [some 0] } } mapped

/-- A table with a CURRENT version, a policy and a migration of its one block. -/
def policy1 : Policy :=
  { hotVa := 0x8000, hotFrames := 1, promoteMin := 1, maxPerStep := 1, decayShift := 1, enable := true, intervalSteps := 2, retrySteps := 2 }
def migration1 : Migration :=
  { slot := 0, block := 0, demote := false, frame := 0, pointer := 0, copied := false, drained := false, clean := false, hold := [], next := none }
def table2 : EmbTable :=
  { table1 with slots := table1.slots.map (fun v => if v.state = .loaded then { v with state := .current } else v), policy := some policy1 }
def table3 : EmbTable := { table2 with migrations := [migration1] }

/-- A fabric port that is up. -/
def fabPort : FabricPort := { FabricPort.reset with enabled := true, state := .up, cable := true, neighbor := 3 }

/-- Module 2 in fabric 9, with ports 0 and 1 up and port 5 training, and module 3 behind port 0. -/
def net : State :=
  { live with fabric := { live.fabric with
      moduleId := 2, fabricId := 9, epoch := 5, routes := [(3, 0x8001)]
      ports := [fabPort, fabPort, FabricPort.reset, FabricPort.reset, FabricPort.reset, { fabPort with state := .training }] } }

/-- A message from module 3, and one to it. -/
def msg (cls : BitVec 2) (kind : Nat) (bs : List Byte) : Message :=
  { dest := 2, hops := 0, src := 3, cls := cls, escape := false, kind := BitVec.ofNat 8 kind, srcEpoch := 5, dstEpoch := 5, flow := 0, seq := 0
    step := 0, opIndex := 0, srcRank := 0, payload := bs }
def away : Message := { msg 1 kindRowData [] with dest := 3, src := 4 }

/-- A paired module, side A, with one OUT window of session 0. -/
def pair1 : PairRecord :=
  { async := false, detachOnLinksDown := true, link0 := 2, link1 := 5, partner := 1
    windows := [{ inbound := false, index := 0, session := 0, va := 0x10000, len := 0x10000 },
                { inbound := true, index := 0, session := 0, va := 0x20000, len := 0x10000 }]
    lagSteps := 1, takeoverMs := 50, hbAddr := 0x10000000000, stageMib := 64 }
def paired : State :=
  { mapped with
    fabric := { mapped.fabric with ports := [fabPort, fabPort, fabPort, fabPort, fabPort, fabPort] }
    twin := { mapped.twin with state := .paired, record := some pair1, pairEpoch := 3 } }

/-- A TWIN message under the pair's epoch. -/
def tmsg (kind : Nat) (bs : List Byte) : Message := { msg 3 kind bs with srcEpoch := 3, dstEpoch := 3 }

/-! ### Operators -/

/-- What the row of an operator names. -/
def opRow (i : Instr) : OperatorRow := (operatorRow i).getD (plainRow 1 0 noFaults .barrier wholeOperands barrierBody)

/-- The context of a one-operator plan's operator in the state before its command, and in the one it works in. -/
def opCtx (p : Plan) (s : State) : Ctx :=
  { s := running p s, p := opened p s, r := openRun p s, o := stepOf p s, op := 0, e := p.bin.ops.getD 0 (entry .barrier [] [] []) }
def opBegun (i : Instr) (p : Plan) (s : State) : Ctx := { opCtx p s with s := begun (opRow i) (running p s) }

/-- Rows of two bytes, and a column, in session memory. -/
def twoCols : List Descriptor := [tensor .u8 0 [2, 8], tensor .u8 0x1000 [2, 8], tensor .u8 0x2000 [8], tensor .u8 0x3000 [64]]

/-- FILTER of the rows whose first byte is 0. -/
def filterPlan : Plan := onePlan .vent (entry .filter [0] [2] (record 48 [(0, 1), (128 + 32, 7)])) twoCols
/-- HASH of one byte. -/
def hashPlan : Plan := onePlan .vent (entry .hash [0] [1] (record 80 [(4, 1), (512 + 32, 7), (512 + 64, 1)])) twoCols

/-- SORT of two rows on the cores of crater 0. -/
def sortPlan : Plan := onePlan .core (entry .sort [0] [1] (zeros 64)) twoCols
/-- BUCKET of one byte over one boundary. -/
def bucketPlan : Plan :=
  onePlan .core (entry .bucket [0, 1, 2] [1] (record 48 [(0, 1), (128 + 64, 7), (128 + 109, 1), (128 + 128, 1)]))
    [tensor .u8 0 [2, 8], tensor .int32 0x1000 [2, 8], tensor .fp32 0x2000 [4, 1]]
def floats : List Descriptor := [tensor .fp32 0 [2, 8], tensor .fp32 0x1000 [2, 8], tensor .fp32 0x2000 [2, 8], tensor .u8 0x3000 [64]]
def relayoutPlan : Plan := onePlan .layout (entry .relayout [0] [1] (zeros 64)) floats
def joinPlan : Plan := onePlan .core (entry .joinBuild [0] [1] (record 64 [(32, 7), (48, 2), (64, 1)])) [tensor .u8 0 [2, 1], tensor .u8 0x1000 [320]]
def optPlan : Plan := onePlan .core (entry .optStep [0, 1] [2] (zeros 64)) floats
/-- CHECK of eight bytes of zeros in one segment, with CRC-32C. -/
def checked : State := { mapped with near := memWrite [] 16781312 (natLE 2351477386 8) }
def checkPlan : Plan := onePlan .vent (entry .check [0, 1] [] (record 64 [(0, 0), (32, 8)])) [tensor .u8 0 [8], tensor .u8 0x1000 [8]]
def densePlan : Plan := onePlan .core (entry .dense [0, 1] [2] (zeros 64)) floats
def matchPlan : Plan := onePlan .basin (entry .matchOp [0] [1] (record 96 [(48, 1)])) [tensor .u8 0 [64, 2], tensor .u8 0x1000 [64, 2]]
def groupPlan : Plan := onePlan .vent (entry .groupAgg [0] [1] (record 64 [(32, 7), (48, 2), (64, 1)])) [tensor .u8 0 [2, 8], tensor .u8 0x1000 [320]]
def statsPlan (accum : Nat) : Plan := onePlan .core (entry .stats [0] [1] (record 64 [(0, accum)])) [tensor .u8 0 [2, 8], tensor .u8 0x1000 [64]]

/-- Lookups of `table2`, whose version 0 the plan binds. -/
def lookupPlan (op : Operator) (fmt : Nat) : Plan :=
  let p := onePlan .vent (entry op [0] [1] (record 64 [(32, 5), (64, 1), (56, fmt), (192, 8)])) [tensor .int32 0 [2, 8], tensor .fp32 0x8000 [4, 8]]
  { p with bin := { p.bin with binds := [{ table := 1, fixed := some 0, update := true }] } }
def lookupStep (p : Plan) : OpenStep :=
  { stepOf p mapped with view := { (stepOf p mapped).view with slots := [some 0] } }
def lookupState (p : Plan) : State :=
  withPlan (planAt p (lookupStep p)) { mapped with tables := [table2] }
def lookupCtx (p : Plan) : Ctx :=
  { s := lookupState p, p := planAt p (lookupStep p), r := runAt p (lookupStep p), o := lookupStep p, op := 0
    e := p.bin.ops.getD 0 (entry .barrier [] [] []) }
def lookupBegun (i : Instr) (p : Plan) : Ctx := { lookupCtx p with s := begun (opRow i) (lookupState p) }
def emitOpPlan : Plan := onePlan .host (entry .emit [0] [] (zeros 16)) [tensor .fp32 0 [1, 8]]

/-- The one row of `joinPlan`'s operand, in canonical order. -/
theorem joinPlan_rows (s : State) (i : Instr) : canonicalRows (opBegun i joinPlan s) 0 = [0] := by
  unfold canonicalRows
  rw [show rowsOf (opBegun i joinPlan s) 0 = [0] from rfl]
  exact List.mergeSort_singleton _

/-- A packet whose header check is wrong, at HEAD. -/
def badPacket : Packet := { sealed 0x01 pkt with hdrCrc := 1 }
def badState : State :=
  onRingOf ring1 (fun x => { x with tail := 1, window := memWrite [] 0 (headerBytes 0x01 badPacket) }) live

/-- The first packet of a PLAN_LOAD chain, and the ring after it. -/
def chainPacket : Packet := { pkt with flags := 1, payload := zeros 64 }
def chained1 : Chain := startOf planLoadRule (sealed 0x40 chainPacket)
def chainState : State :=
  onRingOf ring1 (fun x => { x with chain := some chained1, outstanding := [refFor ring1 planLoadRule (sealed 0x40 chainPacket)] }) live

/-- A ring with 64 commands outstanding. -/
def fullState : State := onRingOf ring1 (fun x => { x with outstanding := List.replicate 64 runRef }) live

/-- A port whose ring 1 has its completion ring in a given state. -/
def portWith (c : CompletionRing) : Port := { upPort 2 with rings := [openRing1 none, { openRing1 (some 0) with cq := some c }] }

theorem witness_OperatorsChangeOnlyTheirStep_1 : ∃ i w s c0 c c' t, operatorRow i = some w ∧ OpBegins w s c0 c ∧ w.body (startWrites c) = .done c' ∧
    WritesOutputs c c' ∧ exec i s = .next t :=
  ⟨.hash 1 0 noFaults, opRow (.hash 1 0 noFaults), running hashPlan mapped, opCtx hashPlan mapped,
    opBegun (.hash 1 0 noFaults) hashPlan mapped, _, _, rfl, by decide +kernel, rfl, by decide +kernel, rfl⟩

theorem witness_StepsRunTheFrontCommand_2 : ∃ s : State, s.pending = [] := ⟨State.reset, rfl⟩

/-- Collectives of a plan of one rank. -/
def exchangePlan : Plan := onePlan .fabric (entry .exchange [0] [1] (zeros 64)) [tensor .u8 0 [8, 2], tensor .u8 0x1000 [8, 2]]
def returnPlan : Plan := onePlan .fabric (entry .exchange [0] [1] (record 64 [(47, 1)])) [tensor .u8 0 [8, 2], tensor .u8 0x1000 [8, 2]]
def reducePlan : Plan := onePlan .fabric (entry .reduce [0] [1] (zeros 64)) floats
def gatherPlan : Plan := onePlan .fabric (entry .allgather [0] [1] (zeros 64)) floats
def topPlan : Plan := onePlan .core (entry .topk [0] [1] (record 64 [(11, 1)])) floats

/-- SCAN of one Falbin record into a batch of at most one row, with one reject. -/
def scanPlan : Plan :=
  onePlan .spring (entry .scan [0] [1, 2] (record 128 [(32, 1), (288, 1)])) [tensor .u8 0 [16], tensor .fp32 0x1000 [2, 1], tensor .u8 0x2000 [160]]
def timedPlan : Plan :=
  onePlan .spring (entry .scan [0] [1, 2] (record 128 [(32, 1), (64, 5), (288, 1)])) [tensor .u8 0 [16], tensor .fp32 0x1000 [2, 1], tensor .u8 0x2000 [160]]

/-- DECODE of one frame of four bytes. -/
def frame1 : List Byte := (encodeFrame true { dims := false, rank := 0, format := 0, origLen := 4, dimM1 := List.replicate 5 0 } [1, 2, 1, 2]).1
def decodePlan : Plan :=
  onePlan .pumice (entry .decode [0, 1] [2] (record 64 [(0, 1)])) [tensor .u8 0 [64], tensor .u8 0x1000 [16], tensor .u8 0x2000 [64]]
def framed : State :=
  { mapped with near := memWrite (memWrite [] 16777216 frame1) 16781312 (record 16 [(64, frame1.length)]) }

/-- A plan with a run of its own, and the contexts of its operator. -/
def runState (p : Plan) (r : Run) (s : State) : State := withPlan { p with run := some r } s
def runCtx (p : Plan) (r : Run) (s : State) : Ctx :=
  { s := runState p r s, p := { p with run := some r }, r := r, o := stepOf p s, op := 0, e := p.bin.ops.getD 0 (entry .barrier [] [] []) }
def runBegun (i : Instr) (p : Plan) (r : Run) (s : State) : Ctx := { runCtx p r s with s := begun (opRow i) (runState p r s) }
def replayRun : Run := { openRun scanPlan mapped with manifest := some { emptyBatch 0 0 with close := some .full } }
def endedRun : Run := { openRun scanPlan mapped with offset := 16 }

/-- A merge node of TOPK with both its lists. -/
def topArrival (node src : Nat) (data : List Byte) : Arrival :=
  { kind := topKind, op := 0, phase := node, src := src, dst := 0, total := data.length, data := data }
def mergeStep : OpenStep :=
  { stepOf topPlan mapped with inbox := [topArrival topScanned 0x10000 [], topArrival (topNode 0 0 0) 0 (zeros 48), topArrival (topNode 0 0 1) 0 (zeros 48)] }
def mergeCtx : Ctx :=
  { s := withPlan (planAt topPlan mergeStep) mapped, p := planAt topPlan mergeStep, r := runAt topPlan mergeStep, o := mergeStep, op := 0
    e := topPlan.bin.ops.getD 0 (entry .barrier [] [] []) }

theorem mergeCtx_cores : topCores mergeCtx = List.range 32 := by
  unfold topCores
  rw [show coresOf (mergeCtx.p.craters.getD (stageOfOp mergeCtx.p.bin mergeCtx.op) []) = List.range 32 from by decide +kernel]
  exact List.mergeSort_of_pairwise (by decide +kernel)

theorem mergeCtx_shards : topShards [] mergeCtx 0 = [(0, 32)] := by
  have hg : topGroups mergeCtx = [List.range 32] := by
    unfold topGroups
    rw [mergeCtx_cores]
    decide +kernel
  have hr : topGroupOf mergeCtx 0 = List.range 32 := by
    unfold topGroupOf
    rw [hg]
    decide +kernel
  unfold topShards
  rw [hr]
  decide +kernel

theorem mergeCtx_node : ∃ x, mergeNode (topNode 0 1 0) [] mergeCtx = some x := by
  unfold mergeNode
  rw [show topNode 0 1 0 / 2 ^ 24 = 0 from by decide]
  dsimp only
  rw [mergeCtx_shards]
  exact ⟨_, rfl⟩

/-- The batch that `scanPlan` forms. -/
def scanForm : Except Status Forming :=
  let c := opBegun (.scan 1 0 noFaults) scanPlan mapped
  formBatch (scanParams c.e.params) none 2 (scanInput (scanParams c.e.params) c) 3 none
    { batch := emptyBatch 0 0, rows := [], nans := 0, passed := 0, seen := [] }
def okBatch : Except Status Forming → Forming
  | .ok g => g
  | .error _ => { batch := emptyBatch 0 0, rows := [], nans := 0, passed := 0, seen := [] }

/-- The context of a one-operator plan in a step of its own. -/
def atCtx (p : Plan) (o : OpenStep) (s : State) : Ctx :=
  { s := withPlan (planAt p o) s, p := planAt p o, r := runAt p o, o := o, op := 0, e := p.bin.ops.getD 0 (entry .barrier [] [] []) }
def atBegun (i : Instr) (p : Plan) (o : OpenStep) (s : State) : Ctx := { atCtx p o s with s := begun (opRow i) (withPlan (planAt p o) s) }

/-- DENSE of rank 1, whose weights rank 0 relays. -/
def relayPlan : Plan :=
  let p := onePlan .core (entry .dense [0, 1] [2] (record 64 [(0, 1)])) floats
  { p with bin := { p.bin with fabricRanks := 2 } }
def rankState : State :=
  { mapped with owner := { mapped.owner with active := { mapped.owner.active with ranks := [(1, { rank := 1, module := 0, epoch := 0 })] } } }
def relayBring (relay : Nat) : List Byte := natLE relay 1 ++ natLE 0 2 ++ natLE (formatCode .fp32) 1 ++ natLE 2 4 ++ natLE 8 4
def relayRelease : List Byte := 1 :: shareBytes [(0, relayBring 0), (1, relayBring 1)]
def relayStep : OpenStep :=
  { stepOf relayPlan rankState with inbox :=
      [{ kind := kindRelease, op := 0, phase := 0, src := 0, dst := 1, total := relayRelease.length, data := relayRelease },
       { kind := kindRelay, op := 0, phase := 0, src := 0, dst := 1, total := 64, data := zeros 64 }] }

/-- JOIN_PROBE of a table of 1,024 empty slots that stands in LOCAL bytes. -/
def probeHead : List Byte := record 64 [(0, tableMagic), (32, 1), (36, 10)]
def probeCells : Memory := memWrite [] 0 probeHead
def probePlan : Plan :=
  { onePlan .core { op := .joinProbe, in0 := some 0, in1 := none, in2 := some 1, out0 := some 2, out1 := none, params := zeros 64 }
      [tensor .u8 0 [2, 1], { tensor .u8 0 [65600, 1] with space := .localPools }, tensor .u8 0x1000 [2, 1]] with
    localMem := [(0, probeCells)] }
def probeStep : OpenStep := stepOf probePlan mapped
def probeCtx : Ctx := atBegun (.joinProbe 1 0 noFaults) probePlan probeStep mapped

theorem field_append (h z : List Byte) (lo w : Nat) (hl : lo / 8 + (lo % 8 + w + 7) / 8 ≤ h.length) :
    field (h ++ z) lo w = field h lo w := by
  have e : slice (h ++ z) (lo / 8) ((lo % 8 + w + 7) / 8) = slice h (lo / 8) ((lo % 8 + w + 7) / 8) := by
    have d : ((h ++ z).drop (lo / 8)).take ((lo % 8 + w + 7) / 8) = (h.drop (lo / 8)).take ((lo % 8 + w + 7) / 8) := by
      rw [List.drop_append_of_le_length (by omega), List.take_append_of_le_length (by rw [List.length_drop]; omega)]
    simp only [slice, d]
  rw [field, field, e]

theorem probeTable : bytesOf probeCtx 1 = probeHead ++ zeros 65536 := by
  have hr : bytesOf probeCtx 1 = memRead probeCells 0 65600 := by
    rw [show bytesOf probeCtx 1 = ((rowsOf probeCtx 1).map (rowRead probeCtx 1)).flatten from rfl,
      show rowsOf probeCtx 1 = [0] from by decide +kernel, List.map_singleton, List.flatten_singleton]
    have hp : isPacked (cDesc probeCtx 1).format = false := by decide +kernel
    have h1 : (cDesc probeCtx 1).rank = 2 := by decide +kernel
    have h2 : effStride (cDesc probeCtx 1) 0 = elemBytes (cDesc probeCtx 1).format := by decide +kernel
    have h3 : dimOf (cDesc probeCtx 1) 0 * elemBytes (cDesc probeCtx 1).format = 65600 := by decide +kernel
    have h4 : rowAddress (cDesc probeCtx 1) 0 = 0 := by decide +kernel
    have h5 : (cDesc probeCtx 1).space = .localPools := by decide +kernel
    have h6 : (sget probeCtx.p.localMem (localCore probeCtx)).getD [] = probeCells := by decide +kernel
    have h7 : probeCtx.p.bin.edges = [] := rfl
    have h8 : ∀ g, (sget probeCtx.o.localWrites g).getD [] = [] := fun _ => rfl
    simp [rowRead, hp, h1, h2, h3, h4, dRead, h5, h6, h8, seenBytes, seenStages, h7, overlay]
  rw [hr, memRead]
  have hf : probeCells.filter (fun c => decide (0 ≤ c.1 ∧ c.1 < 0 + 65600)) = probeCells := by decide +kernel
  rw [hf, show (65600 : Nat) = 64 + 65536 from rfl, walkCells_past (by decide +kernel) (by decide +kernel)]
  rw [show walkCells probeCells 0 64 = probeHead from by decide +kernel]

theorem probeTable_ok : probeHeadOk probeCtx.e (bytesOf probeCtx 1).length (parseTable (bytesOf probeCtx 1)) = true := by
  have hl : (bytesOf probeCtx 1).length = 65600 := by
    rw [probeTable, List.length_append, zeros, List.length_replicate, show probeHead.length = 64 from by decide +kernel]
  have hh : probeHead.length = 64 := by decide +kernel
  have hp : parseTable (bytesOf probeCtx 1) = parseTable probeHead := by
    rw [probeTable]
    simp only [parseTable]
    rw [field_append _ _ _ _ (by rw [hh]; decide), field_append _ _ _ _ (by rw [hh]; decide), field_append _ _ _ _ (by rw [hh]; decide),
      field_append _ _ _ _ (by rw [hh]; decide), field_append _ _ _ _ (by rw [hh]; decide), field_append _ _ _ _ (by rw [hh]; decide)]
  rw [hl, hp]
  decide +kernel

/-- MATCH at the second place of a cascade, and at its head. -/
def chainPlan : Plan := onePlan .basin (entry .matchOp [0] [1] (record 96 [(48, 1), (96, 2)])) [tensor .u8 0 [64, 2], tensor .u8 0x1000 [64, 2]]
def chainTag1 : ChainTag := { plan := 1, step := 0, op := 0, attempt := 1 }
def chainMember : State :=
  { running chainPlan mapped with
    pins := { mapped.pins with cascPos := 1 }
    basin := { mapped.basin with cascade := { mapped.basin.cascade with locked := true, tag := some chainTag1 } } }
def chainMemberCtx : Ctx := { opCtx chainPlan mapped with s := chainMember }
def noHit : CascadeResult := { resultId := 0, priority := 0, winPos := 0, hit := false, xtie := false, multi := 0 }
def searchStep : OpenStep :=
  { stepOf chainPlan mapped with inbox :=
      [{ kind := markKind, op := 0, phase := searchPhase 1 0, src := 0, dst := 0x17, total := 0, data := [] }] }

/-- SORT of a BLOCKED tensor whose blocks no owner entry names, and of one whose core carries another incarnation. -/
def blockedPlan : Plan := onePlan .core (entry .sort [0] [1] (zeros 64)) [{ tensor .u8 0 [2, 8] with space := .blocked }, tensor .u8 0x1000 [2, 8]]
def stalePlan : Plan := { blockedPlan with owners := [(0, [(0, 0, 1)])], dieMaps := [(0, 0, 1)], craterMaps := [(0, 0, 0, 1)] }
def staleStep : OpenStep :=
  let o := stepOf stalePlan mapped
  { o with view := { o.view with owner := { o.view.owner with
      die := [(0, { die := 0, crater := 0, mapIndex := 0 })], crater := [(0, { slot := 0, incarnation := 5 })] } } }

/-- Operators that fail, suspend and wait. -/
def earlyPlan : Plan := onePlan .core (entry .optStep [0, 1] [2] (record 64 [(192, 9)])) floats
def smallPlan : Plan :=
  onePlan .pumice (entry .decode [0, 1] [2] (record 64 [(0, 1)])) [tensor .u8 0 [64], tensor .u8 0x1000 [16], tensor .u8 0x2000 [2]]
/-- What suspends has a context to go on from. -/
theorem suspends_of {r : OpEnd} (h : (match r with | .suspend _ => true | _ => false) = true) : ∃ x, r = .suspend x := by
  cases r <;> simp_all
def waitPlan : Plan := { barrierPlan with bin := { barrierPlan.bin with fabricRanks := 2 } }
def brokenPlan : Plan := { chainPlan with bin := { chainPlan.bin with fabricRanks := 2 } }
def brokenStep : OpenStep :=
  { stepOf brokenPlan rankState with inbox :=
      [{ kind := kindRelease, op := 0, phase := 0, src := 0, dst := 1, total := 1, data := [1] },
       { kind := kindSearchResult, op := 0, phase := errorPhase 1, src := 0, dst := 1, total := 0, data := [] }] }

/-! ### The spec's worked values -/

/-- The nine ASCII bytes "123456789". -/
def digits : List Byte := [0x31, 0x32, 0x33, 0x34, 0x35, 0x36, 0x37, 0x38, 0x39]

/-- R251, the Check column. -/
theorem test_tapCheck_crc32c : tapCheck 0 digits = 0xE3069283 := by decide +kernel
theorem test_tapCheck_isoHdlc : tapCheck 1 digits = 0xCBF43926 := by decide +kernel
theorem test_tapCheck_xz : tapCheck 2 digits = 0x995DC9BBDF1939FA := by decide +kernel
theorem test_tapCheck_ibm3740 : tapCheck 3 digits = 0x29B1 := by decide +kernel

/-- R275, the table of check values. -/
theorem test_murmur32_empty : murmur32 1 [] = 0x514E28B7 := by decide +kernel
theorem test_murmur128_empty : murmur128 0 [] = 0 := by decide +kernel
theorem test_xxHash64_empty : xxHash64 0 [] = 0xEF46DB3751D8E999 := by decide +kernel
theorem test_crcHash_digits : crcHash 0 digits = 0xE3069283 := by decide +kernel
theorem test_fm64_empty : fm64 0 [] = 0 := by decide +kernel

/-- R134's example: row −2 of a 50-row tensor is row 0 under CLAMP and row 48 under WRAP. -/
theorem test_resolveIndex_clamp : resolveIndex false 50 (-2) = 0 := by decide
theorem test_resolveIndex_wrap : resolveIndex true 50 (-2) = 48 := by decide

/-- The worked example of R129: 0.0, 2.3, 7.5 and 5.25 in a B4A cell. -/
theorem test_packCell_b4a :
    (packCell .b4 true ([ofF32 0, ofF32 0x40133333, ofF32 0x40F00000, ofF32 0x40A80000] ++ List.replicate 60 (ofF32 0))).take 4 =
      [0x7E, 0x46, 0xD8, 0x27] := by decide +kernel

/-- R282's example: the bin of 3.7, and its midpoint 3.625. -/
theorem test_histBin : histBin (ofF32 0x406CCCCD) = 782 := by decide +kernel
theorem test_binMidpoint : toF32 (binMidpoint 782) = 0x40680000 := by decide +kernel

/-- The example of chapter 01: 1 − 10^8 rounds to −10^8, and the sum of the three contributions is 0. -/
theorem test_fAdd_rounds : fAdd (ofF32 0x3F800000) (ofF32 0xCCBEBC20) = ofF32 0xCCBEBC20 := by decide +kernel

/-- R304's example: a B4 row of 128 elements takes 128 bytes. -/
theorem test_rowBytes_b4 : rowBytesOf { table1 with rowFormat := .b4, rowElems := 128 } = 128 := by decide

/-- R324's example: row 77 of an ADAGRAD_ROW table with LR 0.5 and EPS 1 × 10^−8. -/
theorem test_mergeRow_adagrad :
    let t := { table1 with merge := 4, rowElems := 2, lr := 0x3F000000, eps := 0x322BCC77 }
    let u (a b : Nat) : List FVal := [ofF32 a, ofF32 b]
    let m := mergeRow t (u 0x3F800000 0xC0400000) (ofF32 0)
      [u 0x3F000000 0xBF800000, u 0x3F000000 0x3F800000, u 0x3F800000 0x40000000]
    (m.1.map toF32, toF32 m.2.1) = ([0x3F000000, 0xC0600000], 0x40800000) := by decide +kernel

/-- R302: session 3, serial 5 and table 7 in a handle. -/
theorem test_tableHandle : tableHandle 3 5 7 = 0x0300000000005007 := by decide +kernel
/-- R444: row 1 of zeros has the parity bits set that bit 0 of its index enters. -/
theorem test_rowParity : rowParity 10 1 (zeros 16) = 0x0401 := by decide +kernel

/-! ### Registers and steps -/

/-- R51: DEV_ID through port 1 before the module runs: PART 0x0A24, stepping A1 and the port. -/
theorem test_devId_reset : devId State.reset 1 = 0x0001000000A10A24 := by decide +kernel
/-- R60: AON_FLAGS reads BROWNOUT after supply loss. -/
theorem test_aonFlags_reset : bar0Read State.reset 0 0x0810 = 0x01 := by decide +kernel
/-- R57: RING_HEAD has STOPPED at bit 32. -/
theorem test_ringHead_stopped : ringHead { Ring.reset with stopped := true, head := 5 } = 0x100000005 := by decide +kernel

/-- What the next state of an outcome shows. -/
def shows (o : Host.Outcome State Fault Refusal) (f : State → Bool) : Bool :=
  match o with
  | .next t => f t
  | .fault _ => false
  | .refused _ => false

/-- R53: a heartbeat counts once. -/
theorem test_fwHeartbeat : shows (exec .fwHeartbeat live) (fun t => t.boot.heartbeat = live.boot.heartbeat + 1) = true := by
  decide +kernel
/-- R60: ones written to AON_FLAGS clear those bits and no others. -/
theorem test_aonFlags_w1c :
    shows (exec (.registerWrite 0 .bar0 0x0810 0x01) { live with boot := { live.boot with aonFlags := 0x05 } })
      (fun t => t.boot.aonFlags = 0x04) = true := by decide +kernel
/-- R65: a write to the window of a disabled ring is dropped and sets BAR_FAULT. -/
theorem test_bar2Write_disabled :
    shows (exec (.bar2Write 0 0x800000 [1]) live)
      (fun t => (ringOf t 0 2).window.isEmpty && bit (portOf t 0).hostEvent evBarFault) = true := by decide +kernel
/-- R57: a doorbell sets TAIL. -/
theorem test_ringDb : shows (exec (.ringDb ring1 3) live) (fun t => (ringOf t 0 1).tail = 3) = true := by decide +kernel
/-- R88 reason 4: a TAIL more than 65,536 ahead of HEAD stops the ring. -/
theorem test_ringDb_far : shows (exec (.ringDb ring1 65537) live) (fun t => (ringOf t 0 1).stopped) = true := by decide +kernel
/-- R509: a code that is no instruction selects BYPASS. -/
theorem test_bypass : shows (exec (.bypass 0x33) live) (fun t => t.dbg.ir = 0xFF) = true := by decide +kernel
/-- R543: a cable that goes takes its enabled link down. -/
theorem test_cblPres_gone : shows (exec (.cblPres 0 false) net)
    (fun t => !portUp t 0 && portUp t 1) = true := by decide +kernel
/-- R56: a write of TREMOR_FIRE with bit 0 set fires the trigger as source REGISTER. -/
theorem test_tremorFire : shows (exec (.tremorFire 0 1) live) (fun t => t.tremor.state ≠ .armed) = true := by decide +kernel
/-- R23: a request of a core whose incarnation is not the one of its owner entry is dropped and counted. -/
theorem test_sort_stale : shows (exec (.sort 1 0 noFaults) (withPlan (planAt stalePlan staleStep) mapped)) (fun t =>
    (((planOf t 1).bind (·.run)).bind (·.openStep)).any (fun o => o.counters.staleDrops = 1 && o.done.isEmpty)) = true := by
  decide +kernel
/-- No row of the command table has bits. -/
theorem test_decodeTableWord : decodeTableWord 64 0 = none := rfl

/-! ### Commands that cannot be -/

/-- R90: a payload that is not as long as PAYLOAD_LEN. -/
theorem test_illFormed_packet : (Instr.devInfo ring1 { pkt with payloadLen := 4 }).wellFormed = false := by decide +kernel
/-- R408: a message over 4,096 bytes. -/
theorem test_illFormed_message : (Instr.escapeWait { msg 0 0x01 [] with payload := List.replicate 4097 0 }).wellFormed = false := by
  decide +kernel
/-- R402: a message by a seventh fabric port. -/
theorem test_illFormed_link : (Instr.rowRead 6 (msg 0 0x01 [])).wellFormed = false := by decide +kernel
/-- R424: a TWIN message by a third twin link. -/
theorem test_illFormed_twinLink : (Instr.heartbeat 2 (tmsg 0x20 [])).wellFormed = false := by decide +kernel
/-- R408: OP_INDEX of 17 bits. -/
theorem test_illFormed_opIndex : (Instr.scan 1 65536 noFaults).wellFormed = false := by decide +kernel
/-- R484: island 45. -/
theorem test_illFormed_island : (Instr.thermalTrip 45).wellFormed = false := by decide +kernel
/-- R490: an island planned twice. -/
theorem test_illFormed_replan :
    (Instr.islandReplan [{ island := 3, point := none }, { island := 3, point := none }]).wellFormed = false := by decide +kernel
/-- R40: GDDR7 position 12. -/
theorem test_illFormed_position : (Instr.resetN { bootIn with badPositions := [12] }).wellFormed = false := by decide +kernel
/-- R477: a wake that meets a cause of no kind. -/
theorem test_illFormed_wake : (Instr.wakeReqN { bootIn with wakeFault := some 4 }).wellFormed = false := by decide +kernel
/-- R62: ACTION RECOVERY on the row of WARM. -/
theorem test_illFormed_action : (Instr.resetCtlWarm 0 2 bootIn).wellFormed = false := by decide +kernel
/-- R42: a port of nine lanes. -/
theorem test_illFormed_width : (Instr.cxlLinkUp 0 9 64).wellFormed = false := by decide +kernel
/-- R64: a write past the end of BAR2. -/
theorem test_illFormed_window : (Instr.bar2Write 0 0xFFFFFFF [1, 2]).wellFormed = false := by decide +kernel
/-- R512: a debug write with fewer bytes than it says. -/
theorem test_illFormed_zsba : (Instr.zsba true none 0 8 [1]).wellFormed = false := by decide +kernel
/-- R446: a Basin row past the last. -/
theorem test_illFormed_basinRow : (Instr.basinScrub [2097152]).wellFormed = false := by decide +kernel
/-- R410: a flow of a source of 13 bits. -/
theorem test_illFormed_flow : (Instr.ackTimer 4096 0).wellFormed = false := by decide +kernel
/-- R491: a lane past the 48 of the fabric. -/
theorem test_illFormed_lane :
    (Instr.marginSample [] { positions := [], fabricLanes := [48], cxlPorts := [] }).wellFormed = false := by decide +kernel
/-- What the spec allows is well formed. -/
theorem test_wellFormed_packet : (Instr.devInfo ring1 (sealed 0x01 pkt)).wellFormed = true := by decide +kernel
theorem test_wellFormed_action : (Instr.resetCtlWarm 0 1 bootIn).wellFormed = true := by decide +kernel

/-! ### The hypotheses of the statements can be met -/

theorem witness_QueriesReturnTheirRecords_1 : ∃ (s : State) (r : RingId) (p : Packet), Starts s r devInfoRule p :=
  ⟨put ring1 0x01 pkt live, ring1, sealed 0x01 pkt, by decide +kernel⟩

theorem witness_QueriesReturnTheirRecords_10 : ∃ (s : State) (r : RingId) (p : Packet), Starts s r snapReadRule p ∧ bits p.p0 7 0 = 0xFF :=
  ⟨put admin 0xA1 ({ apkt with p0 := 255 }) live, admin, sealed 0xA1 ({ apkt with p0 := 255 }), by decide +kernel⟩

theorem witness_QueriesReturnTheirRecords_11 : ∃ (s : State) (r : RingId) (p : Packet) (t : EmbTable), Starts s r policyRule (fixP0 1 1 p) ∧ p.payload = [] ∧ tableOf s p.handle = some t :=
  ⟨put admin 0x53 ({ apkt with p0 := 1, handle := 1 }) withTable, admin, sealed 0x53 ({ apkt with p0 := 1, handle := 1 }), table1, by decide +kernel⟩

theorem witness_QueriesReturnTheirRecords_2 : ∃ (s : State) (r : RingId) (p : Packet), Starts s r devStatusRule p :=
  ⟨put ring1 0x02 pkt live, ring1, sealed 0x02 pkt, by decide +kernel⟩

theorem witness_QueriesReturnTheirRecords_3 : ∃ (s : State) (r : RingId) (p : Packet), Starts s r powerQueryRule p :=
  ⟨put ring1 0x91 pkt live, ring1, sealed 0x91 pkt, by decide +kernel⟩

theorem witness_QueriesReturnTheirRecords_4 : ∃ (s : State) (r : RingId) (p : Packet), Starts s r twinStatusRule p :=
  ⟨put admin 0xB2 apkt live, admin, sealed 0xB2 apkt, by decide +kernel⟩

theorem witness_QueriesReturnTheirRecords_5 : ∃ (s : State) (r : RingId) (p : Packet) (x : State), Starts s r fabricConfigRule (fixP0 1 1 p) ∧ p.payload = [] ∧ x = countCorrections (takenBy s r fabricConfigRule (fixP0 1 1 p)) :=
  ⟨put admin 0xC0 ({ apkt with p0 := 1 }) live, admin, sealed 0xC0 ({ apkt with p0 := 1 }), _, by decide +kernel, by decide +kernel, rfl⟩

theorem witness_QueriesReturnTheirRecords_6 : ∃ (s : State) (r : RingId) (p : Packet), Starts s r debugTokenRule (fixP0 1 1 p) :=
  ⟨put admin 0xD4 ({ apkt with p0 := 1 }) live, admin, sealed 0xD4 ({ apkt with p0 := 1 }), by decide +kernel⟩

theorem witness_QueriesReturnTheirRecords_7 : ∃ (s : State) (r : RingId) (p : Packet), Starts s r marginReportRule p :=
  ⟨put ring1 0xE0 pkt live, ring1, sealed 0xE0 pkt, by decide +kernel⟩

theorem witness_QueriesReturnTheirRecords_8 : ∃ (s : State) (r : RingId) (p : Packet), Starts s r unitRetireRule (fixP1 3 2 p) ∧ p.p0 = 0 :=
  ⟨put admin 0xE2 ({ apkt with p1 := 2 }) live, admin, sealed 0xE2 ({ apkt with p1 := 2 }), by decide +kernel⟩

theorem witness_QueriesReturnTheirRecords_9 : ∃ (s : State) (r : RingId) (p : Packet), Starts s r tapReadRule p ∧ tapUseCheck s (startOf tapReadRule p) = none :=
  ⟨put ring1 0x71 ({ pkt with p0 := 5 }) live, ring1, sealed 0x71 ({ pkt with p0 := 5 }), by decide +kernel⟩

theorem witness_SessionOpens_1 : ∃ (s : State) (r : RingId) (p : Packet) (sid : ℕ) (rings : List ℕ) (small large : ℕ), Starts s r sessionOpenRule (fixP0 0x80000000 0 p) ∧ openCheck false (startOf sessionOpenRule (fixP0 0x80000000 0 p)) = none ∧ 
    openPlan (takenBy s r sessionOpenRule (fixP0 0x80000000 0 p)) r.port (startOf sessionOpenRule (fixP0 0x80000000 0 p)) =
      some (sid, rings, small, large) :=
  ⟨put admin 0x10 ({ apkt with p0 := 1, p1 := 4, p2 := 1, payload := (record 32 [(0, 0x2000), (64, 0x900), (128, 16)]) }) live, admin, sealed 0x10 ({ apkt with p0 := 1, p1 := 4, p2 := 1, payload := (record 32 [(0, 0x2000), (64, 0x900), (128, 16)]) }), 1, [2], 20, 24, by decide +kernel⟩

theorem witness_AdminSetupInstalls_1 : ∃ (s : State) (r : RingId) (p q : Packet), q = fixP0 0x80000000 0x80000000 p ∧ r.idx = 0 ∧ packetAtHead s r adminSetupRule.opcode q = true ∧ (ringOf s r.port 0).cq = none ∧ headerStop (ringOf s r.port 0) (headerBytes adminSetupRule.opcode q) = none ∧ bit p.flags 0 = false ∧ judge s r adminSetupRule q = none ∧ openCheck true (startOf adminSetupRule q) = none :=
  ⟨put admin 0x10 ({ apkt with p0 := 0x80000000, payload := (record 32 [(0, 0x2000), (64, 0x900), (128, 16)]) }) fresh, admin, sealed 0x10 ({ apkt with p0 := 0x80000000, payload := (record 32 [(0, 0x2000), (64, 0x900), (128, 16)]) }), _, rfl, by decide +kernel⟩

theorem witness_SessionCloses_1 : ∃ (s : State) (r : RingId) (p : Packet) (ss : Session) (sid : ℕ), Starts s r sessionCloseRule p ∧ sid = p.handle.toNat ∧ sget s.sessions sid = some ss ∧ ss.closing = none ∧ ((∀ q ∈ s.plans, q.session = sid → q.run = none ∧ (planOf s q.handle).bind (·.run) = none)) ∧ (∀ i ∈ ss.rings, (ringOf s ss.port i).outstanding = [] ∧ holdsCompletions (ringOf s ss.port i) = false) ∧ ((∀ q ∈ s.ports, ∀ x ∈ q.rings, ∀ c, x.chain = some c → c.session.toNat ≠ sid)) :=
  ⟨put admin 0x11 ({ apkt with handle := 0 }) live, admin, sealed 0x11 ({ apkt with handle := 0 }), session0, _, by decide +kernel, rfl, by decide +kernel⟩

theorem witness_MappingsChange_1 : ∃ (s : State) (r : RingId) (p : Packet) (ss : Session) (x : State) (c : Chain) (size : ℕ) (targets : List ℕ), Starts s r memMapRule p ∧ x = takenBy s r memMapRule p ∧ c = startOf memMapRule p ∧ size = (if parBits c 5 4 4 = 1 then 0x200000 else 0x10000) ∧ sget x.sessions p.session.toNat = some ss ∧ parN c 4 ≠ 0 ∧ parBits c 5 6 5 = 0 ∧ parBits c 5 8 7 ≠ 3 ∧ par64 c 2 = 0 ∧ mapRangeCheck x ss (par64 c 0) (parN c 4) (parBits c 5 4 4 = 1) false 0 (parBits c 5 8 7) = none ∧ (∀ k < parN c 4, sget x.xlate (entryIndex ss (par64 c 0 + k * size)) = none) ∧ parN c 4 * size ≤ nearFree x ∧ pickPages (nearPageOk x (parBits c 5 8 7) size) size x.freeCount (parN c 4) (mappedNear x) = some targets := by
  obtain ⟨t, ht⟩ := pick_one (takenBy (put ring1 0x20 ({ pkt with p0 := 0x10000, p4 := 1, p5 := 3 }) mapped1) ring1 memMapRule (sealed 0x20 ({ pkt with p0 := 0x10000, p4 := 1, p5 := 3 }))) 0 (by decide +kernel)
  exact ⟨put ring1 0x20 ({ pkt with p0 := 0x10000, p4 := 1, p5 := 3 }) mapped1, ring1, sealed 0x20 ({ pkt with p0 := 0x10000, p4 := 1, p5 := 3 }), session0, _, _, _, _, by decide +kernel, rfl, rfl, rfl, by decide +kernel, by decide +kernel, by decide +kernel, (by decide +kernel), by decide +kernel, by decide +kernel, by decide +kernel, (by decide +kernel), ht⟩

theorem witness_MappingsChange_2 : ∃ (s : State) (r : RingId) (p : Packet) (ss : Session) (x : State) (c : Chain) (size : ℕ), Starts s r memMapRule p ∧ x = takenBy s r memMapRule p ∧ c = startOf memMapRule p ∧ size = (if parBits c 5 4 4 = 1 then 0x200000 else 0x10000) ∧ sget x.sessions p.session.toNat = some ss ∧ parN c 4 ≠ 0 ∧ parBits c 5 6 5 = 1 ∧ parBits c 5 8 7 ≠ 3 ∧ mapRangeCheck x ss (par64 c 0) (parN c 4) (parBits c 5 4 4 = 1) true (par64 c 2) (parBits c 5 8 7) = none ∧ (∀ k < parN c 4, sget x.xlate (entryIndex ss (par64 c 0 + k * size)) = none) ∧ farTargetOk x (par64 c 2) (parN c 4 * size) (parBits c 5 3 0) = true :=
  ⟨put ring1 0x20 ({ pkt with p0 := 0x40000, p3 := 0x100, p4 := 2, p5 := 0x23 }) mapped, ring1, sealed 0x20 ({ pkt with p0 := 0x40000, p3 := 0x100, p4 := 2, p5 := 0x23 }), session0, _, _, _, by decide +kernel, rfl, rfl, rfl, by decide +kernel⟩

theorem witness_MappingsChange_3 : ∃ (s : State) (r : RingId) (p : Packet) (ss : Session) (x : State) (c : Chain) (size : ℕ) (idx : List ℕ), Starts s r memUnmapRule p ∧ x = takenBy s r memUnmapRule p ∧ c = startOf memUnmapRule p ∧ size = (if parBits c 5 4 4 = 1 then 0x200000 else 0x10000) ∧ sget x.sessions p.session.toNat = some ss ∧ parN c 4 ≠ 0 ∧ mapRangeCheck x ss (par64 c 0) (parN c 4) (parBits c 5 4 4 = 1) false 0 0 = none ∧ idx = (List.range (parN c 4)).map (fun k => entryIndex ss (par64 c 0 + k * size)) ∧ (∀ k ∈ idx, ∃ e, sget x.xlate k = some e ∧ e.session = p.session.toNat) ∧ rangeBound x p.session.toNat (par64 c 0) (parN c 4 * size) = false ∧ tableMemory x p.session.toNat (par64 c 0) (parN c 4 * size) = false ∧ anyWindow x p.session.toNat (par64 c 0) (parN c 4 * size) = false :=
  ⟨put ring1 0x21 ({ pkt with p0 := 0x10000, p4 := 2 }) mapped, ring1, sealed 0x21 ({ pkt with p0 := 0x10000, p4 := 2 }), session0, _, _, _, _, by decide +kernel, rfl, rfl, rfl, by decide +kernel, by decide +kernel, by decide +kernel, rfl, (by intro k hk; revert k; decide +kernel), by decide +kernel⟩

theorem witness_DataMoves_1 : ∃ (s : State) (r : RingId) (p : Packet) (x : State) (c : Chain), Starts s r dataPutRule p ∧ x = onRingOf r (fun y => { y with outstanding := y.outstanding ++ [refFor r dataPutRule p] }) (passPacket r p s) ∧ c = startChain dataPutRule.opcode p none ∧ putCheck x p c = none ∧ parN c 4 = 0 ∧ p.payload.length = par64 c 2 :=
  ⟨put ring1 0x30 ({ pkt with p0 := 0x40, p2 := 64, payload := ((List.range 64).map (BitVec.ofNat 8)) }) mapped, ring1, sealed 0x30 ({ pkt with p0 := 0x40, p2 := 64, payload := ((List.range 64).map (BitVec.ofNat 8)) }), _, _, by decide +kernel, rfl, rfl, by decide +kernel⟩

theorem witness_DataMoves_2 : ∃ (s : State) (r : RingId) (p : Packet) (x : State) (c : Chain) (q : Plan), Starts s r dataPutRule p ∧ x = onRingOf r (fun y => { y with outstanding := y.outstanding ++ [refFor r dataPutRule p] }) (passPacket r p s) ∧ c = startChain dataPutRule.opcode p none ∧ putCheck x p c = none ∧ parN c 4 = 1 ∧ planOf x p.handle = some q ∧ p.payload.length = par64 c 2 :=
  ⟨put ring1 0x30 ({ pkt with handle := 1, p0 := 0x40, p2 := 64, p4 := 1, payload := ((List.range 64).map (BitVec.ofNat 8)) }) ((withPlan barrierPlan live)), ring1, sealed 0x30 ({ pkt with handle := 1, p0 := 0x40, p2 := 64, p4 := 1, payload := ((List.range 64).map (BitVec.ofNat 8)) }), _, _, barrierPlan, by decide +kernel, rfl, rfl, by decide +kernel⟩

theorem witness_DataMoves_3 : ∃ (s : State) (r : RingId) (p : Packet) (x : State) (c : Chain) (ps : List (ℕ × ℕ)), Starts s r dataGetRule p ∧ x = takenBy s r dataGetRule p ∧ c = startOf dataGetRule p ∧ par64 c 2 ≠ 0 ∧ par64 c 2 ≤ 2 ^ 40 ∧ sessionPieces x p.session.toNat needRead (par64 c 0) (par64 c 2) = some ps ∧ farPiecesOk x ps false = true :=
  ⟨put ring1 0x31 ({ pkt with p0 := 0xFFC0, p2 := 128 }) mapped, ring1, sealed 0x31 ({ pkt with p0 := 0xFFC0, p2 := 128 }), _, _, [(0x100FFC0, 64), (0x1010000, 64)], by decide +kernel, rfl, rfl, by decide +kernel⟩

theorem witness_PlanCommandsAct_1 : ∃ (s : State) (r : RingId) (p : Packet) (x : State) (q : Plan), Starts s r planLoadRule p ∧ x = takenBy s r planLoadRule p ∧ binaryCheck x p.session.toNat p.payload = none ∧ entriesCheck x p.session.toNat p.payload (parsePlan p.payload) = none ∧ placePlan x p.session.toNat (parsePlan p.payload) = .ok q :=
  ⟨put ring1 0x40 ({ pkt with payload := planBytes }) live, ring1, sealed 0x40 ({ pkt with payload := planBytes }), _, placedPlan, by decide +kernel, rfl, (by show binaryCheck _ _ planBytes = none; unfold binaryCheck; exact (findSome_skip _ _ _ (by rw [planBytes_crc]; decide +kernel)).trans (by decide +kernel)), by decide +kernel⟩

theorem witness_PlanCommandsAct_2 : ∃ (s : State) (r : RingId) (p : Packet) (x : State) (q : Plan), Starts s r planRunRule p ∧ x = takenBy s r planRunRule p ∧ planOf x p.handle = some q ∧ planRunCheck (refFor r planRunRule p) x q = none :=
  ⟨put ring1 0x41 ({ pkt with handle := 1, p0 := 1 }) ((withPlan barrierPlan live)), ring1, sealed 0x41 ({ pkt with handle := 1, p0 := 1 }), _, barrierPlan, by decide +kernel, rfl, by decide +kernel⟩

theorem witness_PlanCommandsAct_3 : ∃ (s : State) (r : RingId) (p : Packet) (q : Plan), Starts s r planCancelRule p ∧ planOf s p.handle = some q ∧ q.run = none :=
  ⟨put ring1 0x42 ({ pkt with handle := 1 }) ((withPlan barrierPlan live)), ring1, sealed 0x42 ({ pkt with handle := 1 }), barrierPlan, by decide +kernel⟩

theorem witness_PlanCommandsAct_4 : ∃ (s : State) (r : RingId) (p : Packet) (x : State) (q : Plan) (u : Run), Starts s r planCancelRule p ∧ x = takenBy s r planCancelRule p ∧ planOf x p.handle = some q ∧ q.run = some u ∧ inCommit q = false ∧ anyHalted x ((List.range q.bin.stages.length).flatMap (stageSlots x q)) = false :=
  ⟨put ring1 0x42 ({ pkt with handle := 1 }) ((running barrierPlan live)), ring1, sealed 0x42 ({ pkt with handle := 1 }), _, (opened barrierPlan live), (openRun barrierPlan live), by decide +kernel, rfl, by decide +kernel⟩

theorem witness_PlanCommandsAct_5 : ∃ (s : State) (r : RingId) (p : Packet) (x : State) (q : Plan) (u : Run) (why : SuspendReason) (op : ℕ) (y : State), Starts s r planResumeRule p ∧ x = takenBy s r planResumeRule p ∧ planOf x p.handle = some q ∧ q.run = some u ∧ u.suspended = some (why, op) ∧ resumeCheck (refFor r planResumeRule p) (startOf planResumeRule p) x q why = none ∧ restoreContext q u op x = some y :=
  ⟨put ring1 0x43 ({ pkt with handle := 1 }) ((withPlan (suspendedPlan SuspendReason.emitSpace) live)), ring1, sealed 0x43 ({ pkt with handle := 1 }), _, (suspendedPlan SuspendReason.emitSpace), (suspendedRun SuspendReason.emitSpace), SuspendReason.emitSpace, 0, _, by decide +kernel, rfl, by decide +kernel, by decide +kernel, by decide +kernel, (by decide +kernel), rfl⟩

theorem witness_PlanCommandsAct_6 : ∃ (s : State) (r : RingId) (p : Packet) (q : Plan), Starts s r planFreeRule p ∧ planOf s p.handle = some q ∧ q.run = none :=
  ⟨put ring1 0x44 ({ pkt with handle := 1 }) ((withPlan barrierPlan live)), ring1, sealed 0x44 ({ pkt with handle := 1 }), barrierPlan, by decide +kernel⟩

theorem witness_TableCommandsAct_1 : ∃ (s : State) (r : RingId) (p : Packet) (x : State), Starts s r tableCreateRule p ∧ x = takenBy s r tableCreateRule p ∧ tableCreateCheck x p.payload p.session.toNat = none :=
  ⟨put ring1 0x50 ({ pkt with payload := (record 128 [(0, 0), (4, 1), (16, 6), (32, 4), (64, 64), (256, 0x1000), (320, noVa), (384, noVa), (448, noVa), (512, noVa), (576, noVa), (640, noVa), (704, noVa)]) }) mapped, ring1, sealed 0x50 ({ pkt with payload := (record 128 [(0, 0), (4, 1), (16, 6), (32, 4), (64, 64), (256, 0x1000), (320, noVa), (384, noVa), (448, noVa), (512, noVa), (576, noVa), (640, noVa), (704, noVa)]) }), _, by decide +kernel, rfl, by decide +kernel⟩

theorem witness_TableCommandsAct_2 : ∃ (s : State) (r : RingId) (p : Packet) (k : ℕ) (e : EmbTable), Starts s r (tableSlotRule 0x0051) p ∧ k = bits p.p0 1 0 ∧ tableOf s p.handle = some e ∧ (slotOf e k).state = .loaded ∧ ((e.hashed = true → indexHeaderOk s e k = true)) :=
  ⟨put ring1 0x51 ({ pkt with handle := 1, p0 := 0 }) withTable, ring1, sealed 0x51 ({ pkt with handle := 1, p0 := 0 }), _, table1, by decide +kernel, rfl, by decide +kernel⟩

theorem witness_TableCommandsAct_3 : ∃ (s : State) (r : RingId) (p : Packet) (k : ℕ) (e : EmbTable), Starts s r (tableSlotRule 0x0052) p ∧ k = bits p.p0 1 0 ∧ tableOf s p.handle = some e ∧ (slotOf e k).state = .loaded :=
  ⟨put ring1 0x52 ({ pkt with handle := 1, p0 := 0 }) withTable, ring1, sealed 0x52 ({ pkt with handle := 1, p0 := 0 }), _, table1, by decide +kernel, rfl, by decide +kernel⟩

theorem witness_TableCommandsAct_4 : ∃ (s : State) (r : RingId) (p : Packet) (e : EmbTable), Starts s r policyRule (fixP0 1 0 p) ∧ tableOf s p.handle = some e ∧ p.payload.length = 64 ∧ field p.payload 142 2 = 0 ∧ field p.payload 176 336 = 0 ∧ (parsePolicy p.payload).maxPerStep ≤ 16 ∧ (parsePolicy p.payload).intervalSteps ≠ 0 ∧ (parsePolicy p.payload).hotVa % 64 = 0 ∧ hotPagesOk s e (parsePolicy p.payload) = true ∧ e.frames = [] :=
  ⟨put admin 0x53 ({ apkt with handle := 1, payload := (record 64 [(0, 0x10000), (64, 1), (96, 4), (128, 16), (136, 1), (141, 1), (144, 8), (160, 2)]) }) withTable, admin, sealed 0x53 ({ apkt with handle := 1, payload := (record 64 [(0, 0x10000), (64, 1), (96, 4), (128, 16), (136, 1), (141, 1), (144, 8), (160, 2)]) }), table1, by decide +kernel⟩

theorem witness_TableCommandsAct_5 : ∃ (s : State) (r : RingId) (p : Packet) (va : ℕ) (x : CtxHolder), Starts s r ctxSpillRule p ∧ va = p.p0.toNat + p.p1.toNat <<< 32 ∧ contextOfHandle s p.handle = some x ∧ va % 64 = 0 ∧ writable s x.session va 512 = true ∧ x.spilled = none ∧ contextBusy s x = false :=
  ⟨put ring1 0x80 ({ pkt with handle := 5, p0 := 0x2000 }) withContext, ring1, sealed 0x80 ({ pkt with handle := 5, p0 := 0x2000 }), _, context1, by decide +kernel, rfl, by decide +kernel⟩

theorem witness_TableCommandsAct_6 : ∃ (s : State) (r : RingId) (p : Packet) (x : CtxHolder), Starts s r ctxFreeRule p ∧ contextOfHandle s p.handle = some x ∧ contextBusy s x = false :=
  ⟨put ring1 0x81 ({ pkt with handle := 5 }) withContext, ring1, sealed 0x81 ({ pkt with handle := 5 }), context1, by decide +kernel⟩

theorem witness_BasinAndTapCommandsAct_1 : ∃ (s : State) (r : RingId) (p : Packet) (i : Instr) (q : Packet) (c : Chain) (x : State) (seg op w : ℕ) (l : BasinLoad), (
                               i = .basinLoadWrite r p ∧ q = fixLoadOp 0 p ∨ i = .basinLoadClear r p ∧ q = fixP0 0x300 0x100 p ∨
      i = .basinLoadRelease r p ∧ q = fixP0 0x300 0x200 p) ∧ Starts s r basinLoadRule q ∧ c = startOf basinLoadRule q ∧ x = takenBy s r basinLoadRule q ∧ basinLoadCheck c x = none ∧ seg = parBits c 0 4 0 ∧ op = parBits c 0 9 8 ∧ matchPlans s seg = [] ∧ s.basin.loads = [] ∧ w = pendingWidth x seg ∧ 
    l = { segment := seg, op := op, width := if op = 1 then basinWidth (parBits c 0 11 10) else w, session := p.session.toNat
          first := parN c 1
          records := if op = 0 then (cut (entryBytes w) (parN c 2) p.payload).map (loadRecord w) else []
          atStep := par64 c 3, plan := noPlan, reply := refFor r basinLoadRule q } :=
  ⟨put ring1 0x60 ({ pkt with p0 := 0x103 }) live, ring1, sealed 0x60 ({ pkt with p0 := 0x103 }), .basinLoadClear ring1 (sealed 0x60 ({ pkt with p0 := 0x103 })), (sealed 0x60 ({ pkt with p0 := 0x103 })), _, _, _, _, _, _, .inr (.inl ⟨rfl, by decide +kernel⟩), by decide +kernel, rfl, rfl, by decide +kernel, rfl, rfl, by decide +kernel, by decide +kernel, rfl, rfl⟩

theorem witness_BasinAndTapCommandsAct_1b : ∃ (s : State) (r : RingId) (p : Packet) (i : Instr) (q : Packet) (c : Chain) (x : State) (seg op w : ℕ) (l : BasinLoad), (
                               i = .basinLoadWrite r p ∧ q = fixLoadOp 0 p ∨ i = .basinLoadClear r p ∧ q = fixP0 0x300 0x100 p ∨
      i = .basinLoadRelease r p ∧ q = fixP0 0x300 0x200 p) ∧ Starts s r basinLoadRule q ∧ c = startOf basinLoadRule q ∧ x = takenBy s r basinLoadRule q ∧ basinLoadCheck c x = none ∧ seg = parBits c 0 4 0 ∧ op = parBits c 0 9 8 ∧ matchPlans s seg = [] ∧ s.basin.loads = [] ∧ w = pendingWidth x seg ∧ 
    l = { segment := seg, op := op, width := if op = 1 then basinWidth (parBits c 0 11 10) else w, session := p.session.toNat
          first := parN c 1
          records := if op = 0 then (cut (entryBytes w) (parN c 2) p.payload).map (loadRecord w) else []
          atStep := par64 c 3, plan := noPlan, reply := refFor r basinLoadRule q } :=
  ⟨put ring1 0x60 ({ pkt with p0 := 0x003, p2 := 1, payload := (record 32 [(0, 77), (32, 5), (48, 1), (128, 513)]) }) withBasin, ring1, sealed 0x60 ({ pkt with p0 := 0x003, p2 := 1, payload := (record 32 [(0, 77), (32, 5), (48, 1), (128, 513)]) }), .basinLoadWrite ring1 (sealed 0x60 ({ pkt with p0 := 0x003, p2 := 1, payload := (record 32 [(0, 77), (32, 5), (48, 1), (128, 513)]) })), (sealed 0x60 ({ pkt with p0 := 0x003, p2 := 1, payload := (record 32 [(0, 77), (32, 5), (48, 1), (128, 513)]) })), _, _, _, _, _, _, .inl ⟨rfl, by decide +kernel⟩, by decide +kernel, rfl, rfl, by decide +kernel, rfl, rfl, by decide +kernel, by decide +kernel, rfl, rfl⟩

theorem witness_BasinAndTapCommandsAct_1c : ∃ (s : State) (r : RingId) (p : Packet) (i : Instr) (q : Packet) (c : Chain) (x : State) (seg op w : ℕ) (l : BasinLoad), (
                               i = .basinLoadWrite r p ∧ q = fixLoadOp 0 p ∨ i = .basinLoadClear r p ∧ q = fixP0 0x300 0x100 p ∨
      i = .basinLoadRelease r p ∧ q = fixP0 0x300 0x200 p) ∧ Starts s r basinLoadRule q ∧ c = startOf basinLoadRule q ∧ x = takenBy s r basinLoadRule q ∧ basinLoadCheck c x = none ∧ seg = parBits c 0 4 0 ∧ op = parBits c 0 9 8 ∧ matchPlans s seg = [] ∧ s.basin.loads = [] ∧ w = pendingWidth x seg ∧ 
    l = { segment := seg, op := op, width := if op = 1 then basinWidth (parBits c 0 11 10) else w, session := p.session.toNat
          first := parN c 1
          records := if op = 0 then (cut (entryBytes w) (parN c 2) p.payload).map (loadRecord w) else []
          atStep := par64 c 3, plan := noPlan, reply := refFor r basinLoadRule q } :=
  ⟨put ring1 0x60 ({ pkt with p0 := 0x203 }) withBasin, ring1, sealed 0x60 ({ pkt with p0 := 0x203 }), .basinLoadRelease ring1 (sealed 0x60 ({ pkt with p0 := 0x203 })), (sealed 0x60 ({ pkt with p0 := 0x203 })), _, _, _, _, _, _, .inr (.inr ⟨rfl, by decide +kernel⟩), by decide +kernel, rfl, rfl, by decide +kernel, rfl, rfl, by decide +kernel, by decide +kernel, rfl, rfl⟩

theorem witness_BasinAndTapCommandsAct_2 : ∃ (l : BasinLoad) (b : BasinUnit), l.op = 0 :=
  ⟨{ segment := 3, op := 0, width := 128, session := 0, first := 7, records := [(true, { key := 1, resultId := 2, priority := 3 })], atStep := 0, plan := noPlan, reply := runRef }, withBasin.basin, by decide +kernel⟩

theorem witness_BasinAndTapCommandsAct_3 : ∃ (l : BasinLoad) (b : BasinUnit) (k : ℕ), l.op ≠ 0 ∧ k < 65536 :=
  ⟨{ segment := 3, op := 2, width := 128, session := 0, first := 7, records := [], atStep := 0, plan := noPlan, reply := runRef }, withBasin.basin, 0, by decide +kernel⟩

theorem witness_BasinAndTapCommandsAct_4 : ∃ (s : State) (r : RingId) (p : Packet) (w n : ℕ), Starts s r basinSearchRule p ∧ w = basinWidth (bits p.p1 1 0) ∧ n = p.p2.toNat ∧ bits p.p1 1 0 ≠ 3 ∧ 0 < n ∧ n ≤ 65536 ∧ p.payload.length = 64 + n * (w / 8) ∧ segmentsOk s p.session.toNat p.p0.toNat w = true :=
  ⟨put ring1 0x61 ({ pkt with p0 := 0x8, p1 := 0, p2 := 1, payload := (zeros 48 ++ [255, 255] ++ zeros 14 ++ [1, 2] ++ zeros 14) }) withBasin, ring1, sealed 0x61 ({ pkt with p0 := 0x8, p1 := 0, p2 := 1, payload := (zeros 48 ++ [255, 255] ++ zeros 14 ++ [1, 2] ++ zeros 14) }), _, _, by decide +kernel, rfl, rfl, by decide +kernel⟩

theorem witness_BasinAndTapCommandsAct_5 : ∃ (s : State) (r : RingId) (p : Packet) (c : Chain) (k : ℕ), Starts s r tapAttachRule p ∧ c = startOf tapAttachRule p ∧ tapAttachCheck (takenBy s r tapAttachRule p) p.session.toNat c = none ∧ chooseTap (takenBy s r tapAttachRule p) (parBits c 0 7 0) (parBits c 0 11 8) (parBits c 0 15 12) = some k :=
  ⟨put ring1 0x70 ({ pkt with p0 := 0x0607, p1 := 0x40, p3 := 0x1000 }) mapped, ring1, sealed 0x70 ({ pkt with p0 := 0x0607, p1 := 0x40, p3 := 0x1000 }), _, 7, by decide +kernel, rfl, by decide +kernel⟩

theorem witness_BasinAndTapCommandsAct_6 : ∃ (s : State) (r : RingId) (p : Packet) (c : Chain) (k : ℕ), Starts s r tapWriteRule p ∧ c = startOf tapWriteRule p ∧ k = bits p.p0 7 0 ∧ tapUseCheck (takenBy s r tapWriteRule p) c = none ∧ par64 c 1 / 2 ^ tapWidth (tapAt s k).poly = 0 :=
  ⟨put ring1 0x72 ({ pkt with p0 := 7, p1 := 5, p2 := 0, p3 := 100 }) live, ring1, sealed 0x72 ({ pkt with p0 := 7, p1 := 5, p2 := 0, p3 := 100 }), _, _, by decide +kernel, rfl, rfl, by decide +kernel⟩

theorem witness_PowerSetTakesEffect_1 : ∃ (s : State) (r : RingId) (p : Packet), Starts s r powerSetRule (fixP0 0x7 0 p) ∧ p.p1 = 0 ∧ s.power.transition = none :=
  ⟨put admin 0x90 ({ apkt with p0 := 0 }) ({ live with power := { live.power with state := .simmer } }), admin, sealed 0x90 ({ apkt with p0 := 0 }), by decide +kernel⟩

theorem witness_PowerSetTakesEffect_2 : ∃ (s : State) (r : RingId) (p : Packet) (x : State) (t : Transition), Starts s r powerSetRule (fixP0 0x7 1 p) ∧ x = takenBy s r powerSetRule (fixP0 0x7 1 p) ∧ p.p1 = 0 ∧ s.power.transition = none ∧ s.power.state = .active ∧ s.power.heldReset = none ∧ s.power.wakeLatched = false ∧ t = { target := .simmer, fromState := .active, reply := some (refFor r powerSetRule (fixP0 0x7 1 p)), draining := true } ∧ drained x t = true ∧ preCheck s .simmer = none ∧ groupRefusal s .simmer = none :=
  ⟨put admin 0x90 ({ apkt with p0 := 1 }) live, admin, sealed 0x90 ({ apkt with p0 := 1 }), _, _, by decide +kernel, rfl, by decide +kernel, by decide +kernel, by decide +kernel, (by decide +kernel), by decide +kernel, rfl, by decide +kernel⟩

theorem witness_PowerSetTakesEffect_3 : ∃ (s : State) (r : RingId) (p : Packet) (x : State) (t : Transition), Starts s r powerSetRule (fixP0 0x7 2 p) ∧ x = takenBy s r powerSetRule (fixP0 0x7 2 p) ∧ p.p1 = 0 ∧ s.power.transition = none ∧ s.power.state ≠ .dormant ∧ s.power.heldReset = none ∧ s.power.wakeLatched = false ∧ 
    t = { target := .dormant, fromState := s.power.state, reply := some (refFor r powerSetRule (fixP0 0x7 2 p)),
          draining := true } ∧ drained x t = true ∧ preCheck s .dormant = none ∧ groupRefusal s .dormant = none :=
  ⟨put admin 0x90 ({ apkt with p0 := 2 }) live, admin, sealed 0x90 ({ apkt with p0 := 2 }), _, _, by decide +kernel, rfl, by decide +kernel, by decide +kernel, by decide +kernel, (by decide +kernel), by decide +kernel, rfl, by decide +kernel⟩

theorem witness_PowerSetTakesEffect_4 : ∃ (s : State) (r : RingId) (p : Packet) (x : State) (t : Transition), Starts s r powerSetRule (fixP0 0x7 3 p) ∧ x = takenBy s r powerSetRule (fixP0 0x7 3 p) ∧ p.p1 = 0 ∧ s.power.transition = none ∧ s.power.state ≠ .cold ∧ s.power.heldReset = none ∧ s.power.wakeLatched = false ∧ t = { target := .cold, fromState := s.power.state, reply := some (refFor r powerSetRule (fixP0 0x7 3 p)), draining := true } ∧ drained x t = true ∧ preCheck s .cold = none ∧ groupRefusal s .cold = none :=
  ⟨put admin 0x90 ({ apkt with p0 := 3 }) live, admin, sealed 0x90 ({ apkt with p0 := 3 }), _, _, by decide +kernel, rfl, by decide +kernel, by decide +kernel, by decide +kernel, (by decide +kernel), by decide +kernel, rfl, by decide +kernel⟩

theorem witness_PowerSetTakesEffect_5 : ∃ (s : State) (r : RingId) (p : Packet) (x : State) (mask : BitVec 32) (y : State), Starts s r powerSetRule (fixP0 0x4 0x4 p) ∧ x = takenBy s r powerSetRule (fixP0 0x4 0x4 p) ∧ bits p.p0 1 0 = 0 ∧ s.power.transition = none ∧ s.power.state ≠ .simmer ∧ s.power.parkReply = none ∧ mask = (List.range 32).foldl (fun m i => if isRetired s (unitId 2 i) then clearBit m i else m) p.p1 ∧ y = withParked mask x ∧ coresActive y ≠ 0 ∧ allPlaceable y = true :=
  ⟨put admin 0x90 ({ apkt with p0 := 4, p1 := 2 }) live, admin, sealed 0x90 ({ apkt with p0 := 4, p1 := 2 }), _, _, _, by decide +kernel, rfl, by decide +kernel, by decide +kernel, by decide +kernel, (by decide +kernel), rfl, rfl, by decide +kernel⟩

theorem witness_SnapshotCommandsAct_1 : ∃ (s : State) (r : RingId) (p : Packet), Starts s r snapArmRule p ∧ snapArmCheck s p.payload = none ∧ s.tremor.state ≠ .latched :=
  ⟨put admin 0xA0 ({ apkt with payload := (record 64 [(0, 0x02), (320, 0x1FFFFFFFFFFF)]) }) live, admin, sealed 0xA0 ({ apkt with payload := (record 64 [(0, 0x02), (320, 0x1FFFFFFFFFFF)]) }), by decide +kernel⟩

theorem witness_SnapshotCommandsAct_2 : ∃ (s : State) (r : RingId) (p : Packet), Starts s r snapArmRule p ∧ snapArmCheck s p.payload = none ∧ s.tremor.state = .latched :=
  ⟨put admin 0xA0 ({ apkt with payload := (record 64 [(0, 0x03), (11, 1), (320, 0x1FFFFFFFFFFF)]) }) ({ live with tremor := { live.tremor with state := .latched } }), admin, sealed 0xA0 ({ apkt with payload := (record 64 [(0, 0x03), (11, 1), (320, 0x1FFFFFFFFFFF)]) }), by decide +kernel⟩

theorem witness_SnapshotCommandsAct_3 : ∃ (s : State) (r : RingId) (p : Packet), Starts s r snapReadRule p ∧ bits p.p0 7 0 < 45 :=
  ⟨put admin 0xA1 ({ apkt with p0 := 44 }) live, admin, sealed 0xA1 ({ apkt with p0 := 44 }), by decide +kernel⟩

theorem witness_TwinCommandsAct_1 : ∃ (s : State) (r : RingId) (p q : Packet), q = fixPairOp 0 p ∧ Starts s r twinPairRule q ∧ pairCheck s 0 q.payload = none :=
  ⟨put admin 0xB0 ({ apkt with payload := (record 96 [(0, 0), (8, 2), (11, 5), (16, 2), (32, 1), (64, 50), (128, 0x10000000000), (192, 64), (512, 0), (512 + 8, 0), (512 + 64, 0x10000), (512 + 128, 0x10000)]) }) mapped, admin, sealed 0xB0 ({ apkt with payload := (record 96 [(0, 0), (8, 2), (11, 5), (16, 2), (32, 1), (64, 50), (128, 0x10000000000), (192, 64), (512, 0), (512 + 8, 0), (512 + 64, 0x10000), (512 + 128, 0x10000)]) }), _, rfl, by decide +kernel⟩

theorem witness_TwinCommandsAct_2 : ∃ (s : State) (r : RingId) (p q : Packet), q = fixPairOp 1 p ∧ Starts s r twinPairRule q ∧ pairCheck s 1 q.payload = none :=
  ⟨put admin 0xB0 ({ apkt with payload := (record 96 [(0, 1), (8, 2), (11, 5), (16, 2), (32, 1), (64, 50), (128, 0x10000000000), (192, 64), (512, 0), (512 + 8, 0), (512 + 64, 0x10000), (512 + 128, 0x10000)]) }) ({ mapped with twin := { mapped.twin with state := .detached } }), admin, sealed 0xB0 ({ apkt with payload := (record 96 [(0, 1), (8, 2), (11, 5), (16, 2), (32, 1), (64, 50), (128, 0x10000000000), (192, 64), (512, 0), (512 + 8, 0), (512 + 64, 0x10000), (512 + 128, 0x10000)]) }), _, rfl, by decide +kernel⟩

theorem witness_TwinCommandsAct_3 : ∃ (s : State) (r : RingId) (p q : Packet) (x : State), q = fixPairOp 2 p ∧ Starts s r twinPairRule q ∧ pairFormOk 2 q.payload = true ∧ s.twin.command = none ∧ s.twin.copying = false ∧ s.twin.state = .paired ∧ bindsInbound s = false ∧ 
    x = (let y := takenBy s r twinPairRule q
      { y with twin := { y.twin with command := some (refFor r twinPairRule q), commandOp := 2 } }) :=
  ⟨put admin 0xB0 ({ apkt with payload := (record 64 [(0, 2), (8, 2), (11, 5)]) }) ({ live with twin := { live.twin with state := .paired } }), admin, sealed 0xB0 ({ apkt with payload := (record 64 [(0, 2), (8, 2), (11, 5)]) }), _, _, rfl, by decide +kernel, by decide +kernel, by decide +kernel, (by decide +kernel), by decide +kernel, by decide +kernel, rfl⟩

theorem witness_TwinCommandsAct_4 : ∃ (s : State) (r : RingId) (p : Packet), Starts s r twinReleaseRule p ∧ ((p.p0 = 2 ∨ p.p0 = 3)) ∧ s.twin.state = .paired ∧ livePlans s = [] ∧ s.twin.command = none ∧ s.twin.copying = false :=
  ⟨put admin 0xB1 ({ apkt with p0 := 2 }) ({ live with twin := { live.twin with state := .paired } }), admin, sealed 0xB1 ({ apkt with p0 := 2 }), by decide +kernel⟩

theorem witness_FabricTablesAreSet_1 : ∃ (s : State) (r : RingId) (p q : Packet) (b : List Byte), q = fixP0 1 0 p ∧ Starts s r fabricConfigRule q ∧ b = p.payload ∧ fabricPayloadOk b = true ∧ fabricRangeOk b = true ∧ ((∀ n < 6, field b (64 + n) 1 = 1 → bit s.boot.config.fabricEn n = true)) ∧ s.fabric.epoch.toNat ≤ field b 32 32 ∧ ((∀ f, s.fabric.fencedBy = some f → f.toNat < field b 32 32)) ∧ (
    (field b 0 12 ≠ s.fabric.moduleId ∨ field b 16 16 ≠ s.fabric.fabricId.toNat →
      ∀ z ∈ s.plans, z.bin.fabricRanks ≤ 1)) :=
  ⟨putHead admin 0xC0 fabricPacket fabricHead live, admin, fabricPacket, _, _, rfl, (⟨packetAtHead_zeros _ _ _ _ ((cellsFrom 64 fabricHead).filter (fun c => c.2 != 0)) 64 8192 (by decide +kernel) (by decide +kernel) (by decide) (by decide +kernel) (by decide +kernel) (by decide +kernel) (by decide +kernel) (by rw [show walkCells ((cellsFrom 64 fabricHead).filter (fun c => c.2 != 0)) 64 64 = fabricHead from by decide +kernel]; rfl), by decide +kernel⟩), rfl, fabricHead_ok, by decide +kernel, (by intro n hn; interval_cases n <;> decide +kernel), by decide +kernel, (by intro f h; cases (show (none : Option (BitVec 32)) = some f from h)), by decide +kernel⟩

theorem witness_FabricTablesAreSet_2 : ∃ (s : State) (r : RingId) (p : Packet) (es : List OwnerSet) (l : OwnerLoad), Starts s r ownerTableRule p ∧ es = ownerEntries p.payload ∧ p.payload.length % 16 = 0 ∧ (∀ k < es.length, ownerReservedOk (slice p.payload (16 * k) 16) = true) ∧ (∀ e ∈ es, ownerIndexOk e = true) ∧ es.length ≤ 1048576 ∧ 
    l = { plan := p.handle, atStep := p.p0.toNat + p.p1.toNat <<< 32
          owners := (es.filter (fun e => e.kind = 0)).map (fun e => (e.index, ownerValue e.value))
          ranks := (es.filter (fun e => e.kind = 1)).map (fun e => (e.index, rankValue e.value)) } :=
  ⟨put admin 0xC1 ({ apkt with payload := (record 32 [(32, 3), (64, 9), (96, 5), (112, 2), (127, 1), (128, 1), (160, 7), (192, 5)]) }) live, admin, sealed 0xC1 ({ apkt with payload := (record 32 [(32, 3), (64, 9), (96, 5), (112, 2), (127, 1), (128, 1), (160, 7), (192, 5)]) }), _, _, by decide +kernel, rfl, by decide +kernel, by decide +kernel, by decide +kernel, (by decide +kernel), rfl⟩

theorem witness_FirmwareCommandsAct_1 : ∃ (s : State) (r : RingId) (p : Packet), Starts s r fwStageRule p ∧ 8192 ≤ p.p0.toNat ∧ p.p0.toNat ≤ 16777216 ∧ p.payload.length = p.p0.toNat ∧ s.boot.phase ≠ .recovery :=
  ⟨putHead admin 0xD0 stagePacket [] live, admin, stagePacket, (⟨packetAtHead_zeros _ _ _ _ [] 0 8192 (by decide +kernel) (by decide +kernel) (by decide) (by decide +kernel) List.Pairwise.nil (by simp) (by decide +kernel) rfl, by decide +kernel⟩), by decide +kernel, by decide +kernel, stagePacket_length, by decide +kernel⟩

theorem witness_FirmwareCommandsAct_2 : ∃ (s : State) (r : RingId) (p : Packet), Starts s r fwStageRule p ∧ 8192 ≤ p.p0.toNat ∧ p.p0.toNat ≤ 16777216 ∧ p.payload.length = p.p0.toNat ∧ s.boot.phase = .recovery ∧ s.boot.recoverySource < 2 ∧ otherStaging s r.port = false :=
  ⟨putHead admin 0xD0 stagePacket [] { live with boot := { live.boot with phase := .recovery } }, admin, stagePacket, (⟨packetAtHead_zeros _ _ _ _ [] 0 8192 (by decide +kernel) (by decide +kernel) (by decide) (by decide +kernel) List.Pairwise.nil (by simp) (by decide +kernel) rfl, by decide +kernel⟩), by decide +kernel, by decide +kernel, stagePacket_length, by decide +kernel⟩

theorem witness_FirmwareCommandsAct_3 : ∃ (s : State) (r : RingId) (p : Packet) (b : List Byte), Starts s r fwCommitRule p ∧ s.boot.phase ≠ .recovery ∧ s.boot.staged = some b :=
  ⟨put admin 0xD1 apkt ({ live with boot := { live.boot with staged := some (zeros 64) } }), admin, sealed 0xD1 apkt, (zeros 64), by decide +kernel⟩

theorem witness_FirmwareCommandsAct_4 : ∃ (s : State) (r : RingId) (p : Packet), Starts s r configPutRule (fixP0 3 0 p) ∧ p.p0 &&& 3 ≠ 3 :=
  ⟨put admin 0xD3 ({ apkt with p0 := 0, payload := (zeros 64) }) live, admin, sealed 0xD3 ({ apkt with p0 := 0, payload := (zeros 64) }), by decide +kernel⟩

theorem witness_FirmwareCommandsAct_5 : ∃ (s : State) (r : RingId) (p : Packet), Starts s r configPutRule (fixP0 3 1 p) :=
  ⟨put admin 0xD3 ({ apkt with p0 := 1, payload := (zeros 64) }) live, admin, sealed 0xD3 ({ apkt with p0 := 1, payload := (zeros 64) }), by decide +kernel⟩

theorem witness_FirmwareCommandsAct_6 : ∃ (s : State) (r : RingId) (p : Packet), Starts s r configPutRule (fixP0 3 2 p) :=
  ⟨put admin 0xD3 ({ apkt with p0 := 2, payload := (zeros 64) }) live, admin, sealed 0xD3 ({ apkt with p0 := 2, payload := (zeros 64) }), by decide +kernel⟩

theorem witness_FirmwareCommandsAct_7 : ∃ (s : State) (r : RingId) (p : Packet), Starts s r debugTokenRule (fixP0 1 0 p) :=
  ⟨put admin 0xD4 ({ apkt with p0 := 0, payload := (zeros 64) }) live, admin, sealed 0xD4 ({ apkt with p0 := 0, payload := (zeros 64) }), by decide +kernel⟩

theorem witness_FirmwareCommandsAct_8 : ∃ (s : State) (r : RingId) (p : Packet) (b : BootUnit), Starts s r attestRule p ∧ p.payload.length = 32 ∧ 0 < s.boot.bucket ∧ reserveIndex s.boot = some b :=
  ⟨put ring1 0xD2 ({ pkt with payload := (zeros 32) }) live, ring1, sealed 0xD2 ({ pkt with payload := (zeros 32) }), { live.boot with nor := { live.boot.nor with journal := [256] } }, by decide +kernel⟩

theorem witness_UnitCommandsAct_1 : ∃ (s : State) (r : RingId) (p : Packet) (full : Bool) (q : Packet) (u : BitVec 32) (free : ℕ → ℕ) (result : ℕ) (retires : Bool) (errors : ℕ) (found : List ℕ) (x : State), q = fixP1 3 (if full then 1 else 0) p ∧ ((full = false → p.p1 &&& 2 ≠ 2)) ∧ Starts s r testRunRule q ∧ u = p.p0 ∧ testCheck (takenBy s r testRunRule q) u (if full then 1 else 0) = none ∧ free = (fun k => (Config.freeValue (s.freeCount + k)).toNat) ∧ result = free 0 % 3 ∧ retires = (decide (result = 1) && bit p.p1 2) ∧ errors = (if result = 1 then free 1 else 0) ∧ found = scrubSectors (takenBy s r testRunRule q) u full errors ∧ (
    x = (let y := found.foldl (fun z n => scrubSector n z) (takeFresh (4 + errors) (testLeaves u (takenBy s r testRunRule q)))
      if result = 0 ∧ (full = true ∨ hasFull (unitClass u) = false) then
        { y with err := { y.err with
            retired := y.err.retired.map (fun e => if e.unit = u then { e with testPassed := true } else e) } }
      else y)) :=
  ⟨put admin 0xE1 ({ apkt with p0 := 0x20003, p1 := 0 }) live, admin, sealed 0xE1 ({ apkt with p0 := 0x20003, p1 := 0 }), false, _, _, _, _, _, _, _, _, rfl, by decide +kernel, by decide +kernel, rfl, by decide +kernel, rfl, rfl, rfl, rfl, rfl, rfl⟩

theorem witness_UnitCommandsAct_2 : ∃ (s : State) (r : RingId) (p q : Packet) (x : State), q = fixP1 3 0 p ∧ p.p1 &&& 3 ≠ 3 ∧ Starts s r unitRetireRule q ∧ x = takenBy s r unitRetireRule q ∧ unitValid p.p0 = true ∧ isRetired x p.p0 = false ∧ retireBlocked x p.p0 = false :=
  ⟨put admin 0xE2 ({ apkt with p0 := 0x50003 }) live, admin, sealed 0xE2 ({ apkt with p0 := 0x50003 }), _, _, rfl, by decide +kernel, by decide +kernel, rfl, by decide +kernel⟩

theorem witness_UnitCommandsAct_3 : ∃ (s : State) (r : RingId) (p q : Packet), q = fixP1 3 1 p ∧ Starts s r unitRetireRule q ∧ unitValid p.p0 = true ∧ (∃ e ∈ s.err.retired, e.unit = p.p0 ∧ e.testPassed = true) :=
  ⟨put admin 0xE2 ({ apkt with p0 := 0x50003, p1 := 1 }) ({ live with err := { live.err with retired := [{ unit := 0x50003, reason := 1, time := 0, testPassed := true, restoring := false }] } }), admin, sealed 0xE2 ({ apkt with p0 := 0x50003, p1 := 1 }), _, rfl, by decide +kernel, by decide +kernel, ⟨_, List.mem_singleton.mpr rfl, rfl, rfl⟩⟩

theorem witness_UnitCommandsAct_4 : ∃ (s : State) (r : RingId) (op : BitVec 16) (p : Packet), knownOpcodes.contains op.toNat = false ∧ packetAtHead s r op p = true ∧ headerStop (ringOf s r.port r.idx) (headerBytes op p) = none ∧ (ringOf s r.port r.idx).cq ≠ none ∧ (ringOf s r.port r.idx).chain = none :=
  ⟨put ring1 0xF7 pkt live, ring1, (0xF7 : BitVec 16), sealed 0xF7 pkt, by decide +kernel⟩

theorem witness_SuppliesSwitchTheModule_1 : ∃ (s : State) (addr : BitVec 2) (x : State), x = { s with pins := { s.pins with vauxUp := true, smbAddr := addr } } :=
  ⟨State.reset, 2, _, rfl⟩

theorem witness_SuppliesSwitchTheModule_2 : ∃ (s : State) (v : Bool) (b : BootInputs) (x : State), x = { s with pins := { s.pins with pwrEn := true, vinOk := v } } :=
  ⟨{ State.reset with pins := { State.reset.pins with vauxUp := true } }, true, bootIn, _, rfl⟩

theorem witness_SuppliesSwitchTheModule_3 : ∃ (s : State), s.pins.pwrgdOut = true :=
  ⟨live, by decide +kernel⟩

theorem witness_SuppliesSwitchTheModule_4 : ∃ (s : State), s.pins.pwrgdOut = false ∧ s.power.state = .dormant :=
  ⟨{ live with power := { live.power with state := .dormant }, pins := { live.pins with pwrgdOut := false } }, by decide +kernel⟩

theorem witness_SuppliesSwitchTheModule_5 : ∃ (s : State), s.pins.pwrgdOut = false ∧ s.power.state ≠ .dormant :=
  ⟨State.reset, by decide +kernel⟩

theorem witness_SuppliesSwitchTheModule_6 : ∃ (s : State) (i : Instr) (cause detail isl : ℕ), s.pins.pwrgdOut = true ∧ s.pins.fault = 0 ∧ (
    (i = .vinFault ∧ cause = 2 ∧ detail = 4 ∨ i = .regulatorFault ∧ cause = 3 ∧ detail = 5 ∨
      i = .thermalTrip isl ∧ cause = 1 ∧ detail = 0)) :=
  ⟨live, .vinFault, 2, 4, 0, by decide +kernel, by decide +kernel, .inl ⟨rfl, rfl, rfl⟩⟩

theorem witness_SuppliesSwitchTheModule_6b : ∃ (s : State) (i : Instr) (cause detail isl : ℕ), s.pins.pwrgdOut = true ∧ s.pins.fault = 0 ∧ (
    (i = .vinFault ∧ cause = 2 ∧ detail = 4 ∨ i = .regulatorFault ∧ cause = 3 ∧ detail = 5 ∨
      i = .thermalTrip isl ∧ cause = 1 ∧ detail = 0)) :=
  ⟨live, .regulatorFault, 3, 5, 0, by decide +kernel, by decide +kernel, .inr (.inl ⟨rfl, rfl, rfl⟩)⟩

theorem witness_SuppliesSwitchTheModule_6c : ∃ (s : State) (i : Instr) (cause detail isl : ℕ), s.pins.pwrgdOut = true ∧ s.pins.fault = 0 ∧ (
    (i = .vinFault ∧ cause = 2 ∧ detail = 4 ∨ i = .regulatorFault ∧ cause = 3 ∧ detail = 5 ∨
      i = .thermalTrip isl ∧ cause = 1 ∧ detail = 0)) :=
  ⟨live, .thermalTrip 44, 1, 0, 44, by decide +kernel, by decide +kernel, .inr (.inr ⟨rfl, rfl, rfl⟩)⟩

theorem witness_SuppliesSwitchTheModule_7 : ∃ (s : State), s.pins.pwrgdOut = false ∧ s.power.state = .dormant ∧ s.pins.fault = 0 :=
  ⟨{ live with power := { live.power with state := .dormant }, pins := { live.pins with pwrgdOut := false } }, by decide +kernel⟩

theorem witness_SuppliesSwitchTheModule_9 : ∃ (s : State), s.power.state = .dormant :=
  ⟨{ live with power := { live.power with state := .dormant }, pins := { live.pins with pwrgdOut := false } }, by decide +kernel⟩

theorem witness_ColdBootRuns_1 : ∃ (s : State) (b : BootInputs) (c : ConfigRecord), s.pins.vauxUp = true ∧ s.pins.pwrgdOut = false ∧ s.power.state = .cold ∧ s.pins.fault = 0 ∧ s.pins.coldLatched = false ∧ b.bootMode = 0 ∧ b.pufOk = true ∧ b.die1Joins = true ∧ b.badPositions = [] ∧ b.islands = [] ∧ (∀ e ∈ s.err.retired, unitClass e.unit ≠ 12 ∧ unitClass e.unit ≠ 13) ∧ s.boot.nor.image = [] ∧ b.norBad = 0 ∧ b.imageBad = none ∧ chooseConfig s.boot.nor = some c ∧ c.minSvn = 0 :=
  ⟨{ State.reset with pins := { State.reset.pins with vauxUp := true } }, bootIn, ConfigRecord.safe, by decide +kernel, by decide +kernel, by decide +kernel, (by decide +kernel), by decide +kernel, by decide +kernel, by decide +kernel, (by decide +kernel), by decide +kernel, by decide +kernel, (by intro e he; cases he), by decide +kernel⟩

theorem witness_ResetsDropWork_1 : ∃ (s : State) (i : Instr) (port : Fin 2) (b : BootInputs), s.power.transition = none ∧ (
    (i = .resetCtlWarm port 0xC1A50001 b ∧ barUp s port = true ∧ resetNow s = none ∨
      i = .resetN b ∧ s.pins.pwrEn = true ∧ railsUp s = true ∧ s.dbg.pinsTaken = 0)) :=
  ⟨live, .resetN bootIn, 0, bootIn, by decide +kernel, .inr ⟨rfl, by decide +kernel, by decide +kernel, by decide +kernel⟩⟩

theorem witness_ResetsDropWork_1b : ∃ (s : State) (i : Instr) (port : Fin 2) (b : BootInputs), s.power.transition = none ∧ (
    (i = .resetCtlWarm port 0xC1A50001 b ∧ barUp s port = true ∧ resetNow s = none ∨
      i = .resetN b ∧ s.pins.pwrEn = true ∧ railsUp s = true ∧ s.dbg.pinsTaken = 0)) :=
  ⟨live, .resetCtlWarm 1 0xC1A50001 bootIn, 1, bootIn, by decide +kernel, .inl ⟨rfl, by decide +kernel⟩⟩

theorem witness_ResetsDropWork_2 : ∃ (s : State) (port : Fin 2) (b : BootInputs), s.power.transition = none ∧ barUp s port = true ∧ resetNow s ≠ some true :=
  ⟨live, 1, bootIn, by decide +kernel⟩

theorem witness_ResetsDropWork_3 : ∃ (s : State) (i : Instr) (port : Fin 2) (b : BootInputs) (x : Transition) (rec_ : Bool), s.power.transition = some x ∧ (
    (i = .resetCtlWarm port 0xC1A50001 b ∧ barUp s port = true ∧ resetNow s = none ∧ rec_ = false ∨
      i = .resetCtlRecovery port 0xC1A50002 b ∧ barUp s port = true ∧ resetNow s ≠ some true ∧ rec_ = true ∨
      i = .resetN b ∧ s.pins.pwrEn = true ∧ railsUp s = true ∧ s.dbg.pinsTaken = 0 ∧ rec_ = false)) :=
  ⟨{ live with power := { live.power with transition := some transition1 } }, .resetCtlRecovery 0 0xC1A50002 bootIn, 0, bootIn, transition1, true, by decide +kernel, .inr (.inl ⟨rfl, by decide +kernel, by decide +kernel, rfl⟩)⟩

theorem witness_ResetsDropWork_3b : ∃ (s : State) (i : Instr) (port : Fin 2) (b : BootInputs) (x : Transition) (rec_ : Bool), s.power.transition = some x ∧ (
    (i = .resetCtlWarm port 0xC1A50001 b ∧ barUp s port = true ∧ resetNow s = none ∧ rec_ = false ∨
      i = .resetCtlRecovery port 0xC1A50002 b ∧ barUp s port = true ∧ resetNow s ≠ some true ∧ rec_ = true ∨
      i = .resetN b ∧ s.pins.pwrEn = true ∧ railsUp s = true ∧ s.dbg.pinsTaken = 0 ∧ rec_ = false)) :=
  ⟨{ live with power := { live.power with transition := some transition1 } }, .resetN bootIn, 0, bootIn, transition1, false, by decide +kernel, .inr (.inr ⟨rfl, by decide +kernel, by decide +kernel, by decide +kernel, rfl⟩)⟩

theorem witness_ResetsDropWork_4 : ∃ (s : State) (port : Fin 2) (b : BootInputs), barUp s port = true :=
  ⟨{ live with boot := { live.boot with resetTime := 5000000000, resetting := some false } }, 0, bootIn, by decide +kernel⟩

theorem witness_ResetsDropWork_4b : ∃ (s : State) (port : Fin 2) (b : BootInputs), barUp s port = true :=
  ⟨{ live with boot := { live.boot with resetTime := 5000000000, resetting := some true } }, 1, bootIn, by decide +kernel⟩

theorem witness_ResetsDropWork_5 : ∃ (s : State) (port : Fin 2) (v : Word) (b : BootInputs), barUp s port = true ∧ v ≠ 0xC1A50001 ∧ v ≠ 0xC1A50002 :=
  ⟨live, 0, 0xC1A50000, bootIn, by decide +kernel⟩

theorem witness_LinksAndWakes_1 : ∃ (s : State) (port : Fin 2), s.power.transition = none :=
  ⟨live, 0, by decide +kernel⟩

theorem witness_LinksAndWakes_2 : ∃ (s : State) (port : Fin 2) (b : BootInputs), (s.power.state ≠ .dormant ∨ (portOf s port).perst = false ∨ s.pins.pwrEn = false ∨ s.pins.vauxUp = false) :=
  ⟨State.reset, 1, bootIn, by decide +kernel⟩

theorem witness_LinksAndWakes_3 : ∃ (s : State) (port : Fin 2) (b : BootInputs), s.power.state = .dormant ∧ (portOf s port).perst = true ∧ s.pins.pwrEn = true ∧ s.pins.vauxUp = true :=
  ⟨{ State.reset with power := { State.reset.power with state := .dormant }, pins := { State.reset.pins with pwrEn := true, vauxUp := true } }, 1, bootIn, by decide +kernel⟩

theorem witness_LinksAndWakes_5 : ∃ (s : State) (port : Fin 2) (width rate : ℕ), (portOf s port).training = true ∧ s.power.transition = none ∧ s.ports.length = 2 ∧ (∀ e ∈ s.sessions, e.2.closing = none) :=
  ⟨{ live with ports := [{ upPort 2 with linkUp := false, training := true, ringsOpen := false }, upPort 2] }, 0, 8, 64, by decide +kernel⟩

theorem witness_LinksAndWakes_6 : ∃ (s : State) (port : Fin 2) (width rate : ℕ), (portOf s port).linkUp = true ∧ (¬ ((portOf s port).width = width ∧ (portOf s port).rate = rate)) ∧ s.ports.length = 2 :=
  ⟨live, 0, 4, 16, by decide +kernel⟩

theorem witness_LinksAndWakes_6b : ∃ (s : State) (port : Fin 2) (width rate : ℕ), (portOf s port).linkUp = true ∧ (¬ ((portOf s port).width = width ∧ (portOf s port).rate = rate)) ∧ s.ports.length = 2 :=
  ⟨{ live with ports := [{ upPort 2 with width := 4, rate := 16, ringsOpen := false }, upPort 2] }, 0, 8, 64, by decide +kernel⟩

theorem witness_LinksAndWakes_7 : ∃ (s : State) (b : BootInputs), s.pins.pwrEn = true ∧ s.pins.vauxUp = true ∧ s.dbg.pinsTaken = 0 :=
  ⟨live, bootIn, by decide +kernel⟩

theorem witness_LinksAndWakes_8 : ∃ (s : State) (port : Fin 6) (present : Bool) (q : FabricPort), s.fabric.ports[port.val]? = some q :=
  ⟨live, 5, true, FabricPort.reset, by decide +kernel⟩

theorem witness_RegisterWritesAct_1 : ∃ (s : State) (r : RingId) (v : BitVec 64) (q : Ring), q = ringOf s r.port r.idx ∧ barUp s r.port = true ∧ bits v 63 32 = 0 ∧ q.enabled = true ∧ (portOf s r.port).ringsOpen = true :=
  ⟨live, ring1, 1, _, rfl, by decide +kernel⟩

theorem witness_RegisterWritesAct_2 : ∃ (s : State) (r : RingId) (v : BitVec 64), barUp s r.port = true ∧ bits v 63 32 ≠ 0 :=
  ⟨live, ring1, 0x100000000, by decide +kernel⟩

theorem witness_RegisterWritesAct_3 : ∃ (s : State) (port : Fin 2) (v : Word), s.ports.length = 2 ∧ barUp s port = true :=
  ⟨live, 0, 0x3FF, by decide +kernel⟩

theorem witness_RegisterWritesAct_4 : ∃ (s : State) (port : Fin 2) (v : Fin 65), s.ports.length = 2 ∧ (portOf s port).msix.length = 65 ∧ barUp s port = true :=
  ⟨live, 0, 64, by decide +kernel⟩

theorem witness_RegisterWritesAct_5 : ∃ (s : State) (port : Fin 2), s.ports.length = 2 ∧ (portOf s port).linkUp = true :=
  ⟨live, 0, by decide +kernel⟩

theorem witness_RegisterWritesAct_6 : ∃ (s : State) (port : Fin 2) (off : BitVec 16) (w : Bool), s.ports.length = 2 ∧ barUp s port = true :=
  ⟨live, 0, 0x19, true, by decide +kernel⟩

theorem witness_RegisterWritesAct_7 : ∃ (s : State) (port : Fin 2) (off : ℕ) (data : List Byte) (i o : ℕ), windowUp s port = true ∧ i = off / 0x400000 ∧ o = off % 0x400000 ∧ i < 64 ∧ s.ports.length = 2 ∧ (portOf s port).rings.length = 64 :=
  ⟨live64, 0, 0x400040, [1, 2], 1, 0x40, by decide +kernel⟩

theorem witness_OtherRegisterWritesAct_1 : ∃ (s : State) (port : Fin 2) (v : Word), barUp s port = true :=
  ⟨live, 0, 1, by decide +kernel⟩

theorem witness_OtherRegisterWritesAct_2 : ∃ (s : State) (port : Fin 2) (v : Word), barUp s port = true :=
  ⟨live, 0, 1, by decide +kernel⟩

theorem witness_OtherRegisterWritesAct_3 : ∃ (s : State) (port : Fin 2) (off : BitVec 16) (v : Word), barUp s port = true ∧ off.toNat % 8 = 0 ∧ off.toNat ∉ [0x0018, 0x0020, 0x0040, 0x0048, 0x0810] ∧ (¬ (0x0100 ≤ off.toNat ∧ off.toNat < 0x0300)) ∧ (¬ (0x8000 ≤ off.toNat ∧ off.toNat < 0x8410)) :=
  ⟨live, 0, 0x0008, 1, by decide +kernel⟩

theorem witness_OtherRegisterWritesAct_4 : ∃ (s : State) (port : Fin 2) (off : BitVec 16) (v : Word), s.ports.length = 2 ∧ (portOf s port).linkUp = true ∧ s.power.transition = none ∧ (∀ e ∈ s.sessions, e.2.closing = none) :=
  ⟨live, 0, 0x04, 6, by decide +kernel⟩

theorem witness_OtherRegisterWritesAct_4b : ∃ (s : State) (port : Fin 2) (off : BitVec 16) (v : Word), s.ports.length = 2 ∧ (portOf s port).linkUp = true ∧ s.power.transition = none ∧ (∀ e ∈ s.sessions, e.2.closing = none) :=
  ⟨live, 0, 0x10, 0xFFFFFFFF, by decide +kernel⟩

theorem witness_OtherRegisterWritesAct_4c : ∃ (s : State) (port : Fin 2) (off : BitVec 16) (v : Word), s.ports.length = 2 ∧ (portOf s port).linkUp = true ∧ s.power.transition = none ∧ (∀ e ∈ s.sessions, e.2.closing = none) :=
  ⟨live, 0, 0x18, 0x10000000, by decide +kernel⟩

theorem witness_OtherRegisterWritesAct_4d : ∃ (s : State) (port : Fin 2) (off : BitVec 16) (v : Word), s.ports.length = 2 ∧ (portOf s port).linkUp = true ∧ s.power.transition = none ∧ (∀ e ∈ s.sessions, e.2.closing = none) :=
  ⟨live, 0, 0x60, 0x5000, by decide +kernel⟩

theorem witness_OtherRegisterWritesAct_4e : ∃ (s : State) (port : Fin 2) (off : BitVec 16) (v : Word), s.ports.length = 2 ∧ (portOf s port).linkUp = true ∧ s.power.transition = none ∧ (∀ e ∈ s.sessions, e.2.closing = none) :=
  ⟨live, 0, 0x80, 0x1, by decide +kernel⟩

theorem witness_OtherRegisterWritesAct_4f : ∃ (s : State) (port : Fin 2) (off : BitVec 16) (v : Word), s.ports.length = 2 ∧ (portOf s port).linkUp = true ∧ s.power.transition = none ∧ (∀ e ∈ s.sessions, e.2.closing = none) :=
  ⟨live, 0, 0x00, 1, by decide +kernel⟩

theorem witness_TriggersLatch_1 : ∃ (s : State) (i : Instr) (src : BitVec 6), (
             (i = .tremorFire 0 1 ∧ barUp s 0 = true ∧ src = srcRegister ∨ i = .tremorFire 1 1 ∧ barUp s 1 = true ∧ src = srcRegister ∨
      i = .trigIn s.tremor.arm.trigInFalling ∧ s.dbg.pinsTaken = 0 ∧ src = srcTrigIn ∨
      i = .zdbgTrigger ∧ src = srcDebug)) ∧ railsUp s = true ∧ src &&& s.tremor.arm.sources ≠ 0 :=
  ⟨live, .tremorFire 0 1, srcRegister, .inl ⟨rfl, by decide +kernel, rfl⟩, by decide +kernel⟩

theorem witness_TriggersLatch_1b : ∃ (s : State) (i : Instr) (src : BitVec 6), (
             (i = .tremorFire 0 1 ∧ barUp s 0 = true ∧ src = srcRegister ∨ i = .tremorFire 1 1 ∧ barUp s 1 = true ∧ src = srcRegister ∨
      i = .trigIn s.tremor.arm.trigInFalling ∧ s.dbg.pinsTaken = 0 ∧ src = srcTrigIn ∨
      i = .zdbgTrigger ∧ src = srcDebug)) ∧ railsUp s = true ∧ src &&& s.tremor.arm.sources ≠ 0 :=
  ⟨live, .tremorFire 1 1, srcRegister, .inr (.inl ⟨rfl, by decide +kernel, rfl⟩), by decide +kernel⟩

theorem witness_TriggersLatch_1c : ∃ (s : State) (i : Instr) (src : BitVec 6), (
             (i = .tremorFire 0 1 ∧ barUp s 0 = true ∧ src = srcRegister ∨ i = .tremorFire 1 1 ∧ barUp s 1 = true ∧ src = srcRegister ∨
      i = .trigIn s.tremor.arm.trigInFalling ∧ s.dbg.pinsTaken = 0 ∧ src = srcTrigIn ∨
      i = .zdbgTrigger ∧ src = srcDebug)) ∧ railsUp s = true ∧ src &&& s.tremor.arm.sources ≠ 0 :=
  ⟨live, .trigIn false, srcTrigIn, .inr (.inr (.inl ⟨rfl, by decide +kernel, rfl⟩)), by decide +kernel⟩

theorem witness_TriggersLatch_1d : ∃ (s : State) (i : Instr) (src : BitVec 6), (
             (i = .tremorFire 0 1 ∧ barUp s 0 = true ∧ src = srcRegister ∨ i = .tremorFire 1 1 ∧ barUp s 1 = true ∧ src = srcRegister ∨
      i = .trigIn s.tremor.arm.trigInFalling ∧ s.dbg.pinsTaken = 0 ∧ src = srcTrigIn ∨
      i = .zdbgTrigger ∧ src = srcDebug)) ∧ railsUp s = true ∧ src &&& s.tremor.arm.sources ≠ 0 :=
  ⟨live, .zdbgTrigger, srcDebug, .inr (.inr (.inr ⟨rfl, rfl⟩)), by decide +kernel⟩

theorem witness_ConditionsLatch_1 : ∃ (s : State) (st : Option (BitVec 8 × Word)), fwRunning s = true ∧ s.tremor.state = .armed ∧ eventHolds s st = true ∧ bit s.tremor.arm.sources 4 = true ∧ railsUp s = true :=
  ⟨{ live with tremor := { live.tremor with arm := { live.tremor.arm with sources := 0x30, statusValue := 3 } } }, some (3, 0), by decide +kernel⟩

theorem witness_ConditionsLatch_2 : ∃ (s : State), s.tremor.state = .armed ∧ bit s.tremor.arm.sources 5 = true ∧ railsUp s = true ∧ s.tremor.triggerTime.toNat < s.tremor.arm.fireTime.toNat :=
  ⟨{ live with tremor := { live.tremor with arm := { live.tremor.arm with sources := 0x30, fireTime := 9000000000 } } }, by decide +kernel⟩

theorem witness_ModuleTimeIsKept_1 : ∃ (s : State), s.pins.pwrgdOut = true ∧ s.dbg.pinsTaken = 0 :=
  ⟨live, by decide +kernel⟩

theorem witness_ModuleTimeIsKept_1b : ∃ (s : State), s.pins.pwrgdOut = true ∧ s.dbg.pinsTaken = 0 :=
  ⟨{ live with clock := { live.clock with setPending := some (7, 4000000000) } }, by decide +kernel⟩

theorem witness_ModuleTimeIsKept_1c : ∃ (s : State), s.pins.pwrgdOut = true ∧ s.dbg.pinsTaken = 0 :=
  ⟨{ live with clock := { live.clock with firstPending := false, lastEdge := some 4099999999 } }, by decide +kernel⟩

theorem witness_ModuleTimeIsKept_1d : ∃ (s : State), s.pins.pwrgdOut = true ∧ s.dbg.pinsTaken = 0 :=
  ⟨{ live with clock := { live.clock with firstPending := false, lastEdge := some 4100000001 } }, by decide +kernel⟩

theorem witness_ModuleTimeIsKept_2 : ∃ (s : State) (sec : Word), s.pins.vauxUp = true :=
  ⟨live, 7, by decide +kernel⟩

theorem witness_ModuleTimeIsKept_3 : ∃ (s : State) (sec at_ : Word), s.clock.setPending = some (sec, at_) :=
  ⟨{ live with clock := { live.clock with setPending := some (7, 4000000000) } }, 7, 4000000000, by decide +kernel⟩

theorem witness_ModuleTimeIsKept_4 : ∃ (s : State), s.pins.vauxUp = true :=
  ⟨live, by decide +kernel⟩

theorem witness_ManagementBusAnswers_1 : ∃ (s : State) (body : List Byte), s.pins.vauxUp = true :=
  ⟨live, [1, 2, 3], by decide +kernel⟩

theorem witness_ManagementBusAnswers_2 : ∃ (s : State) (body : List Byte), s.pins.vauxUp = true ∧ field body 0 8 = 1 :=
  ⟨live, [1, 0, 0x2A], by decide +kernel⟩

theorem witness_ManagementBusAnswers_3 : ∃ (s : State) (body : List Byte), s.pins.vauxUp = true ∧ field body 0 8 ≠ 1 :=
  ⟨live, [2], by decide +kernel⟩

theorem witness_TimersAct_1 : ∃ (s : State), fwRunning s = true :=
  ⟨live, by decide +kernel⟩

theorem witness_TimersAct_2 : ∃ (s : State), s.boot.phase = .running ∧ railsUp s = true ∧ s.boot.fwStalled = false :=
  ⟨live, by decide +kernel⟩

theorem witness_TimersAct_3 : ∃ (s : State) (r : RingId) (c : CompletionRing) (at_ : Word), (ringOf s r.port r.idx).cq = some c ∧ c.firstPending = some at_ ∧ s.ports.length = 2 ∧ (portOf s r.port).rings.length = 64 :=
  ⟨{ live64 with ports := [{ upPort 62 with rings := [openRing1 none, { openRing1 (some 0) with cq := some { ring64 with firstPending := some 4900000000, pendingIrq := 1 } }] ++ List.replicate 62 Ring.reset }, upPort 62] }, ring1, { ring64 with firstPending := some 4900000000, pendingIrq := 1 }, 4900000000, by decide +kernel⟩

theorem witness_TimersAct_4 : ∃ (s : State) (r : RingId) (head : Word), lacksRoom (ringOf s r.port r.idx) = false :=
  ⟨live64, ring1, 0, by decide +kernel⟩

theorem witness_TimersAct_5 : ∃ (s : State) (r : RingId) (head : Word) (c : CompletionRing) (x : Ring) (n new_ : ℕ), x = ringOf s r.port r.idx ∧ x.cq = some c ∧ (((∃ d rest, c.held = d :: rest ∧ n = completionUnits d) ∨ c.held = [] ∧ x.events ≠ [] ∧ n = 2)) ∧ c.released + cqUnits c < c.written + n ∧ new_ = max c.released (min head.toNat c.written) ∧ s.power.transition = none ∧ (∀ e ∈ s.sessions, e.2.closing = none) ∧ s.ports.length = 2 ∧ (portOf s r.port).rings.length = 64 :=
  ⟨{ live64 with ports := [{ upPort 62 with rings := [openRing1 none, { openRing1 (some 0) with cq := some { ring64 with written := 2048, held := [oneCompletion] } }] ++ List.replicate 62 Ring.reset }, upPort 62] }, ring1, 0, { ring64 with written := 2048, held := [oneCompletion] }, _, (completionUnits oneCompletion), _, rfl, by decide +kernel, (.inl ⟨oneCompletion, [], rfl, rfl⟩), by decide +kernel, rfl, by decide +kernel⟩

theorem witness_TimersAct_5b : ∃ (s : State) (r : RingId) (head : Word) (c : CompletionRing) (x : Ring) (n new_ : ℕ), x = ringOf s r.port r.idx ∧ x.cq = some c ∧ (((∃ d rest, c.held = d :: rest ∧ n = completionUnits d) ∨ c.held = [] ∧ x.events ≠ [] ∧ n = 2)) ∧ c.released + cqUnits c < c.written + n ∧ new_ = max c.released (min head.toNat c.written) ∧ s.power.transition = none ∧ (∀ e ∈ s.sessions, e.2.closing = none) ∧ s.ports.length = 2 ∧ (portOf s r.port).rings.length = 64 :=
  ⟨{ live64 with ports := [{ upPort 62 with rings := [openRing1 none, { openRing1 (some 0) with cq := some { ring64 with written := 2048, held := [oneCompletion] } }] ++ List.replicate 62 Ring.reset }, upPort 62] }, ring1, 1, { ring64 with written := 2048, held := [oneCompletion] }, _, (completionUnits oneCompletion), _, rfl, by decide +kernel, (.inl ⟨oneCompletion, [], rfl, rfl⟩), by decide +kernel, rfl, by decide +kernel⟩

theorem witness_TimersAct_5c : ∃ (s : State) (r : RingId) (head : Word) (c : CompletionRing) (x : Ring) (n new_ : ℕ), x = ringOf s r.port r.idx ∧ x.cq = some c ∧ (((∃ d rest, c.held = d :: rest ∧ n = completionUnits d) ∨ c.held = [] ∧ x.events ≠ [] ∧ n = 2)) ∧ c.released + cqUnits c < c.written + n ∧ new_ = max c.released (min head.toNat c.written) ∧ s.power.transition = none ∧ (∀ e ∈ s.sessions, e.2.closing = none) ∧ s.ports.length = 2 ∧ (portOf s r.port).rings.length = 64 :=
  ⟨{ live64 with ports := [{ upPort 62 with rings := [openRing1 none, { openRing1 (some 0) with cq := some { ring64 with written := 2048 }, events := [{ code := .thermal, unit := 0, time := 0, detail0 := 0, detail1 := 0 }] }] ++ List.replicate 62 Ring.reset }, upPort 62] }, ring1, 2, { ring64 with written := 2048 }, _, 2, _, rfl, by decide +kernel, (.inr ⟨rfl, by decide +kernel, rfl⟩), by decide +kernel, rfl, by decide +kernel⟩

theorem witness_TimersAct_6 : ∃ (s : State), fwRunning s = true :=
  ⟨live, by decide +kernel⟩

theorem witness_TestAccessPortActs_1 : ∃ (s : State), railsUp s = true :=
  ⟨live, by decide +kernel⟩

theorem witness_TestAccessPortActs_2 : ∃ (s : State) (pins v : ℕ), railsUp s = true :=
  ⟨live, 5, 9, by decide +kernel⟩

theorem witness_TestAccessPortActs_3 : ∃ (s : State) (i : Instr) (how : ℕ) (ir : BitVec 8), railsUp s = true ∧ (((∃ v, i = .extest v ∧ how = 1 ∧ ir = 0x03) ∨ i = .clamp ∧ how = 2 ∧ ir = 0x04 ∨ i = .highz ∧ how = 3 ∧ ir = 0x05)) :=
  ⟨live, .extest 4, 1, 0x03, by decide +kernel, .inl ⟨4, rfl, rfl, rfl⟩⟩

theorem witness_TestAccessPortActs_3b : ∃ (s : State) (i : Instr) (how : ℕ) (ir : BitVec 8), railsUp s = true ∧ (((∃ v, i = .extest v ∧ how = 1 ∧ ir = 0x03) ∨ i = .clamp ∧ how = 2 ∧ ir = 0x04 ∨ i = .highz ∧ how = 3 ∧ ir = 0x05)) :=
  ⟨live, .clamp, 2, 0x04, by decide +kernel, .inr (.inl ⟨rfl, rfl, rfl⟩)⟩

theorem witness_TestAccessPortActs_3c : ∃ (s : State) (i : Instr) (how : ℕ) (ir : BitVec 8), railsUp s = true ∧ (((∃ v, i = .extest v ∧ how = 1 ∧ ir = 0x03) ∨ i = .clamp ∧ how = 2 ∧ ir = 0x04 ∨ i = .highz ∧ how = 3 ∧ ir = 0x05)) :=
  ⟨live, .highz, 3, 0x05, by decide +kernel, .inr (.inr ⟨rfl, rfl, rfl⟩)⟩

theorem witness_TestAccessPortActs_5 : ∃ (s : State) (code : BitVec 8), railsUp s = true ∧ code ∉ [0x01, 0x02, 0x03, 0x04, 0x05, 0x10, 0x11, 0x12, 0x13, 0x14] :=
  ⟨live, 0xFE, by decide +kernel⟩

theorem witness_TestAccessPortActs_6 : ∃ (s : State), railsUp s = true :=
  ⟨live, by decide +kernel⟩

theorem witness_TestAccessPortActs_7 : ∃ (s : State) (token : List Byte), railsUp s = true :=
  ⟨live, [], by decide +kernel⟩

theorem witness_TestAccessPortActs_8 : ∃ (s : State) (value : BitVec 32), railsUp s = true :=
  ⟨live, 0, by decide +kernel⟩

theorem witness_DebugLevelsGovern_1 : ∃ (s : State) (addr : BitVec 7) (op : BitVec 2) (data : BitVec 32), railsUp s = true ∧ s.dbg.level = .locked :=
  ⟨live, 0x10, 2, 1, by decide +kernel⟩

theorem witness_DebugLevelsGovern_10 : ∃ (s : State) (addr : Word) (len : ℕ) (data : List Byte), railsUp s = true ∧ s.dbg.level ≠ .locked ∧ addr.toNat < nearEnd ∧ nearOk s addr.toNat len = true :=
  ⟨{ live with dbg := { live.dbg with level := .observe } }, 0x1000, 2, [], by decide +kernel⟩

theorem witness_DebugLevelsGovern_11 : ∃ (s : State) (sid : ℕ) (addr : Word) (len : ℕ) (data : List Byte) (ps : List (ℕ × ℕ)), railsUp s = true ∧ s.dbg.level ≠ .locked ∧ sessionPieces s sid needRead addr.toNat len = some ps ∧ farPiecesOk s ps false = true :=
  ⟨{ mapped with dbg := { mapped.dbg with level := .full } }, 0, 0x40, 4, [], [(0x1000040, 4)], by decide +kernel⟩

theorem witness_DebugLevelsGovern_2 : ∃ (s : State) (addr : BitVec 7) (data : BitVec 32), railsUp s = true ∧ s.dbg.level ≠ .locked ∧ addr ≠ 0x3C :=
  ⟨{ live with dbg := { live.dbg with level := .observe } }, 0x11, 0, by decide +kernel⟩

theorem witness_DebugLevelsGovern_3 : ∃ (s : State) (addr : BitVec 7) (data : BitVec 32), railsUp s = true ∧ s.dbg.level = .full :=
  ⟨{ live with dbg := { live.dbg with level := .full } }, 0x10, 1, by decide +kernel⟩

theorem witness_DebugLevelsGovern_4 : ∃ (s : State) (i : Instr) (c : Fin 32) (m : BitVec 33), railsUp s = true ∧ s.dbg.level ≠ .full ∧ ((i = .cdbgHalt c m ∨ i = .cdbgResume c m ∨ i = .cdbgStep c m)) :=
  ⟨{ live with dbg := { live.dbg with level := .observe } }, .cdbgHalt 3 1, 3, 1, by decide +kernel, by decide +kernel, .inl rfl⟩

theorem witness_DebugLevelsGovern_4b : ∃ (s : State) (i : Instr) (c : Fin 32) (m : BitVec 33), railsUp s = true ∧ s.dbg.level ≠ .full ∧ ((i = .cdbgHalt c m ∨ i = .cdbgResume c m ∨ i = .cdbgStep c m)) :=
  ⟨{ live with dbg := { live.dbg with level := .observe } }, .cdbgResume 3 1, 3, 1, by decide +kernel, by decide +kernel, .inr (.inl rfl)⟩

theorem witness_DebugLevelsGovern_4c : ∃ (s : State) (i : Instr) (c : Fin 32) (m : BitVec 33), railsUp s = true ∧ s.dbg.level ≠ .full ∧ ((i = .cdbgHalt c m ∨ i = .cdbgResume c m ∨ i = .cdbgStep c m)) :=
  ⟨{ live with dbg := { live.dbg with level := .observe } }, .cdbgStep 31 1, 31, 1, by decide +kernel, by decide +kernel, .inr (.inr rfl)⟩

theorem witness_DebugLevelsGovern_5 : ∃ (s : State) (c : Fin 32) (m : BitVec 33), railsUp s = true ∧ s.dbg.level = .full :=
  ⟨{ live with dbg := { live.dbg with level := .full } }, 3, 0x100000001, by decide +kernel⟩

theorem witness_DebugLevelsGovern_6 : ∃ (s : State) (c : Fin 32) (m : BitVec 33) (step : Bool) (l : List (ℕ × ℕ)), railsUp s = true ∧ s.dbg.level = .full ∧ l = (slotsOf c m).filter (slotBit s.dbg.halted) :=
  ⟨{ live with dbg := { live.dbg with level := .full } }, 3, 1, true, _, by decide +kernel, by decide +kernel, rfl⟩

theorem witness_DebugLevelsGovern_7 : ∃ (s : State) (session : Option ℕ) (addr : Word) (len : ℕ) (data : List Byte), railsUp s = true ∧ s.dbg.level ≠ .full :=
  ⟨{ live with dbg := { live.dbg with level := .observe } }, none, 0, 4, [1], by decide +kernel⟩

theorem witness_DebugLevelsGovern_8 : ∃ (s : State) (addr : Word) (len : ℕ) (data : List Byte), railsUp s = true ∧ s.dbg.level = .full ∧ addr.toNat + data.length ≤ nearEnd ∧ data ≠ [] ∧ nearOk s addr.toNat data.length = true :=
  ⟨{ live with dbg := { live.dbg with level := .full } }, 0x1000, 2, [1, 2], by decide +kernel⟩

theorem witness_DebugLevelsGovern_9 : ∃ (s : State) (addr : Word) (core off len : ℕ) (data : List Byte), railsUp s = true ∧ s.dbg.level = .full ∧ core < 1056 ∧ off + data.length ≤ 0xC0000 ∧ data ≠ [] ∧ addr.toNat = 0x200000000000 + core * 0x100000 + off :=
  ⟨{ live with dbg := { live.dbg with level := .full } }, 0x200000100010, 1, 0x10, 2, [7, 8], by decide +kernel⟩

theorem witness_IslandSamplesAct_1 : ∃ (s : State) (i : ℕ) (pt : ℕ × ℕ), fwRunning s = true ∧ replans s i = true ∧ pointOk i pt = true ∧ s.age.islands.length = 45 ∧ s.plans.any isRunning = false :=
  ⟨live, 3, (850, 750), by decide +kernel⟩

theorem witness_IslandSamplesAct_2 : ∃ (s : State) (e : IslandSample), fwRunning s = true ∧ e.island < 45 ∧ (islandAt s e.island).retired = false ∧ 40 ≤ e.marginPs ∧ s.age.islands.length = 45 :=
  ⟨live, { island := 44, marginPs := 40, higher := [], lowered := [], shiftPpm := 3 }, by decide +kernel⟩

theorem witness_CapsAndSleepAct_1 : ∃ (s : State) (avg1 avg10 : ℕ), fwRunning s = true ∧ s.boot.config.powerLimitW < avg1 ∧ 700 < capAsked s ∧ since s s.age.lastCap 1000000 = true :=
  ⟨{ live with age := { live.age with lastCap := 0 } }, 1001, 900, by decide +kernel⟩

theorem witness_CapsAndSleepAct_2 : ∃ (s : State) (avg1 avg10 : ℕ) (over2 : Bool), fwRunning s = true ∧ avg1 ≤ s.boot.config.powerLimitW ∧ s.boot.config.powerLimitW * 95 ≤ avg10 * 100 :=
  ⟨live, 1000, 950, true, by decide +kernel⟩

theorem witness_CapsAndSleepAct_3 : ∃ (s : State) (temps : List ℤ) (cool : Bool), fwRunning s = true ∧ 1000 < (hottest temps).2 ∧ since s s.age.lastCap 1000000 = true :=
  ⟨{ live with age := { live.age with lastCap := 0 } }, [1001], false, by decide +kernel⟩

theorem witness_CapsAndSleepAct_4 : ∃ (s : State), fwRunning s = true :=
  ⟨live, by decide +kernel⟩

theorem witness_CapsAndSleepAct_6 : ∃ (s : State) (unit : BitVec 32) (x : Transition), s.power.transition = some x ∧ s.power.heldReset = none :=
  ⟨{ live with power := { live.power with transition := some transition1 } }, 0x50003, transition1, by decide +kernel⟩

theorem witness_StepsGoOn_1 : ∃ (s : State) (h : Word) (p : Plan) (r : Run) (o : OpenStep) (p1 : Plan) (r1 : Run) (o1 : OpenStep) (s1 : State), planOf s h = some p ∧ p.run = some r ∧ r.openStep = some o ∧ isRunning p = true ∧ s.power.state = .active ∧ o.committed = false ∧ stepDrained s p o = true ∧ waitsRefetch s p = false ∧ s1 = refreshPoison h (applyFaults h noFaults (onStep h (faultsTaken (barrierOp p)) s)).s ∧ planOf s1 h = some p1 ∧ p1.run = some r1 ∧ r1.openStep = some o1 :=
  ⟨(stateAt barrierPlan doneStep), 1, (planAt barrierPlan doneStep), (runAt barrierPlan doneStep), doneStep, (planAt barrierPlan doneStep), (runAt barrierPlan doneStep), doneStep, _, by decide +kernel, by decide +kernel, by decide +kernel, (by decide +kernel), by decide +kernel, by decide +kernel, by decide +kernel, (by decide +kernel), rfl, by decide +kernel⟩

theorem witness_StepsGoOn_2 : ∃ (s : State) (h : Word) (p : Plan) (r : Run) (o : OpenStep), planOf s h = some p ∧ p.run = some r ∧ r.openStep = some o ∧ isRunning p = true ∧ s.power.state = .active ∧ o.committed = false ∧ o.detections ≠ [] ∧ p.bin.fabricRanks ≤ 1 ∧ o.attempt < 4 :=
  ⟨(stateAt barrierPlan (failedStep 2)), 1, (planAt barrierPlan (failedStep 2)), (runAt barrierPlan (failedStep 2)), (failedStep 2), by decide +kernel⟩

theorem witness_StepsGoOn_3 : ∃ (s : State) (h : Word) (p : Plan) (r : Run) (o : OpenStep), planOf s h = some p ∧ p.run = some r ∧ r.openStep = some o ∧ isRunning p = true ∧ s.power.state = .active ∧ o.committed = false ∧ o.detections ≠ [] ∧ p.bin.fabricRanks ≤ 1 ∧ 4 ≤ o.attempt ∧ chained p = false :=
  ⟨(stateAt barrierPlan (failedStep 4)), 1, (planAt barrierPlan (failedStep 4)), (runAt barrierPlan (failedStep 4)), (failedStep 4), by decide +kernel⟩

theorem witness_StepsGoOn_4 : ∃ (s : State) (h : Word) (p : Plan) (r : Run) (o : OpenStep) (q : EmitBatch) (qs : List EmitBatch) (got : List (List Byte)) (left : Option ℕ), planOf s h = some p ∧ p.run = some r ∧ isRunning p = true ∧ r.openStep = some o ∧ r.queue = q :: qs ∧ q.records ≠ [] ∧ takeRecords (maxPayload (ringOf s r.reply.port r.reply.ring)) r.budget q.records = (got, left, []) :=
  ⟨(withPlan emitPlan live), 1, emitPlan, emitRun, step0, { step := 4, records := [{ op := 0, key := 5, body := zeros 64 }] }, [], (takeRecords (maxPayload (ringOf (withPlan emitPlan live) 0 1)) none [{ op := 0, key := 5, body := zeros 64 }]).1, (takeRecords (maxPayload (ringOf (withPlan emitPlan live) 0 1)) none [{ op := 0, key := 5, body := zeros 64 }]).2.1, by decide +kernel⟩

theorem witness_StepsGoOn_5 : ∃ (s : State) (h : Word) (op : ℕ) (c : Ctx), ctxOf s h op = some c ∧ isRunning c.p = true ∧ c.o.done.contains op = false ∧ c.o.committed = false ∧ s.power.state = .active :=
  ⟨(running barrierPlan live), 1, 0, { s := running barrierPlan live, p := opened barrierPlan live, r := openRun barrierPlan live, o := step0, op := 0, e := entry .barrier [] [] [] }, by decide +kernel⟩

theorem witness_TablesMigrate_1 : ∃ (s : State) (h : Word) (t : EmbTable) (pol : Policy) (k : ℕ) (p : Plan), tableOf s h = some t ∧ t.policy = some pol ∧ currentSlot t = some k ∧ governing s h k = some p ∧ 0 < p.nextStep ∧ p.nextStep % max pol.intervalSteps 1 = 0 ∧ t.decided ≠ some (p.handle, p.nextStep) ∧ s.power.state = .active :=
  ⟨{ boundState with tables := [table2] }, 1, table2, policy1, 0, { boundPlan with run := some { runOf boundPlan with fixedSlots := [some 0] } }, by decide +kernel⟩

theorem witness_TablesMigrate_2 : ∃ (s : State) (h : Word) (t : EmbTable) (b : ℕ) (m : Migration) (p : Plan) (n : ℕ), tableOf s h = some t ∧ t.migrations.find? (fun x => x.block = b && !x.copied) = some m ∧ governing s h m.slot = some p ∧ s.power.state = .active ∧ n = rowsOfBlock t b ∧ m.pointer ≤ n :=
  ⟨{ boundState with tables := [table3] }, 1, table3, 0, migration1, { boundPlan with run := some { runOf boundPlan with fixedSlots := [some 0] } }, 64, by decide +kernel⟩

theorem witness_TablesMigrate_3 : ∃ (s : State) (rows : List ℕ), s.power.state = .active ∧ s.boot.phase = .running ∧ s.plans = [] ∧ (∀ r ∈ rows, r < 2097152) :=
  ⟨live, [2097151, 0], by decide +kernel, by decide +kernel, by decide +kernel, (by decide +kernel)⟩

theorem witness_FabricLinksAct_1 : ∃ (s : State) (port : Fin 6) (q : FabricPort), s.fabric.ports[port.val]? = some q ∧ q.state = .training ∧ s.dbg.pinsTaken = 0 :=
  ⟨net, 5, { fabPort with state := .training }, by decide +kernel⟩

theorem witness_FabricLinksAct_2 : ∃ (s : State) (port : Fin 6) (q : FabricPort) (fid : BitVec 16) (mid : BitVec 12) (pp : ℕ) (epoch : BitVec 32) (lanes fail : BitVec 8) (x y : FabricPort), s.fabric.ports[port.val]? = some q ∧ q.state = .training ∧ s.dbg.pinsTaken = 0 ∧ fail = q.laneFail ||| lanes ||| retiredLanes s port ∧ x = { q with laneFail := fail, neighbor := mid.toNat, neighborPort := pp, flitFails := 0 } ∧ (
    y = (if 2 ≤ laneCount fail then { x with state := .down, reason := 4 }
      else if fid = 0xFFFF ∧ mid = 0 ∨ s.boot.phase = .recovery then
        { x with state := if fail = 0 then .up else .up78, reason := 0, recovery := true }
      else if fid ≠ s.fabric.fabricId then { x with state := .down, reason := 2 }
      else if mid.toNat = s.fabric.moduleId then { x with state := .down, reason := 3 }
      else { x with state := if fail = 0 then .up else .up78, reason := 0, recovery := false })) :=
  ⟨net, 5, { fabPort with state := .training }, 9, 3, 4, 5, 1, _, _, _, by decide +kernel, by decide +kernel, by decide +kernel, rfl, rfl, rfl⟩

theorem witness_FabricLinksAct_3 : ∃ (s : State) (port : Fin 6) (lane : Fin 8) (q : FabricPort), s.fabric.ports[port.val]? = some q ∧ portUp s port = true :=
  ⟨net, 1, 0, fabPort, by decide +kernel⟩

theorem witness_FabricLinksAct_4 : ∃ (s : State) (port : Fin 6) (q : FabricPort), s.fabric.ports[port.val]? = some q ∧ q.state = .training :=
  ⟨net, 5, { fabPort with state := .training }, by decide +kernel⟩

theorem witness_FabricLinksAct_5 : ∃ (s : State) (port : Fin 6) (q : FabricPort), s.fabric.ports[port.val]? = some q ∧ q.enabled = true ∧ q.state ≠ .disabled :=
  ⟨net, 0, fabPort, by decide +kernel⟩

theorem witness_TransitForwards_1 : ∃ (s : State) (port : Fin 6) (m : Message) (credits : List ℕ) (n : Message), portRoutes s port = true ∧ m.dest.toNat ≠ s.fabric.moduleId ∧ m.cls ≠ 3 ∧ n = { m with hops := m.hops + 1 } ∧ n.hops ≠ 15 ∧ routeValid s m.dest.toNat = true :=
  ⟨net, 1, away, [1, 1, 1, 1, 1, 1], _, by decide +kernel, by decide +kernel, by decide +kernel, rfl, by decide +kernel⟩

theorem witness_TransitForwards_2 : ∃ (s : State) (port : Fin 6) (m : Message) (credits : List ℕ) (q : FabricPort), s.fabric.ports[port.val]? = some q ∧ portRoutes s port = true ∧ m.dest.toNat ≠ s.fabric.moduleId ∧ m.cls ≠ 3 ∧ m.cls ≠ 0 ∧ ((m.hops = 14 ∨ routeValid s m.dest.toNat = false)) :=
  ⟨net, 1, { away with hops := 14 }, [], fabPort, by decide +kernel⟩

theorem witness_TransitForwards_3 : ∃ (s : State) (m : Message) (k : ℕ), m ∈ s.fabric.waiting ∧ m.escape = false ∧ windowOpen s m = true ∧ escapePort s m.dest.toNat = some k :=
  ⟨{ net with fabric := { net.fabric with waiting := [away] } }, away, 0, by decide +kernel⟩

theorem witness_FlowMessagesJoin_2 : ∃ (i : Instr) (link : ℕ) (m : Message) (kind cls : ℕ) (s : State), flowMessage i = some (link, m, kind, cls) ∧ reaches link m kind s = true ∧ m.cls.toNat = cls ∧ EpochsPass s m ∧ fabricPlan s = none ∧ s.power.transition = none :=
  ⟨.rowData 0 (msg 1 kindRowData []), 0, (msg 1 kindRowData []), kindRowData, 1, net, by decide +kernel⟩

theorem witness_FlowMessagesJoin_2b : ∃ (i : Instr) (link : ℕ) (m : Message) (kind cls : ℕ) (s : State), flowMessage i = some (link, m, kind, cls) ∧ reaches link m kind s = true ∧ m.cls.toNat = cls ∧ (¬ EpochsPass s m) ∧ fabricPlan s = none :=
  ⟨.update 0 { msg 0 kindUpdate [] with dstEpoch := 4 }, 0, { msg 0 kindUpdate [] with dstEpoch := 4 }, kindUpdate, 0, net, by decide +kernel⟩

theorem witness_FlowMessagesJoin_2c : ∃ (i : Instr) (link : ℕ) (m : Message) (kind cls : ℕ) (s : State) (p : Plan) (f g : FlowIn) (x : State), flowMessage i = some (link, m, kind, cls) ∧ reaches link m kind s = true ∧ m.cls.toNat = cls ∧ EpochsPass s m ∧ fabricPlan s = some p ∧ (p.run.bind (·.openStep)).isSome = true ∧ m.step = BitVec.ofNat 32 p.nextStep ∧ f = flowInOf s m ∧ m.seq.toNat = f.nextSeq % 65536 ∧ (∀ y ∈ f.early, y.seq ≠ m.seq) ∧ (∀ y ∈ s.fabric.flowsIn, headOf s y = none) ∧ g = { f with early := f.early ++ [m] } ∧ g.unacked < 63 ∧ fabricPlan x = some p :=
  ⟨.arrive 0 (msg 2 kindArrive []), 0, (msg 2 kindArrive []), kindArrive, 2, { net with plans := [planAt plan2 step0] }, (planAt plan2 step0), (flowInOf net (msg 2 kindArrive [])), { flowInOf net (msg 2 kindArrive []) with early := [msg 2 kindArrive []] }, (putFlowIn (flowInOf net (msg 2 kindArrive [])) ({ net with plans := [planAt plan2 step0] })), by decide +kernel⟩

theorem witness_FlowMessagesJoin_2d : ∃ (i : Instr) (link : ℕ) (m : Message) (kind cls : ℕ) (s : State) (p : Plan) (f g : FlowIn) (x : State), flowMessage i = some (link, m, kind, cls) ∧ reaches link m kind s = true ∧ m.cls.toNat = cls ∧ EpochsPass s m ∧ fabricPlan s = some p ∧ (p.run.bind (·.openStep)).isSome = true ∧ m.step = BitVec.ofNat 32 p.nextStep ∧ f = flowInOf s m ∧ m.seq.toNat = f.nextSeq % 65536 ∧ (∀ y ∈ f.early, y.seq ≠ m.seq) ∧ (∀ y ∈ s.fabric.flowsIn, headOf s y = none) ∧ g = { f with early := f.early ++ [m] } ∧ g.unacked < 63 ∧ fabricPlan x = some p :=
  ⟨.rowRead 0 (msg 0 kindRowRead []), 0, (msg 0 kindRowRead []), kindRowRead, 0, { net with plans := [planAt plan2 step0] }, (planAt plan2 step0), (flowInOf net (msg 0 kindRowRead [])), { flowInOf net (msg 0 kindRowRead []) with early := [msg 0 kindRowRead []] }, (putFlowIn (flowInOf net (msg 0 kindRowRead [])) ({ net with plans := [planAt plan2 step0] })), by decide +kernel⟩

theorem witness_FlowMessagesJoin_2e : ∃ (i : Instr) (link : ℕ) (m : Message) (kind cls : ℕ) (s : State) (p : Plan) (f g : FlowIn) (x : State), flowMessage i = some (link, m, kind, cls) ∧ reaches link m kind s = true ∧ m.cls.toNat = cls ∧ EpochsPass s m ∧ fabricPlan s = some p ∧ (p.run.bind (·.openStep)).isSome = true ∧ m.step = BitVec.ofNat 32 p.nextStep ∧ f = flowInOf s m ∧ m.seq.toNat = f.nextSeq % 65536 ∧ (∀ y ∈ f.early, y.seq ≠ m.seq) ∧ (∀ y ∈ s.fabric.flowsIn, headOf s y = none) ∧ g = { f with early := f.early ++ [m] } ∧ g.unacked < 63 ∧ fabricPlan x = some p :=
  ⟨.update 0 (msg 0 kindUpdate []), 0, (msg 0 kindUpdate []), kindUpdate, 0, { net with plans := [planAt plan2 step0] }, (planAt plan2 step0), (flowInOf net (msg 0 kindUpdate [])), { flowInOf net (msg 0 kindUpdate []) with early := [msg 0 kindUpdate []] }, (putFlowIn (flowInOf net (msg 0 kindUpdate [])) ({ net with plans := [planAt plan2 step0] })), by decide +kernel⟩

theorem witness_PlainMessagesAct_1 : ∃ (s : State) (link : ℕ) (m : Message), reaches link m kindAck s = true ∧ EpochsPass s m :=
  ⟨net, 0, (msg 1 kindAck []), by decide +kernel⟩

theorem witness_PlainMessagesAct_2 : ∃ (s : State) (f : FlowIn), s.fabric.flowsIn.Nodup ∧ f ∈ s.fabric.flowsIn ∧ 0 < f.unacked ∧ ((∀ g ∈ s.fabric.flowsIn, g.src = f.src → g.flow = f.flow → g = f)) :=
  ⟨{ net with fabric := { net.fabric with flowsIn := [{ src := 3, flow := 0, step := 0, op := 0, nextSeq := 1, early := [], unacked := 1 }] } }, { src := 3, flow := 0, step := 0, op := 0, nextSeq := 1, early := [], unacked := 1 }, by decide +kernel⟩

theorem witness_PlainMessagesAct_3 : ∃ (s : State) (link : ℕ) (m : Message) (p : Plan) (i : Instr) (kind : ℕ) (st : Status), (
                           (i = .stale link m ∧ kind = kindStale ∧ st = .staleEpoch ∨
      i = .unreachable link m ∧ kind = kindUnreachable ∧ st = .fabricTimeout)) ∧ reaches link m kind s = true ∧ EpochsPass s m ∧ fabricPlan s = some p ∧ m.step = BitVec.ofNat 32 p.nextStep ∧ (p.run.bind (·.openStep)).isSome = true :=
  ⟨{ net with plans := [planAt plan2 step0] }, 0, (msg 1 kindStale []), (planAt plan2 step0), .stale 0 (msg 1 kindStale []), kindStale, .staleEpoch, .inl ⟨rfl, rfl, rfl⟩, by decide +kernel⟩

theorem witness_PlainMessagesAct_3b : ∃ (s : State) (link : ℕ) (m : Message) (p : Plan) (i : Instr) (kind : ℕ) (st : Status), (
                           (i = .stale link m ∧ kind = kindStale ∧ st = .staleEpoch ∨
      i = .unreachable link m ∧ kind = kindUnreachable ∧ st = .fabricTimeout)) ∧ reaches link m kind s = true ∧ EpochsPass s m ∧ fabricPlan s = some p ∧ m.step = BitVec.ofNat 32 p.nextStep ∧ (p.run.bind (·.openStep)).isSome = true :=
  ⟨{ net with plans := [planAt plan2 step0] }, 0, (msg 1 kindUnreachable []), (planAt plan2 step0), .unreachable 0 (msg 1 kindUnreachable []), kindUnreachable, .fabricTimeout, .inr ⟨rfl, rfl, rfl⟩, by decide +kernel⟩

theorem witness_PlainMessagesAct_4 : ∃ (s : State) (link : ℕ) (m : Message), reaches link m kindFence s = true ∧ EpochsPass s m ∧ s.fabric.epoch < BitVec.ofNat 32 (field m.payload 0 32) ∧ isFenced s = false :=
  ⟨net, 0, (msg 1 kindFence [6, 0, 0, 0]), by decide +kernel⟩

theorem witness_TimeoutsEndRuns_1 : ∃ (s : State) (h : Word) (op : ℕ) (c : Ctx), ctxOf s h op = some c ∧ isRunning c.p = true ∧ 1 < c.p.bin.fabricRanks ∧ c.o.done.contains op = false :=
  ⟨(stateAt plan2 step0), 1, 0, { s := stateAt plan2 step0, p := planAt plan2 step0, r := runAt plan2 step0, o := step0, op := 0, e := entry .barrier [] [] [] }, by decide +kernel⟩

theorem witness_TimeoutsEndRuns_2 : ∃ (s : State) (h : Word) (op : ℕ) (p : Plan) (o : OpenStep), planOf s h = some p ∧ isRunning p = true ∧ 1 < p.bin.fabricRanks ∧ p.run.bind (·.openStep) = some o ∧ o.done.contains op = false :=
  ⟨(stateAt plan2 step0), 1, 0, (planAt plan2 step0), step0, by decide +kernel⟩

theorem witness_TimeoutsEndRuns_3 : ∃ (s : State), chainUp s = true ∧ (s.pins.cascPos = 0 ∨ s.basin.cascade.locked = false) :=
  ⟨{ live with pins := { live.pins with cascPos := 1 } }, by decide +kernel⟩

theorem witness_TimeoutsEndRuns_4 : ∃ (s : State), chainUp s = true ∧ s.pins.cascPos ≠ 0 ∧ s.basin.cascade.locked = true :=
  ⟨{ live with pins := { live.pins with cascPos := 1 }, basin := { live.basin with cascade := { live.basin.cascade with locked := true } } }, by decide +kernel⟩

theorem witness_TimeoutsEndRuns_5 : ∃ (s : State) (h : Word) (seq : ℕ) (p : Plan) (op : ℕ) (c : Ctx), planOf s h = some p ∧ chainUp s = true ∧ isRunning p = true ∧ ctxOf s h op = some c ∧ op < p.bin.ops.length ∧ c.e.op = .matchOp ∧ 2 ≤ (matchParams c.e).chain ∧ s.pins.cascPos = 0 ∧ isMarked c.o op (searchPhase c.o.attempt seq) (ownRank c) 0x17 = true ∧ finalWord c seq = none :=
  ⟨(withPlan (planAt chainPlan searchStep) mapped), 1, 0, (planAt chainPlan searchStep), 0, (atCtx chainPlan searchStep mapped), by decide +kernel⟩

theorem witness_TimeoutsEndRuns_6 : ∃ (s : State), chainUp s = true ∧ s.pins.cascPos = 0 :=
  ⟨{ live with pins := { live.pins with cascPos := 0 } }, by decide +kernel⟩

theorem witness_CascadeWordsAct_1 : ∃ (s : State) (i : Instr) (n : ℕ), ((i = .cascadeSync n ∨ i = .cascadeWord 0x5A3CC35AFFFFFFFF ∧ n = 1)) ∧ chainUp s = true ∧ s.pins.cascPos ≠ 0 :=
  ⟨{ live with pins := { live.pins with cascPos := 1 } }, .cascadeSync 16, 16, .inl rfl, by decide +kernel⟩

theorem witness_CascadeWordsAct_1b : ∃ (s : State) (i : Instr) (n : ℕ), ((i = .cascadeSync n ∨ i = .cascadeWord 0x5A3CC35AFFFFFFFF ∧ n = 1)) ∧ chainUp s = true ∧ s.pins.cascPos ≠ 0 :=
  ⟨{ live with pins := { live.pins with cascPos := 1 } }, .cascadeWord 0x5A3CC35AFFFFFFFF, 1, .inr ⟨rfl, rfl⟩, by decide +kernel⟩

theorem witness_CascadeWordsAct_2 : ∃ (s : State) (w : Word), chainUp s = true ∧ s.pins.cascPos ≠ 0 ∧ w ≠ syncWord ∧ s.basin.cascade.locked = false :=
  ⟨{ live with pins := { live.pins with cascPos := 1 } }, 5, by decide +kernel⟩

theorem witness_CascadeWordsAct_3 : ∃ (s : State), chainUp s = true ∧ s.pins.cascPos ≠ 0 ∧ s.basin.cascade.locked = true :=
  ⟨{ live with pins := { live.pins with cascPos := 1 }, basin := { live.basin with cascade := { live.basin.cascade with locked := true } } }, by decide +kernel⟩

theorem witness_CascadeWordsAct_4 : ∃ (s : State) (w : Word) (x : ChainTag) (c : Ctx) (res : CascadeResult), chainUp s = true ∧ s.pins.cascPos ≠ 0 ∧ w ≠ syncWord ∧ w ≠ idleWord ∧ s.basin.cascade.locked = true ∧ chainCtx s = some (x, c) ∧ parseWord w s.basin.cascade.nextSeq = some res :=
  ⟨chainMember, (chainWord noHit 0), chainTag1, chainMemberCtx, noHit, by decide +kernel⟩

theorem witness_CascadeWordsAct_5 : ∃ (s : State) (w : Word) (x : ChainTag) (c : Ctx), chainUp s = true ∧ s.pins.cascPos ≠ 0 ∧ w ≠ syncWord ∧ w ≠ idleWord ∧ s.basin.cascade.locked = true ∧ chainCtx s = some (x, c) ∧ parseWord w s.basin.cascade.nextSeq = none :=
  ⟨chainMember, 5, chainTag1, chainMemberCtx, by decide +kernel⟩

theorem witness_MirrorMessagesAct_1 : ∃ (s : State) (link : ℕ) (m : Message), TwinHears s link twinHeartbeat m :=
  ⟨paired, 0, (tmsg twinHeartbeat []), by decide +kernel⟩

theorem witness_MirrorMessagesAct_2 : ∃ (s : State) (link : ℕ) (m : Message) (h : ℕ × ℕ × ℕ × ℕ), TwinHears s link twinWrite m ∧ takesMirror s = true ∧ h = mirrorHead m.payload :=
  ⟨paired, 0, (tmsg twinWrite (mirrorPayload 0 64 2 0 [7, 8])), _, by decide +kernel, by decide +kernel, rfl⟩

theorem witness_MirrorMessagesAct_3 : ∃ (s : State) (link : ℕ) (m : Message) (x y : State), TwinHears s link twinCommit m ∧ takesMirror s = true ∧ x = s.twin.staging.foldl (fun z w => storeWindow w.window w.offset w.data z) (hear link s) ∧ 
    y = { x with twin := { x.twin with
      staging := []
      commitsApplied := s.twin.commitsApplied + 1
      twinCommits := ((List.range (m.payload.length / 64)).map (fun i => parseCommit (slice m.payload (64 * i) 64))).foldl
        (fun l r => putCommit r l) s.twin.twinCommits } } :=
  ⟨{ paired with twin := { paired.twin with staging := [{ window := 0, offset := 64, data := [7, 8] }] } }, 0, (tmsg twinCommit (zeros 64)), _, _, by decide +kernel, by decide +kernel, rfl, rfl⟩

theorem witness_MirrorMessagesAct_4 : ∃ (s : State) (link : ℕ) (m : Message), TwinHears s link twinAck m ∧ takesMirror s = true ∧ field m.payload 0 1 = 0 :=
  ⟨paired, 0, (tmsg twinAck (ackBytes false 1)), by decide +kernel⟩

theorem witness_MirrorMessagesAct_5 : ∃ (s : State) (link : ℕ) (m : Message), TwinHears s link twinAck m ∧ field m.payload 0 1 = 1 ∧ s.twin.copying = true ∧ s.twin.command = none ∧ 2 ≤ s.twin.windowsLeft :=
  ⟨{ paired with twin := { paired.twin with copying := true, windowsLeft := 2 } }, 1, (tmsg twinAck (ackBytes true 0)), by decide +kernel⟩

theorem witness_MirrorMessagesAct_6 : ∃ (s : State) (link : ℕ) (m : Message) (w : TwinWindow) (h : ℕ × ℕ × ℕ × ℕ), TwinHears s link twinCopy m ∧ h = mirrorHead m.payload ∧ twinWindowOf s h.1 = some w ∧ h.2.1 + ((m.payload.drop 64).take h.2.2.1).length < w.len ∧ (takesMirror s = true ∨ s.twin.copying = true) :=
  ⟨paired, 0, (tmsg twinCopy (mirrorPayload 0 64 2 0 [7, 8])), { inbound := true, index := 0, session := 0, va := 0x20000, len := 0x10000 }, _, by decide +kernel, rfl, by decide +kernel⟩

theorem witness_MirrorMessagesAct_7 : ∃ (s : State) (link : ℕ) (m : Message) (w : TwinWindow) (h : ℕ × ℕ × ℕ × ℕ), TwinHears s link twinCopy m ∧ h = mirrorHead m.payload ∧ twinWindowOf s h.1 = some w ∧ s.twin.command = none ∧ w.len ≤ h.2.1 + ((m.payload.drop 64).take h.2.2.1).length ∧ (takesMirror s = true ∨ s.twin.copying = true) :=
  ⟨paired, 0, (tmsg twinCopy (mirrorPayload 0 0xFFFE 2 0 [7, 8])), { inbound := true, index := 0, session := 0, va := 0x20000, len := 0x10000 }, _, by decide +kernel, rfl, by decide +kernel⟩

theorem witness_PairStatesChange_1 : ∃ (s : State) (i : Instr) (link : ℕ) (m : Message) (kind : ℕ), (
                      (i = .heartbeat link m ∧ kind = twinHeartbeat ∨ i = .mirrorWrite link m ∧ kind = twinWrite ∨
      i = .mirrorCommit link m ∧ kind = twinCommit ∨ i = .mirrorAck link m ∧ kind = twinAck ∨
      i = .resyncData link m ∧ kind = twinCopy ∨ i = .handover link m ∧ kind = twinHandover ∨
      i = .rowRefetch link m ∧ kind = twinRefetch ∨ i = .rowRefetchData link m ∧ kind = twinRefetchData ∨
      i = .twinStale link m ∧ kind = twinStaleKind)) ∧ link < 2 ∧ twinLinkUp s link = true ∧ fwRunning s = true ∧ m.cls = 3 ∧ m.kind.toNat = kind :=
  ⟨paired, .heartbeat 0 { tmsg twinHeartbeat [] with srcEpoch := 2 }, 0, { tmsg twinHeartbeat [] with srcEpoch := 2 }, twinHeartbeat, .inl ⟨rfl, rfl⟩, by decide +kernel⟩

theorem witness_PairStatesChange_1b : ∃ (s : State) (i : Instr) (link : ℕ) (m : Message) (kind : ℕ), (
                      (i = .heartbeat link m ∧ kind = twinHeartbeat ∨ i = .mirrorWrite link m ∧ kind = twinWrite ∨
      i = .mirrorCommit link m ∧ kind = twinCommit ∨ i = .mirrorAck link m ∧ kind = twinAck ∨
      i = .resyncData link m ∧ kind = twinCopy ∨ i = .handover link m ∧ kind = twinHandover ∨
      i = .rowRefetch link m ∧ kind = twinRefetch ∨ i = .rowRefetchData link m ∧ kind = twinRefetchData ∨
      i = .twinStale link m ∧ kind = twinStaleKind)) ∧ link < 2 ∧ twinLinkUp s link = true ∧ fwRunning s = true ∧ m.cls = 3 ∧ m.kind.toNat = kind :=
  ⟨paired, .twinStale 1 { tmsg twinStaleKind [] with srcEpoch := 4 }, 1, { tmsg twinStaleKind [] with srcEpoch := 4 }, twinStaleKind, .inr (.inr (.inr (.inr (.inr (.inr (.inr (.inr ⟨rfl, rfl⟩))))))), by decide +kernel⟩

theorem witness_PairStatesChange_2 : ∃ (s : State) (link : ℕ) (m : Message), TwinHears s link twinStaleKind m :=
  ⟨paired, 0, (tmsg twinStaleKind []), by decide +kernel⟩

theorem witness_PairStatesChange_3 : ∃ (s : State) (m : Message), twinLinkUp s 0 = true ∧ fwRunning s = true ∧ m.cls = 3 ∧ m.kind.toNat = twinHello ∧ (((parseHello (hear 0 s) m.payload m.srcEpoch).op ≠ 1 ∨ s.twin.command ≠ none)) :=
  ⟨paired, (tmsg twinHello (helloBytes paired 0 pair1)), by decide +kernel⟩

theorem witness_PairStatesChange_4 : ∃ (s : State) (link : ℕ) (m : Message), TwinHears s link twinHandover m ∧ s.twin.state = .paired :=
  ⟨paired, 0, (tmsg twinHandover []), by decide +kernel⟩

theorem witness_PairStatesChange_5 : ∃ (s : State) (link : ℕ) (m : Message), link < 2 ∧ twinLinkUp s link = true ∧ fwRunning s = true ∧ m.cls = 3 ∧ m.kind.toNat = twinHandoverAck ∧ s.twin.state = .releasing :=
  ⟨{ paired with twin := { paired.twin with state := .releasing, commandOp := 3 } }, 0, (tmsg twinHandoverAck []), by decide +kernel⟩

theorem witness_PairStatesChange_6 : ∃ (s : State), s.twin.command ≠ none ∧ s.twin.commandOp < 2 ∧ s.twin.copying = false :=
  ⟨{ paired with twin := { paired.twin with command := some runRef, commandOp := 0 } }, by decide +kernel⟩

theorem witness_PairStatesChange_7 : ∃ (s : State), s.twin.pairEpoch.toNat < 2 ^ 32 - 2 ∧ s.pins.twinSide.toNat < 2 :=
  ⟨paired, by decide +kernel⟩

theorem witness_SilenceIsActedOn_1 : ∃ (s : State), beats s = true ∧ twinLinkUp s 0 = true ∧ twinLinkUp s 1 = true :=
  ⟨paired, by decide +kernel⟩

theorem witness_SilenceIsActedOn_2 : ∃ (s : State), beats s = true :=
  ⟨paired, by decide +kernel⟩

theorem witness_SilenceIsActedOn_3 : ∃ (s : State) (b : List Byte) (r : PairRecord), beats s = true ∧ s.twin.record = some r ∧ farOk s (blockAddr r (1 - s.pins.twinSide.toNat)) 64 false = true :=
  ⟨paired, (zeros 64), pair1, by decide +kernel⟩

theorem witness_SilenceIsActedOn_4 : ∃ (s : State) (r : PairRecord) (readBack : Bool) (confirm : List (BitVec 32)) (x : State), fwRunning s = true ∧ s.twin.state = .paired ∧ s.twin.isolated = false ∧ s.twin.record = some r ∧ x = atLeast (silentAt s s.twin.sharedSeen) (atLeast (silentAt s s.twin.heard1) (atLeast (silentAt s s.twin.heard0) s)) :=
  ⟨paired, pair1, true, [3, 3], _, by decide +kernel, by decide +kernel, by decide +kernel, (by decide +kernel), rfl⟩

theorem witness_SilenceIsActedOn_5 : ∃ (s x : State) (readBack : Bool) (confirm : List (BitVec 32)), fwRunning s = true ∧ s.twin.state = .releasing ∧ x = atLeast (silentAt s s.twin.sharedSeen) (atLeast (silentAt s s.twin.heard1) (atLeast (silentAt s s.twin.heard0) s)) :=
  ⟨{ paired with twin := { paired.twin with state := .releasing, command := some runRef, commandOp := 3 } }, _, true, [3, 3], by decide +kernel, by decide +kernel, rfl⟩

theorem witness_SilenceIsActedOn_6 : ∃ (s : State) (r : PairRecord) (x : State), fwRunning s = true ∧ s.twin.state = .paired ∧ s.twin.record = some r ∧ r.detachOnLinksDown = true ∧ 
    x = completeTwin (replyOf .partnerLost)
      (dropRefetches (atLeast (silentAt s s.twin.heard1) (atLeast (silentAt s s.twin.heard0) s))) :=
  ⟨paired, pair1, _, by decide +kernel, by decide +kernel, by decide +kernel, (by decide +kernel), rfl⟩

theorem witness_RefetchesResolve_1 : ∃ (s : State) (link : ℕ) (m : Message) (w : TwinWindow) (h : ℕ × ℕ × ℕ × ℕ), TwinHears s link twinRefetch m ∧ h = mirrorHead m.payload ∧ h.2.2.2 ≤ s.twin.commitsApplied ∧ twinWindowOf s h.1 = some w ∧ isFenced s = false :=
  ⟨paired, 0, (tmsg twinRefetch (mirrorPayload 0 64 64 0 [])), { inbound := true, index := 0, session := 0, va := 0x20000, len := 0x10000 }, _, by decide +kernel, rfl, by decide +kernel⟩

theorem witness_RefetchesResolve_2 : ∃ (s : State) (link : ℕ) (m : Message), TwinHears s link twinRefetch m ∧ s.twin.commitsApplied < (mirrorHead m.payload).2.2.2 ∧ isFenced s = false :=
  ⟨paired, 0, (tmsg twinRefetch (mirrorPayload 0 64 64 1 [])), by decide +kernel⟩

theorem witness_RefetchesResolve_3 : ∃ (s : State) (link : ℕ) (m : Message) (f : Refetch), TwinHears s link twinRefetchData m ∧ s.twin.refetches.find? (fun r => decide (r.window = (mirrorHead m.payload).1 ∧ r.offset = (mirrorHead m.payload).2.1)) = some f :=
  ⟨{ paired with twin := { paired.twin with refetches := [{ window := 0, offset := 64, sector := 5, mirrorCount := 0 }] } }, 0, (tmsg twinRefetchData (mirrorPayload 0 64 64 0 (zeros 64))), { window := 0, offset := 64, sector := 5, mirrorCount := 0 }, by decide +kernel⟩

theorem witness_RefetchesResolve_4 : ∃ (s : State) (k : ℕ) (f : Refetch), s.twin.refetches[k]? = some f :=
  ⟨{ paired with twin := { paired.twin with refetches := [{ window := 0, offset := 64, sector := 5, mirrorCount := 0 }] } }, 0, { window := 0, offset := 64, sector := 5, mirrorCount := 0 }, by decide +kernel⟩

theorem witness_ImagesTravel_1 : ∃ (s : State) (link : ℕ) (m : Message), fwRunning s = true ∧ storedImageFails s = none :=
  ⟨paired, 0, (msg 3 0x2A []), by decide +kernel⟩

theorem witness_ImagesTravel_2 : ∃ (s : State), s.boot.stage = .recoveryWait ∧ hostDelivering s = false ∧ twinLinkUp s 0 = true ∧ twinLinkUp s 1 = false :=
  ⟨{ paired with boot := { paired.boot with stage := .recoveryWait }, fabric := { paired.fabric with ports := paired.fabric.ports.set 5 FabricPort.reset } }, by decide +kernel⟩

theorem witness_ImagesTravel_3 : ∃ (s : State) (link : ℕ) (m : Message), s.boot.phase = .recovery ∧ (s.boot.recoverySource = 0 ∨ s.boot.recoverySource = 2 + link) ∧ hostDelivering s = false ∧ m.payload ≠ [] ∧ streamComplete (s.boot.recoveryBytes ++ m.payload) = false :=
  ⟨{ paired with boot := { paired.boot with phase := .recovery, stage := .recoveryWait } }, 0, (msg 3 0x2B [1, 2]), by decide +kernel⟩

theorem witness_ImagesTravel_4 : ∃ (s : State), s.boot.phase = .recovery ∧ 2 ≤ s.boot.recoverySource :=
  ⟨{ paired with boot := { paired.boot with phase := .recovery, recoverySource := 2 } }, by decide +kernel⟩

theorem witness_OperatorsBeginInOrder_1 : ∃ (i : Instr) (w : OperatorRow) (s : State), operatorRow i = some w ∧ ctxOf s w.plan w.op = none :=
  ⟨.sort 1 0 noFaults, (opRow (.sort 1 0 noFaults)), live, rfl, rfl⟩

theorem witness_OperatorsBeginInOrder_2 : ∃ (i : Instr) (w : OperatorRow) (s : State) (c : Ctx), operatorRow i = some w ∧ ctxOf s w.plan w.op = some c ∧ ((c.e.op ≠ w.kind ∨ w.mode c.e = false ∨ isRunning c.p = false ∨ s.power.state ≠ .active ∨ opReady c.p c.o w.op = false)) :=
  ⟨.filter 1 0 noFaults, (opRow (.filter 1 0 noFaults)), (running sortPlan mapped), (opCtx sortPlan mapped), rfl, by decide +kernel, (.inl (by decide))⟩

theorem witness_OperatorsBeginInOrder_3 : ∃ (i : Instr) (w : OperatorRow) (s : State) (c : Ctx), operatorRow i = some w ∧ RowReady w s c ∧ ((anyHalted s (rowSlots w s c) = true ∨ waitsRefetch s c.p = true)) :=
  ⟨.sort 1 0 noFaults, (opRow (.sort 1 0 noFaults)), { running sortPlan mapped with dbg := { mapped.dbg with halted := [(0, 1)] } }, { opCtx sortPlan mapped with s := { running sortPlan mapped with dbg := { mapped.dbg with halted := [(0, 1)] } } }, rfl, by decide +kernel, (.inl (by decide +kernel))⟩

theorem witness_OperatorsBeginInOrder_4 : ∃ (i : Instr) (w : OperatorRow) (s : State) (c : Ctx) (hits : List (ℕ × ℕ)), operatorRow i = some w ∧ RowReady w s c ∧ anyHalted s (rowSlots w s c) = false ∧ waitsRefetch s c.p = false ∧ hits = breakHits s c.p (stageOfOp c.p.bin w.op) w.op ∧ hits ≠ [] :=
  ⟨.sort 1 0 noFaults, (opRow (.sort 1 0 noFaults)), { running sortPlan mapped with dbg := { mapped.dbg with breakpoints := [(0, { plan := 1, stage := 0, op := 0, enable := true, hit := false })] } }, { opCtx sortPlan mapped with s := { running sortPlan mapped with dbg := { mapped.dbg with breakpoints := [(0, { plan := 1, stage := 0, op := 0, enable := true, hit := false })] } } }, _, rfl, by decide +kernel, by decide +kernel, by decide +kernel, rfl, by decide +kernel⟩

theorem witness_OperatorsBeginInOrder_5 : ∃ (i : Instr) (w : OperatorRow) (s : State) (c : Ctx), operatorRow i = some w ∧ RowReady w s c ∧ RowFree w s c ∧ ((w.faults.farFail = true ∨ w.faults.units.any unitValid = true)) :=
  ⟨.sort 1 0 { noFaults with farFail := true }, (opRow (.sort 1 0 { noFaults with farFail := true })), (running sortPlan mapped), (opCtx sortPlan mapped), rfl, by decide +kernel, by decide +kernel, (.inl rfl)⟩

theorem witness_OperatorsBeginInOrder_6 : ∃ (i : Instr) (w : OperatorRow) (s : State) (c0 c : Ctx) (st : Status), operatorRow i = some w ∧ RowReady w s c0 ∧ RowFree w s c0 ∧ ReadsClean w.faults ∧ ctxOf (begun w s) w.plan w.op = some c ∧ BlocksServed c ∧ w.pre c = some st :=
  ⟨.sort 1 0 noFaults, (opRow (.sort 1 0 noFaults)), (running sortPlan live), (opCtx sortPlan live), (opBegun (.sort 1 0 noFaults) sortPlan live), .access, rfl, by decide +kernel⟩

theorem witness_OperatorsBeginInOrder_6b : ∃ (i : Instr) (w : OperatorRow) (s : State) (c0 c : Ctx), operatorRow i = some w ∧ RowReady w s c0 ∧ RowFree w s c0 ∧ ReadsClean w.faults ∧ ctxOf (begun w s) w.plan w.op = some c ∧ blocksRefused c = true :=
  ⟨.sort 1 0 noFaults, (opRow (.sort 1 0 noFaults)), (running blockedPlan mapped), (opCtx blockedPlan mapped), (opBegun (.sort 1 0 noFaults) blockedPlan mapped), rfl, by decide +kernel⟩

theorem witness_OperatorsBeginInOrder_6c : ∃ (i : Instr) (w : OperatorRow) (s : State) (c0 c : Ctx), operatorRow i = some w ∧ RowReady w s c0 ∧ RowFree w s c0 ∧ ReadsClean w.faults ∧ ctxOf (begun w s) w.plan w.op = some c ∧ blocksRefused c = false ∧ 0 < requestsDropped c :=
  ⟨.sort 1 0 noFaults, (opRow (.sort 1 0 noFaults)), (withPlan (planAt stalePlan staleStep) mapped), (atCtx stalePlan staleStep mapped), (atBegun (.sort 1 0 noFaults) stalePlan staleStep mapped), rfl, by decide +kernel⟩

theorem witness_OperatorsBeginInOrder_7 : ∃ (i : Instr) (w : OperatorRow) (s : State) (c0 c : Ctx), operatorRow i = some w ∧ OpBegins w s c0 c :=
  ⟨.sort 1 0 noFaults, (opRow (.sort 1 0 noFaults)), (running sortPlan mapped), (opCtx sortPlan mapped), (opBegun (.sort 1 0 noFaults) sortPlan mapped), rfl, by decide +kernel⟩

theorem witness_OperatorsBeginInOrder_7b : ∃ (i : Instr) (w : OperatorRow) (s : State) (c0 c : Ctx), operatorRow i = some w ∧ OpBegins w s c0 c ∧ w.body (startWrites c) = .fail .implausible :=
  ⟨.optStep 1 0 noFaults, (opRow (.optStep 1 0 noFaults)), (running earlyPlan mapped), (opCtx earlyPlan mapped), (opBegun (.optStep 1 0 noFaults) earlyPlan mapped), rfl, by decide +kernel, rfl⟩

theorem witness_OperatorsBeginInOrder_7c : ∃ (i : Instr) (w : OperatorRow) (s : State) (c0 c x : Ctx), operatorRow i = some w ∧ OpBegins w s c0 c ∧ w.body (startWrites c) = .failWith x .limit :=
  ⟨.decode 1 0 noFaults, (opRow (.decode 1 0 noFaults)), (running decodePlan mapped), (opCtx decodePlan mapped), (opBegun (.decode 1 0 noFaults) decodePlan mapped), _, rfl, by decide +kernel, rfl⟩

theorem witness_OperatorsBeginInOrder_7d : ∃ (i : Instr) (w : OperatorRow) (s : State) (c0 c x : Ctx), operatorRow i = some w ∧ OpBegins w s c0 c ∧ w.body (startWrites c) = .hold x :=
  ⟨.barrier 1 0 noFaults, (opRow (.barrier 1 0 noFaults)), (running waitPlan mapped), (opCtx waitPlan mapped), (opBegun (.barrier 1 0 noFaults) waitPlan mapped), _, rfl, by decide +kernel, rfl⟩

theorem witness_OperatorsBeginInOrder_7e : ∃ (i : Instr) (w : OperatorRow) (s : State) (c0 c x : Ctx), operatorRow i = some w ∧ OpBegins w s c0 c ∧ w.body (startWrites c) = .suspend x := by
  obtain ⟨x, hx⟩ := suspends_of (r := (opRow (.decode 1 0 noFaults)).body (startWrites (opBegun (.decode 1 0 noFaults) smallPlan framed))) (by decide +kernel)
  exact ⟨.decode 1 0 noFaults, (opRow (.decode 1 0 noFaults)), (running smallPlan framed), (opCtx smallPlan framed), (opBegun (.decode 1 0 noFaults) smallPlan framed), x, rfl, by decide +kernel, hx⟩

theorem witness_OperatorsBeginInOrder_7f : ∃ (i : Instr) (w : OperatorRow) (s : State) (c0 c : Ctx), operatorRow i = some w ∧ OpBegins w s c0 c ∧ w.body (startWrites c) = .noInput :=
  ⟨.scan 1 0 noFaults, (opRow (.scan 1 0 noFaults)), (runState scanPlan endedRun mapped), (runCtx scanPlan endedRun mapped), (runBegun (.scan 1 0 noFaults) scanPlan endedRun mapped), rfl, by decide +kernel, rfl⟩

theorem witness_OperatorsBeginInOrder_7g : ∃ (i : Instr) (w : OperatorRow) (s : State) (c0 c x : Ctx), operatorRow i = some w ∧ OpBegins w s c0 c ∧ w.body (startWrites c) = .detected x none :=
  ⟨.matchOp 1 0 noFaults, (opRow (.matchOp 1 0 noFaults)), (withPlan (planAt brokenPlan brokenStep) rankState), (atCtx brokenPlan brokenStep rankState), (atBegun (.matchOp 1 0 noFaults) brokenPlan brokenStep rankState), _, rfl, by decide +kernel, rfl⟩

theorem witness_OutputOperatorsComplete_1 : ∃ (h : Word) (op : ℕ) (f : ReadFaults) (i : Instr) (w : OperatorRow) (s : State) (c0 c : Ctx), 
                        i ∈ [Instr.encode h op f, .filter h op f, .project h op f, .hash h op f, .normalise h op f, .sort h op f,
      .activate h op f, .norm h op f, .interact h op f, .attendShort h op f, .softmax h op f, .denseGradInput h op f,
      .denseGradWeight h op f, .topk h op f] ∧ operatorRow i = some w ∧ OpBegins w s c0 c :=
  ⟨1, 0, noFaults, .filter 1 0 noFaults, (opRow (.filter 1 0 noFaults)), (running filterPlan mapped), (opCtx filterPlan mapped), (opBegun (.filter 1 0 noFaults) filterPlan mapped), (by decide), rfl, by decide +kernel⟩

theorem witness_OutputOperatorsComplete_1b : ∃ (h : Word) (op : ℕ) (f : ReadFaults) (i : Instr) (w : OperatorRow) (s : State) (c0 c : Ctx), 
                        i ∈ [Instr.encode h op f, .filter h op f, .project h op f, .hash h op f, .normalise h op f, .sort h op f,
      .activate h op f, .norm h op f, .interact h op f, .attendShort h op f, .softmax h op f, .denseGradInput h op f,
      .denseGradWeight h op f, .topk h op f] ∧ operatorRow i = some w ∧ OpBegins w s c0 c :=
  ⟨1, 0, noFaults, .hash 1 0 noFaults, (opRow (.hash 1 0 noFaults)), (running hashPlan mapped), (opCtx hashPlan mapped), (opBegun (.hash 1 0 noFaults) hashPlan mapped), (by decide), rfl, by decide +kernel⟩

theorem witness_OutputOperatorsComplete_2 : ∃ (h : Word) (op : ℕ) (f : ReadFaults) (w : OperatorRow) (s : State) (c0 c b : Ctx) (k : ℕ), operatorRow (.filter h op f) = some w ∧ OpBegins w s c0 c ∧ b = startWrites c ∧ k = c.e.in0.getD 0 :=
  ⟨1, 0, noFaults, (opRow (.filter 1 0 noFaults)), (running filterPlan mapped), (opCtx filterPlan mapped), (opBegun (.filter 1 0 noFaults) filterPlan mapped), _, 0, rfl, by decide +kernel, rfl, by decide +kernel⟩

theorem witness_CheckedOperatorsComplete_1 : ∃ (h : Word) (op : ℕ) (f : ReadFaults) (w : OperatorRow) (s : State) (c0 c b : Ctx), operatorRow (.bucket h op f) = some w ∧ OpBegins w s c0 c ∧ b = startWrites c ∧ (∀ x ∈ bucketEntries c.e, boundaryOk (cDesc b (c.e.in2.getD 0)).format (boundsOf b x) = true) :=
  ⟨1, 0, noFaults, (opRow (.bucket 1 0 noFaults)), (running bucketPlan mapped), (opCtx bucketPlan mapped), (opBegun (.bucket 1 0 noFaults) bucketPlan mapped), _, rfl, by decide +kernel, rfl, (by decide +kernel)⟩

theorem witness_CheckedOperatorsComplete_2 : ∃ (h : Word) (op : ℕ) (f : ReadFaults) (w : OperatorRow) (s : State) (c0 c b : Ctx), operatorRow (.relayout h op f) = some w ∧ OpBegins w s c0 c ∧ b = startWrites c ∧ rlMalformed b (cDesc b (c.e.in0.getD 0)) (cDesc b (c.e.out0.getD 0)) = false :=
  ⟨1, 0, noFaults, (opRow (.relayout 1 0 noFaults)), (running relayoutPlan mapped), (opCtx relayoutPlan mapped), (opBegun (.relayout 1 0 noFaults) relayoutPlan mapped), _, rfl, by decide +kernel, rfl, by decide +kernel⟩

theorem witness_CheckedOperatorsComplete_3 : ∃ (h : Word) (op : ℕ) (f : ReadFaults) (w : OperatorRow) (s : State) (c0 c b : Ctx) (k : ℕ), operatorRow (.joinBuild h op f) = some w ∧ OpBegins w s c0 c ∧ b = startWrites c ∧ k = c.e.in0.getD 0 ∧ tableFar b (c.e.out0.getD 0) = false ∧ ((((canonicalRows b k).filter (maskBit b c.e.in1)).map (rowRead b k)).foldl (buildRow c.e) noRows).full = false :=
  ⟨1, 0, noFaults, (opRow (.joinBuild 1 0 noFaults)), (running joinPlan mapped), (opCtx joinPlan mapped), (opBegun (.joinBuild 1 0 noFaults) joinPlan mapped), _, 0, rfl, by decide +kernel, rfl, by decide +kernel, by decide +kernel, (by rw [show startWrites (opBegun (.joinBuild 1 0 noFaults) joinPlan mapped) = opBegun (.joinBuild 1 0 noFaults) joinPlan mapped from rfl, joinPlan_rows]; decide +kernel)⟩

theorem witness_CheckedOperatorsComplete_4 : ∃ (h : Word) (op : ℕ) (f : ReadFaults) (w : OperatorRow) (s : State) (c0 c b : Ctx) (t : List Byte), operatorRow (.joinProbe h op f) = some w ∧ OpBegins w s c0 c ∧ b = startWrites c ∧ t = bytesOf b (c.e.in2.getD 0) ∧ tableFar b (c.e.in2.getD 0) = false ∧ probeHeadOk c.e t.length (parseTable t) = true :=
  ⟨1, 0, noFaults, (opRow (.joinProbe 1 0 noFaults)), (withPlan (planAt probePlan probeStep) mapped), (atCtx probePlan probeStep mapped), probeCtx, _, _, rfl, by decide +kernel, rfl, rfl, by decide +kernel, probeTable_ok⟩

theorem witness_CheckedOperatorsComplete_5 : ∃ (h : Word) (op : ℕ) (f : ReadFaults) (w : OperatorRow) (s : State) (c0 c b : Ctx), operatorRow (.optStep h op f) = some w ∧ OpBegins w s c0 c ∧ b = startWrites c ∧ par c 192 64 ≤ c.p.nextStep :=
  ⟨1, 0, noFaults, (opRow (.optStep 1 0 noFaults)), (running optPlan mapped), (opCtx optPlan mapped), (opBegun (.optStep 1 0 noFaults) optPlan mapped), _, rfl, by decide +kernel, rfl, by decide +kernel⟩

theorem witness_CheckedOperatorsComplete_6 : ∃ (h : Word) (op : ℕ) (f : ReadFaults) (w : OperatorRow) (s : State) (c0 c b : Ctx), operatorRow (.check h op f) = some w ∧ OpBegins w s c0 c ∧ b = startWrites c ∧ (∀ x ∈ (segmentValues f b).zipIdx, x.1.toNat = storedValue b x.2) :=
  ⟨1, 0, noFaults, (opRow (.check 1 0 noFaults)), (running checkPlan checked), (opCtx checkPlan checked), (opBegun (.check 1 0 noFaults) checkPlan checked), _, rfl, by decide +kernel, rfl, by decide +kernel⟩

theorem witness_CheckedOperatorsComplete_7 : ∃ (h : Word) (op : ℕ) (f : ReadFaults) (w : OperatorRow) (s : State) (c0 c b : Ctx), operatorRow (.dense h op f) = some w ∧ OpBegins w s c0 c ∧ b = startWrites c ∧ c.p.bin.fabricRanks ≤ 1 ∧ denseRelay c.e = false ∧ weightsBad (cDesc b (c.e.in1.getD 0)) (weightRows b) = false :=
  ⟨1, 0, noFaults, (opRow (.dense 1 0 noFaults)), (running densePlan mapped), (opCtx densePlan mapped), (opBegun (.dense 1 0 noFaults) densePlan mapped), _, rfl, by decide +kernel, rfl, by decide +kernel⟩

theorem witness_CheckedOperatorsComplete_8 : ∃ (h : Word) (op : ℕ) (f : ReadFaults) (w : OperatorRow) (s : State) (c0 c b x : Ctx) (d bs : List Byte) (tree : List ℕ), operatorRow (.dense h op f) = some w ∧ OpBegins w s c0 c ∧ b = startWrites c ∧ 1 < c.p.bin.fabricRanks ∧ denseRelay c.e = true ∧ barrierRun b.op 0 (fun _ => relayShare b) relayAnswer b = (x, some d) ∧ d.headD 0 ≠ 0 ∧ tree = relayTree (parseShares d.length (d.drop 1)) (denseRank c.e) ∧ arrivedData x.o kindRelay b.op 0 (tree.getD ((tree.findIdx (· = ownRank b) - 1) / 2) 0) (ownRank b) = some bs ∧ 
    weightsBad (cDesc b (c.e.in1.getD 0))
      (cut (rowDataBytes (cDesc b (c.e.in1.getD 0)).format (dimOf (cDesc b (c.e.in1.getD 0)) 0)) bs.length bs) = false :=
  ⟨1, 0, noFaults, (opRow (.dense 1 0 noFaults)), (withPlan (planAt relayPlan relayStep) rankState), (atCtx relayPlan relayStep rankState), (atBegun (.dense 1 0 noFaults) relayPlan relayStep rankState), _, (barrierRun (atBegun (.dense 1 0 noFaults) relayPlan relayStep rankState).op 0 (fun _ => relayShare (atBegun (.dense 1 0 noFaults) relayPlan relayStep rankState)) relayAnswer (atBegun (.dense 1 0 noFaults) relayPlan relayStep rankState)).1, ((barrierRun (atBegun (.dense 1 0 noFaults) relayPlan relayStep rankState).op 0 (fun _ => relayShare (atBegun (.dense 1 0 noFaults) relayPlan relayStep rankState)) relayAnswer (atBegun (.dense 1 0 noFaults) relayPlan relayStep rankState)).2.getD []), (zeros 64), _, rfl, by decide +kernel, rfl, by decide +kernel, by decide +kernel, by decide +kernel, (by decide +kernel), rfl, by decide +kernel⟩

theorem witness_CheckedOperatorsComplete_9 : ∃ (h : Word) (op : ℕ) (f : ReadFaults) (w : OperatorRow) (s : State) (c0 c b : Ctx), operatorRow (.matchOp h op f) = some w ∧ OpBegins w s c0 c ∧ b = startWrites c ∧ (matchParams c.e).chain = 0 :=
  ⟨1, 0, noFaults, (opRow (.matchOp 1 0 noFaults)), (running matchPlan mapped), (opCtx matchPlan mapped), (opBegun (.matchOp 1 0 noFaults) matchPlan mapped), _, rfl, by decide +kernel, rfl, by decide +kernel⟩

theorem witness_StagingOperatorsComplete_1 : ∃ (h : Word) (op : ℕ) (f : ReadFaults) (w : OperatorRow) (s : State) (c0 c b : Ctx) (old : TableHead), operatorRow (.groupAgg h op f) = some w ∧ OpBegins w s c0 c ∧ b = startWrites c ∧ tableFar b (c.e.out0.getD 0) = false ∧ ((∀ q, c.e.in2 = some q → tableFar b q = false ∧ old = parseTable (bytesOf b q))) ∧ ((c.e.in2 = none → old = groupHead c.e)) ∧ { old with entries := 0 } = groupHead c.e :=
  ⟨1, 0, noFaults, (opRow (.groupAgg 1 0 noFaults)), (running groupPlan mapped), (opCtx groupPlan mapped), (opBegun (.groupAgg 1 0 noFaults) groupPlan mapped), _, (groupHead (opCtx groupPlan mapped).e), rfl, by decide +kernel, rfl, by decide +kernel, (by intro q h; cases (show (none : Option Nat) = some q from h)), (by intro _; rfl), by decide +kernel⟩

theorem witness_StagingOperatorsComplete_2 : ∃ (h : Word) (op : ℕ) (f : ReadFaults) (w : OperatorRow) (s : State) (c0 c b : Ctx), operatorRow (.stats h op f) = some w ∧ OpBegins w s c0 c ∧ b = startWrites c ∧ statAccum c.e = true :=
  ⟨1, 0, noFaults, (opRow (.stats 1 0 noFaults)), (running (statsPlan 1) mapped), (opCtx (statsPlan 1) mapped), (opBegun (.stats 1 0 noFaults) (statsPlan 1) mapped), _, rfl, by decide +kernel, rfl, by decide +kernel⟩

theorem witness_StagingOperatorsComplete_3 : ∃ (h : Word) (op : ℕ) (f : ReadFaults) (w : OperatorRow) (s : State) (c0 c b : Ctx), operatorRow (.stats h op f) = some w ∧ OpBegins w s c0 c ∧ b = startWrites c ∧ statAccum c.e = false ∧ ((statGlobal c.e = false ∨ c.p.bin.fabricRanks ≤ 1)) :=
  ⟨1, 0, noFaults, (opRow (.stats 1 0 noFaults)), (running (statsPlan 0) mapped), (opCtx (statsPlan 0) mapped), (opBegun (.stats 1 0 noFaults) (statsPlan 0) mapped), _, rfl, by decide +kernel, rfl, by decide +kernel⟩

theorem witness_StagingOperatorsComplete_4 : ∃ (h : Word) (op : ℕ) (f : ReadFaults) (w : OperatorRow) (s : State) (c0 c b : Ctx) (t : EmbTable) (k : ℕ), operatorRow (.gather h op f) = some w ∧ OpBegins w s c0 c ∧ b = startWrites c ∧ opTable b (embedParams .gather c.e).binding = some (t, k) ∧ ((t.sharded = false ∨ c.p.bin.fabricRanks ≤ 1)) ∧ (((embedParams .gather c.e).poisonFail = false ∨ c.o.view.poison = [])) ∧ ((gatherFormat c.e = none ∨ ∀ row bs, readRow b t k row = some bs → badRow t bs = false)) :=
  ⟨1, 0, noFaults, (opRow (.gather 1 0 noFaults)), (lookupState (lookupPlan .gather 0)), (lookupCtx (lookupPlan .gather 0)), (lookupBegun (.gather 1 0 noFaults) (lookupPlan .gather 0)), _, table2, 0, rfl, by decide +kernel, rfl, by decide +kernel, by decide +kernel, by decide +kernel, (.inl rfl)⟩

theorem witness_StagingOperatorsComplete_4b : ∃ (h : Word) (op : ℕ) (f : ReadFaults) (w : OperatorRow) (s : State) (c0 c b : Ctx) (t : EmbTable) (k : ℕ), operatorRow (.gather h op f) = some w ∧ OpBegins w s c0 c ∧ b = startWrites c ∧ opTable b (embedParams .gather c.e).binding = some (t, k) ∧ ((t.sharded = false ∨ c.p.bin.fabricRanks ≤ 1)) ∧ (((embedParams .gather c.e).poisonFail = false ∨ c.o.view.poison = [])) ∧ ((gatherFormat c.e = none ∨ ∀ row bs, readRow b t k row = some bs → badRow t bs = false)) :=
  ⟨1, 0, noFaults, (opRow (.gather 1 0 noFaults)), (lookupState (lookupPlan .gather 1)), (lookupCtx (lookupPlan .gather 1)), (lookupBegun (.gather 1 0 noFaults) (lookupPlan .gather 1)), _, table2, 0, rfl, by decide +kernel, rfl, by decide +kernel, by decide +kernel, by decide +kernel, (.inr (by intro _ _ _; rfl))⟩

theorem witness_StagingOperatorsComplete_5 : ∃ (h : Word) (op : ℕ) (f : ReadFaults) (w : OperatorRow) (s : State) (c0 c b : Ctx) (t : EmbTable) (k : ℕ), operatorRow (.poolGather h op f) = some w ∧ OpBegins w s c0 c ∧ b = startWrites c ∧ opTable b (embedParams .poolGather c.e).binding = some (t, k) ∧ ((t.sharded = false ∨ c.p.bin.fabricRanks ≤ 1)) ∧ (((embedParams .poolGather c.e).poisonFail = false ∨ c.o.view.poison = [])) ∧ ((∀ row bs, readRow b t k row = some bs → badRow t bs = false)) :=
  ⟨1, 0, noFaults, (opRow (.poolGather 1 0 noFaults)), (lookupState (lookupPlan .poolGather 0)), (lookupCtx (lookupPlan .poolGather 0)), (lookupBegun (.poolGather 1 0 noFaults) (lookupPlan .poolGather 0)), _, table2, 0, rfl, by decide +kernel, rfl, by decide +kernel, by decide +kernel, by decide +kernel, (by intro _ _ _; rfl)⟩

theorem witness_StagingOperatorsComplete_6 : ∃ (h : Word) (op : ℕ) (f : ReadFaults) (w : OperatorRow) (s : State) (c0 c b : Ctx) (t : EmbTable) (k : ℕ) (p : EmbedParams), operatorRow (.scatterUpdate h op f) = some w ∧ OpBegins w s c0 c ∧ b = startWrites c ∧ p = embedParams .scatterUpdate c.e ∧ opTable b p.binding = some (t, k) ∧ ((t.sharded = false ∨ c.p.bin.fabricRanks ≤ 1)) ∧ 
    stagedBy b.o b.op +
      (((rowsOf b (c.e.in0.getD 0)).filter (fun r => maskBit b c.e.in1 r && present (rowRead b (c.e.in0.getD 0) r) p.idx)).map
        (fun r => (refCodes (rowRead b (c.e.in0.getD 0) r) p.idx).length)).sum ≤ pf c.e 192 64 :=
  ⟨1, 0, noFaults, (opRow (.scatterUpdate 1 0 noFaults)), (lookupState (lookupPlan .scatterUpdate 0)), (lookupCtx (lookupPlan .scatterUpdate 0)), (lookupBegun (.scatterUpdate 1 0 noFaults) (lookupPlan .scatterUpdate 0)), _, table2, 0, _, rfl, by decide +kernel, rfl, rfl, by decide +kernel⟩

theorem witness_StagingOperatorsComplete_7 : ∃ (h : Word) (op : ℕ) (f : ReadFaults) (w : OperatorRow) (s : State) (c0 c : Ctx), operatorRow (.emit h op f) = some w ∧ OpBegins w s c0 c ∧ c.r.queue.length < 2 ∧ ((emitKind c.e = 2 → (emitManifest (startWrites c) (c.e.in0.getD 0)).isSome = true)) :=
  ⟨1, 0, noFaults, (opRow (.emit 1 0 noFaults)), (running emitOpPlan mapped), (opCtx emitOpPlan mapped), (opBegun (.emit 1 0 noFaults) emitOpPlan mapped), rfl, by decide +kernel, by decide +kernel, (by decide +kernel)⟩

theorem witness_CollectivesComplete_1 : ∃ (h : Word) (op : ℕ) (f : ReadFaults) (w : OperatorRow) (s : State) (c0 c : Ctx), operatorRow (.barrier h op f) = some w ∧ OpBegins w s c0 c ∧ c.p.bin.fabricRanks ≤ 1 :=
  ⟨1, 0, noFaults, (opRow (.barrier 1 0 noFaults)), (running barrierPlan mapped), (opCtx barrierPlan mapped), (opBegun (.barrier 1 0 noFaults) barrierPlan mapped), rfl, by decide +kernel⟩

theorem witness_CollectivesComplete_2 : ∃ (h : Word) (op : ℕ) (f : ReadFaults) (w : OperatorRow) (s : State) (c0 c x : Ctx) (d : Option (List Byte)), operatorRow (.barrier h op f) = some w ∧ OpBegins w s c0 c ∧ barrierRun c.op 0 (fun _ => []) (fun _ => []) (startWrites c) = (x, d) :=
  ⟨1, 0, noFaults, (opRow (.barrier 1 0 noFaults)), (running barrierPlan mapped), (opCtx barrierPlan mapped), (opBegun (.barrier 1 0 noFaults) barrierPlan mapped), (barrierRun (opBegun (.barrier 1 0 noFaults) barrierPlan mapped).op 0 (fun _ => []) (fun _ => []) (opBegun (.barrier 1 0 noFaults) barrierPlan mapped)).1, (barrierRun (opBegun (.barrier 1 0 noFaults) barrierPlan mapped).op 0 (fun _ => []) (fun _ => []) (opBegun (.barrier 1 0 noFaults) barrierPlan mapped)).2, rfl, by decide +kernel⟩

theorem witness_CollectivesComplete_3 : ∃ (h : Word) (op : ℕ) (f : ReadFaults) (w : OperatorRow) (s : State) (c0 c : Ctx) (d : Descriptor) (x : Ctx) (l1 l2 : List (ℕ × ℕ × List Byte)) (rows : List TravelRow) (o : ℕ) (at_ : Ctx), operatorRow (.exchangeSend h op f) = some w ∧ OpBegins w s c0 c ∧ d = cDesc c (c.e.in0.getD 0) ∧ 
    startAgreement (natLE (par c 47 2) 1 ++ natLE (formatCode d.format) 1 ++ natLE d.rank 1 ++ natLE (rowWidth d) 4)
      (startWrites c) = (x, some true) ∧ ((∀ e ∈ exchangeDests x, ∀ r, e.1 = some r → r < planRanks x)) ∧ receivedAll kindExchange 1 (exchangeSent x) = some l1 ∧ receivedAll kindExchange 2 (exchangeSent x) = some l2 ∧ rows = exchangeRows (rowWidth d) l2 ∧ o = c.e.out0.getD 0 ∧ rows.length ≤ rowCount (cDesc c o) ∧ 
    at_ = bump 6 ((exchangeDests x).countP (fun e => e.1.isNone))
      (countReceived l2 (fun bs => bs.length / (24 + rowWidth d)) (exchangeSent x)) :=
  ⟨1, 0, noFaults, (opRow (.exchangeSend 1 0 noFaults)), (running exchangePlan mapped), (opCtx exchangePlan mapped), (opBegun (.exchangeSend 1 0 noFaults) exchangePlan mapped), _, (startAgreement (natLE (par (opBegun (.exchangeSend 1 0 noFaults) exchangePlan mapped) 47 2) 1 ++ natLE (formatCode (cDesc (opBegun (.exchangeSend 1 0 noFaults) exchangePlan mapped) ((opBegun (.exchangeSend 1 0 noFaults) exchangePlan mapped).e.in0.getD 0)).format) 1 ++ natLE (cDesc (opBegun (.exchangeSend 1 0 noFaults) exchangePlan mapped) ((opBegun (.exchangeSend 1 0 noFaults) exchangePlan mapped).e.in0.getD 0)).rank 1 ++ natLE (rowWidth (cDesc (opBegun (.exchangeSend 1 0 noFaults) exchangePlan mapped) ((opBegun (.exchangeSend 1 0 noFaults) exchangePlan mapped).e.in0.getD 0))) 4) (opBegun (.exchangeSend 1 0 noFaults) exchangePlan mapped)).1, ((receivedAll kindExchange 1 (exchangeSent (startAgreement (natLE (par (opBegun (.exchangeSend 1 0 noFaults) exchangePlan mapped) 47 2) 1 ++ natLE (formatCode (cDesc (opBegun (.exchangeSend 1 0 noFaults) exchangePlan mapped) ((opBegun (.exchangeSend 1 0 noFaults) exchangePlan mapped).e.in0.getD 0)).format) 1 ++ natLE (cDesc (opBegun (.exchangeSend 1 0 noFaults) exchangePlan mapped) ((opBegun (.exchangeSend 1 0 noFaults) exchangePlan mapped).e.in0.getD 0)).rank 1 ++ natLE (rowWidth (cDesc (opBegun (.exchangeSend 1 0 noFaults) exchangePlan mapped) ((opBegun (.exchangeSend 1 0 noFaults) exchangePlan mapped).e.in0.getD 0))) 4) (opBegun (.exchangeSend 1 0 noFaults) exchangePlan mapped)).1)).getD []), ((receivedAll kindExchange 2 (exchangeSent (startAgreement (natLE (par (opBegun (.exchangeSend 1 0 noFaults) exchangePlan mapped) 47 2) 1 ++ natLE (formatCode (cDesc (opBegun (.exchangeSend 1 0 noFaults) exchangePlan mapped) ((opBegun (.exchangeSend 1 0 noFaults) exchangePlan mapped).e.in0.getD 0)).format) 1 ++ natLE (cDesc (opBegun (.exchangeSend 1 0 noFaults) exchangePlan mapped) ((opBegun (.exchangeSend 1 0 noFaults) exchangePlan mapped).e.in0.getD 0)).rank 1 ++ natLE (rowWidth (cDesc (opBegun (.exchangeSend 1 0 noFaults) exchangePlan mapped) ((opBegun (.exchangeSend 1 0 noFaults) exchangePlan mapped).e.in0.getD 0))) 4) (opBegun (.exchangeSend 1 0 noFaults) exchangePlan mapped)).1)).getD []), _, _, _, rfl, by decide +kernel, rfl, by decide +kernel, by decide +kernel, by decide +kernel, (by decide +kernel), rfl, rfl, (by unfold exchangeRows; rw [List.length_mergeSort]; decide +kernel), rfl⟩

theorem witness_CollectivesComplete_4 : ∃ (h : Word) (op : ℕ) (f : ReadFaults) (w : OperatorRow) (s : State) (c0 c : Ctx) (d : Descriptor) (x : Ctx) (l1 l2 : List (ℕ × ℕ × List Byte)) (rows : List TravelRow) (o : ℕ) (at_ : Ctx), operatorRow (.exchangeReturn h op f) = some w ∧ OpBegins w s c0 c ∧ d = cDesc c (c.e.in0.getD 0) ∧ 
    startAgreement (natLE (par c 47 2) 1 ++ natLE (formatCode d.format) 1 ++ natLE d.rank 1 ++ natLE (rowWidth d) 4)
      (startWrites c) = (x, some true) ∧ ((∀ e ∈ exchangeDests x, ∀ r, e.1 = some r → r < planRanks x)) ∧ receivedAll kindExchange 1 (exchangeSent x) = some l1 ∧ receivedAll kindExchange 2 (exchangeSent x) = some l2 ∧ rows = exchangeRows (rowWidth d) l2 ∧ o = c.e.out0.getD 0 ∧ (∀ e ∈ rows, leNat (slice e.data (par c 64 32) 8) % 2 ^ 40 < rowCount (cDesc c o)) ∧ 
    at_ = bump 6 ((exchangeDests x).countP (fun e => e.1.isNone))
      (countReceived l2 (fun bs => bs.length / (24 + rowWidth d)) (exchangeSent x)) :=
  ⟨1, 0, noFaults, (opRow (.exchangeReturn 1 0 noFaults)), (running returnPlan mapped), (opCtx returnPlan mapped), (opBegun (.exchangeReturn 1 0 noFaults) returnPlan mapped), _, (startAgreement (natLE (par (opBegun (.exchangeReturn 1 0 noFaults) returnPlan mapped) 47 2) 1 ++ natLE (formatCode (cDesc (opBegun (.exchangeReturn 1 0 noFaults) returnPlan mapped) ((opBegun (.exchangeReturn 1 0 noFaults) returnPlan mapped).e.in0.getD 0)).format) 1 ++ natLE (cDesc (opBegun (.exchangeReturn 1 0 noFaults) returnPlan mapped) ((opBegun (.exchangeReturn 1 0 noFaults) returnPlan mapped).e.in0.getD 0)).rank 1 ++ natLE (rowWidth (cDesc (opBegun (.exchangeReturn 1 0 noFaults) returnPlan mapped) ((opBegun (.exchangeReturn 1 0 noFaults) returnPlan mapped).e.in0.getD 0))) 4) (opBegun (.exchangeReturn 1 0 noFaults) returnPlan mapped)).1, ((receivedAll kindExchange 1 (exchangeSent (startAgreement (natLE (par (opBegun (.exchangeReturn 1 0 noFaults) returnPlan mapped) 47 2) 1 ++ natLE (formatCode (cDesc (opBegun (.exchangeReturn 1 0 noFaults) returnPlan mapped) ((opBegun (.exchangeReturn 1 0 noFaults) returnPlan mapped).e.in0.getD 0)).format) 1 ++ natLE (cDesc (opBegun (.exchangeReturn 1 0 noFaults) returnPlan mapped) ((opBegun (.exchangeReturn 1 0 noFaults) returnPlan mapped).e.in0.getD 0)).rank 1 ++ natLE (rowWidth (cDesc (opBegun (.exchangeReturn 1 0 noFaults) returnPlan mapped) ((opBegun (.exchangeReturn 1 0 noFaults) returnPlan mapped).e.in0.getD 0))) 4) (opBegun (.exchangeReturn 1 0 noFaults) returnPlan mapped)).1)).getD []), ((receivedAll kindExchange 2 (exchangeSent (startAgreement (natLE (par (opBegun (.exchangeReturn 1 0 noFaults) returnPlan mapped) 47 2) 1 ++ natLE (formatCode (cDesc (opBegun (.exchangeReturn 1 0 noFaults) returnPlan mapped) ((opBegun (.exchangeReturn 1 0 noFaults) returnPlan mapped).e.in0.getD 0)).format) 1 ++ natLE (cDesc (opBegun (.exchangeReturn 1 0 noFaults) returnPlan mapped) ((opBegun (.exchangeReturn 1 0 noFaults) returnPlan mapped).e.in0.getD 0)).rank 1 ++ natLE (rowWidth (cDesc (opBegun (.exchangeReturn 1 0 noFaults) returnPlan mapped) ((opBegun (.exchangeReturn 1 0 noFaults) returnPlan mapped).e.in0.getD 0))) 4) (opBegun (.exchangeReturn 1 0 noFaults) returnPlan mapped)).1)).getD []), _, _, _, rfl, by decide +kernel, rfl, by decide +kernel, by decide +kernel, by decide +kernel, (by decide +kernel), rfl, rfl, (by intro e he; unfold exchangeRows at he; rw [List.mem_mergeSort] at he; revert e he; decide +kernel), rfl⟩

theorem witness_CollectivesComplete_5 : ∃ (h : Word) (op : ℕ) (f : ReadFaults) (w : OperatorRow) (s : State) (c0 c x : Ctx), operatorRow (.reduce h op f) = some w ∧ OpBegins w s c0 c ∧ startAgreement (natLE (par c 0 1) 1 ++ shapeShare (cDesc c (c.e.in0.getD 0))) (startWrites c) = (x, some true) ∧ (∀ seg < planRanks x, (received kindReduce 2 seg (ownRank x) (reduceSent x)).isSome = true) :=
  ⟨1, 0, noFaults, (opRow (.reduce 1 0 noFaults)), (running reducePlan mapped), (opCtx reducePlan mapped), (opBegun (.reduce 1 0 noFaults) reducePlan mapped), (startAgreement (natLE (par (opBegun (.reduce 1 0 noFaults) reducePlan mapped) 0 1) 1 ++ shapeShare (cDesc (opBegun (.reduce 1 0 noFaults) reducePlan mapped) ((opBegun (.reduce 1 0 noFaults) reducePlan mapped).e.in0.getD 0))) (opBegun (.reduce 1 0 noFaults) reducePlan mapped)).1, rfl, by decide +kernel⟩

theorem witness_CollectivesComplete_6 : ∃ (h : Word) (op : ℕ) (f : ReadFaults) (w : OperatorRow) (s : State) (c0 c x : Ctx), operatorRow (.allgather h op f) = some w ∧ OpBegins w s c0 c ∧ startAgreement (shapeShare (cDesc c (c.e.in0.getD 0))) (startWrites c) = (x, some true) ∧ (receivedAll kindGather 1 (allgatherSent x)).isSome = true :=
  ⟨1, 0, noFaults, (opRow (.allgather 1 0 noFaults)), (running gatherPlan mapped), (opCtx gatherPlan mapped), (opBegun (.allgather 1 0 noFaults) gatherPlan mapped), (startAgreement (shapeShare (cDesc (opBegun (.allgather 1 0 noFaults) gatherPlan mapped) ((opBegun (.allgather 1 0 noFaults) gatherPlan mapped).e.in0.getD 0))) (opBegun (.allgather 1 0 noFaults) gatherPlan mapped)).1, rfl, by decide +kernel⟩

theorem witness_CollectivesComplete_7 : ∃ (h : Word) (op : ℕ) (f : ReadFaults) (w : OperatorRow) (s : State) (c0 c x : Ctx), operatorRow (.topkCollective h op f) = some w ∧ OpBegins w s c0 c ∧ topFabric c = false ∧ x = topAdvanced [] (startWrites c) :=
  ⟨1, 0, noFaults, (opRow (.topkCollective 1 0 noFaults)), (running topPlan mapped), (opCtx topPlan mapped), (opBegun (.topkCollective 1 0 noFaults) topPlan mapped), _, rfl, by decide +kernel, by decide +kernel, rfl⟩

theorem witness_CollectivesComplete_8 : ∃ (h : Word) (op node : ℕ) (s : State) (c : Ctx) (shares : List (ℕ × ℕ)) (x y : Ctx) (l : List (ℕ × ℕ)), ctxOf s h op = some c ∧ c.e.op = .topk ∧ topCollective c.e = true ∧ isRunning c.p = true ∧ s.power.state = .active ∧ opReady c.p c.o op = true ∧ l = stageSlots s c.p (stageOfOp c.p.bin op) ∧ anyHalted s l = false ∧ topMarked c.o op topScanned = true ∧ topKnown c = some shares ∧ mergeNode node shares c = some x ∧ y = topAdvanced shares x := by
  obtain ⟨x, hx⟩ := mergeCtx_node
  exact ⟨1, 0, (topNode 0 1 0), mergeCtx.s, mergeCtx, [], x, _, _, by decide +kernel, by decide +kernel, by decide +kernel, (by decide +kernel), by decide +kernel, by decide +kernel, rfl, by decide +kernel, by decide +kernel, by decide +kernel, hx, rfl⟩

theorem witness_IngestOperatorsComplete_1 : ∃ (h : Word) (op : ℕ) (f : ReadFaults) (w : OperatorRow) (s : State) (c0 c b : Ctx) (pr : ScanParams) (x : ScanInput) (timed : Bool) (admits : Option ℕ) (g : Forming), operatorRow (.scan h op f) = some w ∧ OpBegins w s c0 c ∧ b = startWrites c ∧ pr = scanParams c.e.params ∧ x = scanInput pr b ∧ ((∀ k, c.e.in1 = some k → (augIndex (bytesOf b k)).isSome = true)) ∧ c.r.inputEnded = false ∧ inputOver x c.r.ordinal c.r.offset = false ∧ ((pr.inputFormat = 2 → parquetStart pr ((c.e.in2.map (bytesOf b)).getD []) = none)) ∧ c.r.manifest = none ∧ timed = (c.o.batch.map (fun y => decide (y.close = some .timeout))).getD false ∧ admits = (if timed then some ((Config.freeValue c.s.freeCount).toNat % (pr.batchRows + pr.maxRejects + 1)) else none) ∧ 
    formBatch pr (c.e.in1.map (bytesOf b)) (dimOf (cDesc c (c.e.out0.getD 0)) 0) x (pr.batchRows + pr.maxRejects + 1) admits
      { batch := emptyBatch c.r.ordinal (startOffset x c.r.ordinal c.r.offset), rows := [], nans := 0, passed := 0, seen := [] } =
      .ok g :=
  ⟨1, 0, noFaults, (opRow (.scan 1 0 noFaults)), (running scanPlan mapped), (opCtx scanPlan mapped), (opBegun (.scan 1 0 noFaults) scanPlan mapped), _, _, _, _, _, (okBatch scanForm), rfl, by decide +kernel, rfl, rfl, rfl, (by intro k h; cases (show (none : Option Nat) = some k from h)), by decide +kernel, by decide +kernel, (by decide +kernel), by decide +kernel, rfl, rfl, rfl⟩

theorem witness_IngestOperatorsComplete_2 : ∃ (h : Word) (op : ℕ) (f : ReadFaults) (w : OperatorRow) (s : State) (c0 c b : Ctx) (pr : ScanParams) (x : ScanInput) (m : Batch), operatorRow (.scan h op f) = some w ∧ OpBegins w s c0 c ∧ b = startWrites c ∧ pr = scanParams c.e.params ∧ x = scanInput pr b ∧ ((∀ k, c.e.in1 = some k → (augIndex (bytesOf b k)).isSome = true)) ∧ c.r.inputEnded = false ∧ inputOver x c.r.ordinal c.r.offset = false ∧ ((pr.inputFormat = 2 → parquetStart pr ((c.e.in2.map (bytesOf b)).getD []) = none)) ∧ c.r.manifest = some m :=
  ⟨1, 0, noFaults, (opRow (.scan 1 0 noFaults)), (runState scanPlan replayRun mapped), (runCtx scanPlan replayRun mapped), (runBegun (.scan 1 0 noFaults) scanPlan replayRun mapped), _, _, _, { emptyBatch 0 0 with close := some .full }, rfl, by decide +kernel, rfl, rfl, rfl, (by intro k h; cases (show (none : Option Nat) = some k from h)), by decide +kernel, by decide +kernel, (by decide +kernel), by decide +kernel⟩

theorem witness_IngestOperatorsComplete_3 : ∃ (h : Word) (op : ℕ) (f : ReadFaults) (w : OperatorRow) (s : State) (c0 c b : Ctx) (pr : ScanParams), operatorRow (.scan h op f) = some w ∧ OpBegins w s c0 c ∧ b = startWrites c ∧ pr = scanParams c.e.params ∧ ((∀ k, c.e.in1 = some k → (augIndex (bytesOf b k)).isSome = true)) ∧ ((c.r.inputEnded = true ∨ inputOver (scanInput pr b) c.r.ordinal c.r.offset = true)) :=
  ⟨1, 0, noFaults, (opRow (.scan 1 0 noFaults)), (runState scanPlan endedRun mapped), (runCtx scanPlan endedRun mapped), (runBegun (.scan 1 0 noFaults) scanPlan endedRun mapped), _, _, rfl, by decide +kernel, rfl, rfl, (by intro k h; cases (show (none : Option Nat) = some k from h)), (.inr (by decide +kernel))⟩

theorem witness_IngestOperatorsComplete_4 : ∃ (h : Word) (op : ℕ) (f : ReadFaults) (w : OperatorRow) (s : State) (c0 c b x : Ctx) (t : DecodeTally) (n : ℕ) (lens : List ℕ), operatorRow (.decode h op f) = some w ∧ OpBegins w s c0 c ∧ b = startWrites c ∧ n = par c 0 32 ∧ (∀ k < n, prepassFrame b f k = none) ∧ lens = (List.range n).map (fun k => field (linearRead b (c.e.in0.getD 0) (frameEntry b k).1 32) 64 40) ∧ decodeFrames f b (List.range n) 0 b { frames := 0, consumed := 0, codes := 0, clears := 0 } = (x, t, .all) :=
  ⟨1, 0, noFaults, (opRow (.decode 1 0 noFaults)), (running decodePlan framed), (opCtx decodePlan framed), (opBegun (.decode 1 0 noFaults) decodePlan framed), _, (decodeFrames noFaults (opBegun (.decode 1 0 noFaults) decodePlan framed) (List.range 1) 0 (opBegun (.decode 1 0 noFaults) decodePlan framed) { frames := 0, consumed := 0, codes := 0, clears := 0 }).1, (decodeFrames noFaults (opBegun (.decode 1 0 noFaults) decodePlan framed) (List.range 1) 0 (opBegun (.decode 1 0 noFaults) decodePlan framed) { frames := 0, consumed := 0, codes := 0, clears := 0 }).2.1, _, _, rfl, by decide +kernel, rfl, rfl, (by decide +kernel), rfl, by decide +kernel⟩

theorem witness_IngestOperatorsComplete_5 : ∃ (h : Word) (s : State) (p : Plan) (r : Run) (o : OpenStep) (e : OpEntry) (k : ℕ), planOf s h = some p ∧ p.run = some r ∧ r.openStep = some o ∧ isRunning p = true ∧ p.bin.ops.zipIdx.find? (fun x => x.1.op = .scan) = some (e, k) ∧ o.done.contains k = false ∧ r.manifest = none ∧ (scanParams e.params).timeoutUs ≠ 0 :=
  ⟨1, (running timedPlan mapped), (opened timedPlan mapped), (openRun timedPlan mapped), (stepOf timedPlan mapped), timedPlan.bin.ops[0], 0, by decide +kernel⟩

theorem witness_HashTablesKeepRoom_2 : ∃ (e : OpEntry) (rows : List (List Byte)), 4 * rows.length ≤ 3 * 2 ^ joinLog2 e :=
  ⟨(entry .joinBuild [] [] []), [], by decide +kernel⟩

theorem witness_HashTablesKeepRoom_3 : ∃ (e : OpEntry) (l : List Staged) (start : Grouping), 4 * start.slots.length ≤ 3 * 2 ^ joinLog2 e :=
  ⟨(entry .groupAgg [] [] []), [], { slots := [], full := false, fresh := 0, reads := 0, nans := 0 }, by decide +kernel⟩

theorem witness_HashTablesKeepRoom_4 : ∃ (m : Sparse TableSlot) (log2 : ℕ) (key : List Byte) (i n : ℕ) (x : TableSlot), lookup (sget m) log2 key = (i, none, n) ∧ sget m i = none ∧ x.hash = (fm64 0 key).toNat ∧ x.key = key :=
  ⟨[], 2, [1], (lookup (sget []) 2 [1]).1, (lookup (sget []) 2 [1]).2.2, { hash := (fm64 0 [1]).toNat, key := [1], mask := 0, payload := [] }, by decide +kernel⟩

theorem witness_StepsKeepMemories_1 : ∃ (s t : State), MemoriesOk s ∧ step s = .next t :=
  ⟨State.reset, (tick State.reset), by decide +kernel, rfl⟩

theorem witness_MemoryReadsWhatWasWritten_2 : ∃ (m : Memory) (a : ℕ) (bs : List Byte), memWf m :=
  ⟨[(3, 1)], 2, [4, 0], by decide +kernel⟩

theorem witness_MemoryReadsWhatWasWritten_3 : ∃ (m : Memory) (a n : ℕ), memWf m :=
  ⟨[(3, 1)], 2, 3, by decide +kernel⟩

theorem witness_MemoryReadsWhatWasWritten_4 : ∃ (m : Memory) (a n : ℕ), memWf m :=
  ⟨[(3, 1)], 2, 2, by decide +kernel⟩

theorem witness_MemoryReadsWhatWasWritten_5 : ∃ (s : State) (a : ℕ) (bs : List Byte), memWf s.near ∧ a < nearEnd :=
  ⟨mapped, 0x1000, [1, 2], by decide +kernel⟩

theorem witness_MemoryReadsWhatWasWritten_6 : ∃ (s : State) (a : ℕ) (bs : List Byte) (w : FarWindow), memWf s.far ∧ nearEnd ≤ a ∧ farWindow s.boot.config.windows a = some w :=
  ⟨mapped, 0x10000000000, [1, 2], { port := 0, write := true, read := true, hpaBase := 16, size := 4, modBase := 0x1000 }, by decide +kernel⟩

theorem witness_MemoryReadsWhatWasWritten_7 : ∃ (s : State) (a : ℕ) (bs : List Byte), nearEnd ≤ a ∧ farWindow s.boot.config.windows a = none :=
  ⟨live, 0x10000000000, [1], by decide +kernel⟩

theorem witness_CompletionsFit_1 : ∃ (time : Word) (i : ℕ) (c : Completion) (q : Port) (cq : CompletionRing), (ringAt q i).cq = some cq ∧ cq.held = [] ∧ (ringAt q i).events = [] ∧ mayWrite q = true ∧ cq.written + 1 + ceilDiv c.payload.length 32 ≤ cq.released + cqUnits cq :=
  ⟨0, 1, oneCompletion, (portWith ring64), ring64, by decide +kernel⟩

theorem witness_CompletionsFit_2 : ∃ (time : Word) (i : ℕ) (c : Completion) (q : Port) (cq : CompletionRing), (ringAt q i).cq = some cq ∧ cq.held = [] ∧ ((mayWrite q = false ∨ cq.released + cqUnits cq < cq.written + 1 + ceilDiv c.payload.length 32)) :=
  ⟨0, 1, oneCompletion, (portWith { ring64 with written := 2048 }), { ring64 with written := 2048 }, by decide +kernel⟩

theorem witness_CompletionsFit_3 : ∃ (time : Word) (i : ℕ) (c : Completion) (q : Port) (cq : CompletionRing), (ringAt q i).cq = some cq ∧ cq.written ≤ cq.released + cqUnits cq :=
  ⟨0, 1, oneCompletion, (portWith { ring64 with written := 2048 }), { ring64 with written := 2048 }, by decide +kernel⟩

theorem witness_LongResultsAreSplit_1 : ∃ (c : CmdRef) (reply : Reply) (s : State) (q : CompletionRing), (ringOf s c.port c.ring).cq = some q ∧ 6 < q.log2Size :=
  ⟨runRef, (replyData (zeros 64)), live, ring64, by decide +kernel⟩

theorem witness_PacketsAreJudged_1 : ∃ (i : Instr) (w : HostRow) (s : State) (r : RingId) (p : Packet) (st : Status), packetRow i = some w ∧ r = w.ring ∧ p = w.packet ∧ Intact s w ∧ (ringOf s r.port r.idx).chain = none ∧ bit p.flags 0 = false ∧ 
    ([(decide (s.boot.phase = .recovery) && !w.rule.inRecovery, Status.unsupported),
        (!reservedClear w.rule p, .badPacket),
        (decide (p.tag = 0xFFFFFFFF) || (ringOf s r.port r.idx).outstanding.any (fun o => o.tag = p.tag), .badPacket),
        (!sessionBound s r p, .badPacket),
        (!handleNames s w.rule.handle p, .access),
        (decide (w.rule.opcode ≠ 0x0011) &&
          (sget s.sessions p.session.toNat).any (fun ss => ss.closing.isSome), .cancelled),
        (w.rule.adminOnly && decide (r.idx ≠ 0), .access),
        (isFenced s && !w.rule.whenFenced, .fenced)].find? (·.1)).map (·.2) = some st :=
  ⟨.devInfo ring1 (sealed 0x01 { pkt with tag := 0xFFFFFFFF }), ((packetRow (.devInfo ring1 (sealed 0x01 { pkt with tag := 0xFFFFFFFF }))).getD (hostRow ring1 devInfoRule pkt devInfoBody)), put ring1 0x01 { pkt with tag := 0xFFFFFFFF } (live), _, _, .badPacket, rfl, rfl, rfl, by decide +kernel⟩

theorem witness_PacketsAreJudged_2 : ∃ (i : Instr) (w : HostRow) (s : State), packetRow i = some w ∧ Intact s w ∧ (ringOf s w.ring.port w.ring.idx).chain = none ∧ bit w.packet.flags 0 = false ∧ w.rule.opcode ∈ adminOpcodes ∧ w.ring.idx ≠ 0 ∧ 
    judge s w.ring { w.rule with adminOnly := false, whenFenced := true, needsSession := false, busyInSimmer := false } w.packet =
      none :=
  ⟨.powerSetActive ring1 (sealed 0x90 pkt), ((packetRow (.powerSetActive ring1 (sealed 0x90 pkt))).getD (hostRow ring1 devInfoRule pkt devInfoBody)), put ring1 0x90 pkt (live), rfl, by decide +kernel⟩

theorem witness_PacketsAreJudged_3 : ∃ (i : Instr) (w : HostRow), packetRow i = some w ∧ w.rule.opcode ∉ adminOpcodes :=
  ⟨.devInfo ring1 pkt, ((packetRow (.devInfo ring1 pkt)).getD (hostRow ring1 devInfoRule pkt devInfoBody)), rfl, by decide +kernel⟩

theorem witness_PacketsAreJudged_4 : ∃ (i : Instr) (w : HostRow) (s : State), packetRow i = some w ∧ Intact s w ∧ (ringOf s w.ring.port w.ring.idx).chain = none ∧ bit w.packet.flags 0 = false ∧ isFenced s = true ∧ w.rule.opcode ∉ fencedOpcodes ∧ judge s w.ring { w.rule with whenFenced := true, needsSession := false, busyInSimmer := false } w.packet = none :=
  ⟨.memUnmap ring1 (sealed 0x21 { pkt with p0 := 0x10000, p4 := 1 }), ((packetRow (.memUnmap ring1 (sealed 0x21 { pkt with p0 := 0x10000, p4 := 1 }))).getD (hostRow ring1 devInfoRule pkt devInfoBody)), put ring1 0x21 { pkt with p0 := 0x10000, p4 := 1 } ({ mapped with twin := { mapped.twin with state := .fenced } }), rfl, by decide +kernel⟩

theorem witness_PacketsAreJudged_5 : ∃ (i : Instr) (w : HostRow) (s : State), packetRow i = some w ∧ w.rule.opcode ∈ fencedOpcodes :=
  ⟨.devInfo ring1 pkt, ((packetRow (.devInfo ring1 pkt)).getD (hostRow ring1 devInfoRule pkt devInfoBody)), live, rfl, by decide +kernel⟩

theorem witness_PacketsStopAndChain_1 : ∃ (i : Instr) (w : HostRow) (s : State), packetRow i = some w ∧ packetAtHead s w.ring w.rule.opcode w.packet = false :=
  ⟨.devInfo ring1 (sealed 0x01 pkt), ((packetRow (.devInfo ring1 (sealed 0x01 pkt))).getD (hostRow ring1 devInfoRule pkt devInfoBody)), live, rfl, by decide +kernel⟩

theorem witness_PacketsStopAndChain_2 : ∃ (i : Instr) (w : HostRow) (s : State), packetRow i = some w ∧ 64 ≤ (ringOf s w.ring.port w.ring.idx).outstanding.length ∧ (ringOf s w.ring.port w.ring.idx).chain = none ∧ headerStop (ringOf s w.ring.port w.ring.idx) (headerBytes w.rule.opcode w.packet) = none :=
  ⟨.devInfo ring1 (sealed 0x01 pkt), ((packetRow (.devInfo ring1 (sealed 0x01 pkt))).getD (hostRow ring1 devInfoRule pkt devInfoBody)), put ring1 0x01 pkt (fullState), rfl, by decide +kernel⟩

theorem witness_PacketsStopAndChain_3 : ∃ (i : Instr) (w : HostRow) (s : State) (reason : ℕ), packetRow i = some w ∧ packetAtHead s w.ring w.rule.opcode w.packet = true ∧ headerStop (ringOf s w.ring.port w.ring.idx) (headerBytes w.rule.opcode w.packet) = some reason :=
  ⟨.devInfo ring1 badPacket, ((packetRow (.devInfo ring1 badPacket)).getD (hostRow ring1 devInfoRule pkt devInfoBody)), badState, 1, rfl, by decide +kernel⟩

theorem witness_PacketsStopAndChain_4 : ∃ (i : Instr) (w : HostRow) (s : State), packetRow i = some w ∧ Intact s w ∧ (ringOf s w.ring.port w.ring.idx).chain = none ∧ bit w.packet.flags 0 = true ∧ w.rule.chainable = true ∧ w.packet.payloadLen.toNat % 64 = 0 ∧ judge s w.ring w.rule w.packet = none ∧ i ≠ .dataPut w.ring w.packet :=
  ⟨.planLoad ring1 (sealed 0x40 chainPacket), ((packetRow (.planLoad ring1 (sealed 0x40 chainPacket))).getD (hostRow ring1 devInfoRule pkt devInfoBody)), put ring1 0x40 chainPacket (live), rfl, by decide +kernel⟩

theorem witness_PacketsStopAndChain_5 : ∃ (i : Instr) (w : HostRow) (s : State) (c : Chain), packetRow i = some w ∧ Intact s w ∧ (ringOf s w.ring.port w.ring.idx).chain = some c ∧ continuesChain (ringOf s w.ring.port w.ring.idx) (headerBytes w.rule.opcode w.packet) = true ∧ reservedClear w.rule w.packet = true ∧ c.failed = none ∧ bit w.packet.flags 0 = false ∧ i ≠ .dataPut w.ring w.packet :=
  ⟨.planLoad ring1 (sealed 0x40 { pkt with payload := zeros 64 }), ((packetRow (.planLoad ring1 (sealed 0x40 { pkt with payload := zeros 64 }))).getD (hostRow ring1 devInfoRule pkt devInfoBody)), put ring1 0x40 { pkt with payload := zeros 64 } (chainState), chained1, rfl, by decide +kernel⟩

theorem witness_PacketsStopAndChain_6 : ∃ (i : Instr) (w : HostRow) (s : State) (c : Chain) (x : State) (st : Status), packetRow i = some w ∧ Intact s w ∧ (ringOf s w.ring.port w.ring.idx).chain = some c ∧ continuesChain (ringOf s w.ring.port w.ring.idx) (headerBytes w.rule.opcode w.packet) = false ∧ 
    x = complete (refOf w.ring c) { replyOf .badPacket with count0 := if c.opcode = 0x0030 then c.taken else 0 }
      (onRingOf w.ring (fun y => { y with chain := none }) s) ∧ mayStart (ringOf x w.ring.port w.ring.idx) (headerBytes w.rule.opcode w.packet) = true ∧ bit w.packet.flags 0 = false ∧ judge x w.ring w.rule w.packet = some st :=
  ⟨.devInfo ring1 (sealed 0x01 { pkt with tag := 0xFFFFFFFF }), ((packetRow (.devInfo ring1 (sealed 0x01 { pkt with tag := 0xFFFFFFFF }))).getD (hostRow ring1 devInfoRule pkt devInfoBody)), put ring1 0x01 { pkt with tag := 0xFFFFFFFF } (chainState), chained1, _, .badPacket, rfl, by decide +kernel, by decide +kernel, by decide +kernel, rfl, by decide +kernel⟩

theorem witness_PacketsStopAndChain_6b : ∃ (i : Instr) (w : HostRow) (s : State) (c : Chain) (x : State), packetRow i = some w ∧ Intact s w ∧ (ringOf s w.ring.port w.ring.idx).chain = some c ∧ continuesChain (ringOf s w.ring.port w.ring.idx) (headerBytes w.rule.opcode w.packet) = false ∧ 
    x = complete (refOf w.ring c) { replyOf .badPacket with count0 := if c.opcode = 0x0030 then c.taken else 0 }
      (onRingOf w.ring (fun y => { y with chain := none }) s) ∧ mayStart (ringOf x w.ring.port w.ring.idx) (headerBytes w.rule.opcode w.packet) = false :=
  ⟨.devInfo ring1 (sealed 0x01 { pkt with tag := 8, flags := 2 }), ((packetRow (.devInfo ring1 (sealed 0x01 { pkt with tag := 8, flags := 2 }))).getD (hostRow ring1 devInfoRule pkt devInfoBody)), put ring1 0x01 { pkt with tag := 8, flags := 2 } (onRingOf ring1 (fun x => { x with outstanding := runRef :: x.outstanding }) chainState), chained1, _, rfl, by decide +kernel, by decide +kernel, by decide +kernel, rfl, by decide +kernel⟩

end Sys2Proof.Tests
end

section
/-!
PROOFS. What taking a packet does when a fault is met (R81, R92, R103), and how a result is cut into completions (R98).
-/

namespace Sys2Proof.Machine

/-! ## Results cut into completions (R98) -/

/-- The pieces are the byte string, in order. -/
theorem cut_flatten (n fuel : Nat) (bs : List Byte) : (cut n fuel bs).flatten = bs := by
  induction fuel generalizing bs with
  | zero => simp [cut]
  | succ fuel ih =>
    by_cases h : bs.length ≤ n
    · simp [cut, h]
    · simp [cut, h, ih]

theorem cut_ne_nil (n fuel : Nat) (bs : List Byte) : cut n fuel bs ≠ [] := by
  cases fuel with
  | zero => simp [cut]
  | succ fuel => by_cases h : bs.length ≤ n <;> simp [cut, h]

/-- No piece is longer than `n`, once there are pieces enough for the whole. -/
theorem cut_length_le {n fuel : Nat} {bs x : List Byte} (hf : bs.length ≤ n * (fuel + 1)) (hx : x ∈ cut n fuel bs) :
    x.length ≤ n := by
  induction fuel generalizing bs with
  | zero =>
    obtain rfl : x = bs := by simpa [cut] using hx
    simpa using hf
  | succ fuel ih =>
    by_cases h : bs.length ≤ n
    · obtain rfl : x = bs := by simpa [cut, h] using hx
      exact h
    · rw [cut, if_neg h, List.mem_cons] at hx
      rcases hx with rfl | hx
      · exact List.length_take_le n bs
      · refine ih ?_ hx
        rw [Nat.mul_succ] at hf
        simp only [List.length_drop]
        omega

/-- The number of pieces that `splitReply` allows is enough. -/
theorem le_mul_ceilDiv (m : Nat) {n : Nat} (hn : 0 < n) : m ≤ n * ceilDiv m n := by
  have h := Nat.lt_mul_div_succ (m + n - 1) hn
  rw [ceilDiv]
  rw [Nat.mul_succ] at h
  omega

/-- The payloads of a split reply are the pieces of its payload. -/
theorem splitReply_payloads (n : Nat) (offsets : Bool) (r : Reply) :
    (splitReply n offsets r).map (·.payload) = cut n (ceilDiv r.payload.length (max n 1)) r.payload := by
  simp [splitReply, List.map_map, Function.comp_def]

theorem splitReply_ne_nil (n : Nat) (offsets : Bool) (r : Reply) : splitReply n offsets r ≠ [] := by
  simp [splitReply, cut_ne_nil]

theorem splitReply_status {n : Nat} {offsets : Bool} {r x : Reply} (hx : x ∈ splitReply n offsets r) : x.status = r.status := by
  obtain ⟨_, _, rfl⟩ := List.mem_map.mp hx
  rfl

/-- R98: no payload of a split reply is longer than `n`. -/
theorem splitReply_length_le {n : Nat} {offsets : Bool} {r x : Reply} (hn : 0 < n) (hx : x ∈ splitReply n offsets r) :
    x.payload.length ≤ n := by
  have hmem := List.mem_map_of_mem (f := (·.payload)) hx
  rw [splitReply_payloads, Nat.max_eq_left hn] at hmem
  refine cut_length_le ?_ hmem
  have := le_mul_ceilDiv r.payload.length hn
  rw [Nat.mul_succ]
  omega

/-- The completions that `postReplies` posts, in order. -/
def completionsOf (c : CmdRef) (moreFollow : Bool) : List Reply → List Completion
  | [] => []
  | r :: rs => completionOf c (moreFollow || !rs.isEmpty) r :: completionsOf c moreFollow rs

/-- `postReplies` posts the completions of `completionsOf` one after the other, all at the same time. -/
theorem postReplies_eq_foldl (c : CmdRef) (moreFollow : Bool) (rs : List Reply) (s : State) :
    postReplies c moreFollow rs s =
      (completionsOf c moreFollow rs).foldl (fun x k => onPort c.port (postCompletion s.time c.ring k) x) s := by
  induction rs generalizing s with
  | nil => rfl
  | cons r rs ih => simp [postReplies, completionsOf, ih]

theorem completionsOf_payloads (c : CmdRef) (moreFollow : Bool) (rs : List Reply) :
    (completionsOf c moreFollow rs).map (·.payload) = rs.map (·.payload) := by
  induction rs with
  | nil => rfl
  | cons r rs ih => simp [completionsOf, completionOf, ih]

/-- Each completion carries a reply under some setting of MORE. -/
theorem exists_of_mem_completionsOf {c : CmdRef} {moreFollow : Bool} {rs : List Reply} {k : Completion}
    (hk : k ∈ completionsOf c moreFollow rs) : ∃ r ∈ rs, ∃ more, k = completionOf c more r := by
  induction rs with
  | nil => simp [completionsOf] at hk
  | cons r rs ih =>
    rcases List.mem_cons.mp hk with rfl | hk
    · exact ⟨r, List.mem_cons_self, _, rfl⟩
    · obtain ⟨x, hx, h⟩ := ih hk
      exact ⟨x, List.mem_cons_of_mem r hx, h⟩

/-- R98: MORE stands on every completion but the last. -/
theorem completionsOf_more (c : CmdRef) {rs : List Reply} (hrs : rs ≠ []) :
    (completionsOf c false rs).map (·.more) = List.replicate (rs.length - 1) true ++ [false] := by
  induction rs with
  | nil => exact absurd rfl hrs
  | cons r rs ih =>
    cases rs with
    | nil => rfl
    | cons r' rs => simpa [completionsOf, completionOf, List.replicate_succ] using ih (by simp)

/-- R98: a completion ring of more than 64 bytes leaves room for a payload. -/
theorem maxPayload_pos {r : Ring} {q : CompletionRing} (hq : r.cq = some q) (hsize : 6 < q.log2Size) : 0 < maxPayload r := by
  have : 2 ^ 6 ≤ 2 ^ (q.log2Size - 1) := Nat.pow_le_pow_right (by decide) (by omega)
  simp only [maxPayload, hq, Option.map_some, Option.getD_some]
  omega

/-- Settles O58: the completions carry the pieces of the split reply, in order. -/
theorem longResultsAreSplit : Obligations.LongResultsAreSplit := by
  unfold Obligations.LongResultsAreSplit
  intro c reply s q hq hsize
  have hpos := maxPayload_pos hq hsize
  have hmax : maxPayload (ringOf s c.port c.ring) = min 4194272 (2 ^ (q.log2Size - 1) - 32) := by simp [maxPayload, hq]
  have hpay := completionsOf_payloads c false (splitReply (maxPayload (ringOf s c.port c.ring)) false reply)
  refine ⟨_, postReplies_eq_foldl c false _ s, ?_, ?_, ?_⟩
  · rw [hpay, splitReply_payloads, cut_flatten]
  · intro k hk
    obtain ⟨x, hx, more, rfl⟩ := exists_of_mem_completionsOf hk
    have hlen : x.payload.length ≤ min 4194272 (2 ^ (q.log2Size - 1) - 32) := hmax ▸ splitReply_length_le hpos hx
    exact ⟨hlen.trans (min_le_left _ _), hlen.trans (min_le_right _ _), rfl, rfl, splitReply_status hx⟩
  · rw [completionsOf_more c (splitReply_ne_nil _ _ _)]
    have hlen : (completionsOf c false (splitReply (maxPayload (ringOf s c.port c.ring)) false reply)).length =
        (splitReply (maxPayload (ringOf s c.port c.ring)) false reply).length := by simpa using congrArg List.length hpay
    rw [hlen]

/-! ## Judging in three parts (R92) -/

/-- The faults of a packet's form: what it is, what its fields name, and whether its session is closing. -/
def formFault (s : State) (r : RingId) (rule : CommandRule) (p : Packet) : Option Status :=
  if !rule.known ∨ (s.boot.phase = .recovery ∧ !rule.inRecovery) then some .unsupported
  else if !reservedClear rule p then some .badPacket
  else if p.tag = 0xFFFFFFFF ∨ (ringOf s r.port r.idx).outstanding.any (fun o => o.tag = p.tag) then some .badPacket
  else if !sessionBound s r p then some .badPacket
  else if !handleNames s rule.handle p then some .access
  else if bit p.flags 0 ∧ !rule.chainable then some .badPacket
  else if rule.opcode ≠ 0x0011 ∧ ((sget s.sessions p.session.toNat).map (fun ss => ss.closing.isSome)).getD false then
    some .cancelled
  else none

/-- R81, R103: the ring or the twin's state does not allow the command. -/
def rightsFault (s : State) (r : RingId) (rule : CommandRule) : Option Status :=
  if rule.adminOnly ∧ r.idx ≠ 0 then some .access
  else if isFenced s ∧ !rule.whenFenced then some .fenced
  else none

/-- R79, R469: the command needs a session, or cannot run in SIMMER. -/
def useFault (s : State) (rule : CommandRule) (p : Packet) : Option Status :=
  if rule.needsSession ∧ p.session = 0xFFFF then some .access
  else if s.power.state = .simmer ∧ rule.busyInSimmer then some .busy
  else none

/-- A fault that is met stands before those that come after. -/
theorem ite_some_or {c : Prop} [Decidable c] (st : Status) (x y : Option Status) :
    (if c then some st else x).or y = if c then some st else x.or y := by
  split <;> rfl

/-- R92: the form comes first, then the rights, then the use. -/
theorem judge_eq_or (s : State) (r : RingId) (rule : CommandRule) (p : Packet) :
    judge s r rule p = (formFault s r rule p).or ((rightsFault s r rule).or (useFault s rule p)) := by
  simp only [judge, formFault, rightsFault, useFault, ite_some_or, Option.none_or]

/-- A packet is accepted when none of the three parts finds a fault. -/
theorem judge_eq_none_iff {s : State} {r : RingId} {rule : CommandRule} {p : Packet} :
    judge s r rule p = none ↔ formFault s r rule p = none ∧ rightsFault s r rule = none ∧ useFault s rule p = none := by
  simp only [judge_eq_or, Option.or_eq_none_iff]

/-- What the command table says of a command's rights and uses has no part in the faults of its form. -/
theorem formFault_with_rights (s : State) (r : RingId) (rule : CommandRule) (p : Packet)
    (admin fenced session simmer : Bool) :
    formFault s r { rule with adminOnly := admin, whenFenced := fenced, needsSession := session, busyInSimmer := simmer } p =
      formFault s r rule p := rfl

/-- A list of faults with one more in front: the first that is met. -/
theorem firstFault_cons (b : Bool) (st : Status) (l : List (Bool × Status)) :
    (((b, st) :: l).find? (·.1)).map (·.2) = if b then some st else (l.find? (·.1)).map (·.2) := by
  cases b <;> rfl

/-- The faults that a known command of one packet can meet, in the order of R92, each with the status it gives. -/
def packetFaults (s : State) (r : RingId) (rule : CommandRule) (p : Packet) : List (Bool × Status) :=
  [(decide (s.boot.phase = .recovery) && !rule.inRecovery, .unsupported),
    (!reservedClear rule p, .badPacket),
    (decide (p.tag = 0xFFFFFFFF) || (ringOf s r.port r.idx).outstanding.any (fun o => o.tag = p.tag), .badPacket),
    (!sessionBound s r p, .badPacket),
    (!handleNames s rule.handle p, .access),
    (decide (rule.opcode ≠ 0x0011) && (sget s.sessions p.session.toNat).any (fun ss => ss.closing.isSome), .cancelled),
    (rule.adminOnly && decide (r.idx ≠ 0), .access),
    (isFenced s && !rule.whenFenced, .fenced)]

/-- The first of them is what judging finds in the packet's form and rights. -/
theorem firstFault_eq_or {s : State} {r : RingId} {rule : CommandRule} {p : Packet} (hk : rule.known = true)
    (hf : bit p.flags 0 = false) :
    ((packetFaults s r rule p).find? (·.1)).map (·.2) = (formFault s r rule p).or (rightsFault s r rule) := by
  have hany : ((sget s.sessions p.session.toNat).map (fun ss => ss.closing.isSome)).getD false =
      (sget s.sessions p.session.toNat).any (fun ss => ss.closing.isSome) := by
    cases sget s.sessions p.session.toNat <;> rfl
  simp only [packetFaults, firstFault_cons, formFault, rightsFault, ite_some_or, Option.none_or, hk, hf, hany]
  simp

/-! ## What the table says of each command (R103, R105) -/

/-- A row's command is known, is marked A when R105 lists it as such, and is accepted while FENCED when R103 lists it. -/
theorem packetRow_rule {i : Instr} {w : HostRow} (h : packetRow i = some w) :
    w.rule.known = true ∧ w.rule.adminOnly = decide (w.rule.opcode ∈ adminOpcodes) ∧
      w.rule.whenFenced = decide (w.rule.opcode ∈ fencedOpcodes) := by
  cases i <;> simp only [packetRow, Option.some.injEq, reduceCtorEq] at h <;> subst h <;> exact ⟨rfl, rfl, rfl⟩

/-! ## A packet that fails (R81, R92) -/

/-- A fresh packet of one command that is judged faulty completes with that status, and the ring carries on. -/
theorem takePacket_refused {s : State} {r : RingId} {rule : CommandRule} {p : Packet} {st : Status}
    (gather : Packet → Chain → State → State × Chain) (body : CmdRef → Chain → State → State)
    (hs : headerStop (ringOf s r.port r.idx) (headerBytes rule.opcode p) = none)
    (hq : r.idx = 0 → (ringOf s r.port 0).cq ≠ none) (hc : (ringOf s r.port r.idx).chain = none)
    (hf : bit p.flags 0 = false) (hj : judge s r rule p = some st) :
    takePacket r rule gather body p s = answeredBy s r rule p (replyOf st) := by
  have hq' : ¬ (r.idx = 0 ∧ (ringOf s r.port r.idx).cq = none) := fun ⟨h0, hnone⟩ => hq h0 (by simpa [h0] using hnone)
  have hcont : continuesChain (ringOf s r.port r.idx) (headerBytes rule.opcode p) = false := by simp [continuesChain, hc]
  simp only [takePacket, hs, hq', hcont, abandonChain_none s r hc, hc]
  simp [consumePacket, hj, hf, finishChain, startChain, answeredBy, refFor, takenBy, refOf, replyOf]

/-- What the row of such a packet does. -/
theorem exec_refused {i : Instr} {w : HostRow} {s : State} {st : Status} (hi : packetRow i = some w) (hin : Intact s w)
    (hc : (ringOf s w.ring.port w.ring.idx).chain = none) (hf : bit w.packet.flags 0 = false)
    (hj : judge s w.ring w.rule w.packet = some st) :
    exec i s = .next (answeredBy s w.ring w.rule w.packet (replyOf st)) := by
  obtain ⟨hhead, hstop, hcq⟩ := hin
  rw [exec_packet hi, if_pos hhead, takePacket_refused w.gather w.body hstop hcq hc hf hj]

/-- A well-formed packet meets the faults of its rights first. -/
theorem judge_of_rightsFault {s : State} {r : RingId} {rule : CommandRule} {p : Packet} {st : Status}
    (hform : formFault s r rule p = none) (h : rightsFault s r rule = some st) : judge s r rule p = some st := by
  simp [judge_eq_or, hform, h]

/-- R81: an A command on a session ring. -/
theorem rightsFault_admin (s : State) {r : RingId} {rule : CommandRule} (ha : rule.adminOnly = true) (hr : r.idx ≠ 0) :
    rightsFault s r rule = some .access := by
  simp [rightsFault, ha, hr]

/-- Where the rights find no fault, an A command stands on the admin ring. -/
theorem adminRing_of_rightsFault_none {s : State} {r : RingId} {rule : CommandRule} (h : rightsFault s r rule = none)
    (ha : rule.adminOnly = true) : r.idx = 0 := by
  by_contra hr
  rw [rightsFault_admin s ha hr] at h
  cases h

/-- R103: a command that a FENCED module does not accept, on a ring that it may use. -/
theorem rightsFault_fenced {s : State} {r : RingId} {rule : CommandRule} (hs : isFenced s = true)
    (hw : rule.whenFenced = false) (hr : rule.adminOnly = true → r.idx = 0) : rightsFault s r rule = some .fenced := by
  rw [rightsFault, if_neg (fun h => h.2 (hr h.1))]
  simp [hs, hw]

/-- Only the check of R103 gives FENCED, so a command accepted while FENCED never completes with it. -/
theorem judge_ne_fenced (s : State) (r : RingId) {rule : CommandRule} (p : Packet) (hw : rule.whenFenced = true) :
    judge s r rule p ≠ some .fenced := by
  have hform : formFault s r rule p ≠ some .fenced := by
    unfold formFault
    repeat' split
    all_goals simp
  have hrights : rightsFault s r rule ≠ some .fenced := by
    simp [rightsFault, hw]
  have huse : useFault s rule p ≠ some .fenced := by
    unfold useFault
    repeat' split
    all_goals simp
  simp [judge_eq_or, Option.or_eq_some_iff, hform, hrights, huse]

/-- Settles O59: judging finds the faults of the form, then those of the rights, and a packet with a fault is answered at once. -/
theorem packetsAreJudged : Obligations.PacketsAreJudged := by
  unfold Obligations.PacketsAreJudged
  refine ⟨?firstFault, ?admin, ?notAdmin, ?fenced, ?notFenced⟩
  case firstFault =>
    rintro i w s _ _ st hi rfl rfl hin hc hf hfirst
    obtain ⟨hknown, -, -⟩ := packetRow_rule hi
    have hfault : (formFault s w.ring w.rule w.packet).or (rightsFault s w.ring w.rule) = some st :=
      (firstFault_eq_or hknown hf).symm.trans hfirst
    refine exec_refused hi hin hc hf ?_
    rw [judge_eq_or, ← Option.or_assoc, hfault, Option.some_or]
  case admin =>
    intro i w s hi hin hc hf hop hr hj
    obtain ⟨-, hadmin, -⟩ := packetRow_rule hi
    obtain ⟨hform, -, -⟩ := judge_eq_none_iff.mp hj
    rw [formFault_with_rights] at hform
    exact exec_refused hi hin hc hf (judge_of_rightsFault hform (rightsFault_admin s (by simp [hadmin, hop]) hr))
  case notAdmin =>
    intro i w hi hop
    obtain ⟨-, hadmin, -⟩ := packetRow_rule hi
    simp [hadmin, hop]
  case fenced =>
    intro i w s hi hin hc hf hs hop hj
    obtain ⟨-, -, hfenced⟩ := packetRow_rule hi
    obtain ⟨hform, hrights, -⟩ := judge_eq_none_iff.mp hj
    rw [formFault_with_rights] at hform
    have hring := adminRing_of_rightsFault_none hrights
    exact exec_refused hi hin hc hf (judge_of_rightsFault hform (rightsFault_fenced hs (by simp [hfenced, hop]) hring))
  case notFenced =>
    intro i w s hi hop
    obtain ⟨-, -, hfenced⟩ := packetRow_rule hi
    exact judge_ne_fenced s w.ring w.packet (by simp [hfenced, hop])

end Sys2Proof.Machine
end

section
/-!
PROOFS. How many messages may still be delivered from the receiving flows (R408, R410): the measure by which the delivery of what waits
comes to an end.
-/

namespace Sys2Proof.Machine

/-- What tells a flow from others. -/
def flowKey (f : FlowIn) : Nat × Nat × BitVec 32 × Nat := (f.src, f.flow, f.step, f.op)

theorem sameFlow_iff {g f : FlowIn} : sameFlow g f = true ↔ flowKey f = flowKey g := by
  simp only [sameFlow, flowKey, decide_eq_true_eq, Prod.mk.injEq]
  rw [eq_comm, @eq_comm _ g.flow, @eq_comm _ g.step, @eq_comm _ g.op]

/-- One cell for each message that waits in a flow. -/
def flowCells : List FlowIn → Finset ((Nat × Nat × BitVec 32 × Nat) × Nat)
  | [] => ∅
  | f :: l => (Finset.range f.early.length).image (fun i => (flowKey f, i)) ∪ flowCells l

/-- The messages that may still be delivered; flows of the same key stand for one. -/
def pendingFlows (l : List FlowIn) : Nat := (flowCells l).card

theorem mem_flowCells {l : List FlowIn} {x : (Nat × Nat × BitVec 32 × Nat) × Nat} :
    x ∈ flowCells l ↔ ∃ f ∈ l, flowKey f = x.1 ∧ x.2 < f.early.length := by
  induction l with
  | nil => simp [flowCells]
  | cons f l ih =>
    rw [flowCells, Finset.mem_union, ih, Finset.mem_image, List.exists_mem_cons_iff]
    refine or_congr_left ⟨?_, ?_⟩
    · rintro ⟨i, hi, rfl⟩
      exact ⟨rfl, Finset.mem_range.mp hi⟩
    · rintro ⟨hkey, hlt⟩
      exact ⟨x.2, Finset.mem_range.mpr hlt, Prod.ext hkey rfl⟩

theorem pendingFlows_filter_le (l : List FlowIn) (p : FlowIn → Bool) : pendingFlows (l.filter p) ≤ pendingFlows l := by
  refine Finset.card_le_card (fun x hx => ?_)
  obtain ⟨f, hf, hkey, hlt⟩ := mem_flowCells.mp hx
  exact mem_flowCells.mpr ⟨f, (List.mem_filter.mp hf).1, hkey, hlt⟩

/-- No more may be delivered than waits. -/
theorem pendingFlows_le_sum (l : List FlowIn) : pendingFlows l ≤ (l.map (fun f => f.early.length)).sum := by
  induction l with
  | nil => exact le_rfl
  | cons f l ih =>
    rw [List.map_cons, List.sum_cons]
    refine (Finset.card_union_le _ _).trans (Nat.add_le_add ?_ ih)
    exact Finset.card_image_le.trans (Finset.card_range _).le

theorem early_eq_nil_of_pendingFlows {l : List FlowIn} (h : pendingFlows l = 0) {f : FlowIn} (hf : f ∈ l) : f.early = [] := by
  by_contra hne
  have hcell : (flowKey f, 0) ∈ flowCells l := mem_flowCells.mpr ⟨f, hf, rfl, List.length_pos_iff.mpr hne⟩
  rw [Finset.card_eq_zero.mp h] at hcell
  exact Finset.notMem_empty _ hcell

/-- A flow put in the place of all of its key. -/
def replaceFlow (g : FlowIn) (l : List FlowIn) : List FlowIn := l.map (fun f => if sameFlow g f then g else f)

/-- A flow that is shorter than one in whose place it comes leaves less to deliver. -/
theorem pendingFlows_replace_lt {g f : FlowIn} {l : List FlowIn} (hf : f ∈ l) (hkey : flowKey f = flowKey g)
    (hlt : g.early.length < f.early.length) : pendingFlows (replaceFlow g l) < pendingFlows l := by
  have hsub : flowCells (replaceFlow g l) ⊆ flowCells l := by
    intro x hx
    obtain ⟨y, hy, hykey, hylt⟩ := mem_flowCells.mp hx
    obtain ⟨z, hz, rfl⟩ := List.mem_map.mp hy
    by_cases hsame : sameFlow g z = true
    · rw [if_pos hsame] at hykey hylt
      exact mem_flowCells.mpr ⟨f, hf, hkey.trans hykey, hylt.trans hlt⟩
    · rw [if_neg hsame] at hykey hylt
      exact mem_flowCells.mpr ⟨z, hz, hykey, hylt⟩
  refine Finset.card_lt_card (Finset.ssubset_iff_of_subset hsub |>.mpr
    ⟨(flowKey g, g.early.length), mem_flowCells.mpr ⟨f, hf, hkey, hlt⟩, fun hcell => ?_⟩)
  obtain ⟨y, hy, hykey, hylt⟩ := mem_flowCells.mp hcell
  obtain ⟨z, hz, rfl⟩ := List.mem_map.mp hy
  by_cases hsame : sameFlow g z = true
  · rw [if_pos hsame] at hylt
    exact lt_irrefl _ hylt
  · rw [if_neg hsame] at hykey
    exact hsame (sameFlow_iff.mpr hykey)

end Sys2Proof.Machine
end

section
/-!
PROOFS. Every function of the model keeps the canonical form of the memories, and up to the arrival of messages none brings a message
into a receiving flow: one lemma a function, in the order of the model's files. Both are asked of a state at once (`Kept`), as each
lemma follows the same branches. Only a few functions write a memory (`moduleWrite`, `zeroPages`, `putStaging`, `clearPools`,
`poolWrite`, `storeWrite`) or empty one, and only `closeFlows`, `dropFabric` and what puts a message into its flow change the flows;
each other lemma follows the branches of its function to the lemmas of the functions that it calls. This file: the shared
operations, up to power, errors and ageing.
-/

namespace Sys2Proof.Machine

-- One after the other: many threads at once pass the limit on memory.
set_option Elab.async false

/-- What is asked of a state: whether its memories have their canonical form, and how many messages of receiving flows may still be
delivered. -/
structure KeptBound where
  canonical : Prop
  pending : Option Nat

/-- A memory has its canonical form, where that is asked. -/
def CanonicalIf (kb : KeptBound) (m : Memory) : Prop := kb.canonical → memWf m

theorem canonicalIf_memWrite {kb : KeptBound} {m : Memory} (a : Nat) (bs : List Byte) (h : CanonicalIf kb m) :
    CanonicalIf kb (memWrite m a bs) := fun hc => memWf_memWrite a bs (h hc)

theorem canonicalIf_memClear {kb : KeptBound} {m : Memory} (a n : Nat) (h : CanonicalIf kb m) : CanonicalIf kb (memClear m a n) :=
  fun hc => memWf_memClear a n (h hc)

theorem canonicalIf_filter {kb : KeptBound} {m : Memory} (f : Host.Cell → Bool) (h : CanonicalIf kb m) : CanonicalIf kb (m.filter f) :=
  fun hc => memWf_filter f (h hc)

theorem canonicalIf_nil {kb : KeptBound} : CanonicalIf kb [] := fun _ => memWf_nil

/-- No more messages may still be delivered than is asked. -/
def FlowsWithin (kb : KeptBound) (l : List FlowIn) : Prop := ∀ n, kb.pending = some n → pendingFlows l ≤ n

theorem flowsWithin_filter {kb : KeptBound} {l : List FlowIn} (p : FlowIn → Bool) (h : FlowsWithin kb l) : FlowsWithin kb (l.filter p) :=
  fun n hn => (pendingFlows_filter_le l p).trans (h n hn)

theorem flowsWithin_nil {kb : KeptBound} : FlowsWithin kb [] := fun n _ => Nat.zero_le n

/-- The memories of a state, and its receiving flows, keep to what is asked. -/
def KeptParts (kb : KeptBound) (near far staging pools store : Memory) (flows : List FlowIn) : Prop :=
  CanonicalIf kb near ∧ CanonicalIf kb far ∧ CanonicalIf kb staging ∧ CanonicalIf kb pools ∧ CanonicalIf kb store ∧
    FlowsWithin kb flows

/-- A state keeps to what is asked: its memories as in `MemoriesOk`, and its receiving flows. -/
def Kept (kb : KeptBound) (s : State) : Prop := KeptParts kb s.near s.far s.staging s.pools s.aonStore s.fabric.flowsIn

theorem kept_iff {kb : KeptBound} (s : State) :
    Kept kb s ↔ KeptParts kb s.near s.far s.staging s.pools s.aonStore s.fabric.flowsIn := Iff.rfl

/-- The canonical form of the memories alone. -/
abbrev anyFlows : KeptBound := { canonical := True, pending := none }

abbrev MemOk (s : State) : Prop := Kept anyFlows s

theorem flowsWithin_anyFlows (l : List FlowIn) : FlowsWithin anyFlows l := fun _ hn => by cases hn

theorem memOk_iff_memoriesOk {s : State} : MemOk s ↔ MemoriesOk s :=
  ⟨fun ⟨hnear, hfar, hstaging, hpools, hstore, _⟩ => ⟨hnear trivial, hfar trivial, hstaging trivial, hpools trivial, hstore trivial⟩,
    fun ⟨hnear, hfar, hstaging, hpools, hstore⟩ =>
      ⟨fun _ => hnear, fun _ => hfar, fun _ => hstaging, fun _ => hpools, fun _ => hstore, flowsWithin_anyFlows _⟩⟩

section
variable {kb : KeptBound}

theorem keptParts_emptyNear {s : State} (hs : Kept kb s) :
    KeptParts kb [] s.far s.staging s.pools s.aonStore s.fabric.flowsIn := by
  obtain ⟨-, hfar, hstaging, hpools, hstore, hflows⟩ := hs
  exact ⟨canonicalIf_nil, hfar, hstaging, hpools, hstore, hflows⟩

theorem foldl_memOk {α : Type} {f : State → α → State} {l : List α} {s : State} (hs : Kept kb s)
    (hf : ∀ s a, Kept kb s → Kept kb (f s a)) : Kept kb (l.foldl f s) := by
  induction l generalizing s with
  | nil => exact hs
  | cons a l ih => exact ih (hf s a hs)

theorem foldl_ctx_memOk {α : Type} {f : Ctx → α → Ctx} {l : List α} {c : Ctx} (hs : Kept kb c.s)
    (hf : ∀ c a, Kept kb c.s → Kept kb (f c a).s) : Kept kb (l.foldl f c).s := by
  induction l generalizing c with
  | nil => exact hs
  | cons a l ih => exact ih (hf c a hs)

/-- Whatever context an operator's end leaves, its state's memories have their canonical form. -/
def EndOk (kb : KeptBound) : OpEnd → Prop
  | .done c => Kept kb c.s
  | .failWith c _ => Kept kb c.s
  | .suspend c => Kept kb c.s
  | .hold c => Kept kb c.s
  | .detected c _ => Kept kb c.s
  | .fail _ => True
  | .noInput => True

/-! ## Ops -/

theorem idleTick_memOk {s : State} (hs : Kept kb s) : Kept kb (idleTick s) := by
  unfold idleTick
  split <;> exact hs

theorem takeFresh_memOk {n : ℕ} {s : State} (hs : Kept kb s) : Kept kb (takeFresh n s) := hs

theorem onPort_memOk {p : ℕ} {f : Port → Port} {s : State} (hs : Kept kb s) : Kept kb (onPort p f s) := hs

theorem onPorts_memOk {f : Port → Port} {s : State} (hs : Kept kb s) : Kept kb (onPorts f s) := hs

theorem raiseAll_memOk {b : ℕ} {s : State} (hs : Kept kb s) : Kept kb (raiseAll b s) := by
  unfold raiseAll
  grind -linarith [onPorts_memOk]

theorem raiseUp_memOk {b : ℕ} {s : State} (hs : Kept kb s) : Kept kb (raiseUp b s) := by
  unfold raiseUp
  grind -linarith [onPorts_memOk]

theorem postReplies_memOk {c : CmdRef} {moreFollow : Bool} {a : List Reply} {a1 : State} (hs : Kept kb a1) :
    Kept kb (postReplies c moreFollow a a1) := by
  fun_induction postReplies <;> grind -linarith [onPort_memOk, _=_ kept_iff, foldl_memOk]

theorem complete_memOk {c : CmdRef} {r : Reply} {s : State} (hs : Kept kb s) : Kept kb (complete c r s) := by
  unfold complete
  grind -linarith [postReplies_memOk]

theorem completeData_memOk {c : CmdRef} {r : Reply} {s : State} (hs : Kept kb s) : Kept kb (completeData c r s) := by
  unfold completeData
  grind -linarith [postReplies_memOk]

theorem postEvent_memOk {code : EventCode} {unit d0 d1 : ℕ} {s : State} (hs : Kept kb s) :
    Kept kb (postEvent code unit d0 d1 s) := by
  unfold postEvent
  grind -linarith [onPorts_memOk]

theorem postTableEvent_memOk {sid unit d0 d1 : ℕ} {s : State} (hs : Kept kb s) : Kept kb (postTableEvent sid unit d0 d1 s) := by
  unfold postTableEvent
  grind -linarith [postEvent_memOk, onPort_memOk, _=_ kept_iff]

theorem moduleWrite_memOk {a : ℕ} {bs : List Byte} {s : State} (hs : Kept kb s) : Kept kb (moduleWrite a bs s) := by
  obtain ⟨hnear, hfar, hstaging, hpools, hstore, hflows⟩ := hs
  unfold moduleWrite
  repeat' split
  · exact ⟨canonicalIf_memWrite _ _ hnear, hfar, hstaging, hpools, hstore, hflows⟩
  · exact ⟨hnear, hfar, hstaging, hpools, hstore, hflows⟩
  · exact ⟨hnear, canonicalIf_memWrite _ _ hfar, hstaging, hpools, hstore, hflows⟩

theorem writePieces_memOk {a : List (ℕ × ℕ)} {a1 : List Byte} {a2 : State} (hs : Kept kb a2) : Kept kb (writePieces a a1 a2) := by
  fun_induction writePieces <;> grind -linarith [moduleWrite_memOk, _=_ kept_iff, foldl_memOk]

/-! ## Flags -/

theorem setAon_memOk {b : ℕ} {s : State} (hs : Kept kb s) : Kept kb (setAon b s) := hs

/-! ## Admit -/

theorem onRingOf_memOk {r : RingId} {f : Ring → Ring} {s : State} (hs : Kept kb s) : Kept kb (onRingOf r f s) := by
  unfold onRingOf
  grind -linarith [onPort_memOk]

theorem stopRing_memOk {r : RingId} {reason : ℕ} {s : State} (hs : Kept kb s) : Kept kb (stopRing r reason s) := by
  unfold stopRing
  grind -linarith [onRingOf_memOk, onPort_memOk, _=_ kept_iff]

theorem passPacket_memOk {r : RingId} {p : Packet} {s : State} (hs : Kept kb s) : Kept kb (passPacket r p s) := by
  unfold passPacket
  grind -linarith [onPort_memOk, _=_ kept_iff]

theorem abandonChain_memOk {r : RingId} {s : State} (hs : Kept kb s) : Kept kb (abandonChain r s) := by
  unfold abandonChain
  grind -linarith [complete_memOk, onRingOf_memOk, _=_ kept_iff]

theorem gatherPayload_memOk {p : Packet} {c : Chain} {s : State} (hs : Kept kb s) : Kept kb (gatherPayload p c s).1 := by
  unfold gatherPayload
  grind -linarith [_=_ kept_iff]

theorem finishChain_memOk {r : RingId} {body : CmdRef → Chain → State → State} {c : Chain} {s : State} (hs : ∀ a b s, Kept kb s →
    Kept kb (body a b s)) (hs1 : Kept kb s) :
    Kept kb (finishChain r body c s) := by
  unfold finishChain
  grind -linarith [complete_memOk, _=_ kept_iff]

theorem consumePacket_memOk {r : RingId} {rule : CommandRule} {gather : Packet → Chain → State → State × Chain} {body : CmdRef →
    Chain → State → State} {p : Packet} {going : Option Chain} {s : State} (hs : ∀ a b s, Kept kb s → Kept kb (gather a b s).1) (hs1
    : ∀ a b s, Kept kb s → Kept kb (body a b s)) (hs2 : Kept kb s) :
    Kept kb (consumePacket r rule gather body p going s) := by
  unfold consumePacket
  grind -linarith [passPacket_memOk, onRingOf_memOk, finishChain_memOk, _=_ kept_iff]

theorem takePacket_memOk {r : RingId} {rule : CommandRule} {gather : Packet → Chain → State → State × Chain} {body : CmdRef →
    Chain → State → State} {p : Packet} {s : State} (hs : ∀ a b s, Kept kb s → Kept kb (gather a b s).1) (hs1 : ∀ a b s, Kept kb s →
    Kept kb (body a b s)) (hs2 : Kept kb s) :
    Kept kb (takePacket r rule gather body p s) := by
  unfold takePacket
  grind -linarith [stopRing_memOk, consumePacket_memOk, abandonChain_memOk, _=_ kept_iff]

theorem hostCommand_memOk {r : RingId} {rule : CommandRule} {body : CmdRef → Chain → State → State} {p : Packet} {s : State} (hs
    : ∀ a b s, Kept kb s → Kept kb (body a b s)) (hs1 : Kept kb s) :
    Kept kb (hostCommand r rule body p s) := by
  unfold hostCommand
  grind -linarith [takePacket_memOk, gatherPayload_memOk]

/-! ## TableOps -/

theorem sessionWrite_memOk {sid va : ℕ} {bs : List Byte} {s : State} (hs : Kept kb s) : Kept kb (sessionWrite sid va bs s) := by
  unfold sessionWrite
  grind -linarith [writePieces_memOk, _=_ kept_iff]

theorem setDir_memOk {t : EmbTable} {k blk : ℕ} {f : DirEntry → DirEntry} {s : State} (hs : Kept kb s) :
    Kept kb (setDir t k blk f s) :=
  hs

theorem onTable_memOk {h : Word} {f : EmbTable → EmbTable} {s : State} (hs : Kept kb s) : Kept kb (onTable h f s) := hs

theorem tableMigrated_memOk {t : EmbTable} {k blk : ℕ} {demote wrote : Bool} {s : State} (hs : Kept kb s) :
    Kept kb (tableMigrated t k blk demote wrote s) := by
  unfold tableMigrated
  grind -linarith [postTableEvent_memOk]

theorem markSectors_memOk {sid va : ℕ} {l : List ℕ} {s : State} (hs : Kept kb s) : Kept kb (markSectors sid va l s) := hs

theorem copySession_memOk {sid from_ to_ len : ℕ} {s : State} (hs : Kept kb s) : Kept kb (copySession sid from_ to_ len s) := by
  unfold copySession
  grind -linarith [markSectors_memOk, sessionWrite_memOk]

theorem demoteBlock_memOk {h : Word} {k blk : ℕ} {s : State} (hs : Kept kb s) : Kept kb (demoteBlock h k blk s) := by
  unfold demoteBlock
  grind -linarith [copySession_memOk, setDir_memOk, onTable_memOk, tableMigrated_memOk, _=_ kept_iff]

theorem promoteBlock_memOk {h : Word} {k blk frame : ℕ} {s : State} (hs : Kept kb s) : Kept kb (promoteBlock h k blk frame s) := by
  unfold promoteBlock
  grind -linarith [copySession_memOk, setDir_memOk, tableMigrated_memOk, onTable_memOk, _=_ kept_iff]

theorem abortMigrations_memOk {h : Word} {step : ℕ} {test : Migration → Bool} {s : State} (hs : Kept kb s) :
    Kept kb (abortMigrations h step test s) := by
  unfold abortMigrations
  grind -linarith [setDir_memOk, onTable_memOk, _=_ kept_iff, foldl_memOk]

theorem startMigration_memOk {h : Word} {k blk frame : ℕ} {demote : Bool} {next : Option ℕ} {s : State} (hs : Kept kb s) :
    Kept kb (startMigration h k blk frame demote next s) := by
  unfold startMigration
  grind -linarith [onTable_memOk, setDir_memOk, _=_ kept_iff]

theorem startNext_memOk {h : Word} {m : Migration} {s : State} (hs : Kept kb s) : Kept kb (startNext h m s) := by
  unfold startNext
  grind -linarith [startMigration_memOk, _=_ kept_iff]

theorem finishMigration_memOk {h : Word} {m : Migration} {s : State} (hs : Kept kb s) : Kept kb (finishMigration h m s) := by
  unfold finishMigration
  grind -linarith [onTable_memOk, startNext_memOk, demoteBlock_memOk, promoteBlock_memOk, _=_ kept_iff]

theorem finishMigrations_memOk {h : Word} {k : ℕ} {s : State} (hs : Kept kb s) : Kept kb (finishMigrations h k s) := by
  unfold finishMigrations
  grind -linarith [finishMigration_memOk, _=_ kept_iff, foldl_memOk]

theorem settleSlot_memOk {h : Word} {k : ℕ} {s : State} (hs : Kept kb s) : Kept kb (settleSlot h k s) := by
  unfold settleSlot
  grind -linarith [demoteBlock_memOk, onTable_memOk, _=_ kept_iff, foldl_memOk]

theorem holdSlot_memOk {h : Word} {k : ℕ} {s : State} (hs : Kept kb s) : Kept kb (holdSlot h k s) := by
  unfold holdSlot
  grind -linarith [onTable_memOk, _=_ kept_iff]

theorem dropSlot_memOk {h : Word} {k : ℕ} {s : State} (hs : Kept kb s) : Kept kb (dropSlot h k s) := by
  unfold dropSlot
  grind -linarith [settleSlot_memOk, onTable_memOk, _=_ kept_iff]

/-! ## PlanOps -/

theorem onPlan_memOk {h : Word} {f : Plan → Plan} {s : State} (hs : Kept kb s) : Kept kb (onPlan h f s) := hs

theorem onRun_memOk {h : Word} {f : Run → Run} {s : State} (hs : Kept kb s) : Kept kb (onRun h f s) := by
  unfold onRun
  grind -linarith [onPlan_memOk, _=_ kept_iff]

theorem dropBound_memOk {p : Plan} {s : State} (hs : Kept kb s) : Kept kb (dropBound p s) := by
  unfold dropBound
  grind -linarith [dropSlot_memOk, foldl_memOk]

theorem carryMigrations_memOk {s : State} (hs : Kept kb s) : Kept kb (carryMigrations s) := by
  unfold carryMigrations
  grind -linarith [finishMigrations_memOk, foldl_memOk]

theorem freeContexts_memOk {h : Word} {s : State} (hs : Kept kb s) : Kept kb (freeContexts h s) := hs

theorem doLoad_memOk {first : ℕ} {s : State} {l : BasinLoad} (hs : Kept kb s) : Kept kb (doLoad first s l) := by
  unfold doLoad
  grind -linarith [complete_memOk, _=_ kept_iff]

theorem settleLoads_memOk {s : State} (hs : Kept kb s) : Kept kb (settleLoads s) := by
  unfold settleLoads
  grind -linarith [doLoad_memOk, _=_ kept_iff, foldl_memOk]

theorem applyOwnerLoad_memOk {l : OwnerLoad} {s : State} (hs : Kept kb s) : Kept kb (applyOwnerLoad l s) := hs

theorem settleOwners_memOk {s : State} (hs : Kept kb s) : Kept kb (settleOwners s) := by
  unfold settleOwners
  grind -linarith [applyOwnerLoad_memOk, _=_ kept_iff, foldl_memOk]

theorem deliverOldest_memOk {a : ℕ} {a1 : Word} {a2 : State} (hs : Kept kb a2) : Kept kb (deliverOldest a a1 a2) := by
  fun_induction deliverOldest <;> grind -linarith [postReplies_memOk, onRun_memOk, _=_ kept_iff, foldl_memOk]

theorem deliverAll_memOk {h : Word} {s : State} (hs : Kept kb s) : Kept kb (deliverAll h s) := by
  unfold deliverAll
  grind -linarith [deliverOldest_memOk, foldl_memOk]

theorem dropRun_memOk {h : Word} {s : State} (hs : Kept kb s) : Kept kb (dropRun h s) := by
  unfold dropRun
  grind -linarith [onPlan_memOk, _=_ kept_iff]

theorem endRun_memOk {h : Word} {st : Status} {s : State} (hs : Kept kb s) : Kept kb (endRun h st s) := by
  unfold endRun
  split
  · exact hs
  · next r _ =>
    have hdelivered : Kept kb (if st = .cancelled ∨ r.suspended.isSome then s else deliverAll h s) := by
      split
      · exact hs
      · exact deliverAll_memOk hs
    dsimp only
    split
    · exact foldl_memOk (takeFresh_memOk (complete_memOk (settleOwners_memOk (settleLoads_memOk (carryMigrations_memOk
        (dropRun_memOk (freeContexts_memOk (dropBound_memOk hdelivered)))))))) (fun _ _ hx => complete_memOk hx)
    · exact hdelivered

theorem leaveStep_memOk {h : Word} {s : State} (hs : Kept kb s) : Kept kb (leaveStep h s) := by
  unfold leaveStep
  grind -linarith [dropSlot_memOk, onPlan_memOk, _=_ kept_iff, foldl_memOk]

theorem finishRun_memOk {h : Word} {s : State} (hs : Kept kb s) : Kept kb (finishRun h s) := by
  unfold finishRun
  grind -linarith [leaveStep_memOk, endRun_memOk, _=_ kept_iff]

theorem cancelRun_memOk {h : Word} {by_ : Option CmdRef} {s : State} (hs : Kept kb s) : Kept kb (cancelRun h by_ s) := by
  unfold cancelRun
  grind -linarith [onRun_memOk, endRun_memOk, complete_memOk, _=_ kept_iff]

theorem suspendRun_memOk {h : Word} {reason : SuspendReason} {op : ℕ} {s : State} (hs : Kept kb s) :
    Kept kb (suspendRun h reason op s) := by
  unfold suspendRun
  grind -linarith [carryMigrations_memOk, takeFresh_memOk, complete_memOk, onRun_memOk, _=_ kept_iff]

theorem onStep_memOk {h : Word} {f : OpenStep → OpenStep} {s : State} (hs : Kept kb s) : Kept kb (onStep h f s) := by
  unfold onStep
  grind -linarith [onRun_memOk, _=_ kept_iff]

theorem countStale_memOk {h : Word} {n : ℕ} {s : State} (hs : Kept kb s) : Kept kb (countStale h n s) := by
  unfold countStale
  grind -linarith [onRun_memOk, _=_ kept_iff]

theorem detectStep_memOk {h : Word} {u : Option (BitVec 32)} {s : State} (hs : Kept kb s) : Kept kb (detectStep h u s) := by
  unfold detectStep
  grind -linarith [onRun_memOk, _=_ kept_iff]

theorem freePlan_memOk {h : Word} {s : State} (hs : Kept kb s) : Kept kb (freePlan h s) := by
  unfold freePlan
  grind -linarith [freeContexts_memOk, _=_ kept_iff]

/-! ## TwinOps -/

theorem sendTwin_memOk {link kind : ℕ} {payload : List Byte} {s : State} (hs : Kept kb s) :
    Kept kb (sendTwin link kind payload s) :=
  hs

theorem sendWindow_memOk {kind : ℕ} {w : TwinWindow} {a a1 : ℕ} {a2 : List Byte} {a3 : State} (hs : Kept kb a3) :
    Kept kb (sendWindow kind w a a1 a2 a3) := by
  fun_induction sendWindow <;> grind -linarith [sendTwin_memOk, _=_ kept_iff, foldl_memOk]

theorem sendMirror_memOk {sid va len : ℕ} {w : TwinWindow} {s : State} (hs : Kept kb s) : Kept kb (sendMirror sid va len w s) := by
  unfold sendMirror
  grind -linarith [sendWindow_memOk]

theorem mirrorRange_memOk {sid va len : ℕ} {s : State} (hs : Kept kb s) : Kept kb (mirrorRange sid va len s) := by
  unfold mirrorRange
  grind -linarith [sendMirror_memOk, _=_ kept_iff, foldl_memOk]

theorem storeSession_memOk {sid va : ℕ} {bs : List Byte} {s : State} (hs : Kept kb s) : Kept kb (storeSession sid va bs s) := by
  unfold storeSession
  grind -linarith [mirrorRange_memOk, sessionWrite_memOk]

theorem takeoverEvent_memOk {reason : ℕ} {s : State} (hs : Kept kb s) : Kept kb (takeoverEvent reason s) := by
  unfold takeoverEvent
  grind -linarith [postEvent_memOk]

theorem completeTwin_memOk {r : Reply} {s : State} (hs : Kept kb s) : Kept kb (completeTwin r s) := by
  unfold completeTwin
  grind -linarith [complete_memOk, _=_ kept_iff]

theorem poisonSector_memOk {sector : ℕ} {s : State} (hs : Kept kb s) : Kept kb (poisonSector sector s) := by
  unfold poisonSector
  split <;> exact hs

theorem startRefetch_memOk {w : TwinWindow} {va sector : ℕ} {s : State} (hs : Kept kb s) :
    Kept kb (startRefetch w va sector s) := by
  unfold startRefetch
  grind -linarith [sendTwin_memOk, _=_ kept_iff]

theorem dropRefetches_memOk {s : State} (hs : Kept kb s) : Kept kb (dropRefetches s) := by
  unfold dropRefetches
  grind -linarith [poisonSector_memOk, _=_ kept_iff, foldl_memOk]

theorem enterFenced_memOk {by_ : Option (BitVec 32)} {s : State} (hs : Kept kb s) : Kept kb (enterFenced by_ s) := by
  unfold enterFenced
  grind -linarith [completeTwin_memOk, dropRefetches_memOk, endRun_memOk, raiseAll_memOk, _=_ kept_iff, foldl_memOk]

/-! ## Taps -/

theorem foldStream_memOk {stream die unit sid va : ℕ} {bs : List Byte} {s : State} (hs : Kept kb s) :
    Kept kb (foldStream stream die unit sid va bs s) :=
  hs

theorem attachTap_memOk {sid : ℕ} {c : Chain} {k : ℕ} {s : State} (hs : Kept kb s) : Kept kb (attachTap sid c k s) := hs

theorem tapAttachBody_memOk {r : CmdRef} {c : Chain} {s : State} (hs : Kept kb s) : Kept kb (tapAttachBody r c s) := by
  unfold tapAttachBody
  grind -linarith [complete_memOk, attachTap_memOk, _=_ kept_iff]

theorem tapReadBody_memOk {r : CmdRef} {c : Chain} {s : State} (hs : Kept kb s) : Kept kb (tapReadBody r c s) := by
  unfold tapReadBody
  grind -linarith [complete_memOk, _=_ kept_iff]

theorem tapWriteBody_memOk {r : CmdRef} {c : Chain} {s : State} (hs : Kept kb s) : Kept kb (tapWriteBody r c s) := by
  unfold tapWriteBody
  grind -linarith [complete_memOk, _=_ kept_iff]

/-! ## Device -/

theorem devInfoBody_memOk {r : CmdRef} {x : Chain} {s : State} (hs : Kept kb s) : Kept kb (devInfoBody r x s) := by
  unfold devInfoBody
  grind -linarith [complete_memOk]

theorem devStatusBody_memOk {r : CmdRef} {x : Chain} {s : State} (hs : Kept kb s) : Kept kb (devStatusBody r x s) := by
  unfold devStatusBody
  grind -linarith [complete_memOk]

theorem installAdmin_memOk {r : RingId} {c : Chain} {s : State} (hs : Kept kb s) : Kept kb (installAdmin r c s) := by
  unfold installAdmin
  grind -linarith [onRingOf_memOk, _=_ kept_iff]

theorem adminSetupTake_memOk {r : RingId} {rule : CommandRule} {p : Packet} {s : State} (hs : Kept kb s) :
    Kept kb (adminSetupTake r rule p s) := by
  unfold adminSetupTake
  grind -linarith [stopRing_memOk, passPacket_memOk, installAdmin_memOk, onRingOf_memOk, complete_memOk, takePacket_memOk,
    gatherPayload_memOk, _=_ kept_iff]

theorem sessionOpenBody_memOk {r : CmdRef} {c : Chain} {s : State} (hs : Kept kb s) : Kept kb (sessionOpenBody r c s) := by
  unfold sessionOpenBody
  grind -linarith [complete_memOk, onPort_memOk, _=_ kept_iff, foldl_memOk]

theorem cancelChains_memOk {sid : ℕ} {s : State} (hs : Kept kb s) : Kept kb (cancelChains sid s) := by
  unfold cancelChains
  grind -linarith [complete_memOk, onPort_memOk, _=_ kept_iff, foldl_memOk]

theorem cancelOutstanding_memOk {ss : Session} {self : Option CmdRef} {s : State} (hs : Kept kb s) :
    Kept kb (cancelOutstanding ss self s) := by
  unfold cancelOutstanding
  grind -linarith [complete_memOk, foldl_memOk]

theorem freeSessionState_memOk {sid : ℕ} {s : State} (hs : Kept kb s) : Kept kb (freeSessionState sid s) := by
  unfold freeSessionState
  grind -linarith [freePlan_memOk, _=_ kept_iff, foldl_memOk]

theorem dropSession_memOk {sid : ℕ} {ss : Session} {s : State} (hs : Kept kb s) : Kept kb (dropSession sid ss s) := by
  unfold dropSession
  grind -linarith [onPort_memOk, _=_ kept_iff, foldl_memOk]

theorem markClosing_memOk {sid : ℕ} {r : Option CmdRef} {s : State} (hs : Kept kb s) : Kept kb (markClosing sid r s) := hs

theorem finishClose_memOk {sid : ℕ} {r : Option CmdRef} {s : State} (hs : Kept kb s) : Kept kb (finishClose sid r s) := by
  unfold finishClose
  grind -linarith [cancelOutstanding_memOk, markClosing_memOk, freeSessionState_memOk, complete_memOk, dropSession_memOk, _=_ kept_iff]

theorem beginClose_memOk {sid : ℕ} {r : Option CmdRef} {s : State} (hs : Kept kb s) : Kept kb (beginClose sid r s) := by
  unfold beginClose
  grind -linarith [cancelRun_memOk, cancelChains_memOk, markClosing_memOk, finishClose_memOk, foldl_memOk]

theorem resumeCloses_memOk {s : State} (hs : Kept kb s) : Kept kb (resumeCloses s) := by
  unfold resumeCloses
  grind -linarith [cancelRun_memOk, finishClose_memOk, _=_ kept_iff, foldl_memOk]

theorem sessionCloseBody_memOk {r : CmdRef} {c : Chain} {s : State} (hs : Kept kb s) : Kept kb (sessionCloseBody r c s) := by
  unfold sessionCloseBody
  grind -linarith [complete_memOk, beginClose_memOk, _=_ kept_iff]

theorem mapPages_memOk {sid : ℕ} {ss : Session} {va : ℕ} {large : Bool} {perm : ℕ} {targets : List ℕ} {s : State} (hs : Kept kb s)
    :
    Kept kb (mapPages sid ss va large perm targets s) :=
  hs

theorem zeroPages_memOk {size : ℕ} {targets : List ℕ} {s : State} (hs : Kept kb s) : Kept kb (zeroPages size targets s) := by
  obtain ⟨hnear, hfar, hstaging, hpools, hstore, hflows⟩ := hs
  exact ⟨List.foldlRecOn _ _ hnear (fun _ h a _ => canonicalIf_memClear a size h), hfar, hstaging, hpools, hstore, hflows⟩

theorem memMapBody_memOk {r : CmdRef} {c : Chain} {s : State} (hs : Kept kb s) : Kept kb (memMapBody r c s) := by
  unfold memMapBody
  dsimp only
  split
  · exact complete_memOk hs
  repeat' split
  all_goals first
  | exact complete_memOk hs
  | exact complete_memOk (mapPages_memOk hs)
  | exact complete_memOk (takeFresh_memOk hs)
  | exact complete_memOk (takeFresh_memOk (mapPages_memOk (zeroPages_memOk hs)))

theorem memUnmapBody_memOk {r : CmdRef} {c : Chain} {s : State} (hs : Kept kb s) : Kept kb (memUnmapBody r c s) := by
  unfold memUnmapBody
  grind -linarith [complete_memOk, _=_ kept_iff, foldl_memOk]

theorem putStaging_memOk {a : ℕ} {bs : List Byte} {s : State} (hs : Kept kb s) : Kept kb (putStaging a bs s) := by
  obtain ⟨hnear, hfar, hstaging, hpools, hstore, hflows⟩ := hs
  exact ⟨hnear, hfar, canonicalIf_memWrite _ _ hstaging, hpools, hstore, hflows⟩

theorem gatherPut_memOk {port : ℕ} {p : Packet} {c : Chain} {s : State} (hs : Kept kb s) : Kept kb (gatherPut port p c s).1 := by
  unfold gatherPut
  grind -linarith [foldStream_memOk, storeSession_memOk, putStaging_memOk, _=_ kept_iff]

theorem dataPutBody_memOk {r : CmdRef} {c : Chain} {s : State} (hs : Kept kb s) : Kept kb (dataPutBody r c s) := by
  unfold dataPutBody
  grind -linarith [complete_memOk, _=_ kept_iff]

theorem foldFarReads_memOk {sid a : ℕ} {a1 : List (ℕ × ℕ)} {a2 : State} (hs : Kept kb a2) : Kept kb (foldFarReads sid a a1 a2) := by
  fun_induction foldFarReads <;> grind -linarith [foldStream_memOk, _=_ kept_iff, foldl_memOk]

theorem dataGetBody_memOk {r : CmdRef} {c : Chain} {s : State} (hs : Kept kb s) : Kept kb (dataGetBody r c s) := by
  unfold dataGetBody
  grind -linarith [complete_memOk, completeData_memOk, foldFarReads_memOk, _=_ kept_iff]

theorem execAdminSetup_memOk {r : RingId} {p : Packet} {s t : State} (hs : Kept kb s) (hs1 : execAdminSetup r p s = .next t) :
    Kept kb t := by
  unfold execAdminSetup at hs1
  grind -linarith [adminSetupTake_memOk]

theorem execUnknownOpcode_memOk {r : RingId} {opcode : BitVec 16} {p : Packet} {s t : State} (hs : Kept kb s) (hs1 :
    execUnknownOpcode r opcode p s = .next t) :
    Kept kb t := by
  unfold execUnknownOpcode at hs1
  grind -linarith [hostCommand_memOk, _=_ kept_iff]

/-! ## Placement -/

theorem writeMaps_memOk {p : Plan} {s : State} (hs : Kept kb s) : Kept kb (writeMaps p s) := hs

theorem rewriteMaps_memOk {s : State} (hs : Kept kb s) : Kept kb (rewriteMaps s) := by
  unfold rewriteMaps
  grind -linarith [writeMaps_memOk, foldl_memOk]

theorem installPlan_memOk {p q : Plan} {s : State} (hs : Kept kb s) : Kept kb (installPlan p q s) := by
  unfold installPlan
  grind -linarith [writeMaps_memOk, onPlan_memOk, _=_ kept_iff]

theorem replacePlan_memOk {h : Word} {s : State} (hs : Kept kb s) : Kept kb (replacePlan h s) := by
  unfold replacePlan
  grind -linarith [installPlan_memOk, endRun_memOk, _=_ kept_iff]

theorem replaceIdle_memOk {s : State} (hs : Kept kb s) : Kept kb (replaceIdle s) := by
  unfold replaceIdle
  grind -linarith [installPlan_memOk, _=_ kept_iff, foldl_memOk]

/-! ## ErrorOps -/

theorem recordRetired_memOk {u : BitVec 32} {reason : ℕ} {heir : Option (BitVec 32)} {s : State} (hs : Kept kb s) :
    Kept kb (recordRetired u reason heir s) := by
  unfold recordRetired
  grind -linarith [postEvent_memOk, _=_ kept_iff]

theorem bumpIncarnation_memOk {core : ℕ} {s : State} (hs : Kept kb s) : Kept kb (bumpIncarnation core s) := by
  unfold bumpIncarnation
  grind -linarith [recordRetired_memOk, _=_ kept_iff]

theorem clearPools_memOk {core : ℕ} {s : State} (hs : Kept kb s) : Kept kb (clearPools core s) := by
  obtain ⟨hnear, hfar, hstaging, hpools, hstore, hflows⟩ := hs
  exact ⟨hnear, hfar, hstaging, canonicalIf_filter _ hpools, hstore, hflows⟩

theorem moveRole_memOk {c r : ℕ} {s : State} (hs : Kept kb s) : Kept kb (moveRole c r s) := by
  unfold moveRole
  grind -linarith [clearPools_memOk, _=_ kept_iff]

theorem applyCrater_memOk {c : ℕ} {s : State} (hs : Kept kb s) : Kept kb (applyCrater c s) := by
  unfold applyCrater
  grind -linarith [bumpIncarnation_memOk, foldl_memOk]

theorem applyCore_memOk {core : ℕ} {s : State} (hs : Kept kb s) : Kept kb (applyCore core s) := by
  unfold applyCore
  grind -linarith [rewriteMaps_memOk, moveRole_memOk, bumpIncarnation_memOk, _=_ kept_iff, foldl_memOk]

theorem retireCoreNow_memOk {core reason : ℕ} {s : State} (hs : Kept kb s) : Kept kb (retireCoreNow core reason s) := by
  unfold retireCoreNow
  grind -linarith [applyCrater_memOk, recordRetired_memOk, applyCore_memOk]

theorem chargeRate_memOk {u : BitVec 32} {step : Option (Word × ℕ)} {s : State} (hs : Kept kb s) : Kept kb (chargeRate u step s) :=
  hs

theorem detect_memOk {h : Word} {u : Option (BitVec 32)} {s : State} (hs : Kept kb s) : Kept kb (detect h u s) := by
  unfold detect
  grind -linarith [detectStep_memOk, chargeRate_memOk, _=_ kept_iff]

theorem heldSector_memOk {sid va sector : ℕ} {s : State} (hs : Kept kb s) : Kept kb (heldSector sid va sector s).1 := by
  unfold heldSector
  grind -linarith [startRefetch_memOk, poisonSector_memOk, _=_ kept_iff]

/-! ## Tremor -/

theorem latchAll_memOk {src : BitVec 6} {s : State} (hs : Kept kb s) : Kept kb (latchAll src s) := by
  unfold latchAll
  grind -linarith [raiseUp_memOk, postEvent_memOk, takeFresh_memOk, _=_ kept_iff]

theorem fire_memOk {src : BitVec 6} {s : State} (hs : Kept kb s) : Kept kb (fire src s) := by
  unfold fire
  grind -linarith [latchAll_memOk, _=_ kept_iff]

theorem snapArmBody_memOk {r : CmdRef} {c : Chain} {s : State} (hs : Kept kb s) : Kept kb (snapArmBody r c s) := by
  unfold snapArmBody
  grind -linarith [complete_memOk, fire_memOk, _=_ kept_iff]

theorem snapReadBody_memOk {r : CmdRef} {c : Chain} {s : State} (hs : Kept kb s) : Kept kb (snapReadBody r c s) := by
  unfold snapReadBody
  grind -linarith [complete_memOk, _=_ kept_iff]

theorem execTrigIn_memOk {falling : Bool} {s t : State} (hs : Kept kb s) (hs1 : execTrigIn falling s = .next t) : Kept kb t := by
  unfold execTrigIn at hs1
  grind -linarith [fire_memOk]

theorem execEventCondition_memOk {status : Option (BitVec 8 × Word)} {s t : State} (hs : Kept kb s) (hs1 : execEventCondition
    status s = .next t) :
    Kept kb t := by
  unfold execEventCondition at hs1
  grind -linarith [fire_memOk]

theorem execScheduledFire_memOk {s t : State} (hs : Kept kb s) (hs1 : execScheduledFire s = .next t) : Kept kb t := by
  unfold execScheduledFire at hs1
  grind -linarith [fire_memOk, _=_ kept_iff]

/-! ## BootOps -/

theorem openPorts_memOk {s : State} (hs : Kept kb s) : Kept kb (openPorts s) := hs

theorem startTraining_memOk {p : ℕ} {s : State} (hs : Kept kb s) : Kept kb (startTraining p s) := by
  unfold startTraining
  grind -linarith [onPort_memOk, _=_ kept_iff]

theorem onIsland_memOk {i : ℕ} {f : Island → Island} {s : State} (hs : Kept kb s) : Kept kb (onIsland i f s) := hs

theorem dropObjects_memOk {s : State} (hs : Kept kb s) : Kept kb (dropObjects s) := by
  obtain ⟨hnear, hfar, -, -, hstore, hflows⟩ := hs
  exact ⟨hnear, hfar, canonicalIf_nil, canonicalIf_nil, hstore, hflows⟩

theorem dropFabric_memOk {s : State} (hs : Kept kb s) : Kept kb (dropFabric s) := by
  obtain ⟨hnear, hfar, hstaging, hpools, hstore, -⟩ := hs
  exact ⟨hnear, hfar, hstaging, hpools, hstore, flowsWithin_nil⟩

theorem dropDebug_memOk {s : State} (hs : Kept kb s) : Kept kb (dropDebug s) := by
  unfold dropDebug
  grind -linarith [takeFresh_memOk, _=_ kept_iff]

theorem bootUnits_memOk {s : State} (hs : Kept kb s) : Kept kb (bootUnits s) := by
  unfold bootUnits
  grind -linarith [moveRole_memOk, _=_ kept_iff, foldl_memOk]

theorem bootPower_memOk {cold : Bool} {s : State} (hs : Kept kb s) : Kept kb (bootPower cold s) := by
  unfold bootPower
  split <;> exact hs

theorem bootTremor_memOk {cold : Bool} {s : State} (hs : Kept kb s) : Kept kb (bootTremor cold s) := by
  unfold bootTremor
  split <;> exact hs

theorem dropWork_memOk {cold : Bool} {s : State} (hs : Kept kb s) : Kept kb (dropWork cold s) :=
  bootTremor_memOk (bootPower_memOk (dropDebug_memOk (dropFabric_memOk (dropObjects_memOk (bootUnits_memOk (onPorts_memOk hs))))))

theorem noteError_memOk {stage : BootStage} {st : Status} {detail : ℕ} {s : State} (hs : Kept kb s) :
    Kept kb (noteError stage st detail s) :=
  hs

theorem failBoot_memOk {stage : BootStage} {st : Status} {detail : ℕ} {s : State} (hs : Kept kb s) :
    Kept kb (failBoot stage st detail s) := by
  unfold failBoot
  grind -linarith [noteError_memOk, onPorts_memOk, _=_ kept_iff]

theorem enterRecovery_memOk {s : State} (hs : Kept kb s) : Kept kb (enterRecovery s) := by
  unfold enterRecovery
  grind -linarith [raiseAll_memOk, openPorts_memOk, _=_ kept_iff]

theorem verifyConfig_memOk {bad : BitVec 3} {s0 : State} (hs : Kept kb s0) : Kept kb (verifyConfig bad s0) := by
  unfold verifyConfig
  grind -linarith [noteError_memOk, _=_ kept_iff]

theorem startRom_memOk {b : BootInputs} {s : State} (hs : Kept kb s) : Kept kb (startRom b s) := hs

theorem trainMemory_memOk {b : BootInputs} {s : State} (hs : Kept kb s) : Kept kb (trainMemory b s) := by
  unfold trainMemory
  grind -linarith [noteError_memOk, _=_ kept_iff, foldl_memOk]

theorem planIsland_memOk {i : ℕ} {pt : ℕ × ℕ} {s : State} (hs : Kept kb s) : Kept kb (planIsland i pt s) := by
  unfold planIsland
  grind -linarith [onIsland_memOk, _=_ kept_iff]

theorem bootReplan_memOk {b : BootInputs} {s : State} (hs : Kept kb s) : Kept kb (bootReplan b s) := by
  unfold bootReplan
  grind -linarith [onIsland_memOk, planIsland_memOk, _=_ kept_iff, foldl_memOk]

theorem headSync_memOk {s : State} (hs : Kept kb s) : Kept kb (headSync s) := by
  unfold headSync
  split <;> exact hs

theorem finishBoot_memOk {afterReset : Bool} {s : State} (hs : Kept kb s) : Kept kb (finishBoot afterReset s) := by
  have hemptied := keptParts_emptyNear hs
  unfold finishBoot
  grind -linarith [raiseAll_memOk, openPorts_memOk, headSync_memOk, = kept_iff]

theorem runBoot_memOk {afterReset : Bool} {a : ℕ} {a1 : BootInputs} {a2 : State} (hs : Kept kb a2) :
    Kept kb (runBoot afterReset a a1 a2) := by
  fun_induction runBoot
  case case1 => exact hs
  case case2 => exact failBoot_memOk (startRom_memOk hs)
  case case3 => exact failBoot_memOk (startRom_memOk hs)
  case case4 => exact enterRecovery_memOk (startRom_memOk hs)
  case case5 => exact failBoot_memOk (verifyConfig_memOk (startRom_memOk hs))
  case case6 => exact enterRecovery_memOk (noteError_memOk (verifyConfig_memOk (startRom_memOk hs)))
  case case7 s s0 _ _ _ s1 _ _ _ _ _ s2 _ =>
    have hloaded : Kept kb s2 := verifyConfig_memOk (startRom_memOk hs)
    exact failBoot_memOk hloaded
  case case8 =>
    rename_i s2 _ alone s3 s4 _ ih
    have hloaded : Kept kb s2 := verifyConfig_memOk (startRom_memOk hs)
    have hjoined : Kept kb s3 := by grind -linarith [noteError_memOk, _=_ kept_iff]
    exact ih (bootReplan_memOk (trainMemory_memOk hjoined))
  case case9 =>
    rename_i s2 _ alone s3 s4 _
    have hloaded : Kept kb s2 := verifyConfig_memOk (startRom_memOk hs)
    have hjoined : Kept kb s3 := by grind -linarith [noteError_memOk, _=_ kept_iff]
    exact finishBoot_memOk (bootReplan_memOk (trainMemory_memOk hjoined))

theorem warmReset_memOk {b : BootInputs} {s : State} (hs : Kept kb s) : Kept kb (warmReset b s) := by
  unfold warmReset
  grind -linarith [setAon_memOk, runBoot_memOk, dropWork_memOk]

theorem recoveryReset_memOk {b : BootInputs} {s : State} (hs : Kept kb s) : Kept kb (recoveryReset b s) := by
  unfold recoveryReset
  grind -linarith [startRom_memOk, dropWork_memOk, enterRecovery_memOk, setAon_memOk]

theorem resetModule_memOk {recovery : Bool} {b : BootInputs} {s : State} (hs : Kept kb s) : Kept kb (resetModule recovery b s) := by
  unfold resetModule
  grind -linarith [recoveryReset_memOk, warmReset_memOk, _=_ kept_iff]

theorem requestReset_memOk {recovery : Bool} {b : BootInputs} {s : State} (hs : Kept kb s) :
    Kept kb (requestReset recovery b s) := by
  unfold requestReset
  grind -linarith [resetModule_memOk, _=_ kept_iff]

/-! ## Power -/

theorem powerDone_memOk {reached from_ target : PowerState} {refused : Option Refuse} {s : State} (hs : Kept kb s) :
    Kept kb (powerDone reached from_ target refused s) := by
  unfold powerDone
  grind -linarith [raiseUp_memOk, postEvent_memOk]

theorem noteRefusal_memOk {f : Refuse} {s : State} (hs : Kept kb s) : Kept kb (noteRefusal f s) := hs

theorem answer_memOk {c : Option CmdRef} {r : Reply} {s : State} (hs : Kept kb s) : Kept kb (answer c r s) := by
  unfold answer
  grind -linarith [complete_memOk, _=_ kept_iff]

theorem rollBack_memOk {t : Transition} {f : Refuse} {s : State} (hs : Kept kb s) : Kept kb (rollBack t f s) := by
  unfold rollBack
  grind -linarith [noteRefusal_memOk, powerDone_memOk, answer_memOk, _=_ kept_iff]

theorem exitSimmer_memOk {source : ℕ} {s : State} (hs : Kept kb s) : Kept kb (exitSimmer source s) := by
  unfold exitSimmer
  grind -linarith [powerDone_memOk, _=_ kept_iff]

theorem loseRails_memOk {s : State} (hs : Kept kb s) : Kept kb (loseRails s) := by
  obtain ⟨hnear, hfar, -, -, hstore, hflows⟩ := hs
  exact ⟨hnear, hfar, canonicalIf_nil, canonicalIf_nil, hstore, hflows⟩

theorem saveSet_memOk {s : State} (hs : Kept kb s) : Kept kb (saveSet s) := by
  unfold saveSet
  grind -linarith [takeFresh_memOk, _=_ kept_iff]

theorem enterDormant_memOk {reply : Option CmdRef} {s : State} (hs : Kept kb s) : Kept kb (enterDormant reply s) := by
  have hslept : Kept kb (onPorts sleepPort (loseRails (saveSet (answer reply (replyOf .done) s)))) :=
    onPorts_memOk (loseRails_memOk (saveSet_memOk (answer_memOk hs)))
  exact hslept

theorem mainRailsOff_memOk {s : State} (hs : Kept kb s) : Kept kb (mainRailsOff s) := by
  unfold mainRailsOff
  grind -linarith [onPorts_memOk, dropWork_memOk, loseRails_memOk, _=_ kept_iff, keptParts_emptyNear]

theorem loseAon_memOk {s : State} (hs : Kept kb s) : Kept kb (loseAon s) := by
  obtain ⟨hnear, hfar, hstaging, hpools, -, hflows⟩ := hs
  exact ⟨hnear, hfar, hstaging, hpools, canonicalIf_nil, hflows⟩

theorem enterCold_memOk {reply : Option CmdRef} {s : State} (hs : Kept kb s) : Kept kb (enterCold reply s) := by
  have hanswered : Kept kb (answer reply (replyOf .done) s) := answer_memOk hs
  unfold enterCold
  generalize answer reply (replyOf .done) s = a at hanswered ⊢
  grind -linarith [loseAon_memOk, mainRailsOff_memOk, _=_ kept_iff]

theorem runHeldReset_memOk {s : State} (hs : Kept kb s) : Kept kb (runHeldReset s) := by
  unfold runHeldReset
  grind -linarith [resetModule_memOk, _=_ kept_iff]

theorem assertWakes_memOk {source : ℕ} {s : State} (hs : Kept kb s) : Kept kb (assertWakes source s) := hs

theorem wakeDormant_memOk {source : ℕ} {b : BootInputs} {s : State} (hs : Kept kb s) : Kept kb (wakeDormant source b s) := by
  unfold wakeDormant
  dsimp only
  split
  · exact assertWakes_memOk (runBoot_memOk (dropWork_memOk hs))
  · exact assertWakes_memOk (raiseAll_memOk (powerDone_memOk (headSync_memOk (bootTremor_memOk (dropDebug_memOk hs)))))

theorem wakeUp_memOk {source : ℕ} {b : BootInputs} {s : State} (hs : Kept kb s) : Kept kb (wakeUp source b s) := by
  unfold wakeUp
  grind -linarith [runHeldReset_memOk, startTraining_memOk, wakeDormant_memOk]

theorem runEntry_memOk {t : Transition} {s : State} (hs : Kept kb s) : Kept kb (runEntry t s) := by
  unfold runEntry
  grind -linarith [takeFresh_memOk, rollBack_memOk, enterDormant_memOk, enterCold_memOk, powerDone_memOk, answer_memOk, _=_ kept_iff]

theorem runLatchedWake_memOk {s : State} (hs : Kept kb s) : Kept kb (runLatchedWake s) := by
  unfold runLatchedWake
  grind -linarith [exitSimmer_memOk, wakeUp_memOk, _=_ kept_iff]

theorem settleTransition_memOk {s : State} (hs : Kept kb s) : Kept kb (settleTransition s) := by
  unfold settleTransition
  grind -linarith [runHeldReset_memOk, runLatchedWake_memOk, runEntry_memOk, _=_ kept_iff]

theorem beginTransition_memOk {target : PowerState} {reply : Option CmdRef} {s : State} (hs : Kept kb s) :
    Kept kb (beginTransition target reply s) := by
  unfold beginTransition
  grind -linarith [answer_memOk, noteRefusal_memOk, settleTransition_memOk, _=_ kept_iff]

theorem powerSetBody_memOk {target : PowerState} {r : CmdRef} {c : Chain} {s : State} (hs : Kept kb s) :
    Kept kb (powerSetBody target r c s) := by
  unfold powerSetBody
  grind -linarith [complete_memOk, beginTransition_memOk, _=_ kept_iff]

theorem powerSetActiveBody_memOk {r : CmdRef} {c : Chain} {s : State} (hs : Kept kb s) : Kept kb (powerSetActiveBody r c s) := by
  unfold powerSetActiveBody
  grind -linarith [complete_memOk, exitSimmer_memOk, _=_ kept_iff]

theorem settleParking_memOk {s : State} (hs : Kept kb s) : Kept kb (settleParking s) := by
  unfold settleParking
  grind -linarith [settleTransition_memOk, complete_memOk, _=_ kept_iff]

theorem withParked_memOk {mask : BitVec 32} {s : State} (hs : Kept kb s) : Kept kb (withParked mask s) := hs

theorem powerSetParkBody_memOk {r : CmdRef} {c : Chain} {s : State} (hs : Kept kb s) : Kept kb (powerSetParkBody r c s) := by
  unfold powerSetParkBody
  grind -linarith [complete_memOk, withParked_memOk, settleParking_memOk, replaceIdle_memOk, _=_ kept_iff, foldl_memOk]

theorem powerQueryBody_memOk {r : CmdRef} {x : Chain} {s : State} (hs : Kept kb s) : Kept kb (powerQueryBody r x s) := by
  unfold powerQueryBody
  grind -linarith [complete_memOk]

theorem execSleepNoAnswer_memOk {unit : BitVec 32} {s t : State} (hs : Kept kb s) (hs1 : execSleepNoAnswer unit s = .next t) :
    Kept kb t := by
  unfold execSleepNoAnswer at hs1
  grind -linarith [runHeldReset_memOk, rollBack_memOk, _=_ kept_iff]

theorem execWakeReqN_memOk {b : BootInputs} {s t : State} (hs : Kept kb s) (hs1 : execWakeReqN b s = .next t) : Kept kb t := by
  unfold execWakeReqN at hs1
  grind -linarith [exitSimmer_memOk, wakeUp_memOk, _=_ kept_iff]

/-! ## Errors -/

theorem closeSessionsOf_memOk {p : ℕ} {s : State} (hs : Kept kb s) : Kept kb (closeSessionsOf p s) := by
  unfold closeSessionsOf
  grind -linarith [onPort_memOk, beginClose_memOk, _=_ kept_iff, foldl_memOk]

theorem replaceTap_memOk {k : ℕ} {s : State} (hs : Kept kb s) : Kept kb (replaceTap k s) := by
  unfold replaceTap
  grind -linarith [onPlan_memOk, _=_ kept_iff]

theorem failLane_memOk {port lane : ℕ} {s : State} (hs : Kept kb s) : Kept kb (failLane port lane s) := hs

theorem dropFabricPort_memOk {n : ℕ} {out : Bool} {s : State} (hs : Kept kb s) : Kept kb (dropFabricPort n out s) := hs

theorem applyRetired_memOk {u : BitVec 32} {s : State} (hs : Kept kb s) : Kept kb (applyRetired u s) := by
  unfold applyRetired
  grind -linarith [applyCore_memOk, applyCrater_memOk, replaceTap_memOk, dropFabricPort_memOk, failLane_memOk, onPort_memOk,
    closeSessionsOf_memOk, resetModule_memOk, _=_ kept_iff]

theorem recordUnit_memOk {u : BitVec 32} {reason : ℕ} {s : State} (hs : Kept kb s) : Kept kb (recordUnit u reason s) := by
  unfold recordUnit
  grind -linarith [recordRetired_memOk]

theorem settleRetired_memOk {u : BitVec 32} {s : State} (hs : Kept kb s) : Kept kb (settleRetired u s) := by
  unfold settleRetired
  grind -linarith [replaceIdle_memOk, applyRetired_memOk, _=_ kept_iff]

theorem retireUnit_memOk {u : BitVec 32} {reason : ℕ} {s : State} (hs : Kept kb s) : Kept kb (retireUnit u reason s) := by
  unfold retireUnit
  grind -linarith [recordUnit_memOk, settleRetired_memOk]

theorem retireUnits_memOk {us : List (BitVec 32)} {reason : ℕ} {s : State} (hs : Kept kb s) :
    Kept kb (retireUnits us reason s) := by
  unfold retireUnits
  grind -linarith [retireUnit_memOk, foldl_memOk]

theorem applyRestored_memOk {u : BitVec 32} {s : State} (hs : Kept kb s) : Kept kb (applyRestored u s) := by
  unfold applyRestored
  grind -linarith [bumpIncarnation_memOk, onIsland_memOk, _=_ kept_iff]

theorem restoreNow_memOk {s : State} (hs : Kept kb s) : Kept kb (restoreNow s) := by
  unfold restoreNow
  grind -linarith [applyRestored_memOk, foldl_memOk]

theorem boundaryUnits_memOk {s : State} (hs : Kept kb s) : Kept kb (boundaryUnits s) := by
  unfold boundaryUnits
  grind -linarith [recordUnit_memOk, restoreNow_memOk, applyRetired_memOk, _=_ kept_iff, foldl_memOk]

theorem unitRetireBody_memOk {r : CmdRef} {c : Chain} {s : State} (hs : Kept kb s) : Kept kb (unitRetireBody r c s) := by
  unfold unitRetireBody
  grind -linarith [complete_memOk, recordUnit_memOk, settleTransition_memOk, settleRetired_memOk]

theorem restoreBody_memOk {r : CmdRef} {c : Chain} {s : State} (hs : Kept kb s) : Kept kb (restoreBody r c s) := by
  unfold restoreBody
  grind -linarith [complete_memOk, restoreNow_memOk, _=_ kept_iff]

theorem unitRetireQueryBody_memOk {r : CmdRef} {c : Chain} {s : State} (hs : Kept kb s) : Kept kb (unitRetireQueryBody r c s) := by
  unfold unitRetireQueryBody
  grind -linarith [complete_memOk]

theorem withoutUnit_memOk {u : BitVec 32} {s : State} (hs : Kept kb s) : Kept kb (withoutUnit u s) := by
  unfold withoutUnit
  grind -linarith [withParked_memOk, _=_ kept_iff, foldl_memOk]

theorem testLeaves_memOk {u : BitVec 32} {s : State} (hs : Kept kb s) : Kept kb (testLeaves u s) := by
  unfold testLeaves
  grind -linarith [_=_ kept_iff, foldl_memOk]

theorem scrubSector_memOk {sector : ℕ} {s : State} (hs : Kept kb s) : Kept kb (scrubSector sector s) := by
  unfold scrubSector
  grind -linarith [chargeRate_memOk, heldSector_memOk, _=_ kept_iff]

theorem testRunBody_memOk {r : CmdRef} {c : Chain} {s : State} (hs : Kept kb s) : Kept kb (testRunBody r c s) := by
  unfold testRunBody
  grind -linarith [complete_memOk, scrubSector_memOk, takeFresh_memOk, testLeaves_memOk, recordUnit_memOk, settleTransition_memOk,
    settleRetired_memOk, _=_ kept_iff, foldl_memOk]

/-! ## Age -/

theorem atLeast_memOk {t : ℕ} {s : State} (hs : Kept kb s) : Kept kb (atLeast t s) := by
  unfold atLeast
  split <;> exact hs

theorem marginLow_memOk {i reason : ℕ} {s : State} (hs : Kept kb s) : Kept kb (marginLow i reason s) := by
  unfold marginLow
  grind -linarith [postEvent_memOk, onIsland_memOk, _=_ kept_iff]

theorem retireIsland_memOk {i : ℕ} {s : State} (hs : Kept kb s) : Kept kb (retireIsland i s) := by
  unfold retireIsland
  grind -linarith [retireUnits_memOk, onIsland_memOk, _=_ kept_iff]

theorem execIslandReplan_memOk {plan : List IslandPlan} {s t : State} (hs : Kept kb s) (hs1 : execIslandReplan plan s = .next t) :
    Kept kb t := by
  unfold execIslandReplan at hs1
  grind -linarith [atLeast_memOk, planIsland_memOk, retireIsland_memOk, _=_ kept_iff, foldl_memOk]

theorem boundaryClocks_memOk {s : State} (hs : Kept kb s) : Kept kb (boundaryClocks s) := hs

theorem derateIsland_memOk {i : ℕ} {lowered : List ℤ} {s : State} (hs : Kept kb s) : Kept kb (derateIsland i lowered s) := by
  unfold derateIsland
  grind -linarith [planIsland_memOk, marginLow_memOk, onIsland_memOk, _=_ kept_iff]

theorem sampleIsland_memOk {sameDay : Bool} {e : IslandSample} {s : State} (hs : Kept kb s) :
    Kept kb (sampleIsland sameDay e s) := by
  unfold sampleIsland
  grind -linarith [onIsland_memOk, marginLow_memOk, derateIsland_memOk, retireIsland_memOk, _=_ kept_iff]

theorem retrainPosition_memOk {p : ℕ} {s : State} (hs : Kept kb s) : Kept kb (retrainPosition p s) := by
  unfold retrainPosition
  grind -linarith [marginLow_memOk, _=_ kept_iff]

theorem samples_memOk {samples : List IslandSample} {eyes : EyeSamples} {sameDay : Bool} {now : Word} {s : State} (hs : Kept kb s) :
    Kept kb (eyes.cxlPorts.foldl (fun x p => if p < 2 then marginLow (37 + 6 * p) 4 x else x)
      (eyes.fabricLanes.foldl (fun x l => if l < 48 then retireUnit (unitId 10 l) reasonMargin x else x)
        (eyes.positions.foldl (fun x p => retrainPosition p x)
          { samples.foldl (fun x e => sampleIsland sameDay e x) s with
            age := { (samples.foldl (fun x e => sampleIsland sameDay e x) s).age with lastSample := now } }))) := by
  have hsampled : Kept kb (samples.foldl (fun x e => sampleIsland sameDay e x) s) :=
    foldl_memOk hs (fun _ _ h => sampleIsland_memOk h)
  refine foldl_memOk (foldl_memOk (foldl_memOk ?_ ?_) ?_) ?_
  · exact hsampled
  · exact fun _ _ h => retrainPosition_memOk h
  · grind -linarith [retireUnit_memOk]
  · grind -linarith [marginLow_memOk]

theorem execMarginSample_memOk {samples : List IslandSample} {eyes : EyeSamples} {s t : State} (hs : Kept kb s) (hs1 :
    execMarginSample samples eyes s = .next t) :
    Kept kb t := by
  rw [execMarginSample] at hs1
  obtain rfl := Host.Outcome.next.inj hs1
  split
  · exact hs
  · exact samples_memOk (atLeast_memOk hs)

theorem moveCap_memOk {mhz : ℕ} {s : State} (hs : Kept kb s) : Kept kb (moveCap mhz s) := by
  unfold moveCap
  split <;> exact hs

theorem lowerCap_memOk {s : State} (hs : Kept kb s) : Kept kb (lowerCap s) := by
  unfold lowerCap
  grind -linarith [moveCap_memOk]

theorem execPowerSample_memOk {avg1 avg10 : ℕ} {over2ms : Bool} {s t : State} (hs : Kept kb s) (hs1 : execPowerSample avg1 avg10
    over2ms s = .next t) :
    Kept kb t := by
  unfold execPowerSample at hs1
  grind -linarith [lowerCap_memOk, moveCap_memOk, _=_ kept_iff]

theorem thermalEvent_memOk {unit : ℕ} {temp : ℤ} {what : ℕ} {s : State} (hs : Kept kb s) :
    Kept kb (thermalEvent unit temp what s) := by
  unfold thermalEvent
  grind -linarith [raiseAll_memOk, postEvent_memOk]

theorem execJunctionSample_memOk {temps : List ℤ} {cool10ms : Bool} {s t : State} (hs : Kept kb s) (hs1 : execJunctionSample temps
    cool10ms s = .next t) :
    Kept kb t := by
  unfold execJunctionSample at hs1
  grind -linarith [thermalEvent_memOk, lowerCap_memOk, raiseAll_memOk, postEvent_memOk, _=_ kept_iff]

theorem execThermN_memOk {s t : State} (hs : Kept kb s) (hs1 : execThermN s = .next t) : Kept kb t := by
  unfold execThermN at hs1
  grind -linarith [thermalEvent_memOk, lowerCap_memOk, _=_ kept_iff]

theorem execThermNRelease_memOk {s t : State} (hs : Kept kb s) (hs1 : execThermNRelease s = .next t) : Kept kb t := by
  unfold execThermNRelease at hs1
  grind -linarith [_=_ kept_iff]

end

end Sys2Proof.Machine
end

section
/-!
PROOFS. The canonical form of the memories, continued: operators, flows and the work of steps.
-/

namespace Sys2Proof.Machine

-- One after the other: many threads at once pass the limit on memory.
set_option Elab.async false

section
variable {kb : KeptBound}

/-! ## Operands -/

theorem pieceWrite_memOk {k a : ℕ} {bs : List Byte} {c : Ctx} (hs : Kept kb c.s) : Kept kb (pieceWrite k a bs c).s := by
  refine List.foldlRecOn (motive := fun x : Ctx × List Byte => Kept kb x.1.s) _ _ hs (fun acc h e _ => ?_)
  dsimp only
  split <;> exact h

theorem dWrite_memOk {k : ℕ} {a : ℤ} {bs : List Byte} {c : Ctx} (hs : Kept kb c.s) : Kept kb (dWrite k a bs c).s := by
  unfold dWrite
  grind -linarith [pieceWrite_memOk, foldl_ctx_memOk, _=_ kept_iff, foldl_memOk]

theorem aliasElem_memOk {k : ℕ} {a : ℤ} {code : ℕ} {v : FVal} {c : Ctx} (hs : Kept kb c.s) :
    Kept kb (aliasElem k a code v c).s := by
  unfold aliasElem
  grind -linarith [dWrite_memOk, _=_ kept_iff]

theorem aliasPad_memOk {k : ℕ} {a : ℤ} {n : ℕ} {c : Ctx} (hs : Kept kb c.s) : Kept kb (aliasPad k a n c).s := by
  unfold aliasPad
  grind -linarith [dWrite_memOk, foldl_ctx_memOk, foldl_memOk]

theorem rowAlias_memOk {k r : ℕ} {els : List (ℕ × FVal)} {c : Ctx} (hs : Kept kb c.s) : Kept kb (rowAlias k r els c).s := by
  unfold rowAlias
  grind -linarith [aliasElem_memOk, aliasPad_memOk, foldl_ctx_memOk, foldl_memOk]

theorem rowWrite_memOk {k r : ℕ} {bs : List Byte} {c : Ctx} (hs : Kept kb c.s) : Kept kb (rowWrite k r bs c).s := by
  unfold rowWrite
  grind -linarith [rowAlias_memOk, dWrite_memOk]

theorem valuesWrite_memOk {k r : ℕ} {vs : List FVal} {c : Ctx} (hs : Kept kb c.s) : Kept kb (valuesWrite k r vs c).s := by
  unfold valuesWrite
  grind -linarith [rowAlias_memOk, rowWrite_memOk]

theorem rowsWriteAt_memOk {k : ℕ} {rows : List (ℕ × List Byte)} {c : Ctx} (hs : Kept kb c.s) :
    Kept kb (rowsWriteAt k rows c).s := by
  unfold rowsWriteAt
  grind -linarith [rowWrite_memOk, foldl_ctx_memOk, foldl_memOk]

theorem rowsWrite_memOk {k : ℕ} {rows : List (List Byte)} {c : Ctx} (hs : Kept kb c.s) : Kept kb (rowsWrite k rows c).s := by
  unfold rowsWrite
  grind -linarith [rowsWriteAt_memOk]

theorem bytesWrite_memOk {k : ℕ} {bs : List Byte} {c : Ctx} (hs : Kept kb c.s) : Kept kb (bytesWrite k bs c).s := by
  unfold bytesWrite
  grind -linarith [dWrite_memOk, rowWrite_memOk, foldl_ctx_memOk, foldl_memOk]

theorem linearWrite_memOk {k off : ℕ} {bs : List Byte} {c : Ctx} (hs : Kept kb c.s) : Kept kb (linearWrite k off bs c).s := by
  unfold linearWrite
  grind -linarith [dWrite_memOk, foldl_ctx_memOk, foldl_memOk]

theorem maskWrite_memOk {k : ℕ} {sel : List Bool} {c : Ctx} (hs : Kept kb c.s) : Kept kb (maskWrite k sel c).s := by
  unfold maskWrite
  grind -linarith [rowWrite_memOk, foldl_ctx_memOk, foldl_memOk]

theorem bump_memOk {id n : ℕ} {c : Ctx} (hs : Kept kb c.s) : Kept kb (bump id n c).s := hs

theorem bumps_memOk {l : List (ℕ × ℕ)} {c : Ctx} (hs : Kept kb c.s) : Kept kb (bumps l c).s := by
  unfold bumps
  grind -linarith [bump_memOk, foldl_ctx_memOk, foldl_memOk]

theorem setExt_memOk {id n : ℕ} {c : Ctx} (hs : Kept kb c.s) : Kept kb (setExt id n c).s := hs

theorem setExts_memOk {l : List (ℕ × ℕ)} {c : Ctx} (hs : Kept kb c.s) : Kept kb (setExts l c).s := by
  unfold setExts
  grind -linarith [setExt_memOk, foldl_ctx_memOk, foldl_memOk]

theorem countNans_memOk {n : ℕ} {c : Ctx} (hs : Kept kb c.s) : Kept kb (countNans n c).s := hs

theorem countDrops_memOk {n : ℕ} {c : Ctx} (hs : Kept kb c.s) : Kept kb (countDrops n c).s := hs

theorem countPoisoned_memOk {n : ℕ} {c : Ctx} (hs : Kept kb c.s) : Kept kb (countPoisoned n c).s := hs

theorem countRejected_memOk {n : ℕ} {c : Ctx} (hs : Kept kb c.s) : Kept kb (countRejected n c).s := hs

theorem putKeys_memOk {k : ℕ} {l : List (ℕ × ℕ × ℕ × ℕ)} {c : Ctx} (hs : Kept kb c.s) : Kept kb (putKeys k l c).s := hs

theorem keepKeys_memOk {i o : ℕ} {c : Ctx} (hs : Kept kb c.s) : Kept kb (keepKeys i o c).s := by
  unfold keepKeys
  grind -linarith [putKeys_memOk]

/-! ## OpRun -/

theorem badSector_memOk {h : Word} {a : ℕ} {s : State} (hs : Kept kb s) : Kept kb (badSector h a s).1 := by
  unfold badSector
  grind -linarith [poisonSector_memOk, chargeRate_memOk, detect_memOk, heldSector_memOk, _=_ kept_iff]

theorem applyFaults_memOk {h : Word} {f : ReadFaults} {s : State} (hs : Kept kb s) : Kept kb (applyFaults h f s).s := by
  unfold applyFaults
  refine List.foldlRecOn (motive := fun x : FaultsLeft => Kept kb x.s) _ _ ?_ (fun acc h n _ => badSector_memOk h)
  grind -linarith [detect_memOk, foldl_memOk, _=_ kept_iff]

theorem refreshPoison_memOk {h : Word} {s : State} (hs : Kept kb s) : Kept kb (refreshPoison h s) := by
  unfold refreshPoison
  grind -linarith [onStep_memOk, _=_ kept_iff]

theorem dropRequests_memOk {h : Word} {op n : ℕ} {s : State} (hs : Kept kb s) : Kept kb (dropRequests h op n s) := by
  unfold dropRequests
  grind -linarith [onStep_memOk, countStale_memOk, _=_ kept_iff]

theorem applyBreaks_memOk {hits : List (ℕ × ℕ)} {s : State} (hs : Kept kb s) : Kept kb (applyBreaks hits s) := hs

theorem afterOp_memOk {l : List (ℕ × ℕ)} {s : State} (hs : Kept kb s) : Kept kb (afterOp l s) := hs

theorem applyWatches_memOk {c : Ctx} {l : List (ℕ × ℕ)} {s : State} (hs : Kept kb s) :
    Kept kb (applyWatches c l s) := by
  unfold applyWatches
  grind -linarith [takeFresh_memOk, fire_memOk, foldl_ctx_memOk, _=_ kept_iff, foldl_memOk]

theorem foldRanges_memOk {c : Ctx} {vent : Bool} {bytes : ℕ → ℕ → List Byte} {l : List (ℕ × ℕ)} {s : State} (hs : Kept kb s) :
    Kept kb (foldRanges c vent bytes l s) := by
  unfold foldRanges
  grind -linarith [foldStream_memOk, foldl_ctx_memOk, _=_ kept_iff, foldl_memOk]

theorem foldReads_memOk {c : Ctx} {k : ℕ} {s : State} (hs : Kept kb s) : Kept kb (foldReads c k s) := by
  unfold foldReads
  grind -linarith [foldRanges_memOk]

theorem freeTaps_memOk {sid : ℕ} {sees : ℕ → Tap → ℕ} {s : State} (hs : Kept kb s) : Kept kb (freeTaps sid sees s) := by
  unfold freeTaps
  grind -linarith [takeFresh_memOk, _=_ kept_iff]

theorem foldTaps_memOk {c : Ctx} {s : State} (hs : Kept kb s) : Kept kb (foldTaps c s) := by
  unfold foldTaps
  grind -linarith [foldReads_memOk, freeTaps_memOk, foldl_ctx_memOk, foldl_memOk]

theorem foldBroken_memOk {c : Ctx} {s : State} (hs : Kept kb s) : Kept kb (foldBroken c s) := by
  unfold foldBroken
  grind -linarith [freeTaps_memOk, _=_ kept_iff]

theorem ctxOf_memOk {s : State} {h : Word} {op : ℕ} {d : Ctx} (hs : Kept kb s) (hs1 : ctxOf s h op = some d) : Kept kb d.s := by
  simp only [ctxOf, Option.bind_eq_some_iff, Option.map_eq_some_iff] at hs1
  obtain ⟨p, -, r, -, o, -, e, -, rfl⟩ := hs1
  exact hs

theorem installStep_memOk {h : Word} {c : Ctx} (hs : Kept kb c.s) : Kept kb (installStep h c) := by
  unfold installStep
  grind -linarith [onStep_memOk]

theorem markDone_memOk {c : Ctx} (hs : Kept kb c.s) : Kept kb (markDone c).s := hs

theorem markHeld_memOk {c : Ctx} (hs : Kept kb c.s) : Kept kb (markHeld c).s := hs

theorem leaveTaps_memOk {c0 : Ctx} {s : State} (hs : Kept kb s) : Kept kb (leaveTaps c0 s) := by
  unfold leaveTaps
  grind -linarith [foldBroken_memOk]

theorem endOp_memOk {h : Word} {l : List (ℕ × ℕ)} {c0 : Ctx} {r : OpEnd} {s : State} (hs : EndOk kb r) (hs1 : Kept kb s) :
    Kept kb (endOp h l c0 r s) := by
  cases r with
  | done c => exact afterOp_memOk (applyWatches_memOk (foldTaps_memOk (installStep_memOk (markDone_memOk hs))))
  | fail st => exact endRun_memOk (foldBroken_memOk hs1)
  | failWith c st => exact endRun_memOk (onRun_memOk (leaveTaps_memOk (installStep_memOk hs)))
  | suspend c =>
    have hbroken : Kept kb (foldBroken c0 (installStep h c)) := foldBroken_memOk (installStep_memOk hs)
    rw [endOp]
    exact suspendRun_memOk hbroken
  | noInput => exact finishRun_memOk (onRun_memOk hs1)
  | hold c => exact installStep_memOk (markHeld_memOk hs)
  | detected c u => exact detect_memOk (foldBroken_memOk (installStep_memOk hs))

theorem startWrites_memOk {c : Ctx} (hs : Kept kb c.s) : Kept kb (startWrites c).s := by
  unfold startWrites
  grind -linarith [foldl_ctx_memOk, _=_ kept_iff, foldl_memOk]

theorem keepChecks_memOk {f : ReadFaults} {r : OpEnd} (hs : EndOk kb r) : EndOk kb (keepChecks f r) := by
  cases r <;> exact hs

theorem runOp_memOk {h : Word} {op : ℕ} {kind : Operator} {f : ReadFaults} {pre : Ctx → Option Status} {body : Ctx → OpEnd} {s :
    State} (hs : ∀ c, Kept kb c.s → EndOk kb (body c)) (hs1 : Kept kb s) :
    Kept kb (runOp h op kind f pre body s) := by
  unfold runOp
  split
  · exact hs1
  next c hc =>
  have hfaults : Kept kb (applyFaults h f (onStep h (faultsTaken op) s)).s := applyFaults_memOk (onStep_memOk hs1)
  have hseen : Kept kb (refreshPoison h (applyFaults h f (onStep h (faultsTaken op) s)).s) := refreshPoison_memOk hfaults
  dsimp only
  repeat' split
  · exact hs1
  · exact onStep_memOk hs1
  · exact onStep_memOk (applyBreaks_memOk hs1)
  · exact foldBroken_memOk hseen
  · exact endRun_memOk (foldBroken_memOk hfaults)
  · exact onStep_memOk hseen
  · exact hseen
  · exact endRun_memOk hseen
  · exact dropRequests_memOk hseen
  · exact endRun_memOk hseen
  next _ _ c1 hc1 _ _ _ _ =>
  exact endOp_memOk (keepChecks_memOk (hs _ (startWrites_memOk (ctxOf_memOk hseen hc1)))) hseen

/-! ## Fabric -/

theorem leaveBy_memOk {port : ℕ} {m : Message} {s : State} (hs : Kept kb s) : Kept kb (leaveBy port m s) := hs

theorem holdMessage_memOk {m : Message} {s : State} (hs : Kept kb s) : Kept kb (holdMessage m s) := hs

theorem routeMessage_memOk {credits : List ℕ} {m : Message} {s : State} (hs : Kept kb s) : Kept kb (routeMessage credits m s) := by
  unfold routeMessage
  grind -linarith [leaveBy_memOk, holdMessage_memOk, _=_ kept_iff]

theorem sendIn_memOk {m : Message} {s : State} (hs : Kept kb s) : Kept kb (sendIn m s) := by
  unfold sendIn
  grind -linarith [routeMessage_memOk, holdMessage_memOk, _=_ kept_iff]

theorem makeFlowRoom_memOk {s : State} (hs : Kept kb s) : Kept kb (makeFlowRoom s) := by
  unfold makeFlowRoom
  grind -linarith [_=_ kept_iff, foldl_memOk]

theorem sendFlow_memOk {m : Message} {s : State} (hs : Kept kb s) : Kept kb (sendFlow m s) := by
  unfold sendFlow
  grind -linarith [sendIn_memOk, makeFlowRoom_memOk, _=_ kept_iff]

theorem openFlows_memOk {s : State} (hs : Kept kb s) : Kept kb (openFlows s) := by
  unfold openFlows
  grind -linarith [sendFlow_memOk, _=_ kept_iff, foldl_memOk]

theorem sendPlain_memOk {m : Message} {s : State} (hs : Kept kb s) : Kept kb (sendPlain m s) := by
  unfold sendPlain
  grind -linarith [routeMessage_memOk]

theorem retryWaiting_memOk {s : State} (hs : Kept kb s) : Kept kb (retryWaiting s) := by
  unfold retryWaiting
  grind -linarith [openFlows_memOk, routeMessage_memOk, holdMessage_memOk, _=_ kept_iff, foldl_memOk]

theorem closeFlows_memOk {s : State} (hs : Kept kb s) : Kept kb (closeFlows s) := by
  obtain ⟨hnear, hfar, hstaging, hpools, hstore, hflows⟩ := hs
  exact openFlows_memOk ⟨hnear, hfar, hstaging, hpools, hstore, flowsWithin_filter _ hflows⟩

theorem sendAck_memOk {f : FlowIn} {s : State} (hs : Kept kb s) : Kept kb (sendAck f s) := by
  unfold sendAck
  grind -linarith [sendPlain_memOk, _=_ kept_iff]

theorem putFlowIn_memOk {g : FlowIn} {s : State} (hs : MemOk s) : MemOk (putFlowIn g s) := by
  obtain ⟨hnear, hfar, hstaging, hpools, hstore, -⟩ := hs
  exact ⟨hnear, hfar, hstaging, hpools, hstore, flowsWithin_anyFlows _⟩

theorem joinFlow_memOk {m : Message} {s : State} (hs : MemOk s) : MemOk (joinFlow m s) := by
  unfold joinFlow
  grind -linarith [putFlowIn_memOk, _=_ kept_iff]

theorem dropStale_memOk {s : State} (hs : Kept kb s) : Kept kb (dropStale s) := by
  unfold dropStale
  grind -linarith [countStale_memOk, _=_ kept_iff]

theorem epochCheck_memOk {m : Message} {s : State} (hs : Kept kb s) : Kept kb (epochCheck m s).1 := by
  unfold epochCheck
  grind -linarith [sendPlain_memOk, dropStale_memOk]

theorem receivePlain_memOk {link kind : ℕ} {m : Message} {act : State → State} {s : State} (hs : ∀ s, Kept kb s → Kept kb (act s))
    (hs1 : Kept kb s) :
    Kept kb (receivePlain link kind m act s) := by
  unfold receivePlain
  grind -linarith [epochCheck_memOk]

theorem onFabricPort_memOk {n : ℕ} {f : FabricPort → FabricPort} {s : State} (hs : Kept kb s) : Kept kb (onFabricPort n f s) := hs

theorem execFabricLinkUp_memOk {port : Fin 6} {peer : PeerOutcome} {s t : State} (hs : Kept kb s) (hs1 : execFabricLinkUp port
    peer s = .next t) :
    Kept kb t := by
  unfold execFabricLinkUp at hs1
  grind -linarith [onFabricPort_memOk, retryWaiting_memOk, _=_ kept_iff]

theorem execFlitRetry_memOk {port : Fin 6} {lane : Fin 8} {s t : State} (hs : Kept kb s) (hs1 : execFlitRetry port lane s = .next
    t) :
    Kept kb t := by
  unfold execFlitRetry at hs1
  grind -linarith [onFabricPort_memOk, _=_ kept_iff]

theorem execRetrainTimeout_memOk {port : Fin 6} {s t : State} (hs : Kept kb s) (hs1 : execRetrainTimeout port s = .next t) :
    Kept kb t := by
  unfold execRetrainTimeout at hs1
  grind -linarith [onFabricPort_memOk, _=_ kept_iff]

theorem execFabricSignalLoss_memOk {port : Fin 6} {s t : State} (hs : Kept kb s) (hs1 : execFabricSignalLoss port s = .next t) :
    Kept kb t := by
  unfold execFabricSignalLoss at hs1
  grind -linarith [onFabricPort_memOk, _=_ kept_iff]

theorem execFabricForward_memOk {port : Fin 6} {m : Message} {credits : List ℕ} {s t : State} (hs : Kept kb s) (hs1 :
    execFabricForward port m credits s = .next t) :
    Kept kb t := by
  unfold execFabricForward at hs1
  grind -linarith [onFabricPort_memOk, sendPlain_memOk, routeMessage_memOk, _=_ kept_iff]

theorem execEscapeWait_memOk {m : Message} {s t : State} (hs : Kept kb s) (hs1 : execEscapeWait m s = .next t) : Kept kb t := by
  unfold execEscapeWait at hs1
  grind -linarith [routeMessage_memOk, _=_ kept_iff]

theorem execAck_memOk {link : ℕ} {m : Message} {s t : State} (hs : Kept kb s) (hs1 : execAck link m s = .next t) : Kept kb t := by
  unfold execAck at hs1
  grind -linarith [receivePlain_memOk, retryWaiting_memOk, _=_ kept_iff]

theorem execAckTimer_memOk {src flow : ℕ} {s t : State} (hs : MemOk s) (hs1 : execAckTimer src flow s = .next t) : MemOk t := by
  unfold execAckTimer at hs1
  obtain rfl := Host.Outcome.next.inj hs1
  exact foldl_memOk hs (fun _ _ hx => putFlowIn_memOk (sendAck_memOk hx))

theorem failRequester_memOk {m : Message} {st : Status} {s : State} (hs : Kept kb s) : Kept kb (failRequester m st s) := by
  unfold failRequester
  grind -linarith [endRun_memOk, _=_ kept_iff]

theorem execStale_memOk {link : ℕ} {m : Message} {s t : State} (hs : Kept kb s) (hs1 : execStale link m s = .next t) :
    Kept kb t := by
  unfold execStale at hs1
  grind -linarith [receivePlain_memOk, failRequester_memOk]

theorem execUnreachable_memOk {link : ℕ} {m : Message} {s t : State} (hs : Kept kb s) (hs1 : execUnreachable link m s = .next t) :
    Kept kb t := by
  unfold execUnreachable at hs1
  grind -linarith [receivePlain_memOk, failRequester_memOk]

theorem execFence_memOk {link : ℕ} {m : Message} {s t : State} (hs : Kept kb s) (hs1 : execFence link m s = .next t) :
    Kept kb t := by
  unfold execFence at hs1
  grind -linarith [receivePlain_memOk, enterFenced_memOk]

theorem execReqTimeout_memOk {plan : Word} {op : ℕ} {s t : State} (hs : Kept kb s) (hs1 : execReqTimeout plan op s = .next t) :
    Kept kb t := by
  unfold execReqTimeout at hs1
  grind -linarith [ctxOf_memOk, endRun_memOk, _=_ kept_iff]

theorem execCollTimeout_memOk {plan : Word} {op : ℕ} {s t : State} (hs : Kept kb s) (hs1 : execCollTimeout plan op s = .next t) :
    Kept kb t := by
  unfold execCollTimeout at hs1
  grind -linarith [endRun_memOk, _=_ kept_iff]

theorem applyFabricConfig_memOk {b : List Byte} {s : State} (hs : Kept kb s) : Kept kb (applyFabricConfig b s) := hs

theorem leaveFenced_memOk {s : State} (hs : Kept kb s) : Kept kb (leaveFenced s) := by
  unfold leaveFenced
  split <;> exact hs

theorem fabricConfigBody_memOk {r : CmdRef} {c : Chain} {s : State} (hs : Kept kb s) : Kept kb (fabricConfigBody r c s) := by
  unfold fabricConfigBody
  grind -linarith [complete_memOk, retryWaiting_memOk, applyFabricConfig_memOk, leaveFenced_memOk, _=_ kept_iff]

theorem countCorrections_memOk {s : State} (hs : Kept kb s) : Kept kb (countCorrections s) := by
  unfold countCorrections
  grind -linarith [takeFresh_memOk, _=_ kept_iff]

theorem fabricQueryBody_memOk {r : CmdRef} {c : Chain} {s : State} (hs : Kept kb s) : Kept kb (fabricQueryBody r c s) := by
  unfold fabricQueryBody
  grind -linarith [complete_memOk, countCorrections_memOk, completeData_memOk]

theorem raiseMinEpoch_memOk {es : List OwnerSet} {s : State} (hs : Kept kb s) : Kept kb (raiseMinEpoch es s) := hs

theorem ownerTableBody_memOk {r : CmdRef} {c : Chain} {s : State} (hs : Kept kb s) : Kept kb (ownerTableBody r c s) := by
  unfold ownerTableBody
  grind -linarith [complete_memOk, raiseMinEpoch_memOk, applyOwnerLoad_memOk, _=_ kept_iff]

/-! ## Layout -/

theorem rlTapsSee_memOk {i o : Descriptor} {c : Ctx} (hs : Kept kb c.s) : Kept kb (rlTapsSee i o c).s := by
  unfold rlTapsSee
  grind -linarith [freeTaps_memOk, foldStream_memOk, foldl_ctx_memOk, _=_ kept_iff, foldl_memOk]

theorem relayoutBody_memOk {c : Ctx} (hs : Kept kb c.s) : EndOk kb (relayoutBody c) := by
  have hput : ∀ (k : ℕ) (a : Int) (bs : List Byte) (x : Ctx), Kept kb x.s → Kept kb (dWrite k a bs x).s := fun _ _ _ _ => dWrite_memOk
  unfold relayoutBody
  dsimp only
  split
  · trivial
  split
  · exact rlTapsSee_memOk (bumps_memOk (countNans_memOk (foldl_ctx_memOk hs (fun _ _ => hput _ _ _ _))))
  · exact rlTapsSee_memOk (bumps_memOk (countNans_memOk
      (foldl_ctx_memOk (foldl_ctx_memOk hs (fun _ _ => hput _ _ _ _)) (fun _ _ => hput _ _ _ _))))

/-! ## Codec -/

theorem writeLogical_memOk {pos : ℕ} {bs : List Byte} {c : Ctx} (hs : Kept kb c.s) : Kept kb (writeLogical pos bs c).s := by
  unfold writeLogical
  grind -linarith [linearWrite_memOk, foldl_ctx_memOk, _=_ kept_iff, foldl_memOk]

theorem decodeFrames_memOk {faults : ReadFaults} {c0 : Ctx} {a : List ℕ} {a1 : ℕ} {a2 : Ctx} {a3 : DecodeTally} (hs : Kept kb a2.s) :
    Kept kb (decodeFrames faults c0 a a1 a2 a3).1.s := by
  fun_induction decodeFrames <;> grind -linarith [writeLogical_memOk, foldl_ctx_memOk, _=_ kept_iff, foldl_memOk]

theorem saveContext_memOk {x : CodecContext} {c : Ctx} (hs : Kept kb c.s) : Kept kb (saveContext x c).s := by
  have hfresh : Kept kb (takeFresh 2 c.s) := takeFresh_memOk hs
  unfold saveContext
  generalize takeFresh 2 c.s = y at hfresh ⊢
  dsimp only
  split
  · exact bump_memOk (setExt_memOk (onRun_memOk hfresh))
  · exact setExt_memOk (onRun_memOk hfresh)

theorem dropHeld_memOk {c : Ctx} (hs : Kept kb c.s) : Kept kb (dropHeld c).s := by
  unfold dropHeld
  grind -linarith [onRun_memOk, _=_ kept_iff]

theorem decodeOp_memOk {faults : ReadFaults} {c : Ctx} (hs : Kept kb c.s) : EndOk kb (decodeOp faults c) := by
  have hframes : Kept kb (decodeFrames faults c (List.range (par c 0 32)) 0 c { frames := 0, consumed := 0, codes := 0, clears := 0 }).1.s :=
    decodeFrames_memOk hs
  unfold decodeOp
  dsimp only
  generalize decodeFrames faults c (List.range (par c 0 32)) 0 c { frames := 0, consumed := 0, codes := 0, clears := 0 } = r at hframes ⊢
  obtain ⟨c1, t, e⟩ := r
  have hdropped : Kept kb (dropHeld c1).s := dropHeld_memOk hframes
  split
  · exact setExts_memOk hs
  · cases e with
    | all => exact setExts_memOk hdropped
    | failed f part checked => exact setExts_memOk hdropped
    | stopped f d =>
      cases d with
      | none => exact setExts_memOk hdropped
      | some d => exact setExts_memOk (saveContext_memOk hdropped)

theorem encodeOp_memOk {c : Ctx} (hs : Kept kb c.s) : EndOk kb (encodeOp c) := by
  unfold encodeOp
  grind -linarith [rowWrite_memOk, linearWrite_memOk, bumps_memOk, setExt_memOk, EndOk, foldl_ctx_memOk, foldl_memOk]

theorem ctxSpillBody_memOk {r : CmdRef} {c : Chain} {s : State} (hs : Kept kb s) : Kept kb (ctxSpillBody r c s) := by
  unfold ctxSpillBody
  grind -linarith [complete_memOk, storeSession_memOk, _=_ kept_iff]

theorem ctxFreeBody_memOk {r : CmdRef} {c : Chain} {s : State} (hs : Kept kb s) : Kept kb (ctxFreeBody r c s) := by
  unfold ctxFreeBody
  grind -linarith [complete_memOk, _=_ kept_iff]

theorem checkTapsSee_memOk {last : ℕ} {again : Option ℕ} {c : Ctx} (hs : Kept kb c.s) : Kept kb (checkTapsSee last again c).s := by
  unfold checkTapsSee
  grind -linarith [foldRanges_memOk, foldReads_memOk, freeTaps_memOk, _=_ kept_iff]

theorem checkOp_memOk {faults : ReadFaults} {c : Ctx} (hs : Kept kb c.s) : EndOk kb (checkOp faults c) := by
  unfold checkOp
  grind -linarith [bytesWrite_memOk, checkTapsSee_memOk, setExts_memOk, bump_memOk, EndOk, _=_ kept_iff]

/-! ## RowOps -/

theorem mapRows_memOk {c : Ctx} {f : Bool → List Byte → List Byte → RowResult} (hs : Kept kb c.s) : Kept kb (mapRows c f).s := by
  unfold mapRows
  grind -linarith [bumps_memOk, countNans_memOk, rowWrite_memOk, keepKeys_memOk, foldl_ctx_memOk, foldl_memOk]

/-! ## Record -/

theorem filterBody_memOk {c : Ctx} (hs : Kept kb c.s) : EndOk kb (filterBody c) := by
  unfold filterBody
  grind -linarith [bumps_memOk, maskWrite_memOk, EndOk]

theorem projectBody_memOk {c : Ctx} (hs : Kept kb c.s) : EndOk kb (projectBody c) := by
  unfold projectBody
  grind -linarith [mapRows_memOk, EndOk, foldl_ctx_memOk, foldl_memOk]

theorem hashBody_memOk {c : Ctx} (hs : Kept kb c.s) : EndOk kb (hashBody c) := by
  unfold hashBody
  grind -linarith [mapRows_memOk, EndOk]

theorem bucketBody_memOk {c : Ctx} (hs : Kept kb c.s) : EndOk kb (bucketBody c) := by
  unfold bucketBody
  grind -linarith [mapRows_memOk, EndOk, foldl_ctx_memOk, foldl_memOk]

theorem normaliseBody_memOk {c : Ctx} (hs : Kept kb c.s) : EndOk kb (normaliseBody c) := by
  unfold normaliseBody
  grind -linarith [mapRows_memOk, EndOk, foldl_ctx_memOk, _=_ kept_iff, foldl_memOk]

theorem sortBody_memOk {c : Ctx} (hs : Kept kb c.s) : EndOk kb (sortBody c) := by
  unfold sortBody
  grind -linarith [rowWrite_memOk, bytesWrite_memOk, bumps_memOk, EndOk, foldl_ctx_memOk, _=_ kept_iff, foldl_memOk]

/-! ## Stats -/

theorem putStats_memOk {l : List StagedStat} {bs : List Byte} {c : Ctx} (hs : Kept kb c.s) : Kept kb (putStats l bs c).s := by
  unfold putStats
  grind -linarith [bumps_memOk, bytesWrite_memOk]

theorem mergeStats_memOk {l : List StagedStat} {c : Ctx} (hs : Kept kb c.s) : Kept kb (mergeStats l c).s := by
  unfold mergeStats
  grind -linarith [putStats_memOk]

theorem statLocal_memOk {c : Ctx} (hs : Kept kb c.s) : Kept kb (statLocal c).2.s := by
  unfold statLocal
  grind -linarith [bump_memOk]

/-! ## Join -/

theorem tableWrite_memOk {k : ℕ} {h : TableHead} {step : ℕ} {slots : Sparse TableSlot} {c : Ctx} (hs : Kept kb c.s) :
    Kept kb (tableWrite k h step slots c).s := by
  unfold tableWrite
  grind -linarith [bytesWrite_memOk, foldl_ctx_memOk, foldl_memOk]

theorem joinBuildBody_memOk {c : Ctx} (hs : Kept kb c.s) : EndOk kb (joinBuildBody c) := by
  unfold joinBuildBody
  grind -linarith [bumps_memOk, tableWrite_memOk, EndOk, foldl_ctx_memOk, foldl_memOk]

theorem joinProbeBody_memOk {c : Ctx} (hs : Kept kb c.s) : EndOk kb (joinProbeBody c) := by
  unfold joinProbeBody
  grind -linarith [mapRows_memOk, maskWrite_memOk, EndOk, _=_ kept_iff]

theorem groupAggBody_memOk {c : Ctx} (hs : Kept kb c.s) : EndOk kb (groupAggBody c) := by
  unfold groupAggBody
  grind -linarith [bumps_memOk, EndOk, _=_ kept_iff]

theorem mergeGroup_memOk {c d : Ctx} (hs : Kept kb c.s) (hs1 : mergeGroup c = some d) : Kept kb d.s := by
  unfold mergeGroup at hs1
  grind -linarith [bumps_memOk, countNans_memOk, tableWrite_memOk, foldl_ctx_memOk, _=_ kept_iff, foldl_memOk]

/-! ## Tables -/

theorem tableCreateBody_memOk {r : CmdRef} {c : Chain} {s : State} (hs : Kept kb s) : Kept kb (tableCreateBody r c s) := by
  unfold tableCreateBody
  grind -linarith [complete_memOk, completeData_memOk, _=_ kept_iff, foldl_memOk]

theorem abortSlot_memOk {h : Word} {k : ℕ} {s : State} (hs : Kept kb s) : Kept kb (abortSlot h k s) := by
  unfold abortSlot
  grind -linarith [abortMigrations_memOk]

theorem tablePublishBody_memOk {r : CmdRef} {c : Chain} {s : State} (hs : Kept kb s) : Kept kb (tablePublishBody r c s) := by
  unfold tablePublishBody
  grind -linarith [complete_memOk, onTable_memOk, abortSlot_memOk, _=_ kept_iff]

theorem tableRetireBody_memOk {r : CmdRef} {c : Chain} {s : State} (hs : Kept kb s) : Kept kb (tableRetireBody r c s) := by
  unfold tableRetireBody
  grind -linarith [complete_memOk, onTable_memOk, abortSlot_memOk, settleSlot_memOk, _=_ kept_iff]

theorem policyBody_memOk {r : CmdRef} {c : Chain} {s : State} (hs : Kept kb s) : Kept kb (policyBody r c s) := by
  unfold policyBody
  grind -linarith [complete_memOk, onTable_memOk, _=_ kept_iff]

theorem policyQueryBody_memOk {r : CmdRef} {c : Chain} {s : State} (hs : Kept kb s) : Kept kb (policyQueryBody r c s) := by
  unfold policyQueryBody
  grind -linarith [complete_memOk, completeData_memOk, _=_ kept_iff]

theorem takeCandidate_memOk {h : Word} {pol : Policy} {k blk : ℕ} {s : State} (hs : Kept kb s) :
    Kept kb (takeCandidate h pol k blk s) := by
  unfold takeCandidate
  grind -linarith [startMigration_memOk, _=_ kept_iff]

theorem decayCounts_memOk {t : EmbTable} {shift : ℕ} {s : State} (hs : Kept kb s) : Kept kb (decayCounts t shift s) := by
  unfold decayCounts
  grind -linarith [setDir_memOk, _=_ kept_iff, foldl_memOk]

theorem execMigrationDecision_memOk {table : Word} {s t : State} (hs : Kept kb s) (hs1 : execMigrationDecision table s = .next t)
    :
    Kept kb t := by
  have htaken : ∀ (pol : Policy) (k : ℕ) (l : List ℕ),
      Kept kb (if pol.enable then l.foldl (fun x b => takeCandidate table pol k b x) s else s) := by
    intro pol k l
    split
    · exact foldl_memOk hs (fun _ _ => takeCandidate_memOk)
    · exact hs
  unfold execMigrationDecision at hs1
  obtain rfl := Host.Outcome.next.inj hs1
  dsimp only
  split
  · exact hs
  split
  · split
    · exact hs
    split
    · exact hs
    · exact onTable_memOk (decayCounts_memOk (htaken _ _ _))
  · exact hs

theorem copyRows_memOk {t : EmbTable} {m : Migration} {n : ℕ} {s : State} (hs : Kept kb s) : Kept kb (copyRows t m n s) := by
  unfold copyRows
  grind -linarith [onTable_memOk, copySession_memOk, _=_ kept_iff]

theorem execMigrationCopy_memOk {table : Word} {block : ℕ} {s t : State} (hs : Kept kb s) (hs1 : execMigrationCopy table block s =
    .next t) :
    Kept kb t := by
  unfold execMigrationCopy at hs1
  grind -linarith [copyRows_memOk, _=_ kept_iff]

theorem advanceCopies_memOk {h : Word} {k : ℕ} {s : State} (hs : Kept kb s) : Kept kb (advanceCopies h k s) := by
  unfold advanceCopies
  grind -linarith [takeFresh_memOk, copyRows_memOk, _=_ kept_iff, foldl_memOk]

theorem drainHold_memOk {t : EmbTable} {m : Migration} {s : State} (hs : Kept kb s) : Kept kb (drainHold t m s) := by
  unfold drainHold
  grind -linarith [copySession_memOk, foldl_memOk]

theorem flipMigrations_memOk {h : Word} {k : ℕ} {s : State} (hs : Kept kb s) : Kept kb (flipMigrations h k s) := by
  unfold flipMigrations
  grind -linarith [finishMigration_memOk, drainHold_memOk, _=_ kept_iff, foldl_memOk]

/-! ## Embed -/

theorem sendData_memOk {dest : ℕ} {epoch : BitVec 32} {cls kind : ℕ} {c : Ctx} {op rank dst phase : ℕ} {bs : List Byte} (hs :
    Kept kb c.s) :
    Kept kb (sendData dest epoch cls kind c op rank dst phase bs).s := by
  unfold sendData
  grind -linarith [sendFlow_memOk, foldl_ctx_memOk, _=_ kept_iff, foldl_memOk]

theorem mark_memOk {op phase src dst : ℕ} {c : Ctx} (hs : Kept kb c.s) : Kept kb (mark op phase src dst c).s := hs

theorem askTwin_memOk {sid : ℕ} {l : List (ℕ × ℕ)} {s : State} (hs : Kept kb s) : Kept kb (askTwin sid l s) := by
  unfold askTwin
  grind -linarith [startRefetch_memOk, _=_ kept_iff, foldl_memOk]

theorem countAccess_memOk {t : EmbTable} {k row : ℕ} {s : State} (hs : Kept kb s) : Kept kb (countAccess t k row s) := by
  unfold countAccess
  grind -linarith [setDir_memOk, _=_ kept_iff]

theorem tallyBumps_memOk {l : List (ℕ × ℕ)} {t : Tally} (hs : Kept kb t.c.s) : Kept kb (tallyBumps l t).c.s := by
  unfold tallyBumps
  grind -linarith [bumps_memOk, _=_ kept_iff]

theorem remoteRow_memOk {t : EmbTable} {row : ℕ} {own : Option FabricEntry} {y : Tally} (hs : Kept kb y.c.s) :
    Kept kb (remoteRow t row own y).2.c.s := by
  unfold remoteRow
  grind -linarith [mark_memOk, sendData_memOk, _=_ kept_iff]

theorem lookupOne_memOk {t : EmbTable} {k : ℕ} {p : EmbedParams} {code : ℕ} {y : Tally} (hs : Kept kb y.c.s) :
    Kept kb (lookupOne t k p code y).2.c.s := by
  have hbumped : ∀ l, Kept kb (tallyBumps l y).c.s := fun _ => tallyBumps_memOk hs
  unfold lookupOne
  grind -linarith [remoteRow_memOk, tallyBumps_memOk, countPoisoned_memOk, countDrops_memOk, askTwin_memOk, countAccess_memOk]

theorem lookupAll_memOk {t : EmbTable} {k : ℕ} {p : EmbedParams} {codes : List ℕ} {y : Tally} (hs : Kept kb y.c.s) :
    Kept kb (lookupAll t k p codes y).2.c.s :=
  List.foldlRecOn (motive := fun x : List (Option (List Byte)) × Tally => Kept kb x.2.c.s) _ _ hs (fun _ h _ _ => lookupOne_memOk
    h)

theorem endLookups_memOk {c0 : Ctx} {y : Tally} (hs : Kept kb y.c.s) : EndOk kb (endLookups c0 y) := by
  unfold endLookups
  grind -linarith [EndOk, _=_ kept_iff]

theorem gatherBody_memOk {c : Ctx} (hs : Kept kb c.s) : EndOk kb (gatherBody c) := by
  rcases hb : opTable c (embedParams .gather c.e).binding with _ | ⟨t, k⟩
  · simp only [gatherBody, hb, EndOk]
  have hrows := List.foldlRecOn (motive := fun x : List (List (Option (List Byte))) × Tally => Kept kb x.2.c.s) (rowsOf c
    (c.e.in0.getD 0))
    (fun (acc : List (List (Option (List Byte))) × Tally) r =>
      let row := rowRead c (c.e.in0.getD 0) r
      let p := embedParams .gather c.e
      if !maskBit c c.e.in1 r then (acc.1 ++ [List.replicate p.count none], acc.2)
      else if !present row p.idx then (acc.1 ++ [List.replicate p.count none], tallyBumps [(7, p.count)] acc.2)
      else
        let q := lookupAll t k p (refCodes row p.idx) acc.2
        (acc.1 ++ [q.1], q.2)) (b := ([], { c := c, wait := false, fail := none })) hs
    (fun acc h r _ => by grind -linarith [tallyBumps_memOk, lookupAll_memOk])
  grind -linarith [gatherBody, rowsWriteAt_memOk, maskWrite_memOk, endLookups_memOk, EndOk]

theorem poolGatherBody_memOk {c : Ctx} (hs : Kept kb c.s) : EndOk kb (poolGatherBody c) := by
  rcases hb : opTable c (embedParams .poolGather c.e).binding with _ | ⟨t, k⟩
  · simp only [poolGatherBody, hb, EndOk]
  have hrows := List.foldlRecOn (motive := fun x : List (Option (List FVal)) × Bool × Tally => Kept kb x.2.2.c.s) (rowsOf c
    (c.e.in0.getD 0))
    (fun (acc : List (Option (List FVal)) × Bool × Tally) r =>
      let p := embedParams .poolGather c.e
      let row := rowRead c (c.e.in0.getD 0) r
      if !maskBit c c.e.in1 r then (acc.1 ++ [none], acc.2)
      else
        let here := present row p.idx
        let codes := if here then refCodes row p.idx else []
        let q := lookupAll t k p codes (tallyBumps [(7, bitOf (!here))] acc.2.2)
        let got := (q.1.zip (bagWeights p row codes.length)).filterMap (fun (b, w) => b.map (fun x => (x, w)))
        let red := reduceBag (pf c.e 56 2) p.hasWeight (got.map (fun (x, w) => (tableVals t x, w)))
        (acc.1 ++ [red], acc.2.1 || got.any (fun x => badRow t x.1), tallyBumps [(8, bitOf red.isNone)] q.2))
    (b := ([], false, { c := c, wait := false, fail := none })) hs
    (fun acc h r _ => by grind -linarith [tallyBumps_memOk, lookupAll_memOk])
  grind -linarith [poolGatherBody, valuesWrite_memOk, countNans_memOk, foldl_ctx_memOk, maskWrite_memOk, endLookups_memOk, EndOk]

theorem stageOne_memOk {t : EmbTable} {k : ℕ} {p : EmbedParams} {r j code : ℕ} {u : List FVal} {y : Tally} (hs : Kept kb y.c.s) :
    Kept kb (stageOne t k p r j code u y).c.s := by
  unfold stageOne
  grind -linarith [bump_memOk, countDrops_memOk, countPoisoned_memOk, askTwin_memOk, sendData_memOk, _=_ kept_iff]

theorem scatterUpdateBody_memOk {c : Ctx} (hs : Kept kb c.s) : EndOk kb (scatterUpdateBody c) := by
  rcases hb : opTable c (embedParams .scatterUpdate c.e).binding with _ | ⟨t, k⟩
  · simp only [scatterUpdateBody, hb, EndOk]
  simp only [scatterUpdateBody, hb]
  generalize hy : List.foldl _ _ _ = y
  have hstaged : Kept kb y.c.s := by
    rw [← hy]
    refine List.foldlRecOn (motive := fun x : Tally => Kept kb x.c.s) _ _ hs (fun y h r _ => ?_)
    split
    · exact h
    · exact List.foldlRecOn (motive := fun x : Tally => Kept kb x.c.s) _ _ h (fun z h _ _ => stageOne_memOk h)
  split
  · trivial
  · grind -linarith [EndOk, _=_ kept_iff]

theorem bumpFor_memOk {g : Staged} {l : List (ℕ × ℕ)} {c : Ctx} (hs : Kept kb c.s) : Kept kb (bumpFor g l c).s := by
  unfold bumpFor
  grind -linarith [bumps_memOk, _=_ kept_iff]

theorem putIndex_memOk {off : ℕ} {bs : List Byte} {m : TableMerge} (hs : Kept kb m.c.s) : Kept kb (putIndex off bs m).c.s := by
  unfold putIndex
  grind -linarith [_=_ kept_iff]

theorem joinRow_memOk {row : ℕ} {new_ : Bool} {g : Staged} {m : TableMerge} (hs : Kept kb m.c.s) :
    Kept kb (joinRow row new_ g m).c.s := by
  unfold joinRow
  grind -linarith [_=_ kept_iff]

theorem refuse_memOk {g : Staged} {poison : Bool} {m : TableMerge} (hs : Kept kb m.c.s) : Kept kb (refuse g poison m).c.s := by
  unfold refuse
  grind -linarith [countPoisoned_memOk, bumpFor_memOk, countDrops_memOk, _=_ kept_iff]

theorem placeContribution_memOk {t : EmbTable} {k : ℕ} {m : TableMerge} {g : Staged} (hs : Kept kb m.c.s) :
    Kept kb (placeContribution t k m g).c.s := by
  unfold placeContribution
  grind -linarith [joinRow_memOk, refuse_memOk, putIndex_memOk, bumpFor_memOk, _=_ kept_iff]

theorem finish_memOk {m : TableMerge} {gs : List Staged} {row : ℕ} {bs : List Byte} {nans : ℕ} (hs : Kept kb m.c.s) :
    Kept kb (applyRow.finish m gs row bs nans).c.s := by
  unfold applyRow.finish
  grind -linarith [countNans_memOk, bumpFor_memOk]

theorem applyRow_memOk {t : EmbTable} {k : ℕ} {m : TableMerge} {x : ℕ × Bool × List Staged} (hs : Kept kb m.c.s) :
    Kept kb (applyRow t k m x).c.s := by
  unfold applyRow
  grind -linarith [finish_memOk, countPoisoned_memOk, bumpFor_memOk, foldl_ctx_memOk, _=_ kept_iff, foldl_memOk]

theorem mergeTable_memOk {t : EmbTable} {k : ℕ} {gs : List Staged} {c : Ctx} (hs : Kept kb c.s) :
    Kept kb (mergeTable t k gs c).c.s := by
  have hplaced := List.foldlRecOn (motive := fun m : TableMerge => Kept kb m.c.s) (gs.mergeSort (fun a b => keyLe a.key b.key))
    (placeContribution t k) (b := { c := c, index := [], rows := [], writes := [], malformed := false }) hs
    (fun _ h _ _ => placeContribution_memOk h)
  exact List.foldlRecOn (motive := fun m : TableMerge => Kept kb m.c.s) _ _ hplaced (fun _ h _ _ => applyRow_memOk h)

theorem holdRow_memOk {t : EmbTable} {k row step : ℕ} {s : State} (hs : Kept kb s) : Kept kb (holdRow t k row step s).1 := by
  unfold holdRow
  grind -linarith [abortMigrations_memOk, onTable_memOk, _=_ kept_iff]

theorem writeRow_memOk {t : EmbTable} {k step row : ℕ} {bs : List Byte} {s : State} (hs : Kept kb s) :
    Kept kb (writeRow t k step row bs s).1 := by
  unfold writeRow
  grind -linarith [countAccess_memOk, sessionWrite_memOk, setDir_memOk, mirrorRange_memOk, holdRow_memOk, _=_ kept_iff]

theorem writeIndex_memOk {t : EmbTable} {k : ℕ} {cells : List Host.Cell} {s : State} (hs : Kept kb s) :
    Kept kb (writeIndex t k cells s) := by
  unfold writeIndex
  grind -linarith [storeSession_memOk, foldl_memOk]

theorem serveRow_memOk {m : Message} {h : Word} {s : State} (hs : Kept kb s) : Kept kb (serveRow m h s) := by
  unfold serveRow
  grind -linarith [ctxOf_memOk, sendData_memOk, countAccess_memOk, _=_ kept_iff]

/-! ## Barrier -/

theorem deposit_memOk {kind op phase src dst : ℕ} {bs : List Byte} {c : Ctx} (hs : Kept kb c.s) :
    Kept kb (deposit kind op phase src dst bs c).s :=
  hs

theorem sendRank_memOk {kind op phase src dst : ℕ} {bs : List Byte} {c : Ctx} (hs : Kept kb c.s) :
    Kept kb (sendRank kind op phase src dst bs c).s := by
  unfold sendRank
  grind -linarith [deposit_memOk, sendData_memOk, _=_ kept_iff]

theorem arriveRank_memOk {op phase : ℕ} {own : ℕ → List Byte} {answer : List (ℕ × List Byte) → List Byte} {c : Ctx} {r : ℕ} (hs
    : Kept kb c.s) :
    Kept kb (arriveRank op phase own answer c r).s := by
  unfold arriveRank
  grind -linarith [mark_memOk, deposit_memOk, sendRank_memOk, _=_ kept_iff]

theorem releaseRank_memOk {op phase : ℕ} {c : Ctx} {r : ℕ} (hs : Kept kb c.s) : Kept kb (releaseRank op phase c r).s := by
  unfold releaseRank
  grind -linarith [sendRank_memOk, mark_memOk, foldl_ctx_memOk, _=_ kept_iff, foldl_memOk]

theorem barrierRun_memOk {op phase : ℕ} {own : ℕ → List Byte} {answer : List (ℕ × List Byte) → List Byte} {c : Ctx} (hs : Kept kb
    c.s) :
    Kept kb (barrierRun op phase own answer c).1.s := by
  unfold barrierRun
  grind -linarith [arriveRank_memOk, releaseRank_memOk, foldl_ctx_memOk, foldl_memOk]

theorem startAgreement_memOk {bring : List Byte} {c : Ctx} (hs : Kept kb c.s) : Kept kb (startAgreement bring c).1.s := by
  unfold startAgreement
  grind -linarith [barrierRun_memOk]

theorem barrierBody_memOk {c : Ctx} (hs : Kept kb c.s) : EndOk kb (barrierBody c) := by
  unfold barrierBody
  grind -linarith [barrierRun_memOk, EndOk]

/-! ## Dense -/

theorem putValues_memOk {k r nans : ℕ} {moved : List (Option ℕ)} {xs : List FVal} {c : Ctx} (hs : Kept kb c.s) :
    Kept kb (putValues k r nans moved xs c).s := by
  unfold putValues
  grind -linarith [countNans_memOk, rowWrite_memOk]

theorem eachRowMoving_memOk {c : Ctx} {moved : ℕ → List (Option ℕ)} {f : ℕ → List FVal → List FVal × ℕ × List (ℕ × ℕ)} (hs :
    Kept kb c.s) :
    Kept kb (eachRowMoving c moved f).s := by
  unfold eachRowMoving
  grind -linarith [bumps_memOk, putValues_memOk, foldl_ctx_memOk, foldl_memOk]

theorem eachRow_memOk {c : Ctx} {f : ℕ → List FVal → List FVal × ℕ × List (ℕ × ℕ)} (hs : Kept kb c.s) :
    Kept kb (eachRow c f).s := by
  unfold eachRow
  grind -linarith [eachRowMoving_memOk]

theorem densePass_memOk {weights : List (List Byte)} {c : Ctx} (hs : Kept kb c.s) : EndOk kb (densePass weights c) := by
  unfold densePass
  grind -linarith [eachRow_memOk, bumps_memOk, EndOk]

theorem relayForward_memOk {tree : List ℕ} {rank : ℕ} {bs : List Byte} {c : Ctx} (hs : Kept kb c.s) :
    Kept kb (relayForward tree rank bs c).s := by
  unfold relayForward
  grind -linarith [sendRank_memOk, mark_memOk, foldl_ctx_memOk, foldl_memOk]

theorem denseBody_memOk {c : Ctx} (hs : Kept kb c.s) : EndOk kb (denseBody c) := by
  unfold denseBody
  grind -linarith [densePass_memOk, barrierRun_memOk, relayForward_memOk, EndOk, _=_ kept_iff]

theorem activateBody_memOk {c : Ctx} (hs : Kept kb c.s) : EndOk kb (activateBody c) := by
  unfold activateBody
  grind -linarith [eachRowMoving_memOk, EndOk]

theorem normBody_memOk {c : Ctx} (hs : Kept kb c.s) : EndOk kb (normBody c) := by
  unfold normBody
  grind -linarith [eachRow_memOk, EndOk]

theorem interactBody_memOk {c : Ctx} (hs : Kept kb c.s) : EndOk kb (interactBody c) := by
  unfold interactBody
  grind -linarith [eachRowMoving_memOk, EndOk]

theorem softmaxBody_memOk {c : Ctx} (hs : Kept kb c.s) : EndOk kb (softmaxBody c) := by
  unfold softmaxBody
  grind -linarith [eachRow_memOk, EndOk]

theorem attendShortBody_memOk {c : Ctx} (hs : Kept kb c.s) : EndOk kb (attendShortBody c) := by
  unfold attendShortBody
  grind -linarith [eachRow_memOk, EndOk, _=_ kept_iff]

theorem gradInput_memOk {c : Ctx} (hs : Kept kb c.s) : EndOk kb (gradInput c) := by
  unfold gradInput
  grind -linarith [eachRow_memOk, bumps_memOk, EndOk]

theorem gradWeights_memOk {c : Ctx} (hs : Kept kb c.s) : EndOk kb (gradWeights c) := by
  unfold gradWeights
  grind -linarith [bumps_memOk, rowsWrite_memOk, EndOk]

theorem denseGradBody_memOk {c : Ctx} (hs : Kept kb c.s) : EndOk kb (denseGradBody c) := by
  unfold denseGradBody
  grind -linarith [gradWeights_memOk, gradInput_memOk, EndOk]

theorem optStepBody_memOk {c : Ctx} (hs : Kept kb c.s) : EndOk kb (optStepBody c) := by
  unfold optStepBody
  grind -linarith [countNans_memOk, rowWrite_memOk, bumps_memOk, EndOk, foldl_ctx_memOk, _=_ kept_iff, foldl_memOk]

/-! ## TopK -/

theorem putRecord_memOk {row : ℕ} {bs : List Byte} {c : Ctx} (hs : Kept kb c.s) : Kept kb (putRecord row bs c).s := by
  unfold putRecord
  grind -linarith [bumps_memOk, rowWrite_memOk]

theorem countScan_memOk {n : ℕ} {x : Scan} {c : Ctx} (hs : Kept kb c.s) : Kept kb (countScan n x c).s := by
  unfold countScan
  grind -linarith [bumps_memOk, countNans_memOk]

theorem topkBody_memOk {c : Ctx} (hs : Kept kb c.s) : EndOk kb (topkBody c) := by
  unfold topkBody
  grind -linarith [putRecord_memOk, countScan_memOk, EndOk, foldl_ctx_memOk, foldl_memOk]

theorem topKeep_memOk {node : ℕ} {t : TopList} {c : Ctx} (hs : Kept kb c.s) : Kept kb (topKeep node t c).s := by
  unfold topKeep
  grind -linarith [deposit_memOk]

theorem topMark_memOk {node : ℕ} {c : Ctx} (hs : Kept kb c.s) : Kept kb (topMark node c).s := by
  unfold topMark
  grind -linarith [deposit_memOk]

theorem topSendUp_memOk {ranks : List (ℕ × ℕ)} {row : ℕ} {c : Ctx} (hs : Kept kb c.s) : Kept kb (topSendUp ranks row c).s := by
  unfold topSendUp
  grind -linarith [sendRank_memOk, mark_memOk, foldl_ctx_memOk, _=_ kept_iff, foldl_memOk]

theorem topFinish_memOk {ranks : List (ℕ × ℕ)} {row : ℕ} {bs : List Byte} {c : Ctx} (hs : Kept kb c.s) :
    Kept kb (topFinish ranks row bs c).s := by
  unfold topFinish
  grind -linarith [topMark_memOk, putRecord_memOk, sendRank_memOk, mark_memOk, foldl_ctx_memOk, foldl_memOk]

theorem topRow_memOk {shares : List (ℕ × ℕ)} {c : Ctx} {row : ℕ} (hs : Kept kb c.s) : Kept kb (topRow shares c row).s := by
  unfold topRow
  grind -linarith [topSendUp_memOk, topFinish_memOk, _=_ kept_iff]

theorem topScanRow_memOk {shares : List (ℕ × ℕ)} {c : Ctx} {row : ℕ} (hs : Kept kb c.s) : Kept kb (topScanRow shares c row).s := by
  unfold topScanRow
  grind -linarith [topKeep_memOk, countScan_memOk, foldl_ctx_memOk, foldl_memOk]

theorem topAdvanced_memOk {shares : List (ℕ × ℕ)} {c : Ctx} (hs : Kept kb c.s) : Kept kb (topAdvanced shares c).s := by
  unfold topAdvanced
  grind -linarith [topMark_memOk, topScanRow_memOk, topRow_memOk, foldl_ctx_memOk, foldl_memOk]

theorem topAdvance_memOk {shares : List (ℕ × ℕ)} {c : Ctx} (hs : Kept kb c.s) : EndOk kb (topAdvance shares c) := by
  unfold topAdvance
  grind -linarith [topAdvanced_memOk, EndOk]

theorem topkCollectiveBody_memOk {c : Ctx} (hs : Kept kb c.s) : EndOk kb (topkCollectiveBody c) := by
  unfold topkCollectiveBody
  grind -linarith [topAdvance_memOk, barrierRun_memOk, EndOk, _=_ kept_iff]

theorem mergeNode_memOk {node : ℕ} {shares : List (ℕ × ℕ)} {c d : Ctx} (hs : Kept kb c.s) (hs1 : mergeNode node shares c = some d)
    :
    Kept kb d.s := by
  unfold mergeNode at hs1
  grind -linarith [bump_memOk, topKeep_memOk, _=_ kept_iff]

theorem execTopkMergeNode_memOk {plan : Word} {op node : ℕ} {s t : State} (hs : Kept kb s) (hs1 : execTopkMergeNode plan op node s
    = .next t) :
    Kept kb t := by
  rw [execTopkMergeNode] at hs1
  obtain rfl := Host.Outcome.next.inj hs1
  split
  · exact hs
  next c hc =>
  dsimp only
  split
  · exact hs
  split
  · exact hs
  split
  · exact hs
  next d hd =>
  have hmerged : Kept kb d.s := mergeNode_memOk (ctxOf_memOk hs hc) hd
  exact endOp_memOk (topAdvance_memOk hmerged) hs

/-! ## Match -/

theorem basinLoadBody_memOk {r : CmdRef} {c : Chain} {s : State} (hs : Kept kb s) : Kept kb (basinLoadBody r c s) := by
  unfold basinLoadBody
  grind -linarith [complete_memOk, settleLoads_memOk, _=_ kept_iff]

theorem boundaryLoads_memOk {h : Word} {first : ℕ} {s : State} (hs : Kept kb s) : Kept kb (boundaryLoads h first s).1 := by
  unfold boundaryLoads
  grind -linarith [doLoad_memOk, _=_ kept_iff, foldl_memOk]

theorem basinSearchBody_memOk {r : CmdRef} {c : Chain} {s : State} (hs : Kept kb s) : Kept kb (basinSearchBody r c s) := by
  unfold basinSearchBody
  grind -linarith [complete_memOk]

theorem scrubRow_memOk {s : State} {row : ℕ} (hs : Kept kb s) : Kept kb (scrubRow s row) := by
  unfold scrubRow
  grind -linarith [detect_memOk, chargeRate_memOk, foldl_memOk]

theorem execBasinScrub_memOk {badRows : List ℕ} {s t : State} (hs : Kept kb s) (hs1 : execBasinScrub badRows s = .next t) :
    Kept kb t := by
  unfold execBasinScrub at hs1
  grind -linarith [scrubRow_memOk, foldl_memOk]

theorem putMatches_memOk {p : MatchParams} {results : List ((ℕ × ℕ × ℕ) × Option Hit)} {c : Ctx} (hs : Kept kb c.s) :
    Kept kb (putMatches p results c).s := by
  unfold putMatches
  grind -linarith [rowWrite_memOk, bumps_memOk, foldl_ctx_memOk, foldl_memOk]

theorem onChain_memOk {f : Cascade → Cascade} {s : State} (hs : Kept kb s) : Kept kb (onChain f s) := hs

theorem chainBegin_memOk {t : ChainTag} {s : State} (hs : Kept kb s) : Kept kb (chainBegin t s) := by
  unfold chainBegin
  grind -linarith [onChain_memOk, _=_ kept_iff]

theorem respondRank_memOk {kind op phase src dst : ℕ} {bs : List Byte} {c : Ctx} (hs : Kept kb c.s) :
    Kept kb (respondRank kind op phase src dst bs c).s := by
  unfold respondRank
  grind -linarith [deposit_memOk, sendData_memOk, _=_ kept_iff]

theorem tellError_memOk {attempt : ℕ} {c : Ctx} (hs : Kept kb c.s) : Kept kb (tellError attempt c).s := by
  unfold tellError
  grind -linarith [respondRank_memOk, foldl_ctx_memOk, foldl_memOk]

theorem issueSearch_memOk {p : MatchParams} {seq key : ℕ} {c : Ctx} (hs : Kept kb c.s) : Kept kb (issueSearch p seq key c).s := by
  unfold issueSearch
  grind -linarith [sendRank_memOk, mark_memOk, bump_memOk, onChain_memOk, foldl_ctx_memOk, _=_ kept_iff, foldl_memOk]

theorem headAdvance_memOk {p : MatchParams} {c : Ctx} (hs : Kept kb c.s) : Kept kb (headAdvance p c).1.s := by
  unfold headAdvance
  grind -linarith [issueSearch_memOk, mark_memOk, putMatches_memOk, foldl_ctx_memOk, foldl_memOk]

theorem memberResolve_memOk {p : MatchParams} {shares : List (ℕ × List Byte)} {t : ChainTag} {c : Ctx} (hs : Kept kb c.s) :
    Kept kb (memberResolve p shares t c).s := by
  unfold memberResolve
  grind -linarith [onChain_memOk, respondRank_memOk, bump_memOk, foldl_ctx_memOk, _=_ kept_iff, foldl_memOk]

theorem memberSearch_memOk {p : MatchParams} {c : Ctx} {a : Arrival} (hs : Kept kb c.s) : Kept kb (memberSearch p c a).s := by
  unfold memberSearch
  grind -linarith [mark_memOk, chainBegin_memOk, bumps_memOk, onChain_memOk, _=_ kept_iff]

theorem memberAdvance_memOk {p : MatchParams} {shares : List (ℕ × List Byte)} {c : Ctx} (hs : Kept kb c.s) :
    Kept kb (memberAdvance p shares c).s := by
  unfold memberAdvance
  grind -linarith [memberSearch_memOk, memberResolve_memOk, foldl_ctx_memOk, _=_ kept_iff, foldl_memOk]

theorem chainBody_memOk {p : MatchParams} {c : Ctx} (hs : Kept kb c.s) : EndOk kb (chainBody p c) := by
  unfold chainBody
  grind -linarith [barrierRun_memOk, chainBegin_memOk, mark_memOk, headAdvance_memOk, memberAdvance_memOk, EndOk, _=_ kept_iff]

theorem matchBody_memOk {c : Ctx} (hs : Kept kb c.s) : EndOk kb (matchBody c) := by
  unfold matchBody
  grind -linarith [putMatches_memOk, chainBody_memOk, EndOk]

theorem takeSync_memOk {n : ℕ} {s : State} (hs : Kept kb s) : Kept kb (takeSync n s) := by
  unfold takeSync
  grind -linarith [onChain_memOk, _=_ kept_iff]

theorem execCascadeSync_memOk {count : ℕ} {s t : State} (hs : Kept kb s) (hs1 : execCascadeSync count s = .next t) : Kept kb t := by
  unfold execCascadeSync at hs1
  grind -linarith [takeSync_memOk]

theorem chainError_memOk {t : ChainTag} {c : Ctx} (hs : Kept kb c.s) : Kept kb (chainError t c) := by
  exact detect_memOk (onRun_memOk (installStep_memOk (chainBegin_memOk (mark_memOk (tellError_memOk hs)))))

theorem chainCtx_memOk {s : State} {d : ChainTag × Ctx} (hs : Kept kb s) (hs1 : chainCtx s = some d) : Kept kb d.2.s := by
  simp only [chainCtx, Option.bind_eq_some_iff] at hs1
  obtain ⟨t, -, c, hc, hd⟩ := hs1
  grind -linarith [ctxOf_memOk]

theorem execCascadeWord_memOk {word : Word} {s t : State} (hs : Kept kb s) (hs1 : execCascadeWord word s = .next t) :
    Kept kb t := by
  rw [execCascadeWord] at hs1
  obtain rfl := Host.Outcome.next.inj hs1
  split
  · exact hs
  split
  · exact takeSync_memOk hs
  split
  · exact onChain_memOk hs
  split
  · exact hs
  split
  · exact hs
  next _ _ t c hc =>
  dsimp only
  split
  · exact chainError_memOk (chainCtx_memOk hs hc)
  · exact installStep_memOk (memberResolve_memOk (onChain_memOk hs))

theorem endCascadeRuns_memOk {s : State} (hs : Kept kb s) : Kept kb (endCascadeRuns s) := by
  unfold endCascadeRuns
  grind -linarith [endRun_memOk, foldl_memOk]

theorem execCascadeLockTimeout_memOk {s t : State} (hs : Kept kb s) (hs1 : execCascadeLockTimeout s = .next t) : Kept kb t := by
  unfold execCascadeLockTimeout at hs1
  grind -linarith [endCascadeRuns_memOk]

theorem execCascadeLockLoss_memOk {s t : State} (hs : Kept kb s) (hs1 : execCascadeLockLoss s = .next t) : Kept kb t := by
  unfold execCascadeLockLoss at hs1
  grind -linarith [endCascadeRuns_memOk, onChain_memOk, _=_ kept_iff]

theorem execSearchTimeout_memOk {plan : Word} {seq : ℕ} {s t : State} (hs : Kept kb s) (hs1 : execSearchTimeout plan seq s = .next
    t) :
    Kept kb t := by
  unfold execSearchTimeout at hs1
  grind -linarith [ctxOf_memOk, endRun_memOk, _=_ kept_iff]

/-! ## Collective -/

theorem collective_memOk {share : List Byte} {body : Ctx → OpEnd} {c : Ctx} (hs : ∀ c, Kept kb c.s → EndOk kb (body c)) (hs1 : Kept kb
    c.s) :
    EndOk kb (collective share body c) := by
  unfold collective
  grind -linarith [startAgreement_memOk, EndOk, _=_ kept_iff]

theorem sendCounted_memOk {kind phase src dst rows : ℕ} {bs : List Byte} {c : Ctx} (hs : Kept kb c.s) :
    Kept kb (sendCounted kind phase src dst rows bs c).s := by
  unfold sendCounted
  grind -linarith [sendRank_memOk, bumps_memOk]

theorem countReceived_memOk {l : List (ℕ × ℕ × List Byte)} {rows : List Byte → ℕ} {c : Ctx} (hs : Kept kb c.s) :
    Kept kb (countReceived l rows c).s := by
  unfold countReceived
  grind -linarith [bumps_memOk, takeFresh_memOk, _=_ kept_iff]

theorem exchangeSendRows_memOk {rows : List (ℕ × TravelRow)} {c : Ctx} (hs : Kept kb c.s) :
    Kept kb (exchangeSendRows rows c).s := by
  unfold exchangeSendRows
  grind -linarith [sendCounted_memOk, mark_memOk, foldl_ctx_memOk, foldl_memOk]

theorem exchangeFill_memOk {rows : List TravelRow} {c : Ctx} (hs : Kept kb c.s) : EndOk kb (exchangeFill rows c) := by
  unfold exchangeFill
  grind -linarith [rowWrite_memOk, putKeys_memOk, maskWrite_memOk, EndOk, foldl_ctx_memOk, _=_ kept_iff, foldl_memOk]

theorem exchangeLand_memOk {rows : List TravelRow} {c : Ctx} (hs : Kept kb c.s) : EndOk kb (exchangeLand rows c) := by
  unfold exchangeLand
  grind -linarith [rowWrite_memOk, putKeys_memOk, maskWrite_memOk, EndOk, foldl_ctx_memOk, _=_ kept_iff, foldl_memOk]

theorem exchangeSent_memOk {c : Ctx} (hs : Kept kb c.s) : Kept kb (exchangeSent c).s := by
  unfold exchangeSent
  grind -linarith [exchangeSendRows_memOk]

theorem exchangeMain_memOk {c : Ctx} (hs : Kept kb c.s) : EndOk kb (exchangeMain c) := by
  unfold exchangeMain
  grind -linarith [exchangeSent_memOk, bump_memOk, countReceived_memOk, exchangeLand_memOk, exchangeFill_memOk, EndOk, _=_ kept_iff]

theorem exchangeBody_memOk {c : Ctx} (hs : Kept kb c.s) : EndOk kb (exchangeBody c) := by
  unfold exchangeBody
  grind -linarith [collective_memOk, exchangeMain_memOk, EndOk]

theorem reduceShare_memOk {n : ℕ} {c : Ctx} {seg : ℕ} (hs : Kept kb c.s) : Kept kb (reduceShare n c seg).s := by
  unfold reduceShare
  grind -linarith [sendCounted_memOk, mark_memOk, foldl_ctx_memOk, _=_ kept_iff, foldl_memOk]

theorem reduceSent_memOk {c : Ctx} (hs : Kept kb c.s) : Kept kb (reduceSent c).s := by
  unfold reduceSent
  grind -linarith [sendCounted_memOk, mark_memOk, reduceShare_memOk, foldl_ctx_memOk, foldl_memOk]

theorem reduceMain_memOk {c : Ctx} (hs : Kept kb c.s) : EndOk kb (reduceMain c) := by
  unfold reduceMain
  grind -linarith [reduceSent_memOk, countReceived_memOk, rowsWrite_memOk, EndOk, _=_ kept_iff]

theorem reduceBody_memOk {c : Ctx} (hs : Kept kb c.s) : EndOk kb (reduceBody c) := by
  unfold reduceBody
  grind -linarith [collective_memOk, reduceMain_memOk, EndOk]

theorem allgatherSent_memOk {c : Ctx} (hs : Kept kb c.s) : Kept kb (allgatherSent c).s := by
  unfold allgatherSent
  grind -linarith [sendCounted_memOk, mark_memOk, foldl_ctx_memOk, foldl_memOk]

theorem allgatherMain_memOk {c : Ctx} (hs : Kept kb c.s) : EndOk kb (allgatherMain c) := by
  unfold allgatherMain
  grind -linarith [allgatherSent_memOk, countReceived_memOk, rowsWrite_memOk, EndOk, _=_ kept_iff]

theorem allgatherBody_memOk {c : Ctx} (hs : Kept kb c.s) : EndOk kb (allgatherBody c) := by
  unfold allgatherBody
  grind -linarith [collective_memOk, allgatherMain_memOk, EndOk]

theorem globalStats_memOk {barrierOp phase : ℕ} {l : List StagedStat} {c : Ctx} (hs : Kept kb c.s) :
    Kept kb (globalStats barrierOp phase l c).1.s := by
  unfold globalStats
  grind -linarith [barrierRun_memOk]

theorem statsBody_memOk {c : Ctx} (hs : Kept kb c.s) : EndOk kb (statsBody c) := by
  unfold statsBody
  grind -linarith [statLocal_memOk, globalStats_memOk, putStats_memOk, mergeStats_memOk, EndOk, _=_ kept_iff]

/-! ## Ingest -/

theorem writeBatch_memOk {pr : ScanParams} {first : Bool} {f : Forming} {c : Ctx} (hs : Kept kb c.s) :
    Kept kb (writeBatch pr first f c).s := by
  unfold writeBatch
  grind -linarith [rowsWrite_memOk, linearWrite_memOk, takeFresh_memOk, bumps_memOk, countRejected_memOk, countNans_memOk, _=_ kept_iff]

theorem scanTapsSee_memOk {pr : ScanParams} {c : Ctx} (hs : Kept kb c.s) : Kept kb (scanTapsSee pr c).s := by
  unfold scanTapsSee
  grind -linarith [freeTaps_memOk, _=_ kept_iff]

theorem scanOp_memOk {c : Ctx} (hs : Kept kb c.s) : EndOk kb (scanOp c) := by
  have hkeep : ∀ (pr : ScanParams) (x : Ctx), Kept kb x.s →
      Kept kb (scanTapsSee pr { x with s := onRun x.p.handle (fun r => { r with manifest := x.o.batch }) x.s }).s :=
    fun _ _ hx => scanTapsSee_memOk (onRun_memOk hx)
  have hfresh : ∀ b : Bool, Kept kb (if b then ({ c with s := takeFresh 1 c.s } : Ctx) else c).s := by
    intro b
    split
    · exact takeFresh_memOk hs
    · exact hs
  unfold scanOp
  dsimp only
  split
  · trivial
  split
  · trivial
  split
  · trivial
  · exact hkeep _ _ (writeBatch_memOk hs)
  · split
    · trivial
    · exact hkeep _ _ (writeBatch_memOk (hfresh _))

theorem timeoutBatch_memOk {h : Word} {s : State} (hs : Kept kb s) : Kept kb (timeoutBatch h s) := by
  unfold timeoutBatch
  grind -linarith [onStep_memOk, _=_ kept_iff]

theorem execBatchTimeout_memOk {plan : Word} {s t : State} (hs : Kept kb s) (hs1 : execBatchTimeout plan s = .next t) :
    Kept kb t := by
  unfold execBatchTimeout at hs1
  grind -linarith [timeoutBatch_memOk]

/-! ## Emit -/

theorem emitBody_memOk {c : Ctx} (hs : Kept kb c.s) : EndOk kb (emitBody c) := by
  unfold emitBody
  grind -linarith [EndOk, _=_ kept_iff]

/-! ## PlanLoad -/

theorem addPlan_memOk {p : Plan} {s : State} (hs : Kept kb s) : Kept kb (addPlan p s) := by
  unfold addPlan
  grind -linarith [writeMaps_memOk, _=_ kept_iff]

theorem planLoadBody_memOk {r : CmdRef} {c : Chain} {s : State} (hs : Kept kb s) : Kept kb (planLoadBody r c s) := by
  unfold planLoadBody
  grind -linarith [complete_memOk, addPlan_memOk, _=_ kept_iff]

end

end Sys2Proof.Machine
end

section
/-!
PROOFS. The canonical form of the memories, continued: boundaries, registers, pins, the fabric, the pair and the debug ports.
-/

namespace Sys2Proof.Machine

-- One after the other: many threads at once pass the limit on memory.
set_option Elab.async false

section
variable {kb : KeptBound}

/-! ## Boundary -/

theorem replaceNow_memOk {h : Word} {s : State} (hs : Kept kb s) : Kept kb (replaceNow h s) := by
  unfold replaceNow
  grind -linarith [settleParking_memOk, replacePlan_memOk, _=_ kept_iff]

theorem beginStep_memOk {h : Word} {s : State} (hs : Kept kb s) : Kept kb (beginStep h s) := by
  unfold beginStep
  grind -linarith [replaceNow_memOk, endRun_memOk, holdSlot_memOk, onRun_memOk, _=_ kept_iff, foldl_memOk]

theorem startSteps_memOk {last : Word} {s : State} (hs : Kept kb s) : Kept kb (startSteps last s) := by
  unfold startSteps
  grind -linarith [beginStep_memOk, _=_ kept_iff, foldl_memOk]

theorem opCtx_memOk {p : Plan} {r : Run} {o : OpenStep} {s : State} {k : ℕ} (hs : Kept kb s) : Kept kb (opCtx p r o s k).s := hs

theorem atOp_memOk {k : ℕ} {c : Ctx} (hs : Kept kb c.s) : Kept kb (atOp k c).s := by
  unfold atOp
  grind -linarith [opCtx_memOk]

theorem gatherStats_memOk {c : Ctx} (hs : Kept kb c.s) : Kept kb (gatherStats c).1.s :=
  List.foldlRecOn (motive := fun x : Ctx × Bool => Kept kb x.1.s) _ _ hs (fun _ h _ _ => globalStats_memOk (atOp_memOk h))

theorem mergeOps_memOk {c d : Ctx} (hs : Kept kb c.s) (hs1 : mergeOps c = some d) : Kept kb d.s := by
  unfold mergeOps at hs1
  refine List.foldlRecOn (motive := fun x : Option Ctx => ∀ d, x = some d → Kept kb d.s) _ _ ?_ ?_ d hs1
  · rintro _ ⟨⟩
    exact foldl_ctx_memOk hs (fun x k h => by grind -linarith [putStats_memOk, mergeStats_memOk, atOp_memOk])
  · intro acc h k _ y hy
    obtain ⟨x, rfl, hx⟩ := Option.bind_eq_some_iff.mp hy
    exact mergeGroup_memOk (atOp_memOk (h x rfl)) hx

theorem mergeSlots_memOk {c : Ctx} {d : Ctx × List SlotWrites} (hs : Kept kb c.s) (hs1 : mergeSlots c = some d) :
    Kept kb d.1.s := by
  unfold mergeSlots at hs1
  refine List.foldlRecOn (motive := fun x : Option (Ctx × List SlotWrites) => ∀ d, x = some d → Kept kb d.1.s) _ _ ?_ ?_ d hs1
  · rintro _ ⟨⟩
    exact hs
  · intro acc h hk _ y hy
    obtain ⟨⟨x, ws⟩, rfl, hx⟩ := Option.bind_eq_some_iff.mp hy
    have hok : Kept kb x.s := h _ rfl
    grind -linarith [mergeTable_memOk, atOp_memOk]

theorem writeMerged_memOk {w : SlotWrites} {step : ℕ} {c : Ctx} {r : ℕ × ℕ × List Byte} (hs : Kept kb c.s) :
    Kept kb (writeMerged w step c r).s := by
  unfold writeMerged
  grind -linarith [writeRow_memOk, atOp_memOk, bump_memOk, _=_ kept_iff]

theorem writeSlots_memOk {step : ℕ} {ws : List SlotWrites} {c : Ctx} (hs : Kept kb c.s) : Kept kb (writeSlots step ws c).s := by
  unfold writeSlots
  grind -linarith [writeMerged_memOk, advanceCopies_memOk, writeIndex_memOk, foldl_ctx_memOk, _=_ kept_iff, foldl_memOk]

theorem countCoalesced_memOk {c : Ctx} (hs : Kept kb c.s) : Kept kb (countCoalesced c).s := by
  unfold countCoalesced
  grind -linarith [atOp_memOk, bump_memOk, foldl_ctx_memOk, foldl_memOk]

theorem mergeLoads_memOk {c : Ctx} (hs : Kept kb c.s) : Kept kb (mergeLoads c).s := by
  unfold mergeLoads
  grind -linarith [boundaryLoads_memOk, bump_memOk, atOp_memOk, foldl_ctx_memOk, _=_ kept_iff, foldl_memOk]

theorem foldMerge_memOk {c : Ctx} {ws : List SlotWrites} {s : State} (hs : Kept kb s) :
    Kept kb (foldMerge c ws s) := by
  unfold foldMerge
  grind -linarith [atOp_memOk, freeTaps_memOk]

theorem writeOutputs_memOk {sid : ℕ} {sectors : List (ℕ × List Byte)} {s : State} (hs : Kept kb s) :
    Kept kb (writeOutputs sid sectors s) := by
  unfold writeOutputs
  grind -linarith [storeSession_memOk, foldl_memOk]

theorem writeStaging_memOk {cells : List Host.Cell} {s : State} (hs : Kept kb s) : Kept kb (writeStaging cells s) := by
  unfold writeStaging
  grind -linarith [putStaging_memOk, foldl_memOk]

theorem mirrorCommit_memOk {r : CommitRecord} {bytes : ℕ} {s : State} (hs : Kept kb s) : Kept kb (mirrorCommit r bytes s) := by
  unfold mirrorCommit
  grind -linarith [sendTwin_memOk, onPlan_memOk, _=_ kept_iff]

theorem writeCommit_memOk {c : Ctx} {ws : List SlotWrites} (hs : Kept kb c.s) : Kept kb (writeCommit c ws) := by
  unfold writeCommit
  grind -linarith [writeSlots_memOk, foldMerge_memOk, writeStaging_memOk, writeOutputs_memOk, onPlan_memOk, onRun_memOk,
    mirrorCommit_memOk, _=_ kept_iff]

theorem holdStep_memOk {c : Ctx} (hs : Kept kb c.s) : Kept kb (holdStep c) := by
  unfold holdStep
  grind -linarith [onStep_memOk, _=_ kept_iff]

theorem ranksDrained_memOk {c : Ctx} (hs : Kept kb c.s) : Kept kb (ranksDrained c).1.s := by
  unfold ranksDrained
  grind -linarith [barrierRun_memOk]

theorem mergeAndCommit_memOk {c : Ctx} (hs : Kept kb c.s) : Kept kb (mergeAndCommit c) := by
  have hdrained : Kept kb (gatherStats (ranksDrained c).1).1.s := gatherStats_memOk (ranksDrained_memOk hs)
  unfold mergeAndCommit
  dsimp only
  split
  · exact holdStep_memOk hdrained
  split
  · exact endRun_memOk hdrained
  next _ _ c1 hops =>
  have hmerged : Kept kb c1.s := mergeOps_memOk hdrained hops
  split
  · exact endRun_memOk hmerged
  next _ _ c2 ws hslots =>
  have hplaced : Kept kb c2.s := mergeSlots_memOk hmerged hslots
  have hcommit : Kept kb (writeCommit (mergeLoads (countCoalesced c2)) ws) :=
    writeCommit_memOk (mergeLoads_memOk (countCoalesced_memOk hplaced))
  repeat' split
  · exact hcommit
  · exact endRun_memOk hplaced
  · exact holdStep_memOk hdrained
  · exact hcommit

theorem flipOwners_memOk {h : Word} {next : ℕ} {s : State} (hs : Kept kb s) : Kept kb (flipOwners h next s) := by
  unfold flipOwners
  grind -linarith [applyOwnerLoad_memOk, _=_ kept_iff, foldl_memOk]

theorem flipTables_memOk {p : Plan} {s : State} (hs : Kept kb s) : Kept kb (flipTables p s) := by
  unfold flipTables
  grind -linarith [flipMigrations_memOk, foldl_memOk]

theorem settleHandback_memOk {s : State} (hs : Kept kb s) : Kept kb (settleHandback s) := by
  unfold settleHandback
  grind -linarith [completeTwin_memOk, _=_ kept_iff]

theorem leaveCommitted_memOk {h : Word} {o : OpenStep} {s : State} (hs : Kept kb s) : Kept kb (leaveCommitted h o s) := by
  unfold leaveCommitted
  grind -linarith [leaveStep_memOk, onPlan_memOk, _=_ kept_iff]

theorem suspendBlocked_memOk {h : Word} {step : ℕ} {s : State} (hs : Kept kb s) : Kept kb (suspendBlocked h step s) := by
  unfold suspendBlocked
  grind -linarith [suspendRun_memOk, _=_ kept_iff]

theorem afterAdvance_memOk {h : Word} {step : ℕ} {s : State} (hs : Kept kb s) : Kept kb (afterAdvance h step s) := by
  unfold afterAdvance
  grind -linarith [endRun_memOk, finishRun_memOk, suspendBlocked_memOk, _=_ kept_iff]

theorem replaceIdleNow_memOk {s : State} (hs : Kept kb s) : Kept kb (replaceIdleNow s) := by
  unfold replaceIdleNow
  grind -linarith [settleParking_memOk, replaceIdle_memOk]

theorem flipStep_memOk {p : Plan} {o : OpenStep} {s : State} (hs : Kept kb s) : Kept kb (flipStep p o s) := by
  have hleft : Kept kb (boundaryClocks (boundaryUnits (leaveCommitted p.handle o (flipTables p (flipOwners p.handle (p.nextStep + 1) s))))) :=
    boundaryClocks_memOk (boundaryUnits_memOk (leaveCommitted_memOk (flipTables_memOk (flipOwners_memOk hs))))
  unfold flipStep
  dsimp only
  refine startSteps_memOk (replaceIdleNow_memOk (resumeCloses_memOk (settleHandback_memOk (afterAdvance_memOk ?_))))
  split
  · exact closeFlows_memOk hleft
  · exact hleft

theorem tryFlip_memOk {h : Word} {s : State} (hs : Kept kb s) : Kept kb (tryFlip h s) := by
  unfold tryFlip
  split
  · exact hs
  split
  · exact hs
  split
  · exact hs
  next _ p _ _ r _ _ o _ =>
  have hheld : Kept kb (holdStep (barrierRun (barrierOp p) 0 (fun _ => []) (fun _ => []) (opCtx p r o s (barrierOp p))).1) :=
    holdStep_memOk (barrierRun_memOk (opCtx_memOk hs))
  grind -linarith [flipStep_memOk]

theorem stepBoundary_memOk {h : Word} {f : ReadFaults} {s : State} (hs : Kept kb s) : Kept kb (stepBoundary h f s) := by
  have hfaults : ∀ x, Kept kb (applyFaults h f (onStep h x s)).s := fun x => applyFaults_memOk (onStep_memOk hs)
  have hpoison : ∀ x, Kept kb (refreshPoison h (applyFaults h f (onStep h x s)).s) := fun x => refreshPoison_memOk (hfaults x)
  unfold stepBoundary
  split
  · exact hs
  split
  · exact hs
  split
  · exact hs
  grind -linarith [tryFlip_memOk, onStep_memOk, endRun_memOk, mergeAndCommit_memOk, opCtx_memOk]

theorem resumeBoundary_memOk {h : Word} {s : State} (hs : Kept kb s) : Kept kb (resumeBoundary h s) := by
  unfold resumeBoundary
  grind -linarith [stepBoundary_memOk, _=_ kept_iff]

theorem resumeFlips_memOk {s : State} (hs : Kept kb s) : Kept kb (resumeFlips s) := by
  unfold resumeFlips
  grind -linarith [resumeBoundary_memOk, foldl_memOk]

theorem declareDead_memOk {h : Word} {cores : List ℕ} {s : State} (hs : Kept kb s) : Kept kb (declareDead h cores s) := by
  unfold declareDead
  grind -linarith [replaceNow_memOk, rewriteMaps_memOk, retireCoreNow_memOk, foldl_memOk]

theorem dropPosted_memOk {h : Word} {cores : List ℕ} {s : State} (hs : Kept kb s) : Kept kb (dropPosted h cores s) := by
  unfold dropPosted
  grind -linarith [takeFresh_memOk, countStale_memOk, _=_ kept_iff]

theorem restartStep_memOk {h : Word} {s : State} (hs : Kept kb s) : Kept kb (restartStep h s) := by
  unfold restartStep
  grind -linarith [onPlan_memOk, freeContexts_memOk, _=_ kept_iff]

theorem announceReplay_memOk {c : Ctx} {attempt : ℕ} (hs : Kept kb c.s) : Kept kb (announceReplay c attempt).s := by
  unfold announceReplay
  grind -linarith [mark_memOk, deposit_memOk, sendRank_memOk, foldl_ctx_memOk, foldl_memOk]

theorem stepReplay_memOk {h : Word} {s : State} (hs : Kept kb s) : Kept kb (stepReplay h s) := by
  unfold stepReplay
  split
  · exact hs
  split
  · exact hs
  split
  · exact hs
  next _ p _ _ r _ _ o _ =>
  have hsent : Kept kb (holdStep (announceReplay (opCtx p r o s (barrierOp p)) o.attempt)) :=
    holdStep_memOk (announceReplay_memOk (opCtx_memOk hs))
  grind -linarith [endRun_memOk, retireUnit_memOk, startSteps_memOk, resumeCloses_memOk, headSync_memOk, dropPosted_memOk,
    restartStep_memOk, declareDead_memOk]

theorem emitDelivery_memOk {h : Word} {s : State} (hs : Kept kb s) : Kept kb (emitDelivery h s) := by
  unfold emitDelivery
  grind -linarith [deliverOldest_memOk, suspendRun_memOk, endRun_memOk, startSteps_memOk, _=_ kept_iff]

theorem farFailed_memOk {h : Word} {op : ℕ} {s : State} (hs : Kept kb s) : Kept kb (farFailed h op s) := by
  unfold farFailed
  grind -linarith [ctxOf_memOk, detect_memOk, _=_ kept_iff]

theorem execFarTierCompletion_memOk {plan : Word} {op : ℕ} {bad : Bool} {s t : State} (hs : Kept kb s) (hs1 :
    execFarTierCompletion plan op bad s = .next t) :
    Kept kb t := by
  unfold execFarTierCompletion at hs1
  grind -linarith [farFailed_memOk]

theorem execFarTierTimeout_memOk {plan : Word} {op : ℕ} {s t : State} (hs : Kept kb s) (hs1 : execFarTierTimeout plan op s = .next
    t) :
    Kept kb t := by
  unfold execFarTierTimeout at hs1
  grind -linarith [ctxOf_memOk, detect_memOk, atLeast_memOk, _=_ kept_iff]

theorem execEmitDelivery_memOk {plan : Word} {s t : State} (hs : Kept kb s) (hs1 : execEmitDelivery plan s = .next t) :
    Kept kb t := by
  unfold execEmitDelivery at hs1
  grind -linarith [settleTransition_memOk, emitDelivery_memOk]

/-! ## Firmware -/

theorem programImage_memOk {b : List Byte} {s : State} (hs : Kept kb s) : Kept kb (programImage b s) := hs

theorem reopenRecovery_memOk {s : State} (hs : Kept kb s) : Kept kb (reopenRecovery s) := hs

theorem bootRecovered_memOk {s : State} (hs : Kept kb s) : Kept kb (bootRecovered s) := by
  unfold bootRecovered
  grind -linarith [runBoot_memOk, dropWork_memOk, _=_ kept_iff]

theorem execImageData_memOk {link : ℕ} {m : Message} {s t : State} (hs : Kept kb s) (hs1 : execImageData link m s = .next t) :
    Kept kb t := by
  unfold execImageData at hs1
  grind -linarith [programImage_memOk, bootRecovered_memOk, reopenRecovery_memOk, noteError_memOk, _=_ kept_iff]

theorem execRecoveryStall_memOk {s t : State} (hs : Kept kb s) (hs1 : execRecoveryStall s = .next t) : Kept kb t := by
  unfold execRecoveryStall at hs1
  grind -linarith [reopenRecovery_memOk, atLeast_memOk]

theorem sendTwinEpoch_memOk {link kind : ℕ} {epoch : BitVec 32} {payload : List Byte} {s : State} (hs : Kept kb s) :
    Kept kb (sendTwinEpoch link kind epoch payload s) :=
  hs

theorem execRecoveryPoll_memOk {s t : State} (hs : Kept kb s) (hs1 : execRecoveryPoll s = .next t) : Kept kb t := by
  unfold execRecoveryPoll at hs1
  grind -linarith [sendTwinEpoch_memOk, foldl_memOk]

theorem execImageRequest_memOk {link : ℕ} {_m : Message} {s t : State} (hs : Kept kb s) (hs1 : execImageRequest link _m s = .next
    t) :
    Kept kb t := by
  unfold execImageRequest at hs1
  grind -linarith [sendTwinEpoch_memOk, foldl_memOk]

theorem fwStageBody_memOk {r : CmdRef} {c : Chain} {s : State} (hs : Kept kb s) : Kept kb (fwStageBody r c s) := by
  unfold fwStageBody
  grind -linarith [complete_memOk, programImage_memOk, _=_ kept_iff]

theorem fwCommitBody_memOk {r : CmdRef} {x : Chain} {s : State} (hs : Kept kb s) : Kept kb (fwCommitBody r x s) := by
  unfold fwCommitBody
  grind -linarith [complete_memOk, reopenRecovery_memOk, noteError_memOk, bootRecovered_memOk, programImage_memOk, _=_ kept_iff]

theorem putConfig_memOk {c : ConfigRecord} {s : State} (hs : Kept kb s) : Kept kb (putConfig c s) := by
  unfold putConfig
  grind -linarith [_=_ kept_iff, foldl_memOk]

theorem onNor_memOk {f : Nor → Nor} {s : State} (hs : Kept kb s) : Kept kb (onNor f s) := hs

theorem configPutBody_memOk {r : CmdRef} {c : Chain} {s : State} (hs : Kept kb s) : Kept kb (configPutBody r c s) := by
  unfold configPutBody
  grind -linarith [complete_memOk, putConfig_memOk, _=_ kept_iff]

theorem putOwner_memOk {key : List Byte} {s : State} (hs : Kept kb s) : Kept kb (putOwner key s) := hs

theorem enrollBody_memOk {r : CmdRef} {c : Chain} {s : State} (hs : Kept kb s) : Kept kb (enrollBody r c s) := by
  unfold enrollBody
  grind -linarith [complete_memOk, putOwner_memOk, _=_ kept_iff]

theorem configPutReleaseBody_memOk {r : CmdRef} {c : Chain} {s : State} (hs : Kept kb s) :
    Kept kb (configPutReleaseBody r c s) := by
  unfold configPutReleaseBody
  grind -linarith [complete_memOk, onNor_memOk, _=_ kept_iff]

theorem attestCmdBody_memOk {r : CmdRef} {c : Chain} {s : State} (hs : Kept kb s) : Kept kb (attestCmdBody r c s) := by
  unfold attestCmdBody
  grind -linarith [complete_memOk, _=_ kept_iff]

theorem execAttestBucketRefill_memOk {s t : State} (hs : Kept kb s) (hs1 : execAttestBucketRefill s = .next t) : Kept kb t := by
  unfold execAttestBucketRefill at hs1
  grind -linarith [atLeast_memOk, _=_ kept_iff]

theorem setLevel_memOk {b : List Byte} {s : State} (hs : Kept kb s) : Kept kb (setLevel b s) := hs

theorem debugTokenBody_memOk {r : CmdRef} {c : Chain} {s : State} (hs : Kept kb s) : Kept kb (debugTokenBody r c s) := by
  unfold debugTokenBody
  grind -linarith [complete_memOk, setLevel_memOk, _=_ kept_iff]

theorem debugTokenQueryBody_memOk {r : CmdRef} {x : Chain} {s : State} (hs : Kept kb s) : Kept kb (debugTokenQueryBody r x s) := by
  unfold debugTokenQueryBody
  grind -linarith [complete_memOk]

/-! ## Registers -/

theorem barFault_memOk {p : ℕ} {s : State} (hs : Kept kb s) : Kept kb (barFault p s) := by
  unfold barFault
  grind -linarith [onPort_memOk]

theorem writeResetCtl_memOk {p : ℕ} {v : Word} {b : BootInputs} {s : State} (hs : Kept kb s) : Kept kb (writeResetCtl p v b s) := by
  unfold writeResetCtl
  grind -linarith [barFault_memOk, requestReset_memOk, _=_ kept_iff]

theorem execResetCtlWarm_memOk {port : Fin 2} {value : Word} {b : BootInputs} {s t : State} (hs : Kept kb s) (hs1 :
    execResetCtlWarm port value b s = .next t) :
    Kept kb t := by
  unfold execResetCtlWarm at hs1
  grind -linarith [writeResetCtl_memOk]

theorem execResetCtlRecovery_memOk {port : Fin 2} {value : Word} {b : BootInputs} {s t : State} (hs : Kept kb s) (hs1 :
    execResetCtlRecovery port value b s = .next t) :
    Kept kb t := by
  unfold execResetCtlRecovery at hs1
  grind -linarith [writeResetCtl_memOk]

theorem writeTremorFire_memOk {p : ℕ} {v : Word} {s : State} (hs : Kept kb s) : Kept kb (writeTremorFire p v s) := by
  unfold writeTremorFire
  grind -linarith [fire_memOk]

theorem execTremorFire_memOk {port : Fin 2} {value : Word} {s t : State} (hs : Kept kb s) (hs1 : execTremorFire port value s =
    .next t) :
    Kept kb t := by
  unfold execTremorFire at hs1
  grind -linarith [writeTremorFire_memOk]

theorem writeRingDb_memOk {r : RingId} {v : Word} {s : State} (hs : Kept kb s) : Kept kb (writeRingDb r v s) := by
  unfold writeRingDb
  grind -linarith [barFault_memOk, onRingOf_memOk, stopRing_memOk, _=_ kept_iff]

theorem execRingDb_memOk {r : RingId} {value : Word} {s t : State} (hs : Kept kb s) (hs1 : execRingDb r value s = .next t) :
    Kept kb t := by
  unfold execRingDb at hs1
  grind -linarith [writeRingDb_memOk]

theorem writeEventMask_memOk {p : ℕ} {v : Word} {s : State} (hs : Kept kb s) : Kept kb (writeEventMask p v s) := by
  unfold writeEventMask
  grind -linarith [onPort_memOk, _=_ kept_iff]

theorem execHostEventMask_memOk {port : Fin 2} {value : Word} {s t : State} (hs : Kept kb s) (hs1 : execHostEventMask port value s
    = .next t) :
    Kept kb t := by
  unfold execHostEventMask at hs1
  grind -linarith [writeEventMask_memOk]

theorem execMsixUnmask_memOk {port : Fin 2} {vector : Option (Fin 65)} {s t : State} (hs : Kept kb s) (hs1 : execMsixUnmask port
    vector s = .next t) :
    Kept kb t := by
  unfold execMsixUnmask at hs1
  grind -linarith [onPort_memOk]

theorem execBar0BadAccess_memOk {port : Fin 2} {_offset : BitVec 16} {_write : Bool} {s t : State} (hs : Kept kb s) (hs1 :
    execBar0BadAccess port _offset _write s = .next t) :
    Kept kb t := by
  unfold execBar0BadAccess at hs1
  grind -linarith [barFault_memOk]

theorem writeBar0_memOk {p offset : ℕ} {v : Word} {s : State} (hs : Kept kb s) : Kept kb (writeBar0 p offset v s) := by
  unfold writeBar0
  repeat' split
  all_goals first
  | exact hs
  | grind -linarith [barFault_memOk, onPort_memOk, writeEventMask_memOk, writeResetCtl_memOk, writeTremorFire_memOk, writeRingDb_memOk]

theorem writeConfig_memOk {p offset : ℕ} {v : Word} {s : State} (hs : Kept kb s) : Kept kb (writeConfig p offset v s) := by
  unfold writeConfig
  grind -linarith [onPort_memOk, settleTransition_memOk, resumeCloses_memOk, _=_ kept_iff]

theorem execRegisterWrite_memOk {port : Fin 2} {space : RegSpace} {offset : BitVec 16} {value : Word} {s t : State} (hs : Kept kb
    s) (hs1 : execRegisterWrite port space offset value s = .next t) :
    Kept kb t := by
  unfold execRegisterWrite at hs1
  grind -linarith [writeBar0_memOk, writeConfig_memOk, _=_ kept_iff]

theorem execBar2Write_memOk {port : Fin 2} {offset : ℕ} {data : List Byte} {s t : State} (hs : Kept kb s) (hs1 : execBar2Write
    port offset data s = .next t) :
    Kept kb t := by
  unfold execBar2Write at hs1
  grind -linarith [onPort_memOk, barFault_memOk, _=_ kept_iff]

/-! ## Pins -/

theorem coldBoot_memOk {b : BootInputs} {s : State} (hs : Kept kb s) : Kept kb (coldBoot b s) := by
  have hemptied := keptParts_emptyNear hs
  exact startTraining_memOk (startTraining_memOk (runBoot_memOk (dropWork_memOk hemptied)))

theorem execVauxUp_memOk {addr : BitVec 2} {s t : State} (hs : Kept kb s) (hs1 : execVauxUp addr s = .next t) : Kept kb t := by
  unfold execVauxUp at hs1
  grind -linarith [coldBoot_memOk, _=_ kept_iff]

theorem execPwrEnRise_memOk {vinOk : Bool} {b : BootInputs} {s t : State} (hs : Kept kb s) (hs1 : execPwrEnRise vinOk b s = .next
    t) :
    Kept kb t := by
  unfold execPwrEnRise at hs1
  grind -linarith [coldBoot_memOk, _=_ kept_iff]

theorem execPwrEnFall_memOk {s t : State} (hs : Kept kb s) (hs1 : execPwrEnFall s = .next t) : Kept kb t := by
  unfold execPwrEnFall at hs1
  grind -linarith [mainRailsOff_memOk, _=_ kept_iff, keptParts_emptyNear]

theorem powerFault_memOk {cause detail : ℕ} {s : State} (hs : Kept kb s) : Kept kb (powerFault cause detail s) := by
  unfold powerFault
  grind -linarith [mainRailsOff_memOk, _=_ kept_iff]

theorem execVinFault_memOk {s t : State} (hs : Kept kb s) (hs1 : execVinFault s = .next t) : Kept kb t := by
  unfold execVinFault at hs1
  grind -linarith [powerFault_memOk, _=_ kept_iff, keptParts_emptyNear]

theorem execVauxLoss_memOk {s t : State} (hs : Kept kb s) (hs1 : execVauxLoss s = .next t) : Kept kb t := by
  unfold execVauxLoss at hs1
  grind -linarith [powerFault_memOk, loseAon_memOk, _=_ kept_iff]

theorem execRegulatorFault_memOk {s t : State} (hs : Kept kb s) (hs1 : execRegulatorFault s = .next t) : Kept kb t := by
  unfold execRegulatorFault at hs1
  grind -linarith [powerFault_memOk]

theorem execThermalTrip_memOk {_island : ℕ} {s t : State} (hs : Kept kb s) (hs1 : execThermalTrip _island s = .next t) :
    Kept kb t := by
  unfold execThermalTrip at hs1
  grind -linarith [setAon_memOk, powerFault_memOk]

theorem execAonOverload_memOk {s t : State} (hs : Kept kb s) (hs1 : execAonOverload s = .next t) : Kept kb t := by
  unfold execAonOverload at hs1
  grind -linarith [loseAon_memOk]

theorem execResetN_memOk {b : BootInputs} {s t : State} (hs : Kept kb s) (hs1 : execResetN b s = .next t) : Kept kb t := by
  unfold execResetN at hs1
  grind -linarith [requestReset_memOk]

theorem execPerstAssert_memOk {port : Fin 2} {s t : State} (hs : Kept kb s) (hs1 : execPerstAssert port s = .next t) :
    Kept kb t := by
  unfold execPerstAssert at hs1
  grind -linarith [settleTransition_memOk, onPort_memOk, closeSessionsOf_memOk, _=_ kept_iff]

theorem execPerstDeassert_memOk {port : Fin 2} {b : BootInputs} {s t : State} (hs : Kept kb s) (hs1 : execPerstDeassert port b s =
    .next t) :
    Kept kb t := by
  unfold execPerstDeassert at hs1
  grind -linarith [onPort_memOk, wakeUp_memOk, startTraining_memOk, _=_ kept_iff]

theorem execRefclkStable_memOk {port : Fin 2} {s t : State} (hs : Kept kb s) (hs1 : execRefclkStable port s = .next t) :
    Kept kb t := by
  unfold execRefclkStable at hs1
  grind -linarith [startTraining_memOk, onPort_memOk, _=_ kept_iff]

theorem openRings_memOk {p : ℕ} {s : State} (hs : Kept kb s) : Kept kb (openRings p s) := by
  unfold openRings
  grind -linarith [onPort_memOk]

theorem openIfServed_memOk {p : ℕ} {s : State} (hs : Kept kb s) : Kept kb (openIfServed p s) := by
  unfold openIfServed
  grind -linarith [openRings_memOk, onPort_memOk]

theorem execCxlLinkUp_memOk {port : Fin 2} {width rate : ℕ} {s t : State} (hs : Kept kb s) (hs1 : execCxlLinkUp port width rate s
    = .next t) :
    Kept kb t := by
  unfold execCxlLinkUp at hs1
  grind -linarith [onPort_memOk, openIfServed_memOk, settleTransition_memOk, resumeCloses_memOk, _=_ kept_iff]

theorem execLinkRetrain_memOk {port : Fin 2} {width rate : ℕ} {s t : State} (hs : Kept kb s) (hs1 : execLinkRetrain port width
    rate s = .next t) :
    Kept kb t := by
  unfold execLinkRetrain at hs1
  grind -linarith [onPort_memOk, openRings_memOk, openIfServed_memOk, _=_ kept_iff]

theorem execCblPres_memOk {port : Fin 6} {present : Bool} {s t : State} (hs : Kept kb s) (hs1 : execCblPres port present s = .next
    t) :
    Kept kb t := by
  unfold execCblPres at hs1
  grind -linarith [_=_ kept_iff]

theorem execFwHeartbeat_memOk {s t : State} (hs : Kept kb s) (hs1 : execFwHeartbeat s = .next t) : Kept kb t := by
  unfold execFwHeartbeat at hs1
  grind -linarith [_=_ kept_iff]

theorem execHeartbeatWatchdog_memOk {s t : State} (hs : Kept kb s) (hs1 : execHeartbeatWatchdog s = .next t) : Kept kb t := by
  unfold execHeartbeatWatchdog at hs1
  grind -linarith [raiseUp_memOk, atLeast_memOk, _=_ kept_iff]

theorem execCoalTimer_memOk {r : RingId} {s t : State} (hs : Kept kb s) (hs1 : execCoalTimer r s = .next t) : Kept kb t := by
  unfold execCoalTimer at hs1
  grind -linarith [atLeast_memOk, onPort_memOk, _=_ kept_iff]

theorem execCqHeadPoll_memOk {r : RingId} {head : Word} {s t : State} (hs : Kept kb s) (hs1 : execCqHeadPoll r head s = .next t) :
    Kept kb t := by
  unfold execCqHeadPoll at hs1
  grind -linarith [settleTransition_memOk, resumeCloses_memOk, onPort_memOk, _=_ kept_iff]

theorem smbSend_memOk {b : List Byte} {s : State} (hs : Kept kb s) : Kept kb (smbSend b s) := hs

theorem stepTime_memOk {now : Word} {s : State} (hs : Kept kb s) : Kept kb (stepTime now s) := hs

theorem execTimeSync_memOk {s t : State} (hs : Kept kb s) (hs1 : execTimeSync s = .next t) : Kept kb t := by
  unfold execTimeSync at hs1
  grind -linarith [smbSend_memOk, stepTime_memOk, _=_ kept_iff]

theorem execTimeSet_memOk {seconds : Word} {s t : State} (hs : Kept kb s) (hs1 : execTimeSet seconds s = .next t) : Kept kb t := by
  unfold execTimeSet at hs1
  grind -linarith [_=_ kept_iff]

theorem execTimeSetNoEdge_memOk {s t : State} (hs : Kept kb s) (hs1 : execTimeSetNoEdge s = .next t) : Kept kb t := by
  unfold execTimeSetNoEdge at hs1
  grind -linarith [atLeast_memOk, smbSend_memOk, _=_ kept_iff]

theorem execTimeGet_memOk {s t : State} (hs : Kept kb s) (hs1 : execTimeGet s = .next t) : Kept kb t := by
  unfold execTimeGet at hs1
  grind -linarith [smbSend_memOk]

theorem execPldmRequest_memOk {body : List Byte} {s t : State} (hs : Kept kb s) (hs1 : execPldmRequest body s = .next t) :
    Kept kb t := by
  unfold execPldmRequest at hs1
  grind -linarith [smbSend_memOk, takeFresh_memOk, _=_ kept_iff]

theorem execMctpControl_memOk {body : List Byte} {s t : State} (hs : Kept kb s) (hs1 : execMctpControl body s = .next t) :
    Kept kb t := by
  unfold execMctpControl at hs1
  grind -linarith [smbSend_memOk, _=_ kept_iff]

/-! ## FabricRx -/

theorem opMeaning_memOk {f : ReadFaults} {e : OpEntry} : ∀ c, Kept kb c.s → EndOk kb ((opMeaning f e).2 c) := by
  unfold opMeaning
  split <;> intro c hc
  all_goals grind -linarith [scanOp_memOk, decodeOp_memOk, encodeOp_memOk, checkOp_memOk, relayoutBody_memOk, filterBody_memOk,
    projectBody_memOk, hashBody_memOk, bucketBody_memOk, normaliseBody_memOk, statsBody_memOk, joinBuildBody_memOk,
    joinProbeBody_memOk, groupAggBody_memOk, sortBody_memOk, gatherBody_memOk, poolGatherBody_memOk, scatterUpdateBody_memOk,
    denseBody_memOk, activateBody_memOk, normBody_memOk, interactBody_memOk, attendShortBody_memOk, softmaxBody_memOk,
    denseGradBody_memOk, optStepBody_memOk, topkCollectiveBody_memOk, topkBody_memOk, matchBody_memOk, exchangeBody_memOk,
    reduceBody_memOk, allgatherBody_memOk, barrierBody_memOk, emitBody_memOk]

theorem resumeOp_memOk {h : Word} {op : ℕ} {s : State} (hs : Kept kb s) : Kept kb (resumeOp h op s) := by
  unfold resumeOp
  grind -linarith [ctxOf_memOk, opMeaning_memOk, runOp_memOk, _=_ kept_iff]

theorem resumePlan_memOk {h : Word} {s : State} (hs : Kept kb s) : Kept kb (resumePlan h s) := by
  unfold resumePlan
  grind -linarith [resumeBoundary_memOk, resumeOp_memOk, foldl_memOk]

theorem resumeWork_memOk {s : State} (hs : Kept kb s) : Kept kb (resumeWork s) := by
  unfold resumeWork
  grind -linarith [startSteps_memOk, resumePlan_memOk, foldl_memOk]

theorem foldArrival_memOk {link : ℕ} {m : Message} {s : State} (hs : Kept kb s) : Kept kb (foldArrival link m s) := by
  unfold foldArrival
  grind -linarith [freeTaps_memOk, _=_ kept_iff]

theorem takeReplay_memOk {h : Word} {attempt : ℕ} {s : State} (hs : Kept kb s) : Kept kb (takeReplay h attempt s) := by
  unfold takeReplay
  grind -linarith [onPlan_memOk, detect_memOk, _=_ kept_iff]

theorem passReplay_memOk {c : Ctx} {attempt : ℕ} (hs : Kept kb c.s) : Kept kb (passReplay c attempt).s := by
  unfold passReplay
  grind -linarith [mark_memOk, deposit_memOk, sendRank_memOk, releaseRank_memOk, foldl_ctx_memOk, foldl_memOk]

theorem ctxOfStep_memOk {s : State} {h : Word} {d : Ctx} (hs : Kept kb s) (hs1 : replayMessage.ctxOfStep s h = some d) :
    Kept kb d.s := by
  simp only [replayMessage.ctxOfStep, Option.bind_eq_some_iff, Option.map_eq_some_iff] at hs1
  obtain ⟨p, -, r, -, o, -, rfl⟩ := hs1
  exact hs

theorem replayMessage_memOk {h : Word} {attempt : ℕ} {s : State} (hs : Kept kb s) : Kept kb (replayMessage h attempt s) := by
  unfold replayMessage
  grind -linarith [ctxOfStep_memOk, passReplay_memOk, onStep_memOk, takeReplay_memOk, _=_ kept_iff]

theorem stageContribution_memOk {h : Word} {op : ℕ} {d : List Byte} {s : State} (hs : Kept kb s) :
    Kept kb (stageContribution h op d s) := by
  unfold stageContribution
  grind -linarith [onStep_memOk, ctxOf_memOk, endRun_memOk, _=_ kept_iff]

theorem takeUpdate_memOk {h : Word} {m : Message} {s : State} (hs : Kept kb s) : Kept kb (takeUpdate h m s) := by
  unfold takeUpdate
  grind -linarith [onStep_memOk, stageContribution_memOk, _=_ kept_iff, foldl_memOk]

theorem takeData_memOk {h : Word} {m : Message} {s : State} (hs : Kept kb s) : Kept kb (takeData h m s) := by
  unfold takeData
  grind -linarith [onStep_memOk, replayMessage_memOk, resumeBoundary_memOk, resumeOp_memOk, _=_ kept_iff]

theorem deliver_memOk {h : Word} {m : Message} {s : State} (hs : Kept kb s) : Kept kb (deliver h m s) := by
  unfold deliver
  grind -linarith [serveRow_memOk, takeUpdate_memOk, takeData_memOk]

end

theorem acceptOne_memOk {f : FlowIn} {m : Message} {t : Turn} {s : State} (hs : MemOk s) : MemOk (acceptOne f m t s) := by
  unfold acceptOne
  grind -linarith [putFlowIn_memOk, sendAck_memOk, deliver_memOk, _=_ kept_iff]

theorem drainFlows_memOk {a : ℕ} {a1 : State} (hs : MemOk a1) : MemOk (drainFlows a a1) := by
  fun_induction drainFlows <;> grind -linarith [acceptOne_memOk, _=_ kept_iff, foldl_memOk]

theorem drainAll_memOk {s : State} (hs : MemOk s) : MemOk (drainAll s) := by
  unfold drainAll
  grind -linarith [drainFlows_memOk]

theorem receiveFlow_memOk {link kind cls : ℕ} {m : Message} {s : State} (hs : MemOk s) :
    MemOk (receiveFlow link kind cls m s) := by
  unfold receiveFlow
  grind -linarith [epochCheck_memOk, settleTransition_memOk, drainAll_memOk, joinFlow_memOk, foldArrival_memOk]

theorem execRowRead_memOk {link : ℕ} {m : Message} {s t : State} (hs : MemOk s) (hs1 : execRowRead link m s = .next t) :
    MemOk t := by
  unfold execRowRead at hs1
  grind -linarith [receiveFlow_memOk]

theorem execRowData_memOk {link : ℕ} {m : Message} {s t : State} (hs : MemOk s) (hs1 : execRowData link m s = .next t) :
    MemOk t := by
  unfold execRowData at hs1
  grind -linarith [receiveFlow_memOk]

theorem execUpdate_memOk {link : ℕ} {m : Message} {s t : State} (hs : MemOk s) (hs1 : execUpdate link m s = .next t) :
    MemOk t := by
  unfold execUpdate at hs1
  grind -linarith [receiveFlow_memOk]

theorem execArrive_memOk {link : ℕ} {m : Message} {s t : State} (hs : MemOk s) (hs1 : execArrive link m s = .next t) :
    MemOk t := by
  unfold execArrive at hs1
  grind -linarith [receiveFlow_memOk]

theorem execRelease_memOk {link : ℕ} {m : Message} {s t : State} (hs : MemOk s) (hs1 : execRelease link m s = .next t) :
    MemOk t := by
  unfold execRelease at hs1
  grind -linarith [receiveFlow_memOk]

theorem execExchangeData_memOk {link : ℕ} {m : Message} {s t : State} (hs : MemOk s) (hs1 : execExchangeData link m s = .next t)
    :
    MemOk t := by
  unfold execExchangeData at hs1
  grind -linarith [receiveFlow_memOk]

theorem execReduceData_memOk {link : ℕ} {m : Message} {s t : State} (hs : MemOk s) (hs1 : execReduceData link m s = .next t) :
    MemOk t := by
  unfold execReduceData at hs1
  grind -linarith [receiveFlow_memOk]

theorem execGatherData_memOk {link : ℕ} {m : Message} {s t : State} (hs : MemOk s) (hs1 : execGatherData link m s = .next t) :
    MemOk t := by
  unfold execGatherData at hs1
  grind -linarith [receiveFlow_memOk]

theorem execTopkList_memOk {link : ℕ} {m : Message} {s t : State} (hs : MemOk s) (hs1 : execTopkList link m s = .next t) :
    MemOk t := by
  unfold execTopkList at hs1
  grind -linarith [receiveFlow_memOk]

theorem execRelayFragment_memOk {link : ℕ} {m : Message} {s t : State} (hs : MemOk s) (hs1 : execRelayFragment link m s = .next
    t) :
    MemOk t := by
  unfold execRelayFragment at hs1
  grind -linarith [receiveFlow_memOk]

theorem execSearch_memOk {link : ℕ} {m : Message} {s t : State} (hs : MemOk s) (hs1 : execSearch link m s = .next t) :
    MemOk t := by
  unfold execSearch at hs1
  grind -linarith [receiveFlow_memOk]

theorem execSearchResult_memOk {link : ℕ} {m : Message} {s t : State} (hs : MemOk s) (hs1 : execSearchResult link m s = .next t)
    :
    MemOk t := by
  unfold execSearchResult at hs1
  grind -linarith [receiveFlow_memOk]

/-! ## Steps -/

theorem settleRuns_memOk {s : State} (hs : MemOk s) : MemOk (settleRuns s) := by
  unfold settleRuns
  grind -linarith [settleTransition_memOk, drainAll_memOk]

theorem startRun_memOk {r : CmdRef} {p : Plan} {steps limit : ℕ} {s : State} (hs : MemOk s) :
    MemOk (startRun r p steps limit s) := by
  unfold startRun
  grind -linarith [holdSlot_memOk, onPlan_memOk, startSteps_memOk, headSync_memOk, _=_ kept_iff, foldl_memOk]

theorem planRunBody_memOk {r : CmdRef} {c : Chain} {s : State} (hs : MemOk s) : MemOk (planRunBody r c s) := by
  unfold planRunBody
  grind -linarith [complete_memOk, settleRuns_memOk, startRun_memOk, _=_ kept_iff]

theorem resumeCores_memOk {p : Plan} {s : State} (hs : MemOk s) : MemOk (resumeCores p s) := hs

theorem planCancelBody_memOk {r : CmdRef} {c : Chain} {s : State} (hs : MemOk s) : MemOk (planCancelBody r c s) := by
  unfold planCancelBody
  grind -linarith [complete_memOk, resumeCores_memOk, settleRuns_memOk, startSteps_memOk, resumeCloses_memOk, cancelRun_memOk, _=_ kept_iff]

theorem planFreeBody_memOk {r : CmdRef} {c : Chain} {s : State} (hs : MemOk s) : MemOk (planFreeBody r c s) := by
  unfold planFreeBody
  grind -linarith [complete_memOk, freePlan_memOk, _=_ kept_iff]

theorem bumpOpen_memOk {h : Word} {op id : ℕ} {s : State} (hs : MemOk s) : MemOk (bumpOpen h op id s) := by
  unfold bumpOpen
  grind -linarith [onStep_memOk, _=_ kept_iff]

theorem restoreContext_memOk {p : Plan} {r : Run} {op : ℕ} {s t : State} (hs : MemOk s) (hs1 : restoreContext p r op s = some t)
    :
    MemOk t := by
  unfold restoreContext at hs1
  split at hs1
  · grind -linarith
  split at hs1
  · grind -linarith [bumpOpen_memOk]
  split at hs1
  · grind -linarith
  simp only [Option.map_eq_some_iff] at hs1
  obtain ⟨x, -, rfl⟩ := hs1
  exact bumpOpen_memOk hs

theorem loseContext_memOk {r : Run} {s : State} (hs : MemOk s) : MemOk (loseContext r s) := hs

theorem goOn_memOk {r : CmdRef} {c : Chain} {h : Word} {why : SuspendReason} {op : ℕ} {s : State} (hs : MemOk s) :
    MemOk (goOn r c h why op s) := by
  unfold goOn
  grind -linarith [onPlan_memOk, resumeOp_memOk, emitDelivery_memOk, _=_ kept_iff]

theorem planResumeBody_memOk {r : CmdRef} {c : Chain} {s : State} (hs : MemOk s) : MemOk (planResumeBody r c s) := by
  have hlost : ∀ x, MemOk (loseContext x s) := fun x => loseContext_memOk hs
  unfold planResumeBody
  repeat' split
  all_goals grind -linarith [complete_memOk, restoreContext_memOk, settleRuns_memOk, goOn_memOk]

theorem execStepBoundary_memOk {plan : Word} {f : ReadFaults} {s t : State} (hs : MemOk s) (hs1 : execStepBoundary plan f s =
    .next t) :
    MemOk t := by
  unfold execStepBoundary at hs1
  grind -linarith [settleRuns_memOk, stepBoundary_memOk]

theorem execStepReplay_memOk {plan : Word} {s t : State} (hs : MemOk s) (hs1 : execStepReplay plan s = .next t) : MemOk t := by
  unfold execStepReplay at hs1
  grind -linarith [settleRuns_memOk, stepReplay_memOk]

theorem settleUnits_memOk {s : State} (hs : MemOk s) : MemOk (settleUnits s) := by
  unfold settleUnits
  grind -linarith [boundaryUnits_memOk, settleHandback_memOk, boundaryClocks_memOk]

theorem tick_memOk {s : State} (hs : MemOk s) : MemOk (tick s) := by
  unfold tick
  grind -linarith [settleRuns_memOk, settleUnits_memOk, resumeWork_memOk, idleTick_memOk]

/-! ## TwinCmds -/

theorem sendHello_memOk {op : ℕ} {s : State} (hs : MemOk s) : MemOk (sendHello op s) := by
  unfold sendHello
  grind -linarith [sendTwin_memOk, _=_ kept_iff, foldl_memOk]

theorem writeOwnBlock_memOk {s : State} (hs : MemOk s) : MemOk (writeOwnBlock s) := by
  unfold writeOwnBlock
  grind -linarith [moduleWrite_memOk, _=_ kept_iff]

theorem clearMirror_memOk {s : State} (hs : MemOk s) : MemOk (clearMirror s) := hs

theorem sendCopies_memOk {test : TwinWindow → Bool} {s : State} (hs : MemOk s) : MemOk (sendCopies test s) := by
  unfold sendCopies
  grind -linarith [sendWindow_memOk, foldl_memOk]

theorem hearAll_memOk {s : State} (hs : MemOk s) : MemOk (hearAll s) := hs

theorem finishCopy_memOk {s : State} (hs : MemOk s) : MemOk (finishCopy s) := by
  unfold finishCopy
  grind -linarith [hearAll_memOk, mirrorRange_memOk, sendTwin_memOk, completeTwin_memOk, _=_ kept_iff, foldl_memOk]

theorem beginCopy_memOk {test : TwinWindow → Bool} {s : State} (hs : MemOk s) : MemOk (beginCopy test s) := by
  unfold beginCopy
  grind -linarith [clearMirror_memOk, sendCopies_memOk, finishCopy_memOk, _=_ kept_iff]

theorem failPair_memOk {st : Status} {s : State} (hs : MemOk s) : MemOk (failPair st s) := by
  unfold failPair
  grind -linarith [completeTwin_memOk, _=_ kept_iff]

theorem meetTwin_memOk {h : Hello} {s : State} (hs : MemOk s) : MemOk (meetTwin h s) := by
  unfold meetTwin
  grind -linarith [beginCopy_memOk, writeOwnBlock_memOk, _=_ kept_iff]

theorem meetServing_memOk {h : Hello} {s : State} (hs : MemOk s) : MemOk (meetServing h s) := by
  unfold meetServing
  grind -linarith [clearMirror_memOk, _=_ kept_iff]

theorem takeHello_memOk {s : State} (hs : MemOk s) : MemOk (takeHello s) := by
  unfold takeHello
  grind -linarith [meetTwin_memOk, failPair_memOk, meetServing_memOk, _=_ kept_iff]

theorem serveReturn_memOk {h : Hello} {s : State} (hs : MemOk s) : MemOk (serveReturn h s) := by
  unfold serveReturn
  grind -linarith [sendHello_memOk, beginCopy_memOk, dropRefetches_memOk, _=_ kept_iff]

theorem pairBody_memOk {op : ℕ} {r : CmdRef} {c : Chain} {s : State} (hs : MemOk s) : MemOk (pairBody op r c s) := by
  unfold pairBody
  grind -linarith [complete_memOk, takeHello_memOk, sendHello_memOk, _=_ kept_iff]

theorem handbackBody_memOk {r : CmdRef} {c : Chain} {s : State} (hs : MemOk s) : MemOk (handbackBody r c s) := by
  unfold handbackBody
  grind -linarith [complete_memOk, settleHandback_memOk, _=_ kept_iff]

theorem answerStale_memOk {link : ℕ} {s : State} (hs : MemOk s) : MemOk (answerStale link s) := by
  unfold answerStale
  grind -linarith [sendTwin_memOk, _=_ kept_iff]

theorem hear_memOk {link : ℕ} {s : State} (hs : MemOk s) : MemOk (hear link s) := by
  unfold hear
  split <;> exact hs

theorem twinReceive_memOk {link kind : ℕ} {exempt : State → Bool} {m : Message} {act : State → State} {s : State} (hs : ∀ s,
    MemOk s → MemOk (act s)) (hs1 : MemOk s) :
    MemOk (twinReceive link kind exempt m act s) := by
  unfold twinReceive
  grind -linarith [settleRuns_memOk, hear_memOk, answerStale_memOk, enterFenced_memOk]

theorem execPairHello_memOk {link : ℕ} {m : Message} {s t : State} (hs : MemOk s) (hs1 : execPairHello link m s = .next t) :
    MemOk t := by
  unfold execPairHello at hs1
  grind -linarith [twinReceive_memOk, serveReturn_memOk, takeHello_memOk, _=_ kept_iff]

theorem execPairTimeout_memOk {s t : State} (hs : MemOk s) (hs1 : execPairTimeout s = .next t) : MemOk t := by
  unfold execPairTimeout at hs1
  grind -linarith [settleTransition_memOk, failPair_memOk]

theorem storeWindow_memOk {code off : ℕ} {bs : List Byte} {s : State} (hs : MemOk s) : MemOk (storeWindow code off bs s) := by
  unfold storeWindow
  grind -linarith [sessionWrite_memOk, _=_ kept_iff]

theorem execMirrorWrite_memOk {link : ℕ} {m : Message} {s t : State} (hs : MemOk s) (hs1 : execMirrorWrite link m s = .next t) :
    MemOk t := by
  unfold execMirrorWrite at hs1
  grind -linarith [twinReceive_memOk, _=_ kept_iff]

theorem answerRefetch_memOk {link : ℕ} {m : Message} {s : State} (hs : MemOk s) : MemOk (answerRefetch link m s) := by
  unfold answerRefetch
  grind -linarith [sendTwin_memOk, _=_ kept_iff]

theorem answerWaiting_memOk {s : State} (hs : MemOk s) : MemOk (answerWaiting s) := by
  unfold answerWaiting
  grind -linarith [answerRefetch_memOk, _=_ kept_iff, foldl_memOk]

theorem execMirrorCommit_memOk {link : ℕ} {m : Message} {s t : State} (hs : MemOk s) (hs1 : execMirrorCommit link m s = .next t)
    :
    MemOk t := by
  unfold execMirrorCommit at hs1
  grind -linarith [twinReceive_memOk, storeWindow_memOk, answerWaiting_memOk, sendTwin_memOk, _=_ kept_iff, foldl_memOk]

theorem execResyncData_memOk {link : ℕ} {m : Message} {s t : State} (hs : MemOk s) (hs1 : execResyncData link m s = .next t) :
    MemOk t := by
  rw [execResyncData] at hs1
  obtain rfl := Host.Outcome.next.inj hs1
  refine twinReceive_memOk (fun x hx => ?_) hs
  dsimp only
  split
  · exact hx
  have hstored : MemOk (storeWindow (mirrorHead m.payload).1 (mirrorHead m.payload).2.1
      ((m.payload.drop 64).take (mirrorHead m.payload).2.2.1) x) := storeWindow_memOk hx
  grind -linarith [sendTwin_memOk, finishCopy_memOk, _=_ kept_iff]

theorem tryHandover_memOk {s : State} (hs : MemOk s) : MemOk (tryHandover s) := by
  unfold tryHandover
  grind -linarith [sendTwin_memOk]

theorem ackCommits_memOk {n : ℕ} {s : State} (hs : MemOk s) : MemOk (ackCommits n s) := by
  unfold ackCommits
  grind -linarith [tryHandover_memOk, resumeFlips_memOk, _=_ kept_iff]

theorem execMirrorAck_memOk {link : ℕ} {m : Message} {s t : State} (hs : MemOk s) (hs1 : execMirrorAck link m s = .next t) :
    MemOk t := by
  unfold execMirrorAck at hs1
  grind -linarith [twinReceive_memOk, ackCommits_memOk, resumeFlips_memOk, finishCopy_memOk, _=_ kept_iff]

theorem execHeartbeatSend_memOk {s t : State} (hs : MemOk s) (hs1 : execHeartbeatSend s = .next t) : MemOk t := by
  unfold execHeartbeatSend at hs1
  grind -linarith [sendTwin_memOk, foldl_memOk]

theorem execHeartbeat_memOk {link : ℕ} {m : Message} {s t : State} (hs : MemOk s) (hs1 : execHeartbeat link m s = .next t) :
    MemOk t := by
  unfold execHeartbeat at hs1
  grind -linarith [twinReceive_memOk]

theorem readTwinBlock_memOk {b : List Byte} {s : State} (hs : MemOk s) : MemOk (readTwinBlock b s) := by
  unfold readTwinBlock
  split
  · exact hs
  next r _ =>
  have hwritten : MemOk (moduleWrite (blockAddr r (1 - s.pins.twinSide.toNat)) (slice b 0 64) s) := moduleWrite_memOk hs
  grind -linarith [enterFenced_memOk, _=_ kept_iff]

theorem execHeartbeatBlock_memOk {twin : Option (List Byte)} {s t : State} (hs : MemOk s) (hs1 : execHeartbeatBlock twin s =
    .next t) :
    MemOk t := by
  unfold execHeartbeatBlock at hs1
  grind -linarith [writeOwnBlock_memOk, settleRuns_memOk, readTwinBlock_memOk, _=_ kept_iff]

theorem serveSolo_memOk {reason : ℕ} {s : State} (hs : MemOk s) : MemOk (serveSolo reason s) := by
  have hanswered : MemOk (completeTwin (replyOf .partnerLost) (dropRefetches s)) := completeTwin_memOk (dropRefetches_memOk hs)
  exact resumeFlips_memOk (takeoverEvent_memOk hanswered)

theorem takeOver_memOk {readBack : Bool} {confirm : List (BitVec 32)} {s : State} (hs : MemOk s) :
    MemOk (takeOver readBack confirm s) := by
  unfold takeOver
  grind -linarith [writeOwnBlock_memOk, takeoverEvent_memOk, resumeFlips_memOk, atLeast_memOk, enterFenced_memOk, serveSolo_memOk,
    _=_ kept_iff]

theorem execTakeover_memOk {readBack : Bool} {confirm : List (BitVec 32)} {s t : State} (hs : MemOk s) (hs1 : execTakeover
    readBack confirm s = .next t) :
    MemOk t := by
  unfold execTakeover at hs1
  grind -linarith [atLeast_memOk, settleRuns_memOk, takeOver_memOk, completeTwin_memOk, settleTransition_memOk, failPair_memOk, _=_ kept_iff]

theorem execDetach_memOk {s t : State} (hs : MemOk s) (hs1 : execDetach s = .next t) : MemOk t := by
  have hanswered : MemOk (completeTwin (replyOf .partnerLost)
      (dropRefetches (atLeast (silentAt s s.twin.heard1) (atLeast (silentAt s s.twin.heard0) s)))) :=
    completeTwin_memOk (dropRefetches_memOk (atLeast_memOk (atLeast_memOk hs)))
  unfold execDetach at hs1
  obtain rfl := Host.Outcome.next.inj hs1
  split
  · exact settleRuns_memOk (resumeFlips_memOk (takeoverEvent_memOk hanswered))
  · exact hs

theorem execTwinStale_memOk {link : ℕ} {m : Message} {s t : State} (hs : MemOk s) (hs1 : execTwinStale link m s = .next t) :
    MemOk t := by
  unfold execTwinStale at hs1
  grind -linarith [twinReceive_memOk]

theorem twinReleaseBody_memOk {r : CmdRef} {c : Chain} {s : State} (hs : MemOk s) : MemOk (twinReleaseBody r c s) := by
  unfold twinReleaseBody
  grind -linarith [complete_memOk, tryHandover_memOk, _=_ kept_iff]

theorem execHandover_memOk {link : ℕ} {m : Message} {s t : State} (hs : MemOk s) (hs1 : execHandover link m s = .next t) :
    MemOk t := by
  unfold execHandover at hs1
  grind -linarith [twinReceive_memOk, writeOwnBlock_memOk, sendTwin_memOk, serveSolo_memOk, _=_ kept_iff]

theorem execHandoverAck_memOk {link : ℕ} {m : Message} {s t : State} (hs : MemOk s) (hs1 : execHandoverAck link m s = .next t) :
    MemOk t := by
  unfold execHandoverAck at hs1
  grind -linarith [twinReceive_memOk, dropRefetches_memOk, beginTransition_memOk, _=_ kept_iff]

theorem execRowRefetch_memOk {link : ℕ} {m : Message} {s t : State} (hs : MemOk s) (hs1 : execRowRefetch link m s = .next t) :
    MemOk t := by
  unfold execRowRefetch at hs1
  grind -linarith [twinReceive_memOk, answerRefetch_memOk, _=_ kept_iff]

theorem deliverSector_memOk {sector : ℕ} {bs : List Byte} {s : State} (hs : MemOk s) : MemOk (deliverSector sector bs s) := by
  unfold deliverSector
  grind -linarith [onStep_memOk, moduleWrite_memOk, _=_ kept_iff, foldl_memOk]

theorem execRowRefetchData_memOk {link : ℕ} {m : Message} {s t : State} (hs : MemOk s) (hs1 : execRowRefetchData link m s =
    .next t) :
    MemOk t := by
  unfold execRowRefetchData at hs1
  grind -linarith [twinReceive_memOk, deliverSector_memOk, resumeWork_memOk, _=_ kept_iff]

theorem execRefetchTimeout_memOk {index : ℕ} {s t : State} (hs : MemOk s) (hs1 : execRefetchTimeout index s = .next t) :
    MemOk t := by
  unfold execRefetchTimeout at hs1
  obtain rfl := Host.Outcome.next.inj hs1
  split
  · exact hs
  · next r _ =>
    have hpoisoned : MemOk (poisonSector r.sector s) := poisonSector_memOk hs
    exact settleRuns_memOk (resumeWork_memOk hpoisoned)

/-! ## Debug -/

theorem onDebug_memOk {f : DebugUnit → DebugUnit} {s : State} (hs : MemOk s) : MemOk (onDebug f s) := hs

theorem shiftOut_memOk {v : ℕ} {s : State} (hs : MemOk s) : MemOk (shiftOut v s) := hs

theorem tapInstr_memOk {code : BitVec 8} {act : State → State} {s : State} (hs : ∀ s, MemOk s → MemOk (act s)) (hs1 : MemOk s) :
    MemOk (tapInstr code act s) := by
  unfold tapInstr
  grind -linarith [onDebug_memOk, _=_ kept_iff]

theorem takePins_memOk {how : ℕ} {s : State} (hs : MemOk s) : MemOk (takePins how s) := onDebug_memOk hs

theorem givePins_memOk {s : State} (hs : MemOk s) : MemOk (givePins s) := by
  unfold givePins
  grind -linarith [onDebug_memOk, startTraining_memOk, _=_ kept_iff]

theorem execJtagTrstN_memOk {s t : State} (hs : MemOk s) (hs1 : execJtagTrstN s = .next t) : MemOk t := by
  unfold execJtagTrstN at hs1
  grind -linarith [givePins_memOk, onDebug_memOk, _=_ kept_iff]

theorem execIdcode_memOk {s t : State} (hs : MemOk s) (hs1 : execIdcode s = .next t) : MemOk t := by
  unfold execIdcode at hs1
  grind -linarith [tapInstr_memOk, shiftOut_memOk]

theorem execSamplePreload_memOk {pins shifted : ℕ} {s t : State} (hs : MemOk s) (hs1 : execSamplePreload pins shifted s = .next
    t) :
    MemOk t := by
  unfold execSamplePreload at hs1
  grind -linarith [tapInstr_memOk, shiftOut_memOk, onDebug_memOk, _=_ kept_iff]

theorem execExtest_memOk {shifted : ℕ} {s t : State} (hs : MemOk s) (hs1 : execExtest shifted s = .next t) : MemOk t := by
  unfold execExtest at hs1
  grind -linarith [tapInstr_memOk, takePins_memOk, onDebug_memOk, _=_ kept_iff]

theorem execClamp_memOk {s t : State} (hs : MemOk s) (hs1 : execClamp s = .next t) : MemOk t := by
  unfold execClamp at hs1
  grind -linarith [tapInstr_memOk, takePins_memOk]

theorem execHighz_memOk {s t : State} (hs : MemOk s) (hs1 : execHighz s = .next t) : MemOk t := by
  unfold execHighz at hs1
  grind -linarith [tapInstr_memOk, takePins_memOk]

theorem execBypass_memOk {code : BitVec 8} {s t : State} (hs : MemOk s) (hs1 : execBypass code s = .next t) : MemOk t := by
  unfold execBypass at hs1
  grind -linarith [tapInstr_memOk]

theorem deny_memOk {s : State} (hs : MemOk s) : MemOk (deny s) := by
  unfold deny
  grind -linarith [onDebug_memOk, _=_ kept_iff]

theorem execZdbgToken_memOk {token : List Byte} {s t : State} (hs : MemOk s) (hs1 : execZdbgToken token s = .next t) :
    MemOk t := by
  unfold execZdbgToken at hs1
  grind -linarith [tapInstr_memOk, setLevel_memOk]

theorem execZdbgCtl_memOk {s t : State} (hs : MemOk s) (hs1 : execZdbgCtl s = .next t) : MemOk t := by
  unfold execZdbgCtl at hs1
  grind -linarith [tapInstr_memOk, shiftOut_memOk]

theorem execZdbgTrigger_memOk {s t : State} (hs : MemOk s) (hs1 : execZdbgTrigger s = .next t) : MemOk t := by
  unfold execZdbgTrigger at hs1
  grind -linarith [tapInstr_memOk, fire_memOk]

theorem haltSlots_memOk {crater : ℕ} {mask : BitVec 33} {s : State} (hs : MemOk s) : MemOk (haltSlots crater mask s) := by
  unfold haltSlots
  grind -linarith [onDebug_memOk, _=_ kept_iff, foldl_memOk]

theorem resumeSlots_memOk {crater : ℕ} {mask : BitVec 33} {step : Bool} {s : State} (hs : MemOk s) :
    MemOk (resumeSlots crater mask step s) := by
  unfold resumeSlots
  grind -linarith [settleRuns_memOk, resumeWork_memOk, onDebug_memOk, _=_ kept_iff, foldl_memOk]

theorem coreWrite_memOk {act : State → State} {s : State} (hs : ∀ s, MemOk s → MemOk (act s)) (hs1 : MemOk s) :
    MemOk (coreWrite act s) := by
  unfold coreWrite
  grind -linarith [deny_memOk]

theorem execCdbgHalt_memOk {crater : Fin 32} {slots : BitVec 33} {s t : State} (hs : MemOk s) (hs1 : execCdbgHalt crater slots s
    = .next t) :
    MemOk t := by
  unfold execCdbgHalt at hs1
  grind -linarith [coreWrite_memOk, haltSlots_memOk]

theorem execCdbgResume_memOk {crater : Fin 32} {slots : BitVec 33} {s t : State} (hs : MemOk s) (hs1 : execCdbgResume crater
    slots s = .next t) :
    MemOk t := by
  unfold execCdbgResume at hs1
  grind -linarith [coreWrite_memOk, resumeSlots_memOk]

theorem execCdbgStep_memOk {crater : Fin 32} {slots : BitVec 33} {s t : State} (hs : MemOk s) (hs1 : execCdbgStep crater slots s
    = .next t) :
    MemOk t := by
  unfold execCdbgStep at hs1
  grind -linarith [coreWrite_memOk, resumeSlots_memOk]

theorem storeWrite_memOk {d off : ℕ} {bs : List Byte} {s : State} (hs : MemOk s) : MemOk (storeWrite d off bs s) := by
  obtain ⟨hnear, hfar, hstaging, hpools, hstore, hflows⟩ := hs
  exact ⟨hnear, hfar, hstaging, hpools, canonicalIf_memWrite _ _ hstore, hflows⟩

theorem csrWrite_memOk {a v : ℕ} {s t : State} (hs : MemOk s) (hs1 : csrWrite a v s = some t) : MemOk t := by
  unfold csrWrite at hs1
  grind -linarith [haltSlots_memOk, resumeSlots_memOk, onDebug_memOk, _=_ kept_iff]

theorem csrWrites_memOk {a : ℕ} {a1 : List (List Byte)} {a2 t : State} (hs : MemOk a2) (hs1 : csrWrites a a1 a2 = some t) :
    MemOk t := by
  induction a1 generalizing a a2 with
  | nil => grind -linarith [csrWrites]
  | cons b bs ih =>
    unfold csrWrites at hs1
    split at hs1
    · grind -linarith
    · obtain ⟨x, hx, ht⟩ := Option.bind_eq_some_iff.mp hs1
      exact ih (csrWrite_memOk hs hx) ht

theorem checkPool_memOk {core off n : ℕ} {s : State} (hs : MemOk s) : MemOk (checkPool core off n s) := by
  unfold checkPool
  grind -linarith [chargeRate_memOk]

theorem checkBus_memOk {a n : ℕ} {s : State} (hs : MemOk s) : MemOk (checkBus a n s) := by
  unfold checkBus
  grind -linarith [checkPool_memOk, _=_ kept_iff]

theorem poolWrite_memOk {core off : ℕ} {bs : List Byte} {s : State} (hs : MemOk s) : MemOk (poolWrite core off bs s) := by
  obtain ⟨hnear, hfar, hstaging, hpools, hstore, hflows⟩ := hs
  exact ⟨hnear, hfar, hstaging, canonicalIf_memWrite _ _ hpools, hstore, hflows⟩

theorem busWrite_memOk {a : ℕ} {bs : List Byte} {s t : State} (hs : MemOk s) (hs1 : busWrite a bs s = some t) : MemOk t := by
  unfold busWrite at hs1
  grind -linarith [moduleWrite_memOk, poolWrite_memOk, putStaging_memOk, storeWrite_memOk, csrWrites_memOk, _=_ kept_iff]

theorem zsbaAccess_memOk {write : Bool} {session : Option ℕ} {addr : Word} {len : ℕ} {data : List Byte} {s : State} (hs : MemOk
    s) :
    MemOk (zsbaAccess write session addr len data s) := by
  unfold zsbaAccess
  grind -linarith [onDebug_memOk, shiftOut_memOk, deny_memOk, writePieces_memOk, busWrite_memOk, takeFresh_memOk, checkBus_memOk,
    _=_ kept_iff]

theorem execZsba_memOk {write : Bool} {session : Option ℕ} {addr : Word} {len : ℕ} {data : List Byte} {s t : State} (hs : MemOk
    s) (hs1 : execZsba write session addr len data s = .next t) :
    MemOk t := by
  unfold execZsba at hs1
  grind -linarith [tapInstr_memOk, zsbaAccess_memOk]

theorem execDtmcs_memOk {value : BitVec 32} {s t : State} (hs : MemOk s) (hs1 : execDtmcs value s = .next t) : MemOk t := by
  unfold execDtmcs at hs1
  grind -linarith [tapInstr_memOk, shiftOut_memOk, onDebug_memOk, _=_ kept_iff]

theorem putDm_memOk {a v : ℕ} {s : State} (hs : MemOk s) : MemOk (putDm a v s) := by
  unfold putDm
  grind -linarith [onDebug_memOk, _=_ kept_iff]

theorem cmdError_memOk {e : ℕ} {s : State} (hs : MemOk s) : MemOk (cmdError e s) := by
  unfold cmdError
  grind -linarith [putDm_memOk]

theorem abstractCommand_memOk {v : ℕ} {s : State} (hs : MemOk s) : MemOk (abstractCommand v s) := by
  unfold abstractCommand
  grind -linarith [cmdError_memOk, onDebug_memOk, putDm_memOk, takeFresh_memOk, _=_ kept_iff]

theorem dmControl_memOk {v : ℕ} {s : State} (hs : MemOk s) : MemOk (dmControl v s) := by
  unfold dmControl
  grind -linarith [onDebug_memOk, putDm_memOk, _=_ kept_iff]

theorem sbAdvance_memOk {s : State} (hs : MemOk s) : MemOk (sbAdvance s) := by
  unfold sbAdvance
  grind -linarith [putDm_memOk]

theorem sbError_memOk {e : ℕ} {s : State} (hs : MemOk s) : MemOk (sbError e s) := by
  unfold sbError
  grind -linarith [putDm_memOk]

theorem sbRead_memOk {s : State} (hs : MemOk s) : MemOk (sbRead s) := by
  unfold sbRead
  repeat' split
  · exact sbError_memOk hs
  · exact putDm_memOk (putDm_memOk (deny_memOk hs))
  · exact sbError_memOk hs
  · exact sbAdvance_memOk (putDm_memOk (putDm_memOk (takeFresh_memOk (checkBus_memOk hs))))

theorem sbWrite_memOk {s : State} (hs : MemOk s) : MemOk (sbWrite s) := by
  unfold sbWrite
  repeat' split
  · exact sbError_memOk hs
  · exact sbError_memOk hs
  · exact sbAdvance_memOk (busWrite_memOk hs ‹_›)

theorem dmWrite_memOk {a v : ℕ} {s : State} (hs : MemOk s) : MemOk (dmWrite a v s) := by
  unfold dmWrite
  grind -linarith [dmControl_memOk, abstractCommand_memOk, putDm_memOk, sbRead_memOk, sbWrite_memOk]

theorem dmiAccess_memOk {a op v : ℕ} {s : State} (hs : MemOk s) : MemOk (dmiAccess a op v s) := by
  unfold dmiAccess
  grind -linarith [shiftOut_memOk, deny_memOk, dmWrite_memOk, sbRead_memOk]

theorem execDmi_memOk {addr : BitVec 7} {op : BitVec 2} {data : BitVec 32} {s t : State} (hs : MemOk s) (hs1 : execDmi addr op
    data s = .next t) :
    MemOk t := by
  unfold execDmi at hs1
  grind -linarith [tapInstr_memOk, dmiAccess_memOk]

end Sys2Proof.Machine
end

section
/-!
PROOFS. The canonical form of the memories through every command and step (O55).
-/

namespace Sys2Proof.Machine

/-- What a host packet's command does to the module keeps the memories. -/
theorem packetRow_memOk {i : Instr} {w : HostRow} (hi : packetRow i = some w) {c : CmdRef} {x : Chain} {s : State} (hs : MemOk s) :
    MemOk (w.body c x s) := by
  cases i <;> simp only [packetRow, Option.some.injEq, reduceCtorEq] at hi <;> subst hi <;> dsimp only [hostRow]
  case devInfo => exact devInfoBody_memOk hs
  case devStatus => exact devStatusBody_memOk hs
  case sessionOpen => exact sessionOpenBody_memOk hs
  case sessionClose => exact sessionCloseBody_memOk hs
  case memMap => exact memMapBody_memOk hs
  case memUnmap => exact memUnmapBody_memOk hs
  case dataPut => exact dataPutBody_memOk hs
  case dataGet => exact dataGetBody_memOk hs
  case planLoad => exact planLoadBody_memOk hs
  case planRun => exact planRunBody_memOk hs
  case planCancel => exact planCancelBody_memOk hs
  case planResume => exact planResumeBody_memOk hs
  case planFree => exact planFreeBody_memOk hs
  case tableCreate => exact tableCreateBody_memOk hs
  case tablePublish => exact tablePublishBody_memOk hs
  case tableRetire => exact tableRetireBody_memOk hs
  case tableMigratePolicy => exact policyBody_memOk hs
  case tableMigratePolicyQuery => exact policyQueryBody_memOk hs
  case basinLoadWrite => exact basinLoadBody_memOk hs
  case basinLoadClear => exact basinLoadBody_memOk hs
  case basinLoadRelease => exact basinLoadBody_memOk hs
  case basinSearch => exact basinSearchBody_memOk hs
  case tapAttach => exact tapAttachBody_memOk hs
  case tapRead => exact tapReadBody_memOk hs
  case tapWrite => exact tapWriteBody_memOk hs
  case codecCtxSpill => exact ctxSpillBody_memOk hs
  case codecCtxFree => exact ctxFreeBody_memOk hs
  case powerSetActive => exact powerSetActiveBody_memOk hs
  case powerSetSimmer => exact powerSetBody_memOk hs
  case powerSetDormant => exact powerSetBody_memOk hs
  case powerSetCold => exact powerSetBody_memOk hs
  case powerSetPark => exact powerSetParkBody_memOk hs
  case powerQuery => exact powerQueryBody_memOk hs
  case snapArm => exact snapArmBody_memOk hs
  case snapRead => exact snapReadBody_memOk hs
  case twinPair => exact pairBody_memOk hs
  case resync => exact pairBody_memOk hs
  case handback => exact handbackBody_memOk hs
  case twinRelease => exact twinReleaseBody_memOk hs
  case twinStatus => exact completeData_memOk hs
  case fabricConfig => exact fabricConfigBody_memOk hs
  case fabricConfigQuery => exact fabricQueryBody_memOk hs
  case ownerTableSet => exact ownerTableBody_memOk hs
  case fwStage => exact fwStageBody_memOk hs
  case fwCommit => exact fwCommitBody_memOk hs
  case attest => exact attestCmdBody_memOk hs
  case configPut => exact configPutBody_memOk hs
  case enroll => exact enrollBody_memOk hs
  case configPutRelease => exact configPutReleaseBody_memOk hs
  case debugToken => exact debugTokenBody_memOk hs
  case debugTokenQuery => exact debugTokenQueryBody_memOk hs
  case marginReport => exact complete_memOk hs
  case testRunQuick => exact testRunBody_memOk hs
  case testRunFull => exact testRunBody_memOk hs
  case unitRetire => exact unitRetireBody_memOk hs
  case restore => exact restoreBody_memOk hs
  case unitRetireQuery => exact unitRetireQueryBody_memOk hs

theorem gather_memOk {i : Instr} {w : HostRow} (hi : packetRow i = some w) {p : Packet} {x : Chain} {s : State} (hs : MemOk s) :
    MemOk (w.gather p x s).1 := by
  cases i <;> simp only [packetRow, Option.some.injEq, reduceCtorEq] at hi <;> subst hi <;> dsimp only [hostRow]
  case dataPut => exact gatherPut_memOk hs
  all_goals exact gatherPayload_memOk hs

/-- A host packet keeps the memories, whether it stops its ring, is gathered, or acts (R87 to R93). -/
theorem packet_memOk {i : Instr} {w : HostRow} (hi : packetRow i = some w) {s t : State} (hs : MemOk s) (h : exec i s = .next t) :
    MemOk t := by
  rw [exec_packet hi] at h
  obtain rfl := Host.Outcome.next.inj h
  split
  · exact takePacket_memOk (fun _ _ _ => gather_memOk hi) (fun _ _ _ => packetRow_memOk hi) hs
  · exact hs

/-- An operator whose effect keeps the memories, under its row's own mode or whatever its mode. -/
theorem runOp_next_memOk {h : Word} {op : Nat} {kind : Operator} {f : ReadFaults} {pre : Ctx → Option Status} {body : Ctx → OpEnd}
    (hbody : ∀ c, MemOk c.s → EndOk anyFlows (body c)) {s t : State} (hs : MemOk s) (h : Host.Outcome.next (runOp h op kind f pre body s) = (Host.Outcome.next t : Host.Outcome State Fault Refusal)) : MemOk t :=
  Host.Outcome.next.inj h ▸ runOp_memOk hbody hs

theorem runOp_mode_memOk {b : Bool} {h : Word} {op : Nat} {kind : Operator} {f : ReadFaults} {pre : Ctx → Option Status} {body : Ctx → OpEnd}
    (hbody : ∀ c, MemOk c.s → EndOk anyFlows (body c)) {s t : State} (hs : MemOk s)
    (h : Host.Outcome.next (if b then runOp h op kind f pre body s else s) = (Host.Outcome.next t : Host.Outcome State Fault Refusal)) : MemOk t := by
  obtain rfl := Host.Outcome.next.inj h
  split
  · exact runOp_memOk hbody hs
  · exact hs

/-- An operator's command keeps the memories. -/
theorem operator_memOk {i : Instr} {w : OperatorRow} (hi : operatorRow i = some w) {s t : State} (hs : MemOk s)
    (h : exec i s = .next t) : MemOk t := by
  cases i <;> simp only [operatorRow, reduceCtorEq] at hi
  case scan => exact runOp_next_memOk (fun _ => scanOp_memOk) hs h
  case decode => exact runOp_next_memOk (fun _ => decodeOp_memOk) hs h
  case encode => exact runOp_next_memOk (fun _ => encodeOp_memOk) hs h
  case check => exact runOp_next_memOk (fun _ => checkOp_memOk) hs h
  case relayout => exact runOp_next_memOk (fun _ => relayoutBody_memOk) hs h
  case filter => exact runOp_next_memOk (fun _ => filterBody_memOk) hs h
  case project => exact runOp_next_memOk (fun _ => projectBody_memOk) hs h
  case hash => exact runOp_next_memOk (fun _ => hashBody_memOk) hs h
  case bucket => exact runOp_next_memOk (fun _ => bucketBody_memOk) hs h
  case normalise => exact runOp_next_memOk (fun _ => normaliseBody_memOk) hs h
  case stats => exact runOp_next_memOk (fun _ => statsBody_memOk) hs h
  case joinBuild => exact runOp_next_memOk (fun _ => joinBuildBody_memOk) hs h
  case joinProbe => exact runOp_next_memOk (fun _ => joinProbeBody_memOk) hs h
  case groupAgg => exact runOp_next_memOk (fun _ => groupAggBody_memOk) hs h
  case sort => exact runOp_next_memOk (fun _ => sortBody_memOk) hs h
  case gather => exact runOp_next_memOk (fun _ => gatherBody_memOk) hs h
  case poolGather => exact runOp_next_memOk (fun _ => poolGatherBody_memOk) hs h
  case scatterUpdate => exact runOp_next_memOk (fun _ => scatterUpdateBody_memOk) hs h
  case dense => exact runOp_next_memOk (fun _ => denseBody_memOk) hs h
  case activate => exact runOp_next_memOk (fun _ => activateBody_memOk) hs h
  case norm => exact runOp_next_memOk (fun _ => normBody_memOk) hs h
  case interact => exact runOp_next_memOk (fun _ => interactBody_memOk) hs h
  case attendShort => exact runOp_next_memOk (fun _ => attendShortBody_memOk) hs h
  case softmax => exact runOp_next_memOk (fun _ => softmaxBody_memOk) hs h
  case denseGradInput => exact runOp_mode_memOk (fun _ => denseGradBody_memOk) hs h
  case denseGradWeight => exact runOp_mode_memOk (fun _ => denseGradBody_memOk) hs h
  case optStep => exact runOp_next_memOk (fun _ => optStepBody_memOk) hs h
  case topk => exact runOp_mode_memOk (fun _ => topkBody_memOk) hs h
  case topkCollective => exact runOp_mode_memOk (fun _ => topkCollectiveBody_memOk) hs h
  case matchOp => exact runOp_next_memOk (fun _ => matchBody_memOk) hs h
  case exchangeSend => exact runOp_mode_memOk (fun _ => exchangeBody_memOk) hs h
  case exchangeReturn => exact runOp_mode_memOk (fun _ => exchangeBody_memOk) hs h
  case reduce => exact runOp_next_memOk (fun _ => reduceBody_memOk) hs h
  case allgather => exact runOp_next_memOk (fun _ => allgatherBody_memOk) hs h
  case barrier => exact runOp_next_memOk (fun _ => barrierBody_memOk) hs h
  case emit => exact runOp_next_memOk (fun _ => emitBody_memOk) hs h

/-- R27, R35: whatever a command does, the memories keep their canonical form. -/
theorem exec_memOk {i : Instr} {s t : State} (hs : MemOk s) (h : exec i s = .next t) : MemOk t := by
  cases i
  case devInfo | devStatus | sessionOpen | sessionClose | memMap | memUnmap | dataPut | dataGet | planLoad | planRun |
      planCancel | planResume | planFree | tableCreate | tablePublish | tableRetire | tableMigratePolicy |
      tableMigratePolicyQuery | basinLoadWrite | basinLoadClear | basinLoadRelease | basinSearch | tapAttach | tapRead |
      tapWrite | codecCtxSpill | codecCtxFree | powerSetActive | powerSetSimmer | powerSetDormant | powerSetCold | powerSetPark
      | powerQuery | snapArm | snapRead | twinPair | resync | handback | twinRelease | twinStatus | fabricConfig |
      fabricConfigQuery | ownerTableSet | fwStage | fwCommit | attest | configPut | enroll | configPutRelease | debugToken |
      debugTokenQuery | marginReport | testRunQuick | testRunFull | unitRetire | restore | unitRetireQuery =>
    exact packet_memOk rfl hs h
  case scan | decode | encode | check | relayout | filter | project | hash | bucket | normalise | stats | joinBuild | joinProbe
      | groupAgg | sort | gather | poolGather | scatterUpdate | dense | activate | norm | interact | attendShort | softmax |
      denseGradInput | denseGradWeight | optStep | topk | topkCollective | matchOp | exchangeSend | exchangeReturn | reduce |
      allgather | barrier | emit =>
    exact operator_memOk rfl hs h
  case adminSetup => exact execAdminSetup_memOk hs h
  case unknownOpcode => exact execUnknownOpcode_memOk hs h
  case resetCtlWarm => exact execResetCtlWarm_memOk hs h
  case resetCtlRecovery => exact execResetCtlRecovery_memOk hs h
  case tremorFire => exact execTremorFire_memOk hs h
  case ringDb => exact execRingDb_memOk hs h
  case hostEventMask => exact execHostEventMask_memOk hs h
  case msixUnmask => exact execMsixUnmask_memOk hs h
  case bar0BadAccess port offset write => exact execBar0BadAccess_memOk (_offset := offset) (_write := write) hs h
  case registerWrite => exact execRegisterWrite_memOk hs h
  case bar2Write => exact execBar2Write_memOk hs h
  case vauxUp => exact execVauxUp_memOk hs h
  case pwrEnRise => exact execPwrEnRise_memOk hs h
  case pwrEnFall => exact execPwrEnFall_memOk hs h
  case vauxLoss => exact execVauxLoss_memOk hs h
  case vinFault => exact execVinFault_memOk hs h
  case regulatorFault => exact execRegulatorFault_memOk hs h
  case thermalTrip island => exact execThermalTrip_memOk (_island := island) hs h
  case resetN => exact execResetN_memOk hs h
  case perstAssert => exact execPerstAssert_memOk hs h
  case perstDeassert => exact execPerstDeassert_memOk hs h
  case wakeReqN => exact execWakeReqN_memOk hs h
  case thermN => exact execThermN_memOk hs h
  case thermNRelease => exact execThermNRelease_memOk hs h
  case timeSync => exact execTimeSync_memOk hs h
  case trigIn => exact execTrigIn_memOk hs h
  case cblPres => exact execCblPres_memOk hs h
  case jtagTrstN => exact execJtagTrstN_memOk hs h
  case idcode => exact execIdcode_memOk hs h
  case samplePreload => exact execSamplePreload_memOk hs h
  case extest => exact execExtest_memOk hs h
  case clamp => exact execClamp_memOk hs h
  case highz => exact execHighz_memOk hs h
  case dtmcs => exact execDtmcs_memOk hs h
  case dmi => exact execDmi_memOk hs h
  case zdbgToken => exact execZdbgToken_memOk hs h
  case zdbgCtl => exact execZdbgCtl_memOk hs h
  case zdbgTrigger => exact execZdbgTrigger_memOk hs h
  case zsba => exact execZsba_memOk hs h
  case bypass => exact execBypass_memOk hs h
  case cdbgHalt => exact execCdbgHalt_memOk hs h
  case cdbgResume => exact execCdbgResume_memOk hs h
  case cdbgStep => exact execCdbgStep_memOk hs h
  case timeSet => exact execTimeSet_memOk hs h
  case timeGet => exact execTimeGet_memOk hs h
  case pldmRequest => exact execPldmRequest_memOk hs h
  case mctpControl => exact execMctpControl_memOk hs h
  case fwHeartbeat => exact execFwHeartbeat_memOk hs h
  case heartbeatWatchdog => exact execHeartbeatWatchdog_memOk hs h
  case coalTimer => exact execCoalTimer_memOk hs h
  case cqHeadPoll => exact execCqHeadPoll_memOk hs h
  case cxlLinkUp => exact execCxlLinkUp_memOk hs h
  case linkRetrain => exact execLinkRetrain_memOk hs h
  case farTierCompletion => exact execFarTierCompletion_memOk hs h
  case farTierTimeout => exact execFarTierTimeout_memOk hs h
  case stepBoundary => exact execStepBoundary_memOk hs h
  case stepReplay => exact execStepReplay_memOk hs h
  case emitDelivery => exact execEmitDelivery_memOk hs h
  case migrationDecision => exact execMigrationDecision_memOk hs h
  case migrationCopy => exact execMigrationCopy_memOk hs h
  case basinScrub => exact execBasinScrub_memOk hs h
  case islandReplan => exact execIslandReplan_memOk hs h
  case marginSample => exact execMarginSample_memOk hs h
  case powerSample => exact execPowerSample_memOk hs h
  case junctionSample => exact execJunctionSample_memOk hs h
  case sleepNoAnswer => exact execSleepNoAnswer_memOk hs h
  case eventCondition => exact execEventCondition_memOk hs h
  case scheduledFire => exact execScheduledFire_memOk hs h
  case fabricLinkUp => exact execFabricLinkUp_memOk hs h
  case flitRetry => exact execFlitRetry_memOk hs h
  case retrainTimeout => exact execRetrainTimeout_memOk hs h
  case fabricForward => exact execFabricForward_memOk hs h
  case escapeWait => exact execEscapeWait_memOk hs h
  case rowRead => exact execRowRead_memOk hs h
  case rowData => exact execRowData_memOk hs h
  case update => exact execUpdate_memOk hs h
  case ack => exact execAck_memOk hs h
  case ackTimer => exact execAckTimer_memOk hs h
  case stale => exact execStale_memOk hs h
  case fence => exact execFence_memOk hs h
  case unreachable => exact execUnreachable_memOk hs h
  case arrive => exact execArrive_memOk hs h
  case release => exact execRelease_memOk hs h
  case exchangeData => exact execExchangeData_memOk hs h
  case reduceData => exact execReduceData_memOk hs h
  case gatherData => exact execGatherData_memOk hs h
  case topkList => exact execTopkList_memOk hs h
  case relayFragment => exact execRelayFragment_memOk hs h
  case search => exact execSearch_memOk hs h
  case searchResult => exact execSearchResult_memOk hs h
  case reqTimeout => exact execReqTimeout_memOk hs h
  case collTimeout => exact execCollTimeout_memOk hs h
  case cascadeWord => exact execCascadeWord_memOk hs h
  case cascadeSync => exact execCascadeSync_memOk hs h
  case cascadeLockTimeout => exact execCascadeLockTimeout_memOk hs h
  case searchTimeout => exact execSearchTimeout_memOk hs h
  case heartbeatSend => exact execHeartbeatSend_memOk hs h
  case heartbeatBlock => exact execHeartbeatBlock_memOk hs h
  case heartbeat => exact execHeartbeat_memOk hs h
  case takeover => exact execTakeover_memOk hs h
  case detach => exact execDetach_memOk hs h
  case pairTimeout => exact execPairTimeout_memOk hs h
  case pairHello => exact execPairHello_memOk hs h
  case mirrorWrite => exact execMirrorWrite_memOk hs h
  case mirrorCommit => exact execMirrorCommit_memOk hs h
  case mirrorAck => exact execMirrorAck_memOk hs h
  case resyncData => exact execResyncData_memOk hs h
  case handover => exact execHandover_memOk hs h
  case handoverAck => exact execHandoverAck_memOk hs h
  case rowRefetch => exact execRowRefetch_memOk hs h
  case rowRefetchData => exact execRowRefetchData_memOk hs h
  case refetchTimeout => exact execRefetchTimeout_memOk hs h
  case twinStale => exact execTwinStale_memOk hs h
  case imageRequest link m => exact execImageRequest_memOk (_m := m) hs h
  case imageData => exact execImageData_memOk hs h
  case recoveryPoll => exact execRecoveryPoll_memOk hs h
  case recoveryStall => exact execRecoveryStall_memOk hs h
  case batchTimeout => exact execBatchTimeout_memOk hs h
  case topkMergeNode => exact execTopkMergeNode_memOk hs h
  case refclkStable => exact execRefclkStable_memOk hs h
  case cascadeLockLoss => exact execCascadeLockLoss_memOk hs h
  case fabricSignalLoss => exact execFabricSignalLoss_memOk hs h
  case timeSetNoEdge => exact execTimeSetNoEdge_memOk hs h
  case attestBucketRefill => exact execAttestBucketRefill_memOk hs h
  case aonOverload => exact execAonOverload_memOk hs h

/-- Settles O55: a step is the command at the front of the queue, or a tick of module time. -/
theorem stepsKeepMemories : Obligations.StepsKeepMemories := by
  unfold Obligations.StepsKeepMemories
  intro s t hs h
  rw [step] at h
  split at h
  · exact Host.Outcome.next.inj h ▸ memOk_iff_memoriesOk.mp (tick_memOk (memOk_iff_memoriesOk.mpr hs))
  · next c rest _ =>
    have hrest : MemoriesOk { s with pending := rest } := hs
    exact memOk_iff_memoriesOk.mp (exec_memOk (memOk_iff_memoriesOk.mpr hrest) h)

end Sys2Proof.Machine
end

section
/-!
PROOFS. The block as a whole: its step, its state after reset, and what its memories hold (R38, R75).
-/

namespace Sys2Proof.Machine

/-- Settles O53. -/
theorem stepsRunTheFrontCommand : Obligations.StepsRunTheFrontCommand := by
  unfold Obligations.StepsRunTheFrontCommand
  refine ⟨fun s c q => rfl, fun s h => ?_⟩
  simp only [step, h]

/-- Settles O54: every part of the reset state is written out in its definition. -/
theorem resetIsEmpty : Obligations.ResetIsEmpty := by
  unfold Obligations.ResetIsEmpty
  refine ⟨⟨memWf_nil, memWf_nil, memWf_nil, memWf_nil, memWf_nil⟩, rfl, rfl, rfl, rfl, rfl, fun _ => rfl, ?ports, fun _ => rfl⟩
  intro q hq
  obtain rfl : q = Port.reset := by simpa [State.reset] using hq
  refine ⟨rfl, rfl, fun r hr => ?_⟩
  obtain rfl : r = Ring.reset := by simpa [Port.reset] using hr
  exact ⟨rfl, rfl⟩

/-! ## Single bytes of a memory (R38) -/

/-- A part of a memory that keeps every cell of an address holds the same byte there. -/
theorem memByte_filter_keep (m : Memory) (f : Host.Cell → Bool) {x : Nat} (h : ∀ c : Host.Cell, c.1 = x → f c = true) :
    (m.filter f).find? (fun c => c.1 == x) = m.find? (fun c => c.1 == x) := by
  rw [List.find?_filter]
  congr 1
  funext c
  by_cases hc : c.1 = x <;> simp [hc, h]

/-- A part of a memory that drops every cell of an address lists none there. -/
theorem memByte_filter_drop (m : Memory) (f : Host.Cell → Bool) {x : Nat} (h : ∀ c : Host.Cell, c.1 = x → f c = false) :
    (m.filter f).find? (fun c => c.1 == x) = none := by
  rw [List.find?_eq_none]
  intro c hc hx
  rw [List.mem_filter, h c (by simpa using hx)] at hc
  simp at hc

theorem memByte_cons (c : Host.Cell) (m : Memory) (x : Nat) : memByte (c :: m) x = if c.1 = x then c.2 else memByte m x := by
  by_cases h : c.1 = x <;> simp [memByte, h]

/-- The byte that the cells of a byte string hold at an address. -/
theorem memByte_cellsFrom (bs : List Byte) (a x : Nat) :
    memByte ((cellsFrom a bs).filter (fun c => c.2 != 0)) x = if a ≤ x ∧ x < a + bs.length then bs.getD (x - a) 0 else 0 := by
  induction bs generalizing a with
  | nil => simp [cellsFrom, memByte]
  | cons b bs ih =>
    have hrest := ih (a + 1)
    have hcons : memByte ((cellsFrom a (b :: bs)).filter (fun c => c.2 != 0)) x =
        if a = x ∧ b ≠ 0 then b else memByte ((cellsFrom (a + 1) bs).filter (fun c => c.2 != 0)) x := by
      by_cases hb : b = 0
      · rw [cellsFrom, List.filter_cons_of_neg (by simp [hb]), if_neg (fun h => h.2 hb)]
      · rw [cellsFrom, List.filter_cons_of_pos (by simpa using hb), memByte_cons]
        simp only [hb, ne_eq, not_false_eq_true, and_true]
    rw [hcons, hrest, List.length_cons]
    by_cases hx : a = x
    · subst hx
      by_cases hb : b = 0
      · simp [hb]
      · rw [if_pos ⟨rfl, hb⟩]; simp
    · rw [if_neg (fun h => hx h.1)]
      by_cases hin : a + 1 ≤ x ∧ x < a + 1 + bs.length
      · obtain ⟨k, rfl⟩ := Nat.exists_eq_add_of_le hin.1
        rw [if_pos hin, if_pos (by omega), show a + 1 + k - a = k + 1 from by omega, List.getD_cons_succ, Nat.add_sub_cancel_left]
      · rw [if_neg hin, if_neg (by omega)]

/-- R38: what was stored is found, and every other byte stays. -/
theorem memByte_memWrite (m : Memory) (a : Nat) (bs : List Byte) (x : Nat) :
    memByte (memWrite m a bs) x = if a ≤ x ∧ x < a + bs.length then bs.getD (x - a) 0 else memByte m x := by
  have hmid := memByte_cellsFrom bs a x
  simp only [memByte] at hmid ⊢
  rw [memWrite, List.find?_append, List.find?_append]
  by_cases hin : a ≤ x ∧ x < a + bs.length
  · rw [if_pos hin] at hmid ⊢
    rw [memByte_filter_drop m _ (fun c hc => by simp; omega), memByte_filter_drop m _ (fun c hc => by simp; omega)]
    simpa using hmid
  · have hnone : ((cellsFrom a bs).filter (fun c => c.2 != 0)).find? (fun c => c.1 == x) = none := by
      rw [List.find?_eq_none]
      intro c hc hx
      have := cellsFrom_range (List.mem_of_mem_filter hc)
      simp only [beq_iff_eq] at hx
      omega
    rw [if_neg hin, hnone, Option.or_none]
    rcases Nat.lt_or_ge x a with hx | hx
    · rw [memByte_filter_keep m _ (fun c hc => by simp; omega), memByte_filter_drop m _ (fun c hc => by simp; omega), Option.or_none]
    · rw [memByte_filter_drop m _ (fun c hc => by simp; omega), memByte_filter_keep m _ (fun c hc => by simp; omega), Option.none_or]

/-- R38: clearing leaves zeros, and every other byte stays. -/
theorem memByte_memClear (m : Memory) (a n x : Nat) :
    memByte (memClear m a n) x = if a ≤ x ∧ x < a + n then 0 else memByte m x := by
  simp only [memByte, memClear]
  by_cases hin : a ≤ x ∧ x < a + n
  · rw [if_pos hin, memByte_filter_drop m _ (fun c hc => by simp; omega)]
    rfl
  · rw [if_neg hin, memByte_filter_keep m _ (fun c hc => by simp; omega)]

/-- A walk over cells in order gives the byte of each address in turn. -/
theorem walkCells_eq_map {l : List Host.Cell} {a : Nat} (hs : l.Pairwise (fun x y => x.1 < y.1)) (ha : ∀ c ∈ l, a ≤ c.1) (n : Nat) :
    walkCells l a n = (List.range n).map (fun i => memByte l (a + i)) := by
  induction n generalizing l a with
  | zero => simp [walkCells]
  | succ n ih =>
    rw [List.range_succ_eq_map, List.map_cons, List.map_map]
    have hshift : ∀ k : List Host.Cell, (fun i => memByte k (a + i)) ∘ Nat.succ = fun i => memByte k (a + 1 + i) := by
      intro k; funext i; simp [Nat.add_assoc, Nat.add_comm 1 i]
    cases l with
    | nil => rw [walkCells, ih List.Pairwise.nil (by simp), hshift]; rfl
    | cons c l =>
      obtain ⟨hc, hl⟩ := List.pairwise_cons.mp hs
      by_cases heq : c.1 = a
      · have hdrop : ∀ i, memByte (c :: l) (a + 1 + i) = memByte l (a + 1 + i) := fun i => by rw [memByte_cons, if_neg (by omega)]
        rw [walkCells, if_pos heq, ih hl (fun d hd => by have := hc d hd; omega), hshift, memByte_cons, if_pos (by omega)]
        simp only [hdrop]
      · have hlater : ∀ d ∈ c :: l, a + 1 ≤ d.1 := by
          intro d hd
          have hca := ha c (by simp)
          rcases List.mem_cons.mp hd with rfl | hd
          · omega
          · have := hc d hd; omega
        have hzero : memByte (c :: l) (a + 0) = 0 := by
          have hnone : (c :: l).find? (fun d => d.1 == a + 0) = none := by
            rw [List.find?_eq_none]
            intro d hd
            have := hlater d hd
            simp only [beq_iff_eq]; omega
          rw [memByte, hnone]; rfl
        rw [walkCells, if_neg heq, ih hs hlater, hshift, hzero]

/-- A read gives the byte of each address in turn. -/
theorem memRead_eq_map {m : Memory} (h : memWf m) (a n : Nat) :
    memRead m a n = (List.range n).map (fun i => memByte m (a + i)) := by
  rw [memRead, walkCells_eq_map (h.1.filter _) (fun c hc => by simp at hc; omega)]
  refine List.map_congr_left fun i hi => ?_
  rw [List.mem_range] at hi
  simp only [memByte]
  rw [memByte_filter_keep m _ (fun c hc => by simp; omega)]

/-! ## The two tiers (R75) -/

/-- A module write below the end of the near tier. -/
theorem moduleWrite_near {a : Nat} (bs : List Byte) (s : State) (h : a < nearEnd) :
    (moduleWrite a bs s).near = memWrite s.near a bs ∧ (moduleWrite a bs s).far = s.far := by
  simp [moduleWrite, h]

/-- A module write into a far-tier window. -/
theorem moduleWrite_far {a : Nat} (bs : List Byte) {s : State} {w : FarWindow} (h : nearEnd ≤ a)
    (hw : farWindow s.boot.config.windows a = some w) :
    (moduleWrite a bs s).near = s.near ∧ (moduleWrite a bs s).far = memWrite s.far (farHpa w a) bs := by
  simp [moduleWrite, Nat.not_lt.mpr h, hw]

/-- Settles O56. -/
theorem memoryReadsWhatWasWritten : Obligations.MemoryReadsWhatWasWritten := by
  unfold Obligations.MemoryReadsWhatWasWritten
  refine ⟨memByte_memWrite, fun m a bs h => memWf_memWrite a bs h, fun m a n h => memRead_eq_map h a n,
    fun m a n h => ⟨memWf_memClear a n h, memByte_memClear m a n⟩, ?near, ?far, ?undecoded⟩
  case near =>
    intro s a bs _ ha
    obtain ⟨hnear, hfar⟩ := moduleWrite_near bs s ha
    refine ⟨?_, hfar⟩
    rw [moduleRead, if_pos ha, hnear, memRead_memWrite_self]
  case far =>
    intro s a bs w _ ha hw
    obtain ⟨hnear, hfar⟩ := moduleWrite_far bs ha hw
    refine ⟨?_, hnear⟩
    simp only [moduleRead, Nat.not_lt.mpr ha, if_false, hw, hfar, memRead_memWrite_self]
  case undecoded =>
    intro s a bs ha hw
    simp [moduleWrite, Nat.not_lt.mpr ha, hw]

end Sys2Proof.Machine
end

section
/-!
PROOFS. Hash tables keep room for a quarter of their slots and find what they hold (R287 to R294); SORT reorders rows (R297).
-/

namespace Sys2Proof.Machine

/-! ## How many entries a sparse array lists -/

/-- A write lists at most one entry more. -/
theorem length_sset_le {α : Type} (m : Sparse α) (i : Nat) (v : α) : (sset m i v).length ≤ m.length + 1 := by
  have h : (m.filter (fun e => decide (e.1 < i))).length + (m.filter (fun e => decide (i < e.1))).length ≤ m.length := by
    induction m with
    | nil => simp
    | cons e m ih =>
      simp only [List.filter_cons, decide_eq_true_eq]
      split <;> split <;> simp only [List.length_cons] <;> omega
  simp only [sset, List.length_append, List.length_cons]
  omega

/-- A write over a listed entry lists no more. -/
theorem length_sset_le_of_some {α : Type} {m : Sparse α} {i : Nat} {x : α} (v : α) (h : sget m i = some x) :
    (sset m i v).length ≤ m.length := by
  have hlt : (m.filter (fun e => decide (e.1 < i))).length + (m.filter (fun e => decide (i < e.1))).length < m.length := by
    induction m with
    | nil => simp [sget] at h
    | cons e m ih =>
      simp only [List.filter_cons, decide_eq_true_eq]
      by_cases he : e.1 = i
      · have hrest := length_sset_le m i v
        simp only [sset, List.length_append, List.length_cons] at hrest
        rw [if_neg (by omega), if_neg (by omega), List.length_cons]
        omega
      · have hm := ih (by simpa [sget, he] using h)
        split <;> split <;> simp only [List.length_cons] <;> omega
  simp only [sset, List.length_append, List.length_cons]
  omega

/-! ## Probing (R287) -/

/-- A probe that finds a slot finds one that is listed. -/
theorem probe_some {get : Nat → Option TableSlot} {n hash : Nat} {key : List Byte} {fuel j seen i k : Nat} {x : TableSlot}
    (h : probe get n hash key fuel j seen = (i, some x, k)) : get i = some x := by
  induction fuel generalizing j seen with
  | zero => simp [probe] at h
  | succ fuel ih =>
    rw [probe] at h
    cases hg : get j with
    | none => simp [hg] at h
    | some y =>
      simp only [hg] at h
      split at h
      · obtain ⟨rfl, rfl, -⟩ := by simpa using h
        exact hg
      · exact ih h

/-- A probe that finds no slot ends at a free one, where the key is found once it is stored there, or has met `fuel` other
slots. -/
theorem probe_none {m : Sparse TableSlot} {n hash : Nat} {key : List Byte} {fuel j seen i k : Nat} {x : TableSlot}
    (h : probe (sget m) n hash key fuel j seen = (i, none, k)) (hi : sget m i = none) (hx : x.hash = hash ∧ x.key = key) (hj : j < n) :
    probe (sget (sset m i x)) n hash key fuel j seen = (i, some x, k) ∨
      i = (j + fuel) % n ∧ ∀ t < fuel, (sget m ((j + t) % n)).isSome = true := by
  induction fuel generalizing j seen with
  | zero =>
    obtain ⟨rfl, -⟩ : j = i ∧ seen = k := by simpa [probe] using h
    exact .inr ⟨by simp [Nat.mod_eq_of_lt hj], by simp⟩
  | succ fuel ih =>
    rw [probe] at h
    cases hg : sget m j with
    | none =>
      obtain ⟨rfl, rfl⟩ : j = i ∧ seen + 1 = k := by simpa [hg] using h
      exact .inl (by simp [probe, sget_sset_self, hx])
    | some y =>
      have hne : j ≠ i := by rintro rfl; simp [hi] at hg
      simp only [hg] at h
      split at h
      · simp at h
      · next hy =>
        rcases ih h (Nat.mod_lt _ (by omega)) with hfound | ⟨hlast, hmet⟩
        · exact .inl (by simp only [probe, sget_sset_other m x hne, hg, if_neg hy, hfound])
        · refine .inr ⟨by rw [hlast, Nat.mod_add_mod, Nat.add_right_comm, Nat.add_assoc], fun t ht => ?_⟩
          cases t with
          | zero => simp [Nat.mod_eq_of_lt hj, hg]
          | succ t =>
            have := hmet t (by omega)
            rwa [Nat.mod_add_mod, Nat.add_right_comm, Nat.add_assoc] at this

/-- R287: a probe starts inside the table. -/
theorem probe_start_lt (log2 : Nat) (h : Word) : h.toNat / 2 ^ (64 - log2) < 2 ^ log2 := by
  rw [Nat.div_lt_iff_lt_mul (Nat.two_pow_pos _), ← Nat.pow_add]
  exact Nat.lt_of_lt_of_le h.isLt (Nat.pow_le_pow_right (by decide) (by omega))

/-- R287: a key stored where its probe ended is found there. -/
theorem lookup_sset_self {m : Sparse TableSlot} {log2 : Nat} {key : List Byte} {i n : Nat} {x : TableSlot}
    (h : lookup (sget m) log2 key = (i, none, n)) (hi : sget m i = none) (hx : x.hash = (fm64 0 key).toNat ∧ x.key = key) :
    lookup (sget (sset m i x)) log2 key = (i, some x, n) := by
  have hstart := probe_start_lt log2 (fm64 0 key)
  rcases probe_none h hi hx hstart with hfound | ⟨hlast, hmet⟩
  · exact hfound
  · rw [Nat.add_mod_right] at hlast
    have := hmet 0 (Nat.two_pow_pos log2)
    rw [Nat.add_zero, ← hlast, hi] at this
    simp at this

/-! ## Room (R288, R290, R294) -/

theorem tableFull_eq_false {log2 used : Nat} (h : tableFull log2 used = false) : 4 * (used + 1) ≤ 3 * 2 ^ log2 := by
  simpa [tableFull] using h

/-- R288, R290: what one row can do to the table: it lists no more slots, or one more where that leaves a quarter free, or
marks it full. -/
theorem buildRow_cases (e : OpEntry) (t : Building) (row : List Byte) :
    (buildRow e t row).slots.length ≤ t.slots.length ∧ (buildRow e t row).full = t.full ∨
      (buildRow e t row).slots.length ≤ t.slots.length + 1 ∧ (buildRow e t row).full = t.full ∧
        tableFull (joinLog2 e) t.slots.length = false ∨
      (buildRow e t row).slots = t.slots ∧ tableFull (joinLog2 e) t.slots.length = true := by
  unfold buildRow
  split
  · exact .inl ⟨le_rfl, rfl⟩
  · cases tableKey row (joinKey e) with
    | none => exact .inl ⟨le_rfl, rfl⟩
    | some key =>
      rcases hl : lookup (sget t.slots) (joinLog2 e) key with ⟨i, _ | y, k⟩
      · cases hfull : tableFull (joinLog2 e) t.slots.length with
        | true => exact .inr (.inr ⟨by simp [hl], rfl⟩)
        | false => exact .inr (.inl ⟨by simpa [hl, hfull] using length_sset_le _ _ _, by simp [hl], rfl⟩)
      · refine .inl ⟨?_, by simp [hl]⟩
        simp only [hl]
        split
        · exact length_sset_le_of_some _ (probe_some hl)
        · exact le_rfl

/-- R288: no table under JOIN_BUILD is filled past three quarters. -/
theorem buildRow_foldl_room (e : OpEntry) (rows : List (List Byte)) (t : Building) (ht : 4 * t.slots.length ≤ 3 * 2 ^ joinLog2 e) :
    4 * (rows.foldl (buildRow e) t).slots.length ≤ 3 * 2 ^ joinLog2 e := by
  induction rows generalizing t with
  | nil => exact ht
  | cons row rows ih =>
    refine ih _ ?_
    rcases buildRow_cases e t row with ⟨h, -⟩ | ⟨h, -, hroom⟩ | ⟨h, -⟩
    · omega
    · have := tableFull_eq_false hroom; omega
    · rw [h]; exact ht

/-- R290: rows that cannot fill a table past three quarters never mark it full. -/
theorem buildRow_foldl_notFull (e : OpEntry) (rows : List (List Byte)) (t : Building) (ht : t.full = false)
    (hroom : 4 * (t.slots.length + rows.length) ≤ 3 * 2 ^ joinLog2 e) : (rows.foldl (buildRow e) t).full = false := by
  induction rows generalizing t with
  | nil => exact ht
  | cons row rows ih =>
    rw [List.length_cons] at hroom
    rcases buildRow_cases e t row with ⟨h, hfull⟩ | ⟨h, hfull, -⟩ | ⟨-, hfull⟩
    · exact ih _ (hfull.trans ht) (by omega)
    · exact ih _ (hfull.trans ht) (by omega)
    · have : 3 * 2 ^ joinLog2 e < 4 * (t.slots.length + 1) := by simpa [tableFull] using hfull
      omega

/-- R294: no table under GROUP_AGG is filled past three quarters. -/
theorem applyGroup_foldl_room (e : OpEntry) (l : List Staged) (t : Grouping) (ht : 4 * t.slots.length ≤ 3 * 2 ^ joinLog2 e) :
    4 * (l.foldl (applyGroup e) t).slots.length ≤ 3 * 2 ^ joinLog2 e := by
  induction l generalizing t with
  | nil => exact ht
  | cons g l ih =>
    refine ih _ ?_
    unfold applyGroup
    split
    · exact ht
    · rcases hl : lookup (sget t.slots) (joinLog2 e) g.ident with ⟨i, _ | y, k⟩
      · cases hfull : tableFull (joinLog2 e) t.slots.length with
        | true => simpa [hl, hfull] using ht
        | false =>
          have := tableFull_eq_false hfull
          refine le_trans (Nat.mul_le_mul_left 4 ?_) this
          simpa [hl, hfull] using length_sset_le _ _ _
      · refine le_trans (Nat.mul_le_mul_left 4 ?_) ht
        simpa [hl] using length_sset_le_of_some _ (probe_some hl)

/-- Settles O51. -/
theorem hashTablesKeepRoom : Obligations.HashTablesKeepRoom := by
  unfold Obligations.HashTablesKeepRoom
  refine ⟨fun e rows => buildRow_foldl_room e rows noRows (Nat.zero_le _), fun e rows h => ?_,
    fun e l start h => applyGroup_foldl_room e l start h, fun m log2 key i n x h hi hh hk => lookup_sset_self h hi ⟨hh, hk⟩⟩
  exact buildRow_foldl_notFull e rows noRows rfl (by simpa [noRows] using h)

/-- Settles O52: the selected rows are sorted, the others follow in their order. -/
theorem sortReordersRows : Obligations.SortReordersRows := by
  unfold Obligations.SortReordersRows
  intro c rows
  obtain ⟨l, hl, hsorted⟩ : ∃ l : List Nat, l.Perm (rows.filter (maskBit c c.e.in1)) ∧
      sortedRows c rows = l ++ rows.filter (fun r => !maskBit c c.e.in1 r) := by
    refine ⟨_, ?_, rfl⟩
    exact ((List.mergeSort_perm _ _).map _).trans (by simp [Function.comp_def])
  rw [hsorted, ← hl.length_eq]
  refine ⟨(hl.append_right _).trans (List.filter_append_perm _ rows), fun r hr => ?_, List.drop_left⟩
  rw [List.take_left, hl.mem_iff, List.mem_filter] at hr
  exact hr.2

end Sys2Proof.Machine
end

section
/-!
PROOFS. How completions are written into a completion ring, and held while they lack room (R95 to R99, R115).
-/

namespace Sys2Proof.Machine

/-! ## One completion (R95, R96, R99) -/

@[simp] theorem fireVector_rings (v : Nat) (q : Port) : (fireVector v q).rings = q.rings := by
  unfold fireVector
  split <;> rfl

@[simp] theorem fireVector_mayWrite (v : Nat) (q : Port) : mayWrite (fireVector v q) = mayWrite q := by
  unfold fireVector
  split <;> rfl

@[simp] theorem fireVector_maxWrite (v : Nat) (q : Port) : maxWrite (fireVector v q) = maxWrite q := by
  unfold fireVector
  split <;> rfl

/-- A vector only adds to what the port sends. -/
theorem prefix_fireVector {l : List PortWrite} (v : Nat) {q : Port} (h : l <+: q.sent) : l <+: (fireVector v q).sent := by
  unfold fireVector
  split
  · exact h
  · exact h.trans (List.prefix_append _ _)

@[simp] theorem mayWrite_onRing (i : Nat) (f : Ring → Ring) (q : Port) : mayWrite (onRing i f q) = mayWrite q := rfl
@[simp] theorem maxWrite_onRing (i : Nat) (f : Ring → Ring) (q : Port) : maxWrite (onRing i f q) = maxWrite q := rfl
@[simp] theorem sent_onRing (i : Nat) (f : Ring → Ring) (q : Port) : (onRing i f q).sent = q.sent := rfl

/-- A ring that has a completion ring is one of its port. -/
theorem ringAt_lt {q : Port} {i : Nat} {cq : CompletionRing} (h : (ringAt q i).cq = some cq) : i < q.rings.length := by
  by_contra hi
  simp [ringAt, List.getD_eq_getElem?_getD, List.getElem?_eq_none (Nat.le_of_not_lt hi), Ring.reset] at h

@[simp] theorem length_onRing (i : Nat) (f : Ring → Ring) (q : Port) : (onRing i f q).rings.length = q.rings.length := by
  simp [onRing, modAt]

@[simp] theorem settleCommand_cq (c : Completion) (r : Ring) : (settleCommand c r).cq = r.cq := by
  unfold settleCommand
  split <;> rfl

@[simp] theorem settleCommand_events (c : Completion) (r : Ring) : (settleCommand c r).events = r.events := by
  unfold settleCommand
  split <;> rfl

/-- R99: coalescing leaves what the ring holds and where it stands. -/
theorem coalesce_keeps (time : Word) (b : Bool) (c : CompletionRing) :
    (coalesce time b c).1.written = c.written ∧ (coalesce time b c).1.released = c.released ∧
      (coalesce time b c).1.log2Size = c.log2Size ∧ (coalesce time b c).1.held = c.held := by
  unfold coalesce
  repeat' split
  all_goals exact ⟨rfl, rfl, rfl, rfl⟩

/-- The ring after a completion has been written. -/
theorem ringAt_writeCompletion (time : Word) {i : Nat} (cq : CompletionRing) (c : Completion) {q : Port} (hi : i < q.rings.length) :
    ringAt (writeCompletion time i cq c q) i =
      settleCommand c { ringAt q i with
        cq := some (coalesce time c.noIrq { cq with written := cq.written + completionUnits c }).1 } := by
  have hring := ringAt_onRing_self q (fun r => settleCommand c { r with
    cq := some (coalesce time c.noIrq { cq with written := cq.written + completionUnits c }).1 }) hi
  rw [← hring]
  simp only [writeCompletion]
  split
  · simp only [ringAt, fireVector_rings]
  · rfl

@[simp] theorem length_writeCompletion (time : Word) (i : Nat) (cq : CompletionRing) (c : Completion) (q : Port) :
    (writeCompletion time i cq c q).rings.length = q.rings.length := by
  simp only [writeCompletion]
  split <;> simp [onRing, modAt]

@[simp] theorem mayWrite_writeCompletion (time : Word) (i : Nat) (cq : CompletionRing) (c : Completion) (q : Port) :
    mayWrite (writeCompletion time i cq c q) = mayWrite q := by
  simp only [writeCompletion]
  split
  · rw [fireVector_mayWrite]; rfl
  · rfl

/-- R96: a completion's writes follow what was sent before. -/
theorem writeCompletion_sent (time : Word) (i : Nat) (cq : CompletionRing) (c : Completion) (q : Port) :
    q.sent ++ completionWrites (maxWrite q) cq { c with phase := (cq.written / cqUnits cq) % 2 = 0 } <+:
      (writeCompletion time i cq c q).sent := by
  simp only [writeCompletion]
  split
  · apply prefix_fireVector
    exact List.prefix_rfl
  · exact List.prefix_rfl

/-- The completion ring after a completion has been written: only how far it is written has moved. -/
theorem cq_writeCompletion (time : Word) {i : Nat} (cq : CompletionRing) (c : Completion) {q : Port} (hi : i < q.rings.length) :
    ∃ x, (ringAt (writeCompletion time i cq c q) i).cq = some x ∧ x.written = cq.written + completionUnits c ∧
      x.released = cq.released ∧ x.log2Size = cq.log2Size ∧ x.held = cq.held := by
  obtain ⟨hw, hr, hl, hh⟩ := coalesce_keeps time c.noIrq { cq with written := cq.written + completionUnits c }
  exact ⟨_, by rw [ringAt_writeCompletion time cq c hi, settleCommand_cq], hw, hr, hl, hh⟩

/-! ## What waits on a ring (R97, R115) -/

theorem cqFits_iff (c : CompletionRing) (n : Nat) : cqFits c n = true ↔ c.written + n ≤ c.released + 2 ^ c.log2Size / 32 :=
  decide_eq_true_iff

/-- A completion ring under which every write stays within what the head word has released. -/
def RingWithin (released log2Size i : Nat) (q : Port) : Prop :=
  ∃ x, (ringAt q i).cq = some x ∧ x.released = released ∧ x.log2Size = log2Size ∧ x.written ≤ released + 2 ^ log2Size / 32

/-- Writing a completion that fits stays within. -/
theorem ringWithin_writeCompletion (time : Word) {i : Nat} {cq : CompletionRing} {c : Completion} {q : Port} {R L : Nat}
    (hi : i < q.rings.length) (hR : cq.released = R) (hL : cq.log2Size = L) (hfits : cqFits cq (completionUnits c) = true) :
    RingWithin R L i (writeCompletion time i cq c q) := by
  obtain ⟨x, hx, hw, hr, hl, -⟩ := cq_writeCompletion time cq c hi
  refine ⟨x, hx, hr.trans hR, hl.trans hL, ?_⟩
  rw [hw]
  subst hR hL
  exact (cqFits_iff _ _).mp hfits

/-- A change of the completion ring's held completions, or of what else the ring holds, stays within. -/
theorem ringWithin_onRing {i R L : Nat} {q : Port} (f : Ring → Ring) (hi : i < q.rings.length)
    (hf : ∀ r x, r.cq = some x → ∃ y, (f r).cq = some y ∧ y.released = x.released ∧ y.log2Size = x.log2Size ∧ y.written = x.written)
    (h : RingWithin R L i q) : RingWithin R L i (onRing i f q) := by
  obtain ⟨x, hx, hr, hl, hw⟩ := h
  obtain ⟨y, hy, hyr, hyl, hyw⟩ := hf _ x hx
  exact ⟨y, by rw [ringAt_onRing_self q f hi, hy], hyr.trans hr, hyl.trans hl, hyw ▸ hw⟩

/-- R97: held completions are written within what is released. -/
theorem ringWithin_writeHeld (time : Word) {i R L : Nat} (cs : List Completion) {q : Port} (h : RingWithin R L i q) :
    RingWithin R L i (writeHeld time i cs q) := by
  induction cs generalizing q with
  | nil =>
    obtain ⟨x, hx, -⟩ := id h
    exact ringWithin_onRing _ (ringAt_lt hx) (fun r x hrx => ⟨{ x with held := [] }, by simp [hrx], rfl, rfl, rfl⟩) h
  | cons c cs ih =>
    obtain ⟨x, hx, hr, hl, -⟩ := id h
    have hi := ringAt_lt hx
    simp only [writeHeld, hx]
    split
    · next hfits =>
      rw [Bool.and_eq_true] at hfits
      exact ih (ringWithin_writeCompletion time hi hr hl hfits.2)
    · exact ringWithin_onRing _ hi (fun r x hrx => ⟨{ x with held := c :: cs }, by simp [hrx], rfl, rfl, rfl⟩) h

theorem natLE_length (n len : Nat) : (natLE n len).length = len := by
  induction len generalizing n with
  | zero => rfl
  | succ len ih => simp [natLE, ih]

/-- R115: an event's completion takes two units. -/
theorem completionUnits_event (e : Event) (lost : Nat) : completionUnits (eventCompletion e lost) = 2 := by
  have h : (eventCompletion e lost).payload.length = 32 := natLE_length _ _
  rw [completionUnits, h]
  rfl

/-- R115: events are written within what is released. -/
theorem ringWithin_writeEvents (time : Word) {i R L : Nat} (es : List Event) {q : Port} (h : RingWithin R L i q) :
    RingWithin R L i (writeEvents time i es q) := by
  induction es generalizing q with
  | nil => exact h
  | cons e es ih =>
    obtain ⟨x, hx, hr, hl, -⟩ := id h
    have hi := ringAt_lt hx
    simp only [writeEvents, hx]
    split
    · next hfits =>
      refine ih (ringWithin_writeCompletion time (by simpa using hi) hr hl ?_)
      rw [completionUnits_event]
      exact hfits.2.2
    · exact h

/-- R95 to R97: whatever is pumped stays within what is released. -/
theorem ringWithin_pumpRing (time : Word) {i R L : Nat} {q : Port} (h : RingWithin R L i q) :
    RingWithin R L i (pumpRing time i q) :=
  ringWithin_writeEvents time _ (ringWithin_writeHeld time _ h)

/-- R97: a completion that joins a ring. -/
def holdCompletion (i : Nat) (c : Completion) (q : Port) : Port :=
  onRing i (fun r => { r with cq := r.cq.map (fun x => { x with held := x.held ++ [c] }) }) q

theorem postCompletion_eq (time : Word) (i : Nat) (c : Completion) (q : Port) :
    postCompletion time i c q = pumpRing time i (holdCompletion i c q) := rfl

/-- The ring that a completion has joined, where none was held. -/
theorem ringAt_holdCompletion {i : Nat} (c : Completion) {q : Port} {cq : CompletionRing} (hcq : (ringAt q i).cq = some cq)
    (hheld : cq.held = []) : ringAt (holdCompletion i c q) i = { ringAt q i with cq := some { cq with held := [c] } } := by
  rw [holdCompletion, ringAt_onRing_self q _ (ringAt_lt hcq)]
  simp [hcq, hheld]

/-- Settles O57. -/
theorem completionsFit : Obligations.CompletionsFit := by
  unfold Obligations.CompletionsFit
  refine ⟨?fits, ?waits, ?within⟩
  case fits =>
    intro time i c q cq hcq hheld hevents hmay hroom
    have hring := ringAt_holdCompletion c hcq hheld
    have hi : i < (holdCompletion i c q).rings.length := by simpa [holdCompletion] using ringAt_lt hcq
    have hfits : cqFits { cq with held := [c] } (completionUnits c) = true := by
      rw [cqFits_iff, completionUnits, ← Nat.add_assoc]
      exact hroom
    obtain ⟨x, hx, hw, -, -, hxheld⟩ := cq_writeCompletion time { cq with held := [] } c hi
    have hlen := ringAt_lt hx
    have hpump : postCompletion time i c q =
        onRing i (fun r => { r with cq := r.cq.map (fun y => { y with held := [] }) })
          (writeCompletion time i { cq with held := [] } c (holdCompletion i c q)) := by
      have hnone : (ringAt (writeCompletion time i { cq with held := [] } c (holdCompletion i c q)) i).events = [] := by
        rw [ringAt_writeCompletion time _ c hi, settleCommand_events, hring]
        exact hevents
      simp only [postCompletion_eq, pumpRing, hring, Option.map_some, Option.getD_some, writeHeld, hfits,
        show mayWrite (holdCompletion i c q) = true from hmay, Bool.and_self, if_true]
      rw [ringAt_onRing_self _ _ hlen, hnone, writeEvents]
    rw [hpump]
    refine ⟨?_, { x with held := [] }, by rw [ringAt_onRing_self _ _ hlen, hx]; rfl, ?_, rfl⟩
    · have hcq' : { cq with held := [] } = cq := by rw [← hheld]
      have hsent := writeCompletion_sent time i { cq with held := [] } c (holdCompletion i c q)
      rw [hcq'] at hsent ⊢
      obtain ⟨l, hl⟩ := hsent
      exact ⟨l, hl.symm⟩
    · simpa [completionUnits, Nat.add_assoc] using hw
  case waits =>
    intro time i c q cq hcq hheld hno
    have hring := ringAt_holdCompletion c hcq hheld
    have hi : i < (holdCompletion i c q).rings.length := by simpa [holdCompletion] using ringAt_lt hcq
    have hblocked : (mayWrite (holdCompletion i c q) && cqFits { cq with held := [c] } (completionUnits c)) = false := by
      rcases hno with hmay | hroom
      · rw [show mayWrite (holdCompletion i c q) = false from hmay, Bool.false_and]
      · have : cqFits { cq with held := [c] } (completionUnits c) = false := by
          rw [Bool.eq_false_iff, ne_eq, cqFits_iff, completionUnits, ← Nat.add_assoc]
          exact Nat.not_le.mpr hroom
        rw [this, Bool.and_false]
    have hheldBack : writeHeld time i [c] (holdCompletion i c q) = onRing i (fun r => { r with
        cq := r.cq.map (fun x => { x with held := [c] }) }) (holdCompletion i c q) := by
      simp [writeHeld, hring, hblocked]
    have hring' : ringAt (writeHeld time i [c] (holdCompletion i c q)) i =
        { ringAt q i with cq := some { cq with held := [c] } } := by
      rw [hheldBack, ringAt_onRing_self _ _ hi, hring]
      rfl
    have hpump : postCompletion time i c q = writeHeld time i [c] (holdCompletion i c q) := by
      have hnoEvent : ∀ es, writeEvents time i es (writeHeld time i [c] (holdCompletion i c q)) =
          writeHeld time i [c] (holdCompletion i c q) := by
        intro es
        cases es with
        | nil => rfl
        | cons e es => simp [writeEvents, hring']
      simp only [postCompletion_eq, pumpRing, hring, Option.map_some, Option.getD_some, hnoEvent]
    rw [hpump, hring']
    exact ⟨by rw [hheldBack]; rfl, rfl, rfl⟩
  case within =>
    intro time i c q cq hcq hw
    have hstart : RingWithin cq.released cq.log2Size i q := ⟨cq, hcq, rfl, rfl, hw⟩
    have hjoined := ringWithin_onRing (fun r => { r with cq := r.cq.map (fun x => { x with held := x.held ++ [c] }) })
      (ringAt_lt hcq) (fun r x hrx => ⟨{ x with held := x.held ++ [c] }, by simp [hrx], rfl, rfl, rfl⟩) hstart
    obtain ⟨x, hx, hr, hl, hx'⟩ := ringWithin_pumpRing time hjoined
    exact ⟨x, hx, hr, hl, by rw [cqUnits, hr, hl]; exact hx'⟩

end Sys2Proof.Machine
end

section
/-!
PROOFS. Host packets that are accepted: the body of their command runs on the state with the packet passed (R87, R92), and a
query answers with a record of the state as it stood.
-/

namespace Sys2Proof.Machine

/-! ## Accepted packets -/

/-- The row of an accepted packet runs its command's body once, on the state with the packet passed (R87, R92). -/
theorem exec_starts {i : Instr} {w : HostRow} {s : State} (hi : packetRow i = some w) (hg : w.gather = gatherPayload)
    (h : Starts s w.ring w.rule w.packet) :
    exec i s = .next (w.body (refFor w.ring w.rule w.packet) (startOf w.rule w.packet) (takenBy s w.ring w.rule w.packet)) := by
  rw [exec_packet hi, hg, ← hostCommand_accepted w.body h, hostCommand]

/-! What a started command of one packet brings. -/

@[simp] theorem startOf_payload (rule : CommandRule) (p : Packet) : (startOf rule p).payload = p.payload := rfl
@[simp] theorem startOf_handle (rule : CommandRule) (p : Packet) : (startOf rule p).handle = p.handle := rfl
@[simp] theorem startOf_session (rule : CommandRule) (p : Packet) : (startOf rule p).session = p.session := rfl
@[simp] theorem fixP0_payload (mask value : BitVec 32) (p : Packet) : (fixP0 mask value p).payload = p.payload := rfl
@[simp] theorem fixP0_handle (mask value : BitVec 32) (p : Packet) : (fixP0 mask value p).handle = p.handle := rfl
@[simp] theorem fixP0_session (mask value : BitVec 32) (p : Packet) : (fixP0 mask value p).session = p.session := rfl

/-- Two changes of one port are one. -/
theorem onPort_onPort (p : Nat) (f g : Port → Port) (s : State) : onPort p f (onPort p g s) = onPort p (f ∘ g) s := by
  simp [onPort, modAt, List.modify_modify_eq]

/-- Two changes of one ring are one. -/
theorem onRing_onRing (i : Nat) (f g : Ring → Ring) (q : Port) : onRing i f (onRing i g q) = onRing i (f ∘ g) q := by
  simp [onRing, modAt, List.modify_modify_eq]

/-- What passing an accepted packet does to its ring: HEAD has passed it (R87), and the command is outstanding (R102). -/
def passedRing (r : RingId) (rule : CommandRule) (p : Packet) (x : Ring) : Ring :=
  { x with
    head := x.head + BitVec.ofNat 32 (packetUnits p.payloadLen.toNat), outstanding := x.outstanding ++ [refFor r rule p], chain := none }

/-- What it does to its port: the ring was the last served (R100). -/
def passedPort (r : RingId) (rule : CommandRule) (p : Packet) (q : Port) : Port :=
  { onRing r.idx (passedRing r rule p) q with lastServed := if r.idx = 0 then q.lastServed else r.idx.val }

/-- An accepted packet changes its port alone. -/
theorem takenBy_eq (s : State) (r : RingId) (rule : CommandRule) (p : Packet) :
    takenBy s r rule p = onPort r.port (passedPort r rule p) s := by
  rw [takenBy, onRingOf, onRingOf, passPacket, onPort_onPort, onPort_onPort]
  congr 1
  funext q
  simp only [onRing, modAt, List.modify_modify_eq, passedPort, Function.comp_apply]
  rfl

/-- A field of a port that a change of port `p` keeps is the same on every port. -/
theorem portOf_onPort_field {α : Type} (g : Port → α) {f : Port → Port} (hf : ∀ q, g (f q) = g q) (s : State) (p k : Nat) :
    g (portOf (onPort p f s) k) = g (portOf s k) := by
  by_cases hk : k = p
  · subst hk
    by_cases hl : k < s.ports.length
    · rw [portOf_onPort_self s f hl, hf]
    · simp [portOf, modAt, List.getD_eq_getElem?_getD, List.getElem?_eq_none (Nat.le_of_not_lt hl)]
  · rw [portOf_onPort_other s f hk]

/-- A measure of each port that a change of one port keeps gives the same list. -/
theorem map_modAt {α β : Type} (g : α → β) {f : α → α} (hf : ∀ q, g (f q) = g q) (l : List α) (k : Nat) :
    (modAt l k f).map g = l.map g := by
  apply List.ext_getElem?
  intro i
  simp only [modAt, List.getElem?_map, List.getElem?_modify]
  split
  · cases l[i]? <;> simp [hf]
  · simp


/-- The rings and the number served last apart, an accepted packet leaves its port as it was. -/
theorem portOf_takenBy_field {α : Type} (g : Port → α) (hg : ∀ q l k, g { q with rings := l, lastServed := k } = g q)
    (s : State) (r : RingId) (rule : CommandRule) (p : Packet) (k : Nat) :
    g (portOf (takenBy s r rule p) k) = g (portOf s k) := by
  rw [takenBy_eq]
  exact portOf_onPort_field g (fun q => hg q _ _) s r.port k

/-- A measure of a ring that a packet does not touch: the same list on every port. -/
theorem takenBy_rings {α : Type} (g : Ring → α) (hg : ∀ x h o c, g { x with head := h, outstanding := o, chain := c } = g x)
    (s : State) (r : RingId) (rule : CommandRule) (p : Packet) :
    (takenBy s r rule p).ports.map (fun q => q.rings.map g) = s.ports.map (fun q => q.rings.map g) := by
  rw [takenBy_eq]
  refine map_modAt _ (fun q => ?_) _ _
  exact map_modAt g (fun x => hg x _ _ _) q.rings r.idx

@[simp] theorem devId_onPort (s : State) (p k : Nat) (f : Port → Port) : devId (onPort p f s) k = devId s k := rfl
@[simp] theorem coresActive_onPort (s : State) (p : Nat) (f : Port → Port) : coresActive (onPort p f s) = coresActive s := rfl
@[simp] theorem cratersRetired_onPort (s : State) (p : Nat) (f : Port → Port) : cratersRetired (onPort p f s) = cratersRetired s := rfl
@[simp] theorem nearUsable_onPort (s : State) (p : Nat) (f : Port → Port) : nearUsable (onPort p f s) = nearUsable s := rfl
theorem devInfoRecord_onPort (s : State) (p k : Nat) (f : Port → Port) : devInfoRecord (onPort p f s) k = devInfoRecord s k := by
  simp only [devInfoRecord, devId_onPort, coresActive_onPort, cratersRetired_onPort, nearUsable_onPort, onPort_boot, onPort_fabric, onPort_pins]

theorem ringsEnabled_takenBy (s : State) (r : RingId) (rule : CommandRule) (p : Packet) :
    ringsEnabled (takenBy s r rule p) = ringsEnabled s := by
  have h := takenBy_rings Ring.enabled (fun _ _ _ _ => rfl) s r rule p
  have e : ∀ x : State, ringsEnabled x = ((x.ports.map (fun q => q.rings.map Ring.enabled)).map (fun l => (l.filter id).length)).sum := by
    intro x
    simp [ringsEnabled, List.filter_map, Function.comp_def]
  rw [e, e, h]

theorem reservedNear_takenBy (s : State) (r : RingId) (rule : CommandRule) (p : Packet) :
    reservedNear (takenBy s r rule p) = reservedNear s := by
  have h := takenBy_rings Ring.enabled (fun _ _ _ _ => rfl) s r rule p
  have e : ∀ x : State, x.ports.map (fun q => ((q.rings.drop 1).filter (·.enabled)).length) =
      ((x.ports.map (fun q => q.rings.map Ring.enabled)).map (fun l => ((l.drop 1).filter id).length)) := by
    intro x
    simp [← List.map_tail, List.filter_map, Function.comp_def]
  rw [reservedNear, reservedNear, e, e, h, takenBy_eq, onPort_plans, onPort_twin]

theorem nearFree_takenBy (s : State) (r : RingId) (rule : CommandRule) (p : Packet) :
    nearFree (takenBy s r rule p) = nearFree s := by
  rw [nearFree, nearFree, reservedNear_takenBy, takenBy_eq, nearUsable_onPort, mappedNear, onPort_xlate, ← mappedNear]

theorem devStatusRecord_takenBy (s : State) (r : RingId) (rule : CommandRule) (p : Packet) (k : Nat) :
    devStatusRecord (takenBy s r rule p) k = devStatusRecord s k := by
  have hopen := portOf_takenBy_field Port.ringsOpen (fun _ _ _ => rfl) s r rule p k
  have hlost := portOf_takenBy_field Port.eventsLost (fun _ _ _ => rfl) s r rule p k
  have hstate : devState (takenBy s r rule p) k = devState s k := by
    rw [devState, devState, hopen]; rfl
  have hxlate : xlateFree (takenBy s r rule p) = xlateFree s := rfl
  rw [devStatusRecord, devStatusRecord, hstate, hlost, hxlate, ringsEnabled_takenBy, nearFree_takenBy, takenBy_eq, onPort_sessions, onPort_fabric, onPort_twin]

theorem fabricHeader_countCorrections (s : State) : fabricHeader (countCorrections s) = fabricHeader s := by
  have h : ∀ l : List FabricPort, ∀ k, ((l.zipIdx k).map (fun (q, n) =>
      if q.enabled then { q with corrected := q.corrected + (Config.freeValue (s.freeCount + n)).toNat } else q)).map FabricPort.enabled =
      l.map FabricPort.enabled := by
    intro l
    induction l with
    | nil => intro k; rfl
    | cons q l ih => intro k; cases hq : q.enabled <;> simp [hq, ih]
  have e : ∀ l : List FabricPort, l.zipIdx.map (fun (q, n) => bitOf q.enabled <<< n) =
      (l.map FabricPort.enabled).zipIdx.map (fun (b, n) => bitOf b <<< n) := by
    intro l
    simp [List.zipIdx_map, Function.comp_def]
  simp only [fabricHeader, countCorrections, takeFresh_fabric, e, h]

/-- Settles O1: no record reads what passing its packet changes. -/
theorem queriesReturnTheirRecords : Obligations.QueriesReturnTheirRecords := by
  unfold Obligations.QueriesReturnTheirRecords
  refine ⟨?devInfo, ?devStatus, ?power, ?twin, ?fabric, ?token, ?margin, ?retired, ?tap, ?snap, ?policy⟩
  case devInfo =>
    intro s r p h
    rw [exec_starts (i := .devInfo r p) rfl rfl h]
    simp only [hostRow, devInfoBody, answeredBy]
    rw [takenBy_eq, devInfoRecord_onPort]
    rfl
  case devStatus =>
    intro s r p h
    rw [exec_starts (i := .devStatus r p) rfl rfl h]
    simp only [hostRow, devStatusBody, answeredBy]
    rw [devStatusRecord_takenBy]; rfl
  case power =>
    intro s r p h
    exact exec_starts (i := .powerQuery r p) rfl rfl h
  case twin =>
    intro s r p h
    exact exec_starts (i := .twinStatus r p) rfl rfl h
  case fabric =>
    intro s r p x h hp hx
    rw [exec_starts (i := .fabricConfigQuery r p) rfl rfl h]
    simp only [hostRow, fabricQueryBody, startOf_payload, fixP0_payload, hp, hx, ne_eq, not_true, if_false,
      fabricHeader_countCorrections]
    rfl
  case token =>
    intro s r p h
    exact exec_starts (i := .debugTokenQuery r p) rfl rfl h
  case margin =>
    intro s r p h
    exact exec_starts (i := .marginReport r p) rfl rfl h
  case retired =>
    intro s r p h h0
    have hp : parN (startOf unitRetireRule (fixP1 3 2 p)) 0 = 0 := congrArg BitVec.toNat h0
    rw [exec_starts (i := .unitRetireQuery r p) rfl rfl h]
    simp only [hostRow, unitRetireQueryBody, hp]
    rfl
  case tap =>
    intro s r p h h0
    rw [exec_starts (i := .tapRead r p) rfl rfl h]
    have hcheck : tapUseCheck (takenBy s r tapReadRule p) (startOf tapReadRule p) = none := h0
    simp only [hostRow, tapReadBody, hcheck]
    rfl
  case snap =>
    intro s r p h h0
    have hp : parBits (startOf snapReadRule p) 0 7 0 = 0xFF := h0
    rw [exec_starts (i := .snapRead r p) rfl rfl h]
    simp only [hostRow, snapReadBody, hp]
    rfl
  case policy =>
    intro s r p t h h0 h1
    rw [exec_starts (i := .tableMigratePolicyQuery r p) rfl rfl h]
    have htable : tableOf (takenBy s r policyRule (fixP0 1 1 p)) (startOf policyRule (fixP0 1 1 p)).handle = some t := h1
    simp only [hostRow, policyQueryBody, htable, startOf_payload, fixP0_payload, h0, ne_eq, not_true, if_false]
    rfl
end Sys2Proof.Machine
end

section
/-!
PROOFS. Packets that stop a ring, gather in a chain or break one off (R87 to R93, R100 to R102).
-/

namespace Sys2Proof.Machine

/-! ## What completions leave of the rings -/

/-- A change of one ring that keeps a measure of it keeps the measure of every ring. -/
theorem ringAt_onRing_field {α : Type} (g : Ring → α) {f : Ring → Ring} (hf : ∀ r, g (f r) = g r) (q : Port) (i j : Nat) :
    g (ringAt (onRing i f q) j) = g (ringAt q j) := by
  by_cases hj : j = i
  · subst hj
    by_cases hl : j < q.rings.length
    · rw [ringAt_onRing_self q f hl, hf]
    · simp [ringAt, onRing, modAt, List.getD_eq_getElem?_getD, List.getElem?_eq_none (Nat.le_of_not_lt hl)]
  · rw [ringAt_onRing_other q f hj]

section Kept
variable {α : Type} (g : Ring → α) (hg : ∀ r cq o ev l, g { r with cq := cq, outstanding := o, events := ev, lost := l } = g r)
include hg

theorem settleCommand_field (c : Completion) (r : Ring) : g (settleCommand c r) = g r := by
  unfold settleCommand
  split
  · rfl
  · exact hg r r.cq _ r.events r.lost

theorem ringAt_writeCompletion_field (time : Word) (i : Nat) (cq : CompletionRing) (c : Completion) (q : Port) (j : Nat) :
    g (ringAt (writeCompletion time i cq c q) j) = g (ringAt q j) := by
  have h := ringAt_onRing_field g (f := fun r => settleCommand c { r with
    cq := some (coalesce time c.noIrq { cq with written := cq.written + completionUnits c }).1 })
    (fun r => (settleCommand_field g hg c _).trans (hg r _ r.outstanding r.events r.lost)) q i j
  rw [← h]
  simp only [writeCompletion]
  split
  · simp only [ringAt, fireVector_rings]
  · rfl

theorem ringAt_writeHeld_field (time : Word) (i : Nat) (cs : List Completion) (q : Port) (j : Nat) :
    g (ringAt (writeHeld time i cs q) j) = g (ringAt q j) := by
  induction cs generalizing q with
  | nil => exact ringAt_onRing_field g (fun r => hg r _ r.outstanding r.events r.lost) q i j
  | cons c cs ih =>
    rw [writeHeld]
    split
    · rfl
    · split
      · rw [ih, ringAt_writeCompletion_field g hg]
      · exact ringAt_onRing_field g (fun r => hg r _ r.outstanding r.events r.lost) q i j

theorem ringAt_writeEvents_field (time : Word) (i : Nat) (es : List Event) (q : Port) (j : Nat) :
    g (ringAt (writeEvents time i es q) j) = g (ringAt q j) := by
  induction es generalizing q with
  | nil => rfl
  | cons e es ih =>
    rw [writeEvents]
    split
    · rfl
    · dsimp only
      split
      · rw [ih, ringAt_writeCompletion_field g hg]
        exact ringAt_onRing_field g (fun r => hg r r.cq r.outstanding _ _) q i j
      · rfl

/-- What is pumped keeps of each ring all but its completion ring, its outstanding commands and its events. -/
theorem ringAt_pumpRing_field (time : Word) (i : Nat) (q : Port) (j : Nat) :
    g (ringAt (pumpRing time i q) j) = g (ringAt q j) := by
  rw [pumpRing, ringAt_writeEvents_field g hg, ringAt_writeHeld_field g hg]

theorem ringAt_postCompletion_field (time : Word) (i : Nat) (c : Completion) (q : Port) (j : Nat) :
    g (ringAt (postCompletion time i c q) j) = g (ringAt q j) := by
  rw [postCompletion_eq, ringAt_pumpRing_field g hg]
  exact ringAt_onRing_field g (fun r => hg r _ r.outstanding r.events r.lost) q i j

end Kept

/-- A change of one ring that keeps a measure of it keeps the measure of every ring of the module. -/
theorem ringOf_onPort_field {α : Type} (g : Ring → α) {f : Port → Port} (hf : ∀ q j, g (ringAt (f q) j) = g (ringAt q j))
    (s : State) (p k j : Nat) : g (ringOf (onPort p f s) k j) = g (ringOf s k j) :=
  portOf_onPort_field (fun q => g (ringAt q j)) (fun q => hf q j) s p k

/-! ## The packet at HEAD (R87, R100) -/

/-- A ring whose packet is served is enabled, so it is one of its port. -/
theorem enabled_of_packetAtHead {s : State} {r : RingId} {op : BitVec 16} {p : Packet} (h : packetAtHead s r op p = true) :
    (ringOf s r.port r.idx).enabled = true := by
  have hserve : ringCanServe s r.port r.idx = true := by
    simp only [packetAtHead, Bool.and_eq_true] at h
    exact h.1.1.1.2
  by_contra hno
  simp [ringCanServe, hno] at hserve

/-- A ring that is enabled is one that the module has. -/
theorem ring_exists_of_enabled {s : State} {p i : Nat} (h : (ringOf s p i).enabled = true) :
    p < s.ports.length ∧ i < (portOf s p).rings.length := by
  have hreset : ∀ q : Port, q.rings.length ≤ i → ringAt q i = Ring.reset := by
    intro q hq
    simp [ringAt, List.getD_eq_getElem?_getD, List.getElem?_eq_none hq]
  refine ⟨?_, ?_⟩
  · by_contra hp
    have hport : portOf s p = Port.reset := by simp [portOf, List.getD_eq_getElem?_getD, List.getElem?_eq_none (Nat.le_of_not_lt hp)]
    have hring : ringAt Port.reset i = Ring.reset := by
      have hrings : Port.reset.rings = List.replicate 64 Ring.reset := rfl
      rw [ringAt, hrings, List.getD_eq_getElem?_getD, List.getElem?_replicate]
      split <;> rfl
    rw [ringOf, hport, hring] at h
    cases h
  · by_contra hi
    rw [ringOf, hreset _ (Nat.le_of_not_lt hi)] at h
    cases h

/-- R101, R102: a packet whose header is intact starts a command only where one may start. -/
theorem mayStart_of_packetAtHead {s : State} {r : RingId} {op : BitVec 16} {p : Packet} (h : packetAtHead s r op p = true)
    (hc : (ringOf s r.port r.idx).chain = none) (hs : headerStop (ringOf s r.port r.idx) (headerBytes op p) = none) :
    mayStart (ringOf s r.port r.idx) (headerBytes op p) = true := by
  simp only [packetAtHead, Bool.and_eq_true, decide_eq_true_eq] at h
  obtain ⟨⟨⟨⟨-, hserve⟩, -⟩, hhdr⟩, -⟩ := h
  by_cases henabled : (!(ringOf s r.port r.idx).enabled || (ringOf s r.port r.idx).stopped ||
      decide ((ringOf s r.port r.idx).tail = (ringOf s r.port r.idx).head)) = true
  · simp [ringCanServe, henabled] at hserve
  · simp only [ringCanServe, henabled, hhdr, hs, hc] at hserve
    simpa using (by simpa using hserve : _ ∧ mayStart (ringOf s r.port r.idx) (headerBytes op p) = true).2

/-- R102: a ring with 64 commands outstanding starts none. -/
theorem packetAtHead_of_full {s : State} {r : RingId} {op : BitVec 16} {p : Packet}
    (hfull : 64 ≤ (ringOf s r.port r.idx).outstanding.length) (hc : (ringOf s r.port r.idx).chain = none)
    (hs : headerStop (ringOf s r.port r.idx) (headerBytes op p) = none) : packetAtHead s r op p = false := by
  rw [Bool.eq_false_iff]
  intro h
  have := mayStart_of_packetAtHead h hc hs
  simp only [mayStart, Bool.and_eq_true, decide_eq_true_eq] at this
  omega

/-! ## Taking a packet (R88, R93) -/

section Take
variable {s : State} {r : RingId} {rule : CommandRule} {p : Packet} (gather : Packet → Chain → State → State × Chain)
  (body : CmdRef → Chain → State → State)

/-- R88: a protocol error stops the ring. -/
theorem takePacket_stops {reason : Nat} (h : headerStop (ringOf s r.port r.idx) (headerBytes rule.opcode p) = some reason) :
    takePacket r rule gather body p s = stopRing r reason s := by
  simp only [takePacket, h]

/-- A packet with an intact header that does not go on with a chain starts a command, once the chain in progress, if there is one,
is abandoned. -/
theorem takePacket_fresh (hs : headerStop (ringOf s r.port r.idx) (headerBytes rule.opcode p) = none)
    (hq : r.idx = 0 → (ringOf s r.port 0).cq ≠ none)
    (hcont : continuesChain (ringOf s r.port r.idx) (headerBytes rule.opcode p) = false) :
    takePacket r rule gather body p s =
      if (ringOf s r.port r.idx).chain.isSome ∧ !mayStart (ringOf (abandonChain r s) r.port r.idx) (headerBytes rule.opcode p)
      then abandonChain r s else consumePacket r rule gather body p none (abandonChain r s) := by
  have hq' : ¬ (r.idx = 0 ∧ (ringOf s r.port r.idx).cq = none) := fun ⟨h0, hnone⟩ => hq h0 (by simpa [h0] using hnone)
  simp only [takePacket, hs, hq', if_false, hcont, Bool.false_eq_true]

/-- R93: a packet with an intact header that goes on with the chain. -/
theorem takePacket_continues (hs : headerStop (ringOf s r.port r.idx) (headerBytes rule.opcode p) = none)
    (hq : r.idx = 0 → (ringOf s r.port 0).cq ≠ none)
    (hcont : continuesChain (ringOf s r.port r.idx) (headerBytes rule.opcode p) = true) :
    takePacket r rule gather body p s = consumePacket r rule gather body p (ringOf s r.port r.idx).chain s := by
  have hq' : ¬ (r.idx = 0 ∧ (ringOf s r.port r.idx).cq = none) := fun ⟨h0, hnone⟩ => hq h0 (by simpa [h0] using hnone)
  simp only [takePacket, hs, hq', if_false, hcont, if_true]

/-- R92: a fresh packet of one command that is judged faulty. -/
theorem consumePacket_refused {st : Status} (hf : bit p.flags 0 = false) (hj : judge s r rule p = some st) :
    consumePacket r rule gather body p none s = answeredBy s r rule p (replyOf st) := by
  simp [consumePacket, hj, hf, finishChain, startChain, answeredBy, refFor, takenBy, refOf, replyOf]

/-- R93: the first packet of a chain. -/
theorem consumePacket_chains (hf : bit p.flags 0 = true) (hc : rule.chainable = true) (hlen : p.payloadLen.toNat % 64 = 0)
    (hj : judge s r rule p = none) :
    consumePacket r rule gatherPayload body p none s = onRingOf r (fun x => { x with
      chain := some (startOf rule p), outstanding := x.outstanding ++ [refFor r rule p] }) (passPacket r p s) := by
  simp only [consumePacket, hj, hf, hc, hlen, and_self, if_true, Option.isSome_none, Bool.false_eq_true, if_false, startChain,
    gatherPayload, onRingOf, onPort_onPort, refFor, refOf, startOf, List.nil_append, Nat.zero_add]
  congr 1
  funext q
  simp [onRing, modAt, List.modify_modify_eq, Function.comp_def]

/-- R93: the last packet of a chain whose packets have passed. -/
theorem consumePacket_ends {c : Chain} (hres : reservedClear rule p = true) (hok : c.failed = none) (hf : bit p.flags 0 = false) :
    consumePacket r rule gatherPayload body p (some c) s =
      body (refOf r c) { c with payload := c.payload ++ p.payload, taken := c.taken + p.payload.length }
        (onRingOf r (fun x => { x with chain := none }) (passPacket r p s)) := by
  simp [consumePacket, hres, hok, hf, finishChain, gatherPayload, refOf]

end Take

/-- Every row but DATA_PUT's gathers its packets' payloads. -/
theorem packetRow_gather {i : Instr} {w : HostRow} (h : packetRow i = some w) (hput : i ≠ .dataPut w.ring w.packet) :
    w.gather = gatherPayload := by
  cases i <;> simp only [packetRow, Option.some.injEq, reduceCtorEq] at h <;> subst h
  case dataPut => exact absurd rfl hput
  all_goals rfl

/-! ## A ring that stops (R88) -/

/-- R88: a stop changes the ports alone. -/
theorem stopRing_ports (r : RingId) (reason : Nat) (s : State) : stopRing r reason s = { s with ports := (stopRing r reason s).ports } := by
  unfold stopRing
  dsimp only
  split <;> rfl

/-- A measure of a ring that a stop and completions keep. -/
theorem stopRing_field {α : Type} (g : Ring → α)
    (hg : ∀ r cq o ev l, g { r with cq := cq, outstanding := o, events := ev, lost := l } = g r) (r : RingId) (reason : Nat) (s : State) :
    g (ringOf (stopRing r reason s) r.port r.idx) = g (ringOf (onRingOf r (fun x => { x with stopped := true }) s) r.port r.idx) := by
  unfold stopRing
  dsimp only
  split
  · rfl
  · exact ringOf_onPort_field g (fun q j => ringAt_postCompletion_field g hg _ _ _ q j) _ _ _ _

/-- Settles O60. -/
theorem packetsStopAndChain : Obligations.PacketsStopAndChain := by
  unfold Obligations.PacketsStopAndChain
  refine ⟨?notAtHead, ?full, ?stops, ?chains, ?ends, ?breaksOff⟩
  case notAtHead =>
    intro i w s hi h
    rw [exec_packet hi, if_neg (by simp [h])]
  case full =>
    intro i w s hi hfull hc hs
    rw [exec_packet hi, if_neg (by simp [packetAtHead_of_full hfull hc hs])]
  case stops =>
    intro i w s reason hi hhead hs
    have hexec : exec i s = .next (stopRing w.ring reason s) := by
      rw [exec_packet hi, if_pos hhead, takePacket_stops w.gather w.body hs]
    refine ⟨hexec, fun t ht => ?_⟩
    obtain rfl : stopRing w.ring reason s = t := by simpa [hexec] using ht
    obtain ⟨hport, hring⟩ := ring_exists_of_enabled (enabled_of_packetAtHead hhead)
    refine ⟨stopRing_ports _ _ _, ?_, ?_⟩
    · rw [stopRing_field Ring.head (fun _ _ _ _ _ => rfl), ringOf_onRingOf_self s _ _ hport hring]
    · rw [stopRing_field Ring.stopped (fun _ _ _ _ _ => rfl), ringOf_onRingOf_self s _ _ hport hring]
  case chains =>
    intro i w s hi hin hc hf hchain hlen hj hput
    obtain ⟨hhead, hs, hq⟩ := hin
    have hcont : continuesChain (ringOf s w.ring.port w.ring.idx) (headerBytes w.rule.opcode w.packet) = false := by
      simp [continuesChain, hc]
    rw [exec_packet hi, if_pos hhead, takePacket_fresh _ _ hs hq hcont, abandonChain_none s _ hc, hc, if_neg (by simp),
      packetRow_gather hi hput, consumePacket_chains w.body hf hchain hlen hj]
  case ends =>
    intro i w s c hi hin hc hcont hres hok hf hput
    obtain ⟨hhead, hs, hq⟩ := hin
    rw [exec_packet hi, if_pos hhead, takePacket_continues _ _ hs hq hcont, hc, packetRow_gather hi hput,
      consumePacket_ends w.body hres hok hf]
  case breaksOff =>
    rintro i w s c _ hi hin hc hcont rfl
    obtain ⟨hhead, hs, hq⟩ := hin
    have habandon : abandonChain w.ring s = complete (refOf w.ring c)
        { replyOf .badPacket with count0 := if c.opcode = 0x0030 then c.taken else 0 }
        (onRingOf w.ring (fun y => { y with chain := none }) s) := by
      simp only [abandonChain, hc]
    rw [exec_packet hi, if_pos hhead, takePacket_fresh _ _ hs hq hcont, hc, ← habandon]
    refine ⟨fun hmay => ?_, fun st hmay hf hj => ?_⟩
    · rw [if_pos (by simp [hmay])]
    · rw [if_neg (by simp [hmay]), consumePacket_refused _ _ hf hj]

end Sys2Proof.Machine
end

section
/-!
PROOFS. Sessions are opened and closed, and the admin ring is set up (R78, R108, R109).
-/

namespace Sys2Proof.Machine

/-! ## What passing a packet does to the rings -/

/-- An entry of a list with one entry changed is an entry, or the changed one. -/
theorem mem_modAt {α : Type} {l : List α} {k : Nat} {f : α → α} {x : α} (h : x ∈ modAt l k f) : x ∈ l ∨ ∃ y ∈ l, x = f y := by
  obtain ⟨i, hi⟩ := List.mem_iff_getElem?.mp h
  rw [modAt, List.getElem?_modify] at hi
  cases hl : l[i]? with
  | none => simp [hl] at hi
  | some y =>
    have hy := List.mem_of_getElem? hl
    by_cases hk : k = i
    · exact .inr ⟨y, hy, by simpa [hl, hk] using hi.symm⟩
    · exact .inl (by have : y = x := by simpa [hl, hk] using hi
                     exact this ▸ hy)

/-- A ring of a port with one ring changed. -/
theorem ringAt_onRing_cases (i : Nat) (f : Ring → Ring) (q : Port) (j : Nat) :
    ringAt (onRing i f q) j = ringAt q j ∨ ringAt (onRing i f q) j = f (ringAt q j) := by
  by_cases hj : j = i
  · subst hj
    by_cases hl : j < q.rings.length
    · exact .inr (ringAt_onRing_self q f hl)
    · exact .inl (by simp [ringAt, onRing, modAt, List.getD_eq_getElem?_getD, List.getElem?_eq_none (Nat.le_of_not_lt hl)])
  · exact .inl (ringAt_onRing_other q f hj)

/-- A ring of the module with one port changed. -/
theorem ringOf_onPort_cases (p : Nat) (f : Port → Port) (s : State) (k j : Nat) :
    ringOf (onPort p f s) k j = ringOf s k j ∨ ringOf (onPort p f s) k j = ringAt (f (portOf s k)) j := by
  by_cases hk : k = p
  · subst hk
    by_cases hl : k < s.ports.length
    · exact .inr (by rw [ringOf, portOf_onPort_self s f hl])
    · exact .inl (by simp [ringOf, portOf, modAt, List.getD_eq_getElem?_getD, List.getElem?_eq_none (Nat.le_of_not_lt hl)])
  · exact .inl (by rw [ringOf, portOf_onPort_other s f hk, ringOf])

/-- A command outstanding once a packet has passed was outstanding before, or is the packet's. -/
theorem mem_outstanding_takenBy {s : State} {r : RingId} {rule : CommandRule} {p : Packet} {k i : Nat} {o : CmdRef}
    (h : o ∈ (ringOf (takenBy s r rule p) k i).outstanding) : o ∈ (ringOf s k i).outstanding ∨ o = refFor r rule p := by
  have hring : ∀ q, o ∈ (ringAt (passedPort r rule p q) i).outstanding → o ∈ (ringAt q i).outstanding ∨ o = refFor r rule p := by
    intro q hq
    change o ∈ (ringAt (onRing r.idx (passedRing r rule p) q) i).outstanding at hq
    rcases ringAt_onRing_cases r.idx (passedRing r rule p) q i with hsame | hpassed
    · exact .inl (hsame ▸ hq)
    · rw [hpassed, passedRing, List.mem_append, List.mem_singleton] at hq
      exact hq
  rw [takenBy_eq] at h
  rcases ringOf_onPort_cases r.port (passedPort r rule p) s k i with hsame | hpassed
  · exact .inl (hsame ▸ h)
  · exact hring _ (hpassed ▸ h)

/-- Passing a packet leaves a measure of the rings that reads neither HEAD, nor the chain, nor what is outstanding. -/
theorem ringOf_takenBy_field {α : Type} (g : Ring → α) (hg : ∀ x h o c, g { x with head := h, outstanding := o, chain := c } = g x)
    (s : State) (r : RingId) (rule : CommandRule) (p : Packet) (k i : Nat) :
    g (ringOf (takenBy s r rule p) k i) = g (ringOf s k i) := by
  rw [takenBy_eq]
  refine ringOf_onPort_field g (fun q j => ?_) s r.port k i
  exact ringAt_onRing_field g (f := passedRing r rule p) (fun x => hg x _ _ _) q r.idx j

/-- A chain that stands once a packet has passed stood before. -/
theorem chain_of_takenBy {s : State} {r : RingId} {rule : CommandRule} {p : Packet} {q : Port} {x : Ring} {c : Chain}
    (hq : q ∈ (takenBy s r rule p).ports) (hx : x ∈ q.rings) (hc : x.chain = some c) :
    ∃ q' ∈ s.ports, ∃ x' ∈ q'.rings, x'.chain = some c := by
  rw [takenBy_eq] at hq
  rcases mem_modAt hq with hq | ⟨q', hq', rfl⟩
  · exact ⟨q, hq, x, hx, hc⟩
  · refine ⟨q', hq', ?_⟩
    rcases mem_modAt hx with hx | ⟨y, -, rfl⟩
    · exact ⟨x, hx, hc⟩
    · cases hc

/-! ## Changes of several rings -/

/-- Changes of a port, one after the other, change the ports alone. -/
theorem foldl_onPort_ports {α : Type} (p : Nat) (f : α → Port → Port) (l : List α) (s : State) :
    l.foldl (fun x a => onPort p (f a) x) s = { s with ports := (l.foldl (fun x a => onPort p (f a) x) s).ports } := by
  induction l generalizing s with
  | nil => rfl
  | cons a l ih => rw [List.foldl_cons, ih]; rfl

/-! ## Opening (R78, R108) -/

/-- R108: the number that SESSION_OPEN gives is a free one. -/
theorem free_of_openPlan {s : State} {k sid : Nat} {c : Chain} {rings : List Nat} {small large : Nat}
    (h : openPlan s k c = some (sid, rings, small, large)) : sget s.sessions sid = none := by
  have hfind : freeSession s = some sid := by
    simp only [openPlan] at h
    split at h
    · next n _ hn _ =>
      split at h
      · cases h
      · split at h
        · obtain ⟨rfl, -⟩ := by simpa using h
          exact hn
        · cases h
    · cases h
  have hnone := List.find?_some (p := fun k => (sget s.sessions k).isNone) hfind
  exact Option.isNone_iff_eq_none.mp hnone

/-- The rings of a session are enabled, each with its completion ring. -/
def enableRings (port sid : Nat) (l : List (Nat × List Byte)) (s : State) : State :=
  l.foldl (fun x e => onPort port (onRing e.1 (fun _ => openRing sid (cqOf e.2))) x) s

theorem enableRings_ports (port sid : Nat) (l : List (Nat × List Byte)) (s : State) :
    enableRings port sid l s = { s with ports := (enableRings port sid l s).ports } :=
  foldl_onPort_ports port _ l s

/-- A session is entered, with its rings. -/
def enterSession (sid : Nat) (ss : Session) (l : List (Nat × List Byte)) (s : State) : State :=
  enableRings ss.port sid l { s with sessions := sset s.sessions sid ss }

theorem answered_enterSession (s : State) (r : RingId) (rule : CommandRule) (p : Packet) (reply : Reply) (sid : Nat) (ss : Session)
    (l : List (Nat × List Byte)) :
    answeredAfter s r rule p reply (enterSession sid ss l) = { s with
      ports := (answeredAfter s r rule p reply (enterSession sid ss l)).ports, sessions := sset s.sessions sid ss } := by
  rw [answeredAfter, complete_ports, enterSession, enableRings_ports]
  rfl

/-- Settles O2. -/
theorem sessionOpens : Obligations.SessionOpens := by
  unfold Obligations.SessionOpens
  intro s r p sid rings small large h hcheck hplan
  have hfree := free_of_openPlan hplan
  rw [takenBy_eq, onPort_sessions] at hfree
  have hexec : exec (.sessionOpen r p) s = .next (answeredAfter s r sessionOpenRule (fixP0 0x80000000 0 p)
      (replyData (natLE sid 8 ++ rings.map (BitVec.ofNat 8)))
      (enterSession sid { port := r.port, rings := rings, smallBase := small, smallPages := p.p1.toNat, largeBase := large,
                          largePages := p.p2.toNat, closing := none }
        (rings.zip (cqList (startOf sessionOpenRule (fixP0 0x80000000 0 p)))))) := by
    rw [exec_starts (i := .sessionOpen r p) rfl rfl h]
    simp only [hostRow, sessionOpenBody, hcheck]
    rw [show (refFor r sessionOpenRule (fixP0 0x80000000 0 p)).port = r.port from rfl, hplan]
    rfl
  have hframe := answered_enterSession s r sessionOpenRule (fixP0 0x80000000 0 p) (replyData (natLE sid 8 ++ rings.map (BitVec.ofNat 8)))
    sid { port := r.port, rings := rings, smallBase := small, smallPages := p.p1.toNat, largeBase := large,
          largePages := p.p2.toNat, closing := none } (rings.zip (cqList (startOf sessionOpenRule (fixP0 0x80000000 0 p))))
  refine ⟨hfree, _, hexec, ?_, ?_⟩
  · exact hframe
  · rw [congrArg State.sessions hframe]
    rfl

/-- R108: a payload that ADMIN_SETUP accepts is one descriptor. -/
theorem cqList_of_openCheck {c : Chain} (h : openCheck true c = none) : cqList c = [slice c.payload 0 32] := by
  have hlen : c.payload.length = 32 := by
    by_contra hne
    simp [openCheck, hne] at h
  rw [cqList, hlen]
  rfl

/-- R78: the first packet of an admin ring installs its completion ring. -/
theorem adminSetupTake_installs {s : State} {r : RingId} {rule : CommandRule} {q : Packet} (hr : r.idx = 0)
    (hcq : (ringOf s r.port r.idx).cq = none) (hs : headerStop (ringOf s r.port r.idx) (headerBytes rule.opcode q) = none)
    (hf : bit q.flags 0 = false) (hj : judge s r rule q = none) (hcheck : openCheck true (startOf rule q) = none) :
    adminSetupTake r rule q s = complete (refFor r rule q) (replyData (natLE 0xFFFF 8))
      (onRingOf r (fun x => { x with outstanding := x.outstanding ++ [refFor r rule q] })
        (passPacket r q (onRingOf r (fun x => { x with cq := some (cqOf (slice q.payload 0 32)) }) s))) := by
  have hopen : openCheck true { startChain rule.opcode q none with payload := q.payload } = none := hcheck
  have hlist := cqList_of_openCheck hopen
  have hok : ¬ ((judge s r rule q).isSome ∨ bit q.flags 0 ∨
      (openCheck true { startChain rule.opcode q none with payload := q.payload }).isSome) := by
    simp [hj, hf, hopen]
  simp only [adminSetupTake, installAdmin]
  rw [if_pos ⟨hr, hcq, hs⟩, if_neg hok, hlist]
  rfl

/-- Settles O3. -/
theorem adminSetupInstalls : Obligations.AdminSetupInstalls := by
  unfold Obligations.AdminSetupInstalls
  rintro s r p _ rfl hr hhead hcq hs hf hj hcheck
  have hring : ringOf s r.port r.idx = ringOf s r.port 0 := by rw [hr]; rfl
  rw [← hring] at hcq hs
  have hinstalls := adminSetupTake_installs (q := fixP0 0x80000000 0x80000000 p) hr hcq hs hf hj hcheck
  have htake : exec (.adminSetup r p) s = .next (adminSetupTake r adminSetupRule (fixP0 0x80000000 0x80000000 p) s) := by
    simp only [exec, execAdminSetup, hhead, if_true]
  rw [hinstalls] at htake
  refine ⟨htake, fun t ht => ?_⟩
  obtain rfl := Host.Outcome.next.inj (htake.symm.trans ht)
  rw [complete_ports]
  rfl

/-! ## Closing (R104, R109) -/

/-- R104: a session none of whose chains is mid-way has none cancelled. -/
theorem cancelChains_of_none {sid : Nat} {s : State}
    (h : ∀ q ∈ s.ports, ∀ x ∈ q.rings, ∀ c, x.chain = some c → c.session.toNat ≠ sid) : cancelChains sid s = s := by
  have hnone : s.ports.zipIdx.flatMap (fun (q, p) => q.rings.zipIdx.filterMap (fun (r, i) =>
      r.chain.bind (fun c => if c.session.toNat = sid then some (p, i, c) else none))) = [] := by
    rw [List.flatMap_eq_nil_iff]
    rintro ⟨q, p⟩ hq
    rw [List.filterMap_eq_nil_iff]
    rintro ⟨x, i⟩ hx
    cases hc : x.chain with
    | none => simp [hc]
    | some c => simp [hc, h q (List.fst_mem_of_mem_zipIdx hq) x (List.fst_mem_of_mem_zipIdx hx) c hc]
  rw [cancelChains, hnone]
  rfl

/-- R159: a plan without a run has none to cancel. -/
theorem cancelRun_idle {h : Word} {s : State} (hrun : (planOf s h).bind (·.run) = none) : cancelRun h none s = s := by
  cases hp : planOf s h with
  | none => simp [cancelRun, hp]
  | some p =>
    have : p.run = none := by simpa [hp] using hrun
    simp [cancelRun, hp, inCommit, this, endRun]

/-- Plans without runs: none is cancelled. -/
theorem foldl_cancelRun_idle {l : List Word} {s : State} (hrun : ∀ h ∈ l, (planOf s h).bind (·.run) = none) :
    l.foldl (fun x h => cancelRun h none x) s = s := by
  induction l with
  | nil => rfl
  | cons h l ih =>
    rw [List.foldl_cons, cancelRun_idle (hrun h (by simp))]
    exact ih (fun k hk => hrun k (by simp [hk]))

/-- R104, R109: a session of which only the closing command is outstanding has none to cancel. -/
theorem cancelOutstanding_self {ss : Session} {ref : CmdRef} {s : State}
    (h : ∀ i ∈ ss.rings, ∀ o ∈ (ringOf s ss.port i).outstanding, o = ref) : cancelOutstanding ss (some ref) s = s := by
  have hnone : ss.rings.flatMap (fun i => (ringOf s ss.port i).outstanding.filter
      (fun o => decide (some ref ≠ some o ∧ !isHeld (ringOf s ss.port i) o))) = [] := by
    rw [List.flatMap_eq_nil_iff]
    intro i hi
    rw [List.filter_eq_nil_iff]
    intro o ho
    simp [h i hi o ho]
  rw [cancelOutstanding, hnone]
  rfl

/-- The plans that are left once some are freed. -/
theorem foldl_freePlan_plans (l : List Word) (s : State) :
    (l.foldl (fun x h => freePlan h x) s).plans = s.plans.filter (fun p => !l.contains p.handle) := by
  induction l generalizing s with
  | nil => simp
  | cons h l ih =>
    rw [List.foldl_cons, ih, show (freePlan h s).plans = s.plans.filter (fun p => p.handle ≠ h) from rfl, List.filter_filter]
    congr 1
    funext p
    by_cases hp : p.handle = h <;> simp [hp]

/-- Freeing plans changes the plans, the contexts, the owner maps and the taps alone. -/
theorem foldl_freePlan_frame (l : List Word) (s : State) : l.foldl (fun x h => freePlan h x) s = { s with
    plans := (l.foldl (fun x h => freePlan h x) s).plans, contexts := (l.foldl (fun x h => freePlan h x) s).contexts
    owner := (l.foldl (fun x h => freePlan h x) s).owner, taps := (l.foldl (fun x h => freePlan h x) s).taps } := by
  induction l generalizing s with
  | nil => rfl
  | cons h l ih => rw [List.foldl_cons, ih]; rfl

/-- R109: once a session's state is freed no plan, table, context, mapping, tap or segment of it is left. -/
theorem freeSessionState_frees {sid : Nat} {s : State} {ss : Session} (hs : sget s.sessions sid = some ss) :
    (∀ q ∈ (freeSessionState sid s).plans, q.session ≠ sid) ∧ (∀ q ∈ (freeSessionState sid s).tables, q.session ≠ sid) ∧
      (∀ q ∈ (freeSessionState sid s).contexts, q.session ≠ sid) ∧
      (∀ k, (overlaps k 1 ss.smallBase ss.smallPages = true ∨ overlaps k 1 ss.largeBase ss.largePages = true) →
        sget (freeSessionState sid s).xlate k = none) ∧
      (∀ x ∈ (freeSessionState sid s).taps, x.attached = true → x.session ≠ sid) ∧
      (∀ g ∈ (freeSessionState sid s).basin.segments, g.owner ≠ some sid) := by
  refine ⟨?plans, ?tables, ?contexts, ?xlate, ?taps, ?segments⟩
  case plans =>
    intro q hq heq
    simp only [freeSessionState, foldl_freePlan_plans, List.mem_filter, Bool.not_eq_true', List.contains_eq_mem, decide_eq_false_iff_not,
      List.mem_map, not_exists, not_and] at hq
    exact hq.2 q ⟨hq.1, by simp [heq]⟩ rfl
  case tables =>
    intro q hq
    simpa using (List.mem_filter.mp hq).2
  case contexts =>
    intro q hq
    simpa using (List.mem_filter.mp hq).2
  case xlate =>
    intro k hk
    rw [sget, Option.map_eq_none_iff, List.find?_eq_none]
    rintro e he hek
    have hout := (List.mem_filter.mp he).2
    rw [beq_iff_eq] at hek
    subst hek
    rcases hk with hk | hk <;> simp [hs, hk] at hout
  case taps =>
    intro x hx
    obtain ⟨t, -, rfl⟩ := List.mem_map.mp hx
    split
    · intro hat; cases hat
    · next hno => exact fun hat heq => hno ⟨hat, heq⟩
  case segments =>
    intro g hg
    obtain ⟨y, -, rfl⟩ := List.mem_map.mp hg
    split
    · simp
    · assumption

/-- What freeing a session's state leaves. -/
theorem freeSessionState_frame (sid : Nat) (s : State) :
    (freeSessionState sid s).sessions = s.sessions ∧ (freeSessionState sid s).near = s.near ∧ (freeSessionState sid s).far = s.far := by
  simp only [freeSessionState]
  rw [foldl_freePlan_frame]
  exact ⟨rfl, rfl, rfl⟩

/-- R109: the rings of a session that are closed are disabled. -/
theorem foldl_closeRing_disabled (port : Nat) (l : List Nat) (s : State) {i : Nat}
    (h : i ∈ l ∨ (ringOf s port i).enabled = false) :
    (ringOf (l.foldl (fun x k => onPort port (onRing k closeRing) x) s) port i).enabled = false := by
  induction l generalizing s with
  | nil => exact h.resolve_left (by simp)
  | cons k l ih =>
    refine ih _ ?_
    by_cases hk : i = k
    · subst hk
      right
      by_contra henabled
      rw [Bool.not_eq_false] at henabled
      obtain ⟨hp, hi⟩ := ring_exists_of_enabled henabled
      have hp' : port < s.ports.length := by simpa [onPort, modAt] using hp
      rw [portOf_onPort_self s _ hp', length_onRing] at hi
      rw [ringOf, portOf_onPort_self s _ hp', ringAt_onRing_self _ _ hi] at henabled
      cases henabled
    · rcases h with h | h
      · exact .inl ((List.mem_cons.mp h).resolve_left hk)
      · right
        rcases ringOf_onPort_cases port (onRing k closeRing) s port i with hsame | hclosed
        · rw [hsame]; exact h
        · rw [hclosed, ringAt_onRing_other _ _ hk]; exact h

theorem sget_sdel_other {α : Type} (m : Sparse α) {i j : Nat} (h : j ≠ i) : sget (sdel m i) j = sget m j := by
  rw [sget, sget, sdel, List.find?_filter]
  congr 2
  funext e
  by_cases he : e.1 = j <;> simp [he, h]

/-- R109: closing a session's rings and freeing its number changes the ports and the sessions alone. -/
theorem dropSession_frame (sid : Nat) (ss : Session) (s : State) :
    dropSession sid ss s = { s with ports := (dropSession sid ss s).ports, sessions := sdel s.sessions sid } := by
  rw [dropSession, foldl_onPort_ports ss.port (fun i => onRing i closeRing)]

/-- R109: a session of which nothing runs and only the closing command is outstanding is freed at once. -/
theorem beginClose_idle {sid : Nat} {ss : Session} {ref : CmdRef} {s : State} (hs : sget s.sessions sid = some ss)
    (hplans : ∀ q ∈ s.plans, q.session = sid → q.run = none ∧ (planOf s q.handle).bind (·.run) = none)
    (houtstanding : ∀ i ∈ ss.rings, ∀ o ∈ (ringOf s ss.port i).outstanding, o = ref)
    (hheld : ∀ i ∈ ss.rings, holdsCompletions (ringOf s ss.port i) = false)
    (hchains : ∀ q ∈ s.ports, ∀ x ∈ q.rings, ∀ c, x.chain = some c → c.session.toNat ≠ sid) :
    beginClose sid (some ref) s = dropSession sid ss (complete ref (replyOf .done) (freeSessionState sid s)) := by
  have hcancel : ((s.plans.filter (fun p => p.session = sid)).map (·.handle)).foldl (fun x h => cancelRun h none x) s = s := by
    refine foldl_cancelRun_idle ?_
    rintro _ hh
    obtain ⟨q, hq, rfl⟩ := List.mem_map.mp hh
    rw [List.mem_filter, decide_eq_true_eq] at hq
    exact (hplans q hq.1 hq.2).2
  have hlive : ¬ (s.plans.filter (fun p => p.session = sid)).any isLive = true := by
    simp only [List.any_filter, List.any_eq_true, Bool.and_eq_true, decide_eq_true_eq, not_exists, not_and]
    intro q hq hsid
    simp [isLive, (hplans q hq hsid).1]
  have hwaits : ¬ closeWaits ss s = true := by
    simp only [closeWaits, List.any_eq_true, not_exists, not_and]
    intro i hi
    simp [hheld i hi]
  simp only [beginClose, cancelChains_of_none hchains, hcancel]
  rw [if_neg hlive]
  simp only [finishClose, hs, cancelOutstanding_self houtstanding]
  rw [if_neg hwaits]

/-- Settles O4. -/
theorem sessionCloses : Obligations.SessionCloses := by
  unfold Obligations.SessionCloses
  rintro s r p ss _ h rfl hs hclosing hplans hrings hchains
  have hs' : sget (takenBy s r sessionCloseRule p).sessions p.handle.toNat = some ss := hs
  have hexec : exec (.sessionClose r p) s = .next (dropSession p.handle.toNat ss
      (answeredAfter s r sessionCloseRule p (replyOf .done) (freeSessionState p.handle.toNat))) := by
    rw [exec_starts (i := .sessionClose r p) rfl rfl h]
    simp only [hostRow, sessionCloseBody, startOf_handle, hs', hclosing, Option.isSome_none, Bool.false_eq_true, if_false]
    rw [beginClose_idle hs' hplans ?outstanding ?held ?chains, answeredAfter]
    case outstanding =>
      intro i hi o ho
      rcases mem_outstanding_takenBy ho with ho | ho
      · rw [(hrings i hi).1] at ho
        simp at ho
      · exact ho
    case held =>
      intro i hi
      rw [ringOf_takenBy_field holdsCompletions (fun _ _ _ _ => rfl)]
      exact (hrings i hi).2
    case chains =>
      intro q hq x hx c hc
      obtain ⟨q', hq', x', hx', hc'⟩ := chain_of_takenBy hq hx hc
      exact hchains q' hq' x' hx' c hc'
  refine ⟨hexec, _, hexec, ?_⟩
  have hframe : dropSession p.handle.toNat ss (answeredAfter s r sessionCloseRule p (replyOf .done) (freeSessionState p.handle.toNat)) =
      { freeSessionState p.handle.toNat (takenBy s r sessionCloseRule p) with
        ports := (dropSession p.handle.toNat ss (answeredAfter s r sessionCloseRule p (replyOf .done)
          (freeSessionState p.handle.toNat))).ports
        sessions := sdel s.sessions p.handle.toNat } := by
    rw [dropSession_frame, answeredAfter, complete_ports]
    rw [(freeSessionState_frame p.handle.toNat (takenBy s r sessionCloseRule p)).1]
    rfl
  obtain ⟨-, hnear, hfar⟩ := freeSessionState_frame p.handle.toNat (takenBy s r sessionCloseRule p)
  have hrings' : ∀ i ∈ ss.rings, (ringOf (dropSession p.handle.toNat ss (answeredAfter s r sessionCloseRule p (replyOf .done)
      (freeSessionState p.handle.toNat))) ss.port i).enabled = false :=
    fun i hi => foldl_closeRing_disabled ss.port ss.rings _ (.inl hi)
  generalize dropSession p.handle.toNat ss (answeredAfter s r sessionCloseRule p (replyOf .done)
    (freeSessionState p.handle.toNat)) = t at hframe hrings' ⊢
  obtain ⟨hplans', htables', hcontexts', hxlate', htaps', hsegments'⟩ := freeSessionState_frees hs'
  have hsessions : t.sessions = sdel s.sessions p.handle.toNat := congrArg State.sessions hframe
  refine ⟨hsessions ▸ sget_sdel_self _ _, fun k hk => by rw [hsessions, sget_sdel_other _ hk], hrings', ?_⟩
  rw [congrArg State.plans hframe, congrArg State.tables hframe, congrArg State.contexts hframe, congrArg State.xlate hframe,
    congrArg State.taps hframe, congrArg State.basin hframe, congrArg State.near hframe, congrArg State.far hframe]
  exact ⟨hplans', htables', hcontexts', hxlate', htaps', hsegments', hnear, hfar⟩

end Sys2Proof.Machine
end

section
/-!
PROOFS. Mappings and the movement of data (O5, O6).
-/

namespace Sys2Proof.Machine

theorem any_isSome_eq_false {α : Type} {l : List Nat} {f : Nat → Option α} (h : ∀ k ∈ l, f k = none) : l.any (fun k => (f k).isSome) = false := by
  simpa using h

/-- Settles O5: MEM_MAP of near and of far pages, and MEM_UNMAP. -/
theorem mappingsChange : Obligations.MappingsChange := by
  unfold Obligations.MappingsChange
  refine ⟨?near, ?far, ?unmap⟩
  case near =>
    intro s r p ss x c size targets h hx hc hsize hs hn hsource hdie htarget hrange hfree hroom hpick
    have hunmapped := any_isSome_eq_false (l := List.range (parN c 4)) (f := fun k => sget x.xlate (entryIndex ss (par64 c 0 + k * size)))
      (fun k hk => hfree k (List.mem_range.mp hk))
    rw [exec_starts (i := .memMap r p) rfl rfl h]
    subst hx hc
    simp only [hostRow, memMapBody, startOf_session, hs, decide_eq_true_eq, ← hsize]
    simp only [hn, hsource, hdie, htarget, zero_ne_one, decide_false, hrange, hunmapped, hpick, Nat.not_lt.mpr hroom, gt_iff_lt,
      Nat.not_lt_zero, ne_eq, not_true, and_false, false_and, or_false, if_false, Bool.false_eq_true, answeredAfter]
  case far =>
    intro s r p ss x c size h hx hc hsize hs hn hsource hdie hrange hfree hok
    have hunmapped := any_isSome_eq_false (l := List.range (parN c 4)) (f := fun k => sget x.xlate (entryIndex ss (par64 c 0 + k * size)))
      (fun k hk => hfree k (List.mem_range.mp hk))
    rw [exec_starts (i := .memMap r p) rfl rfl h]
    subst hx hc
    simp only [hostRow, memMapBody, startOf_session, hs, decide_eq_true_eq, ← hsize]
    simp only [hn, hsource, hdie, hrange, hunmapped, hok, decide_true, gt_iff_lt, lt_self_iff_false, one_ne_zero, false_and, or_false,
      if_false, if_true, Bool.false_eq_true, Bool.not_true, and_false, answeredAfter]
  case unmap =>
    intro s r p ss x c size idx h hx hc hsize hs hn hrange hidx hmine hbound htable hwindow
    rw [exec_starts (i := .memUnmap r p) rfl rfl h]
    subst hx hc
    simp only [hostRow, memUnmapBody, startOf_session, hs, decide_eq_true_eq, ← hsize, ← hidx]
    rw [if_neg hn]
    simp only [hrange, hbound, htable, hwindow, if_false, Bool.false_eq_true, or_self, answeredAfter]
    rw [if_neg]
    intro hforeign
    obtain ⟨k, hk, hother⟩ := List.any_eq_true.mp hforeign
    obtain ⟨e, he, hsession⟩ := hmine k hk
    simp [he, hsession] at hother

/-- A DATA_PUT of one packet is gathered, and completes with what it has gathered (R93, R112). -/
theorem exec_dataPut {s : State} {r : RingId} {p : Packet} (h : Starts s r dataPutRule p) :
    exec (.dataPut r p) s = .next (finishChain r dataPutBody
      (gatherPut r.port p (startChain dataPutRule.opcode p none)
        (onRingOf r (fun y => { y with outstanding := y.outstanding ++ [refFor r dataPutRule p] }) (passPacket r p s))).2
      (onRingOf r (fun y => { y with chain := none }) (gatherPut r.port p (startChain dataPutRule.opcode p none)
        (onRingOf r (fun y => { y with outstanding := y.outstanding ++ [refFor r dataPutRule p] }) (passPacket r p s))).1)) := by
  obtain ⟨hat, hstop, hcq, hchain, hone, hjudge⟩ := h
  have hcont : continuesChain (ringOf s r.port r.idx) (headerBytes dataPutRule.opcode p) = false := by simp [continuesChain, hchain]
  have habandon : abandonChain r s = s := by simp [abandonChain, hchain]
  rw [exec_packet (i := .dataPut r p) rfl]
  simp only [hostRow, hat, if_true]
  rw [takePacket_fresh _ _ hstop (fun h0 => by simpa [h0] using hcq) hcont, habandon, hchain]
  have hok : (startChain dataPutRule.opcode p none).failed = none := rfl
  simp only [Option.isSome_none, Bool.false_eq_true, false_and, if_false, consumePacket, hjudge, hone, hok, refFor]

/-- The end of a DATA_PUT that has brought its whole length (R93). -/
theorem finishChain_put {r : RingId} {p : Packet} {c : Chain} {s : State} (hc : c = startChain dataPutRule.opcode p none)
    (hlen : p.payload.length = par64 c 2) (va : Nat) :
    finishChain r dataPutBody { c with payload := [1], taken := c.taken + p.payload.length, nextVa := va } s =
      complete (refFor r dataPutRule p) { replyOf .done with count0 := p.payload.length } s := by
  have htaken : c.taken + p.payload.length = p.payload.length := by rw [hc]; exact Nat.zero_add _
  have hall : par64 { c with payload := [1], taken := p.payload.length, nextVa := va, failed := none } 2 = p.payload.length := hlen.symm
  have hok : c.failed = none := by rw [hc]; rfl
  simp only [finishChain, htaken, hok, dataPutBody, hall, if_true]
  rw [hc]; rfl

/-- Settles O6: what is put is stored before the answer, and what is got comes from the range's pieces. -/
theorem dataMoves : Obligations.DataMoves := by
  unfold Obligations.DataMoves
  refine ⟨?memory, ?staging, ?get⟩
  case memory =>
    intro s r p x c h hx hc hcheck hkind hlen
    rw [exec_dataPut h, ← hx, ← hc]
    simp only [gatherPut, hcheck, hkind, if_true]
    rw [finishChain_put hc hlen]
    subst hc; rfl
  case staging =>
    intro s r p x c q h hx hc hcheck hkind hq hlen
    rw [exec_dataPut h, ← hx, ← hc]
    have hplan : planOf x c.handle = some q := by rw [hc]; exact hq
    simp only [gatherPut, hcheck, hkind, hplan, one_ne_zero, if_false]
    rw [finishChain_put hc hlen]
    subst hc; rfl
  case get =>
    intro s r p x c ps h hx hc hn hmax hps hfar
    rw [exec_starts (i := .dataGet r p) rfl rfl h]
    subst hx hc
    simp only [hostRow, dataGetBody, startOf_session, hn, hps, hfar, Nat.not_lt.mpr hmax, if_false, Bool.not_true, Bool.false_eq_true]
    rfl

end Sys2Proof.Machine
end

section
/-!
PROOFS. Plans, tables and codec contexts (O7, O8).
-/

namespace Sys2Proof.Machine

/-! ## Fields of words -/

theorem testBit_bits {w : Nat} (x : BitVec w) (hi lo i : Nat) :
    (bits x hi lo).testBit i = (decide (i < hi + 1 - lo) && x.getLsbD (lo + i)) := by
  rw [bits, Nat.testBit_mod_two_pow, Nat.testBit_shiftRight, BitVec.testBit_toNat]

/-- A field depends on its own bits alone. -/
theorem bits_congr {w : Nat} {x y : BitVec w} {hi lo : Nat} (h : ∀ i, lo ≤ i → i ≤ hi → x.getLsbD i = y.getLsbD i) :
    bits x hi lo = bits y hi lo := by
  apply Nat.eq_of_testBit_eq
  intro i
  rw [testBit_bits, testBit_bits]
  by_cases hi' : i < hi + 1 - lo
  · rw [h (lo + i) (by omega) (by omega)]
  · simp [hi']

/-! ## What the parameters of a started command are -/

@[simp] theorem parN_startOf (rule : CommandRule) (p : Packet) :
    parN (startOf rule p) 0 = p.p0.toNat ∧ parN (startOf rule p) 1 = p.p1.toNat ∧ parN (startOf rule p) 2 = p.p2.toNat :=
  ⟨rfl, rfl, rfl⟩

theorem par64_startOf_0 (rule : CommandRule) (p : Packet) : par64 (startOf rule p) 0 = p.p0.toNat + p.p1.toNat <<< 32 := rfl

theorem par64_startOf_1 (rule : CommandRule) (p : Packet) : par64 (startOf rule p) 1 = p.p1.toNat + p.p2.toNat <<< 32 := rfl

theorem parBits_startOf_0 (rule : CommandRule) (p : Packet) (hi lo : Nat) : parBits (startOf rule p) 0 hi lo = bits p.p0 hi lo := rfl

/-! ## What an accepted packet leaves readable and writable -/

section Taken
variable (s : State) (r : RingId) (rule : CommandRule) (p : Packet)

theorem farOk_takenBy (a n : Nat) (write : Bool) : farOk (takenBy s r rule p) a n write = farOk s a n write := by
  have hopen (k : Nat) : farPortOpen (portOf (takenBy s r rule p) k) = farPortOpen (portOf s k) :=
    portOf_takenBy_field farPortOpen (fun _ _ _ => rfl) s r rule p k
  simp only [farOk, hopen]
  rfl

theorem farPiecesOk_takenBy (ps : List (Nat × Nat)) (write : Bool) :
    farPiecesOk (takenBy s r rule p) ps write = farPiecesOk s ps write := by
  simp only [farPiecesOk, farOk_takenBy]

theorem writable_takenBy (sid va len : Nat) : writable (takenBy s r rule p) sid va len = writable s sid va len := by
  simp only [writable, farPiecesOk_takenBy]
  rfl

end Taken

/-! ## Plans -/

theorem complete_plans (c : CmdRef) (r : Reply) (s : State) : (complete c r s).plans = s.plans := by rw [complete_ports]

theorem planOf_freePlan (h : Word) (s : State) : planOf (freePlan h s) h = none := by
  simp [planOf, freePlan]

/-- Settles O7: each plan command, past its checks. -/
theorem planCommandsAct : Obligations.PlanCommandsAct := by
  unfold Obligations.PlanCommandsAct
  refine ⟨?load, ?run, ?cancelLoaded, ?cancelRun, ?resume, ?free⟩
  case load =>
    intro s r p x q h hx hbinary hentries hplace
    subst hx
    have hexec : exec (.planLoad r p) s = .next (answeredAfter s r planLoadRule p
        { replyData (natLE q.handle.toNat 8) with count0 := q.nearBytes, count1 := coresPlaced q } (addPlan q)) := by
      rw [exec_starts (i := .planLoad r p) rfl rfl h]
      simp only [hostRow, planLoadBody, startOf_session, startOf_payload, hbinary, hentries, hplace, Option.orElse]
      rfl
    refine ⟨hexec, _, hexec, ?_, ?_⟩
    · rw [answeredAfter, complete_ports]; rfl
    · rw [answeredAfter, complete_ports]; rfl
  case run =>
    intro s r p x q h hx hq hcheck
    subst hx
    rw [exec_starts (i := .planRun r p) rfl rfl h]
    simp only [hostRow, planRunBody, startOf_handle, hq, hcheck, par64_startOf_1]
    rfl
  case cancelLoaded =>
    intro s r p q h hq hrun
    have hq' : planOf (takenBy s r planCancelRule p) p.handle = some q := hq
    rw [exec_starts (i := .planCancel r p) rfl rfl h]
    simp [hostRow, planCancelBody, hq', isLive, hrun, answeredBy]
  case cancelRun =>
    intro s r p x q u h hx hq hrun hcommit hhalt
    rw [exec_starts (i := .planCancel r p) rfl rfl h]
    subst hx
    simp [hostRow, planCancelBody, hq, isLive, hrun, hhalt, cancelRun, hcommit]
  case resume =>
    intro s r p x q u why op y h hx hq hrun hsus hcheck hctx
    rw [exec_starts (i := .planResume r p) rfl rfl h]
    subst hx
    simp [hostRow, planResumeBody, hq, hrun, hsus, hcheck, hctx]
  case free =>
    intro s r p q h hq hrun
    have hq' : planOf (takenBy s r planFreeRule p) p.handle = some q := hq
    refine ⟨answeredAfter s r planFreeRule p (replyOf .done) (freePlan p.handle), ?_, ?_, rfl⟩
    · rw [exec_starts (i := .planFree r p) rfl rfl h]
      simp [hostRow, planFreeBody, hq', isLive, hrun, answeredAfter]
    · rw [planOf, answeredAfter, complete_plans]
      exact planOf_freePlan _ _

/-! ## Tables and codec contexts -/

/-- Settles O8: each table and context command, past its checks. -/
theorem tableCommandsAct : Obligations.TableCommandsAct := by
  unfold Obligations.TableCommandsAct
  refine ⟨?create, ?publish, ?retire, ?policy, ?spill, ?free⟩
  case create =>
    intro s r p x h hx hcheck
    subst hx
    rw [exec_starts (i := .tableCreate r p) rfl rfl h]
    simp only [hostRow, tableCreateBody, startOf_payload, startOf_session, hcheck]
    exact ⟨_, _, rfl, congrArg State.tables (completeData_ports _ _ _), congrArg State.tableSerial (completeData_ports _ _ _), rfl, rfl⟩
  case publish =>
    intro s r p k e h hk he hstate hindex
    have he' : tableOf (takenBy s r (tableSlotRule 0x0051) p) p.handle = some e := he
    have hindex' : ¬ (e.hashed = true ∧ (!indexHeaderOk (takenBy s r (tableSlotRule 0x0051) p) e k) = true) := by
      rintro ⟨hh, hbad⟩
      have hok : indexHeaderOk (takenBy s r (tableSlotRule 0x0051) p) e k = true := hindex hh
      simp only [hok, Bool.not_true, Bool.false_eq_true] at hbad
    rw [exec_starts (i := .tablePublish r p) rfl rfl h]
    simp only [hostRow, tablePublishBody, startOf_handle, parBits_startOf_0, ← hk, he', hstate, hindex', if_false, answeredAfter] <;> rfl
  case retire =>
    intro s r p k e h hk he hstate
    have he' : tableOf (takenBy s r (tableSlotRule 0x0052) p) p.handle = some e := he
    rw [exec_starts (i := .tableRetire r p) rfl rfl h]
    simp only [hostRow, tableRetireBody, startOf_handle, parBits_startOf_0, ← hk, he', hstate, answeredAfter]
  case policy =>
    intro s r p e h he hlen h142 h176 hmax hinterval hva hpages hframes
    have he' : tableOf (takenBy s r policyRule (fixP0 1 0 p)) p.handle = some e := he
    have hpages' : hotPagesOk (takenBy s r policyRule (fixP0 1 0 p)) e (parsePolicy p.payload) = true := hpages
    rw [exec_starts (i := .tableMigratePolicy r p) rfl rfl h]
    simp only [hostRow, policyBody, startOf_handle, fixP0_handle, startOf_payload, fixP0_payload, he', hlen, h142, h176,
      Nat.not_lt.mpr hmax, hinterval, hva, hpages', hframes, List.isEmpty_nil, Bool.not_true, Bool.false_eq_true, ne_eq, not_true,
      or_self, false_and, if_false, answeredAfter]
  case spill =>
    intro s r p va x h hva hx halign hwrite hspill hbusy
    have hx' : contextOfHandle (takenBy s r ctxSpillRule p) p.handle = some x := hx
    have hwrite' : writable (takenBy s r ctxSpillRule p) x.session va 512 = true := (writable_takenBy ..).trans hwrite
    have hbusy' : contextBusy (takenBy s r ctxSpillRule p) x = false := hbusy
    rw [exec_starts (i := .codecCtxSpill r p) rfl rfl h]
    simp [hostRow, ctxSpillBody, hx', par64_startOf_0, ← hva, halign, hwrite', hspill, hbusy', answeredAfter]
  case free =>
    intro s r p x h hx hbusy
    have hx' : contextOfHandle (takenBy s r ctxFreeRule p) p.handle = some x := hx
    have hbusy' : contextBusy (takenBy s r ctxFreeRule p) x = false := hbusy
    refine ⟨answeredAfter s r ctxFreeRule p (replyOf .done)
      (fun y => { y with contexts := y.contexts.filter (fun z => z.handle ≠ p.handle) }), ?_, ?_, rfl⟩
    · rw [exec_starts (i := .codecCtxFree r p) rfl rfl h]
      simp only [hostRow, ctxFreeBody, startOf_handle, hx', hbusy', Bool.false_eq_true, if_false, answeredAfter]
      congr!
    · rw [answeredAfter, contextOfHandle, complete_ports]
      simp

end Sys2Proof.Machine
end

section
/-!
PROOFS. The Basin and the taps (O9).
-/

namespace Sys2Proof.Machine

/-! ## What a load leaves in the array (R383) -/

theorem sget_sdelRange {α : Type} (m : Sparse α) {lo n k : Nat} (h : lo ≤ k ∧ k < lo + n) : sget (sdelRange m lo n) k = none := by
  rw [sget, Option.map_eq_none_iff, List.find?_eq_none]
  intro e he
  have hout := (List.mem_filter.mp he).2
  simp only [decide_eq_true_eq, beq_iff_eq] at hout ⊢
  omega

/-- One record of WRITE, put at its place from `base` on. -/
def putLoadRecord (base : Nat) (m : Sparse BasinEntry) (x : (Bool × BasinEntry) × Nat) : Sparse BasinEntry :=
  if x.1.1 then sset m (base + x.2) x.1.2 else sdel m (base + x.2)

theorem applyLoad_write {l : BasinLoad} (b : BasinUnit) (h : l.op = 0) :
    (applyLoad l b).entries = l.records.zipIdx.foldl (putLoadRecord (l.segment * 65536 + l.first)) b.entries := by
  simp only [applyLoad, h]
  rfl

theorem applyLoad_erase {l : BasinLoad} (b : BasinUnit) (h : l.op ≠ 0) :
    (applyLoad l b).entries = sdelRange b.entries (l.segment * 65536) 65536 := by
  unfold applyLoad
  split
  · contradiction
  · rfl
  · rfl

theorem sget_putLoadRecord_other {base k : Nat} (m : Sparse BasinEntry) (x : (Bool × BasinEntry) × Nat) (h : k ≠ base + x.2) :
    sget (putLoadRecord base m x) k = sget m k := by
  unfold putLoadRecord
  split
  · exact sget_sset_other _ _ h
  · exact sget_sdel_other _ h

theorem sget_putLoadRecord_self {base : Nat} (m : Sparse BasinEntry) (x : (Bool × BasinEntry) × Nat) :
    sget (putLoadRecord base m x) (base + x.2) = if x.1.1 then some x.1.2 else none := by
  unfold putLoadRecord
  split
  · exact sget_sset_self ..
  · exact sget_sdel_self ..

/-- Records put from place `n` on leave every other place as it was. -/
theorem sget_foldl_putLoadRecord_other {base k : Nat} (rs : List (Bool × BasinEntry)) (n : Nat) (m : Sparse BasinEntry)
    (h : k < base + n ∨ base + n + rs.length ≤ k) : sget ((rs.zipIdx n).foldl (putLoadRecord base) m) k = sget m k := by
  induction rs generalizing n m with
  | nil => rfl
  | cons e rs ih =>
    simp only [List.length_cons] at h
    rw [List.zipIdx_cons, List.foldl_cons, ih (n + 1) _ (by omega)]
    exact sget_putLoadRecord_other m _ (by omega)

/-- Each record put from place `n` on stands at its place. -/
theorem sget_foldl_putLoadRecord {base k : Nat} {e : Bool × BasinEntry} (rs : List (Bool × BasinEntry)) (n : Nat) (m : Sparse BasinEntry)
    (h : rs[k]? = some e) : sget ((rs.zipIdx n).foldl (putLoadRecord base) m) (base + n + k) = if e.1 then some e.2 else none := by
  induction rs generalizing n m k with
  | nil => simp at h
  | cons a rs ih =>
    rw [List.zipIdx_cons, List.foldl_cons]
    cases k with
    | zero =>
      obtain rfl : a = e := by simpa using h
      rw [sget_foldl_putLoadRecord_other rs (n + 1) _ (by omega)]
      exact sget_putLoadRecord_self m (a, n)
    | succ k =>
      have := ih (n + 1) (putLoadRecord base m (a, n)) (by simpa using h)
      rw [← this]; congr 1; omega

/-! ## Loads that apply at once (R381) -/

/-- The only load that waits, of no plan, is applied and answered. -/
theorem settleLoads_alone {s : State} {l : BasinLoad} (h : s.basin.loads = [l]) (hplan : l.plan = noPlan) :
    settleLoads s = doLoad 0xFFFFFFFF { s with basin := { s.basin with loads := [] } } l := by
  simp [settleLoads, h, hplan]

/-- Settles O9: the three loads, what they leave, the search and the tap commands. -/
theorem basinAndTapCommandsAct : Obligations.BasinAndTapCommandsAct := by
  unfold Obligations.BasinAndTapCommandsAct
  refine ⟨?load, ?write, ?erase, ?search, ?attach, ?tap⟩
  case load =>
    intro s r p i q c x seg op w l hi h hc hx hcheck hseg hop hplans hloads hw hl
    have hrow : packetRow i = some (hostRow r basinLoadRule q basinLoadBody) := by
      rcases hi with ⟨rfl, rfl⟩ | ⟨rfl, rfl⟩ | ⟨rfl, rfl⟩ <;> rfl
    have hpayload : c.payload = p.payload := by
      rcases hi with ⟨rfl, rfl⟩ | ⟨rfl, rfl⟩ | ⟨rfl, rfl⟩ <;> subst hc <;> simp [fixLoadOp] <;> split <;> rfl
    have hsession : c.session = p.session := by
      rcases hi with ⟨rfl, rfl⟩ | ⟨rfl, rfl⟩ | ⟨rfl, rfl⟩ <;> subst hc <;> simp [fixLoadOp] <;> split <;> rfl
    rw [exec_starts hrow rfl h]
    have hplans' : matchPlans x seg = [] := by rw [hx]; exact hplans
    have hloads' : x.basin.loads = [] := by rw [hx]; exact hloads
    simp only [hostRow, ← hc, ← hx, basinLoadBody, hcheck, ← hseg, ← hop, hplans', hloads', hpayload, hsession, ← hw, List.head?_nil,
      Option.map_none, Option.getD_none, List.nil_append, ← hl]
    refine congrArg _ ((settleLoads_alone (l := l) ?_ ?_).trans ?_)
    · rfl
    · rw [hl]
    · rw [doLoad, answeredAfter, ← hx, hl, hloads']
  case write =>
    intro l b h
    rw [applyLoad_write b h]
    refine ⟨fun k hk _ => ?_, fun k e he => ?_⟩
    · exact sget_foldl_putLoadRecord_other _ 0 _ (by omega)
    · simpa only [Nat.add_zero] using sget_foldl_putLoadRecord (base := l.segment * 65536 + l.first) _ 0 b.entries he
  case erase =>
    intro l b k h hk
    rw [applyLoad_erase b h]
    exact sget_sdelRange _ (by omega)
  case search =>
    intro s r p w n h hw hn hcode hpos hmax hlen hok
    have hok' : segmentsOk (takenBy s r basinSearchRule p) p.session.toNat p.p0.toNat w = true := hok
    have hn' : parN (startOf basinSearchRule p) 2 = n := hn.symm
    have hcode' : parBits (startOf basinSearchRule p) 1 1 0 = bits p.p1 1 0 := rfl
    have hsegs : parN (startOf basinSearchRule p) 0 = p.p0.toNat := rfl
    rw [exec_starts (i := .basinSearch r p) rfl rfl h]
    simp only [hostRow, basinSearchBody, hn', hcode', hsegs, ← hw, hcode, hpos.ne', Nat.not_lt.mpr hmax, startOf_payload, hlen,
      startOf_session, hok', ne_eq, not_true, or_self, if_false, Bool.not_true, Bool.false_eq_true]
    rfl
  case attach =>
    intro s r p c k h hc hcheck hk
    rw [exec_starts (i := .tapAttach r p) rfl rfl h]
    subst hc
    simp only [hostRow, tapAttachBody, startOf_session, hcheck, hk]
    rfl
  case tap =>
    intro s r p c k h hc hk hcheck hval
    have hval' : par64 (startOf tapWriteRule p) 1 / 2 ^ tapWidth (tapAt (takenBy s r tapWriteRule p) k).poly = 0 := hc ▸ hval
    rw [exec_starts (i := .tapWrite r p) rfl rfl h]
    subst hc
    simp only [hostRow, tapWriteBody, hcheck, parBits_startOf_0, ← hk, hval', ne_eq, not_true, if_false]
    rfl

end Sys2Proof.Machine
end

section
/-!
PROOFS. What a boot, a reset and the loss of the rails drop and keep.
-/

namespace Sys2Proof.Machine

/-! ## What an accepted packet leaves as it was: everything but the ports -/

section Taken
variable (s : State) (r : RingId) (rule : CommandRule) (p : Packet)

theorem takenBy_eq_ports : ∃ ps, takenBy s r rule p = { s with ports := ps } := ⟨_, rfl⟩

@[simp] theorem takenBy_time : (takenBy s r rule p).time = s.time := rfl
@[simp] theorem takenBy_freeCount : (takenBy s r rule p).freeCount = s.freeCount := rfl
@[simp] theorem takenBy_near : (takenBy s r rule p).near = s.near := rfl
@[simp] theorem takenBy_far : (takenBy s r rule p).far = s.far := rfl
@[simp] theorem takenBy_staging : (takenBy s r rule p).staging = s.staging := rfl
@[simp] theorem takenBy_pools : (takenBy s r rule p).pools = s.pools := rfl
@[simp] theorem takenBy_aonStore : (takenBy s r rule p).aonStore = s.aonStore := rfl
@[simp] theorem takenBy_xlate : (takenBy s r rule p).xlate = s.xlate := rfl
@[simp] theorem takenBy_sessions : (takenBy s r rule p).sessions = s.sessions := rfl
@[simp] theorem takenBy_plans : (takenBy s r rule p).plans = s.plans := rfl
@[simp] theorem takenBy_tables : (takenBy s r rule p).tables = s.tables := rfl
@[simp] theorem takenBy_contexts : (takenBy s r rule p).contexts = s.contexts := rfl
@[simp] theorem takenBy_taps : (takenBy s r rule p).taps = s.taps := rfl
@[simp] theorem takenBy_basin : (takenBy s r rule p).basin = s.basin := rfl
@[simp] theorem takenBy_owner : (takenBy s r rule p).owner = s.owner := rfl
@[simp] theorem takenBy_fabric : (takenBy s r rule p).fabric = s.fabric := rfl
@[simp] theorem takenBy_twin : (takenBy s r rule p).twin = s.twin := rfl
@[simp] theorem takenBy_err : (takenBy s r rule p).err = s.err := rfl
@[simp] theorem takenBy_power : (takenBy s r rule p).power = s.power := rfl
@[simp] theorem takenBy_age : (takenBy s r rule p).age = s.age := rfl
@[simp] theorem takenBy_tremor : (takenBy s r rule p).tremor = s.tremor := rfl
@[simp] theorem takenBy_dbg : (takenBy s r rule p).dbg = s.dbg := rfl
@[simp] theorem takenBy_boot : (takenBy s r rule p).boot = s.boot := rfl
@[simp] theorem takenBy_pins : (takenBy s r rule p).pins = s.pins := rfl
@[simp] theorem takenBy_clock : (takenBy s r rule p).clock = s.clock := rfl

end Taken

/-! ## Roles of dead cores move within the error unit and the Pools (R444) -/

theorem moveRole_frame (c r : Nat) (s : State) : moveRole c r s =
    { s with err := (moveRole c r s).err, pools := (moveRole c r s).pools, poolParity := (moveRole c r s).poolParity } := by
  unfold moveRole
  split
  · rfl
  · split <;> rfl

/-- Steps that change the error unit and the Pools alone do no more one after the other. -/
theorem foldl_units_frame {α : Type} {f : State → α → State} (hf : ∀ s a, f s a =
    { s with err := (f s a).err, pools := (f s a).pools, poolParity := (f s a).poolParity }) (l : List α) (s : State) :
    l.foldl f s = { s with
      err := (l.foldl f s).err, pools := (l.foldl f s).pools, poolParity := (l.foldl f s).poolParity } := by
  induction l generalizing s with
  | nil => rfl
  | cons a l ih =>
    have h := hf s a
    have ih := ih (f s a)
    rw [List.foldl_cons]
    generalize f s a = t at h ih ⊢
    refine ih.trans ?_
    rw [h]

theorem bootUnits_frame (s : State) : bootUnits s =
    { s with err := (bootUnits s).err, pools := (bootUnits s).pools, poolParity := (bootUnits s).poolParity } := by
  unfold bootUnits
  exact foldl_units_frame (fun x _ => foldl_units_frame (fun _ _ => moveRole_frame ..) _ x) _ _

/-- What every reset drops (R55): the module's work, its ports' rings, its debug level and its transitions. -/
theorem dropWork_frame (cold : Bool) (s : State) : dropWork cold s = { State.reset with
    pending := s.pending, time := s.time, freeCount := s.freeCount + 1, near := s.near, far := s.far, aonStore := s.aonStore
    ports := s.ports.map (fun q => { closePort q with eventsLost := 0 })
    planSerial := s.planSerial, tableSerial := s.tableSerial, ctxSerial := s.ctxSerial
    fabric := (dropWork cold s).fabric, err := (dropWork cold s).err, power := (dropWork cold s).power, age := s.age
    tremor := (dropWork cold s).tremor, dbg := (dropWork cold s).dbg, boot := s.boot, pins := s.pins, clock := s.clock } := by
  simp only [dropWork, bootTremor, bootPower, dropDebug, takeFresh, dropFabric, dropObjects]
  rw [bootUnits_frame]
  rfl

theorem dropWork_power (cold : Bool) (s : State) : (dropWork cold s).power = { PowerUnit.reset with
    state := .active, dormantEntries := if cold then 0 else s.power.dormantEntries
    savedFrom := s.power.savedFrom, savedOver := s.power.savedOver } := by
  simp only [dropWork, bootTremor, bootPower, dropDebug, takeFresh, dropFabric, dropObjects]
  rw [bootUnits_frame]
  rfl

theorem dropWork_level (cold : Bool) (s : State) : (dropWork cold s).dbg.level = .locked := rfl

/-! ## The main rails go (R479, R547) -/

/-- What the loss of the main rails leaves as it was, and what it empties. -/
theorem mainRailsOff_frame (s : State) : mainRailsOff s = { State.reset with
    pending := s.pending, time := s.time, freeCount := s.freeCount + 1, far := s.far, aonStore := s.aonStore
    ports := (mainRailsOff s).ports, planSerial := s.planSerial, tableSerial := s.tableSerial, ctxSerial := s.ctxSerial
    fabric := (mainRailsOff s).fabric, err := (mainRailsOff s).err, age := s.age
    power := { PowerUnit.reset with
      state := .cold, dormantEntries := s.power.dormantEntries, savedFrom := s.power.savedFrom, savedOver := s.power.savedOver }
    tremor := (mainRailsOff s).tremor, dbg := (mainRailsOff s).dbg
    boot := { s.boot with
      phase := .rom, stage := .romStart, fwAlive := false, fwStalled := false, die0Up := false, die1Up := false }
    pins := { s.pins with pwrgdOut := false, thermOut := false } } := by
  simp only [mainRailsOff, onPorts, dropWork_power]
  rw [dropWork_frame]
  rfl

end Sys2Proof.Machine
end

section
/-!
PROOFS. POWER_SET (O10).
-/

namespace Sys2Proof.Machine

/-! ## Transitions -/

@[simp] theorem raiseUp_power (b : Nat) (s : State) : (raiseUp b s).power = s.power := rfl

@[simp] theorem postEvent_power (code : EventCode) (unit d0 d1 : Nat) (s : State) :
    (postEvent code unit d0 d1 s).power = s.power := by rw [postEvent_ports]

@[simp] theorem complete_power (c : CmdRef) (r : Reply) (s : State) : (complete c r s).power = s.power := by rw [complete_ports]

@[simp] theorem powerDone_power (reached from_ target : PowerState) (f : Option Refuse) (s : State) :
    (powerDone reached from_ target f s).power = s.power := by
  rw [powerDone, raiseUp_power, postEvent_power]

theorem runLatchedWake_idle {s : State} (h : s.power.wakeLatched = false) : runLatchedWake s = s := by
  simp [runLatchedWake, h]

theorem runHeldReset_idle {s : State} (h : s.power.heldReset = none) : runHeldReset s = s := by
  simp [runHeldReset, h]

theorem settleTransition_none {s : State} (h : s.power.transition = none) : settleTransition s = s := by
  simp [settleTransition, h]

/-- A drained transition is entered, when no wake and no reset wait behind it. -/
theorem settleTransition_entered {s : State} {t : Transition} (ht : s.power.transition = some t) (hdrain : t.draining = true)
    (hd : drained s t = true) (hwake : (runEntry t s).power.wakeLatched = false) (hreset : (runEntry t s).power.heldReset = none) :
    settleTransition s = runEntry t s := by
  simp only [settleTransition, ht, hdrain, hd, and_self, if_true]
  rw [runLatchedWake_idle hwake, runHeldReset_idle hreset]

/-- The transition that POWER_SET asks for. -/
def askedTransition (target : PowerState) (c : CmdRef) (s : State) : Transition :=
  { target := target, fromState := s.power.state, reply := some c, draining := true }

def inTransition (target : PowerState) (c : CmdRef) (s : State) : State :=
  { s with power := { s.power with transition := some (askedTransition target c s) } }

@[simp] theorem inTransition_time (target : PowerState) (c : CmdRef) (s : State) : (inTransition target c s).time = s.time := rfl
@[simp] theorem inTransition_near (target : PowerState) (c : CmdRef) (s : State) : (inTransition target c s).near = s.near := rfl
@[simp] theorem inTransition_far (target : PowerState) (c : CmdRef) (s : State) : (inTransition target c s).far = s.far := rfl
@[simp] theorem inTransition_sessions (target : PowerState) (c : CmdRef) (s : State) : (inTransition target c s).sessions = s.sessions := rfl
@[simp] theorem inTransition_tables (target : PowerState) (c : CmdRef) (s : State) : (inTransition target c s).tables = s.tables := rfl
@[simp] theorem inTransition_aonStore (target : PowerState) (c : CmdRef) (s : State) : (inTransition target c s).aonStore = s.aonStore := rfl
@[simp] theorem inTransition_xlate (target : PowerState) (c : CmdRef) (s : State) : (inTransition target c s).xlate = s.xlate := rfl

@[simp] theorem inTransition_dormantEntries (target : PowerState) (c : CmdRef) (s : State) :
    (inTransition target c s).power.dormantEntries = s.power.dormantEntries := rfl

@[simp] theorem preCheck_takenBy (s : State) (r : RingId) (rule : CommandRule) (p : Packet) (u : PowerState) :
    preCheck (takenBy s r rule p) u = preCheck s u := rfl

@[simp] theorem groupRefusal_takenBy (s : State) (r : RingId) (rule : CommandRule) (p : Packet) (u : PowerState) :
    groupRefusal (takenBy s r rule p) u = groupRefusal s u := rfl

@[simp] theorem preCheck_inTransition (target u : PowerState) (c : CmdRef) (s : State) :
    preCheck (inTransition target c s) u = preCheck s u := rfl

@[simp] theorem groupRefusal_inTransition (target u : PowerState) (c : CmdRef) (s : State) :
    groupRefusal (inTransition target c s) u = groupRefusal s u := rfl

/-- R470: with nothing to refuse it and nothing to drain, a transition is entered at once. -/
theorem powerSetBody_entered {target : PowerState} {c : CmdRef} {x : Chain} {s : State} (hpar : parN x 1 = 0)
    (hidle : s.power.transition = none) (hstate : s.power.state ≠ target) (hpre : preCheck s target = none)
    (hd : drained s (askedTransition target c s) = true)
    (hwake : (runEntry (askedTransition target c s) (inTransition target c s)).power.wakeLatched = false)
    (hreset : (runEntry (askedTransition target c s) (inTransition target c s)).power.heldReset = none) :
    powerSetBody target c x s = runEntry (askedTransition target c s) (inTransition target c s) := by
  simp only [powerSetBody, hpar, hidle, hstate, beginTransition, hpre, ne_eq, not_true, if_false]
  exact settleTransition_entered rfl rfl hd hwake hreset


/-! ## Entering a state (R472) -/

section Enter
variable (c : CmdRef) (s : State)

theorem enterDormant_frame : enterDormant (some c) s = { loseRails s with
    ports := (enterDormant (some c) s).ports, freeCount := s.freeCount + 2 * 0x40000
    power := { s.power with
      savedFrom := some s.freeCount, savedOver := [], state := .dormant, transition := none, lastResult := 0, lastTime := s.time
      dormantEntries := s.power.dormantEntries + 1 }
    boot := { s.boot with fwAlive := false, fwStalled := false }
    clock := { s.clock with saved := some s.time } } := by
  simp only [enterDormant, answer, onPorts]
  rw [complete_ports]
  rfl

theorem enterCold_frame : enterCold (some c) s = { State.reset with
    pending := s.pending, time := s.time, freeCount := s.freeCount + 1, far := s.far, ports := (enterCold (some c) s).ports
    planSerial := s.planSerial, tableSerial := s.tableSerial, ctxSerial := s.ctxSerial
    fabric := (enterCold (some c) s).fabric, err := (enterCold (some c) s).err
    power := { PowerUnit.reset with state := .cold, dormantEntries := s.power.dormantEntries }
    tremor := (enterCold (some c) s).tremor, dbg := (enterCold (some c) s).dbg
    boot := { s.boot with
      phase := .rom, stage := .romStart, fwAlive := false, fwStalled := false, die0Up := false, die1Up := false
      nor := { s.boot.nor with cleanShutdown := true }, aonFlags := 0x01, nextIndex := 0 }
    pins := { s.pins with
      pwrgdOut := false, thermOut := false, aonLost := true, coldLatched := true, eid := 0, smbAlert := false } } := by
  simp only [enterCold, answer, loseAon]
  rw [complete_ports, mainRailsOff_frame]
  rfl

theorem enterDormant_power : (enterDormant (some c) s).power = { s.power with
    savedFrom := some s.freeCount, savedOver := [], state := .dormant, transition := none, lastResult := 0, lastTime := s.time
    dormantEntries := s.power.dormantEntries + 1 } := by rw [enterDormant_frame]

/-- R478: what DORMANT keeps and loses. -/
theorem enterDormant_result (u : State) (h : u = enterDormant (some c) s) :
    u.power.state = .dormant ∧ u.power.transition = none ∧ u.power.dormantEntries = s.power.dormantEntries + 1 ∧
      u.clock.saved = some s.time ∧ u.pins.pwrgdOut = false ∧ u.staging = [] ∧ u.pools = [] ∧ u.near = s.near ∧ u.far = s.far ∧
      u.sessions = s.sessions ∧ u.tables = s.tables ∧ u.aonStore = s.aonStore ∧ u.xlate = s.xlate := by
  rw [h, enterDormant_frame]
  exact ⟨rfl, rfl, rfl, rfl, rfl, rfl, rfl, rfl, rfl, rfl, rfl, rfl, rfl⟩

/-- R479: what COLD keeps and loses. -/
theorem enterCold_result (u : State) (h : u = enterCold (some c) s) :
    u.power.state = .cold ∧ u.near = [] ∧ u.aonStore = [] ∧ u.plans = [] ∧ u.sessions = [] ∧ u.boot.nor.cleanShutdown = true ∧
      u.pins.pwrgdOut = false ∧ u.pins.coldLatched = true ∧ u.far = s.far := by
  rw [h, enterCold_frame]
  exact ⟨rfl, rfl, rfl, rfl, rfl, rfl, rfl, rfl, rfl⟩

theorem enterCold_power : (enterCold (some c) s).power =
    { PowerUnit.reset with state := .cold, dormantEntries := s.power.dormantEntries } := by rw [enterCold_frame]

end Enter

/-- The states that a transition passes for entry, without its own field: those that the checks do not refuse. -/
theorem runEntry_passed {t : Transition} {s : State} (hpre : preCheck s t.target = none) (hgroup : groupRefusal s t.target = none) :
    runEntry t s = match t.target with
      | .dormant => enterDormant t.reply s
      | .cold => enterCold t.reply s
      | _ => powerDone .simmer t.fromState .simmer none (answer t.reply (replyOf .done)
          { s with power := { s.power with state := .simmer, transition := none, lastResult := 0, lastTime := s.time } }) := by
  simp only [runEntry, hpre, hgroup, Option.orElse] <;> rfl

/-- The low two bits of a field do not depend on bit 2. -/
theorem bits_low_fixP0 (x : BitVec 32) : bits ((x &&& ~~~ 0x4#32) ||| 0x4#32) 1 0 = bits x 1 0 :=
  bits_congr (fun i _ hi => by interval_cases i <;> simp)

/-- With no plan to place anew, a new parked set is answered at once. -/
theorem settleParking_noPlan {s : State} {c : CmdRef} (hplans : s.plans = []) (hpark : s.power.parkReply = none)
    (hidle : s.power.transition = none) :
    settleParking (replaceIdle { s with power := { s.power with parkReply := some c } }) = complete c (replyOf .done) s := by
  have hsame : { s with plans := [], power := { s.power with parkReply := none } } = s := by rw [← hplans, ← hpark]
  simp only [settleParking, replaceIdle, hplans, List.filter_nil, List.foldl_nil, List.any_nil, Bool.false_eq_true, if_false]
  refine (congrArg (fun x => settleTransition (complete c (replyOf .done) x)) hsame).trans ?_
  exact settleTransition_none (by rw [complete_power]; exact hidle)

/-- Settles O10: each target, by the transition that it enters. -/
theorem powerSetTakesEffect : Obligations.PowerSetTakesEffect := by
  unfold Obligations.PowerSetTakesEffect
  refine ⟨?active, ?simmer, ?dormant, ?cold, ?park⟩
  case active =>
    intro s r p h hp hidle
    have hpar : parN (startOf powerSetRule (fixP0 0x7 0 p)) 1 = 0 := congrArg BitVec.toNat hp
    have hidle' : (takenBy s r powerSetRule (fixP0 0x7 0 p)).power.transition = none := hidle
    rw [exec_starts (i := .powerSetActive r p) rfl rfl h]
    simp only [hostRow, powerSetActiveBody, hpar, hidle', ne_eq, not_true, if_false]
    congr 1
  case simmer =>
    intro s r p x t h hx hp hidle hstate hreset hwake ht hd hpre hgroup
    have hpar : parN (startOf powerSetRule (fixP0 0x7 1 p)) 1 = 0 := congrArg BitVec.toNat hp
    have hasked : askedTransition .simmer (refFor r powerSetRule (fixP0 0x7 1 p)) x = t := by
      rw [ht, askedTransition, hx, takenBy_power, hstate]
    have hentry : runEntry t (inTransition .simmer (refFor r powerSetRule (fixP0 0x7 1 p)) x) =
        powerDone .simmer .active .simmer none (answeredAfter s r powerSetRule (fixP0 0x7 1 p) (replyOf .done) (fun y =>
          { y with power := { y.power with state := .simmer, transition := none, lastResult := 0, lastTime := y.time } })) := by
      rw [runEntry_passed (by simpa [ht, hx] using hpre) (by simpa [ht, hx] using hgroup), ht, hx]
      rfl
    have hpower := congrArg State.power hentry
    rw [powerDone_power, answeredAfter, complete_power] at hpower
    have hs : x.power = s.power := by rw [hx, takenBy_power]
    rw [exec_starts (i := .powerSetSimmer r p) rfl rfl h]
    simp only [hostRow, ← hx]
    rw [powerSetBody_entered hpar (hs ▸ hidle) (by rw [hs, hstate]; decide) (by simpa [hx] using hpre) (hasked ▸ hd)
      (by rw [hasked, hpower]; exact hwake) (by rw [hasked, hpower]; exact hreset), hasked, hentry]
  case dormant =>
    intro s r p x t h hx hp hidle hstate hreset hwake ht hd hpre hgroup
    have hpar : parN (startOf powerSetRule (fixP0 0x7 2 p)) 1 = 0 := congrArg BitVec.toNat hp
    have hs : x.power = s.power := by rw [hx, takenBy_power]
    have hasked : askedTransition .dormant (refFor r powerSetRule (fixP0 0x7 2 p)) x = t := by rw [ht, askedTransition, hs]
    have hentry : runEntry t (inTransition .dormant (refFor r powerSetRule (fixP0 0x7 2 p)) x) =
        enterDormant (some (refFor r powerSetRule (fixP0 0x7 2 p))) (inTransition .dormant (refFor r powerSetRule (fixP0 0x7 2 p)) x) := by
      rw [runEntry_passed (by simpa [ht, hx] using hpre) (by simpa [ht, hx] using hgroup), ht]
    refine ⟨runEntry t (inTransition .dormant (refFor r powerSetRule (fixP0 0x7 2 p)) x), ?_, ?_⟩
    · rw [exec_starts (i := .powerSetDormant r p) rfl rfl h]
      simp only [hostRow, ← hx]
      rw [powerSetBody_entered hpar (hs ▸ hidle) (hs ▸ hstate) (by simpa [hx] using hpre) (hasked ▸ hd)
        (by rw [hasked, hentry, enterDormant_power, hx]; exact hwake)
        (by rw [hasked, hentry, enterDormant_power, hx]; exact hreset), hasked]
    · subst hx
      simpa using enterDormant_result _ _ _ hentry
  case cold =>
    intro s r p x t h hx hp hidle hstate hreset hwake ht hd hpre hgroup
    have hpar : parN (startOf powerSetRule (fixP0 0x7 3 p)) 1 = 0 := congrArg BitVec.toNat hp
    have hs : x.power = s.power := by rw [hx, takenBy_power]
    have hasked : askedTransition .cold (refFor r powerSetRule (fixP0 0x7 3 p)) x = t := by rw [ht, askedTransition, hs]
    have hentry : runEntry t (inTransition .cold (refFor r powerSetRule (fixP0 0x7 3 p)) x) =
        enterCold (some (refFor r powerSetRule (fixP0 0x7 3 p))) (inTransition .cold (refFor r powerSetRule (fixP0 0x7 3 p)) x) := by
      rw [runEntry_passed (by simpa [ht, hx] using hpre) (by simpa [ht, hx] using hgroup), ht]
    refine ⟨runEntry t (inTransition .cold (refFor r powerSetRule (fixP0 0x7 3 p)) x), ?_, ?_⟩
    · rw [exec_starts (i := .powerSetCold r p) rfl rfl h]
      simp only [hostRow, ← hx]
      rw [powerSetBody_entered hpar (hs ▸ hidle) (hs ▸ hstate) (by simpa [hx] using hpre) (hasked ▸ hd)
        (by rw [hasked, hentry, enterCold_power]; rfl) (by rw [hasked, hentry, enterCold_power]; rfl), hasked]
    · subst hx
      simpa using enterCold_result _ _ _ hentry
  case park =>
    intro s r p x mask y h hx hp hidle hstate hpark hmask hy hcores hplace
    have hlow : parBits (startOf powerSetRule (fixP0 0x4 0x4 p)) 0 1 0 = 0 := (bits_low_fixP0 p.p0).trans hp
    have hmask' : (List.range 32).foldl (fun m i => if isRetired x (unitId 2 i) then clearBit m i else m)
        (BitVec.ofNat 32 (parN (startOf powerSetRule (fixP0 0x4 0x4 p)) 1)) = mask := by
      rw [hmask, hx]
      exact congrArg (List.foldl _ · _) (BitVec.ofNat_toNat _ _)
    have hs : x.power = s.power := by rw [hx, takenBy_power]
    have hexec : exec (.powerSetPark r p) s = .next (settleParking (replaceIdle { y with power := { y.power with
        parkReply := some (refFor r powerSetRule (fixP0 0x4 0x4 p)) } })) := by
      rw [exec_starts (i := .powerSetPark r p) rfl rfl h]
      simp only [hostRow, ← hx, powerSetParkBody, hlow, hs, hidle, hstate, hpark, hmask', ← hy, hcores, hplace, ne_eq, not_true, if_false,
        Option.isSome_none, Bool.false_eq_true, or_self, Bool.not_true]
    refine ⟨hexec, fun hplans => hexec.trans ?_⟩
    have hnone : y.plans = [] := by rw [hy, hx]; exact hplans
    have hunparked : y.power.parkReply = none := by rw [hy]; exact (congrArg PowerUnit.parkReply hs).trans hpark
    have hstill : y.power.transition = none := by rw [hy]; exact (congrArg PowerUnit.transition hs).trans hidle
    rw [settleParking_noPlan hnone hunparked hstill, answeredAfter, hy, hx]

end Sys2Proof.Machine
end

section
/-!
PROOFS. Snapshots, the pair's commands, the fabric's tables, firmware and units (O11 to O15).
-/

namespace Sys2Proof.Machine

/-! ## Snapshots -/

/-- Settles O11: the trigger unit is armed anew, or with its snapshot released first; an island's record is read. -/
theorem snapshotCommandsAct : Obligations.SnapshotCommandsAct := by
  unfold Obligations.SnapshotCommandsAct
  refine ⟨?arm, ?rearm, ?read⟩
  case arm =>
    intro s r p h hcheck hstate
    have hcheck' : snapArmCheck (takenBy s r snapArmRule p) p.payload = none := hcheck
    rw [exec_starts (i := .snapArm r p) rfl rfl h]
    simp only [hostRow, snapArmBody, startOf_payload, hcheck', takenBy_tremor, hstate, if_false, answeredAfter]
  case rearm =>
    intro s r p h hcheck hstate
    have hcheck' : snapArmCheck (takenBy s r snapArmRule p) p.payload = none := hcheck
    rw [exec_starts (i := .snapArm r p) rfl rfl h]
    simp only [hostRow, snapArmBody, startOf_payload, hcheck', takenBy_tremor, hstate, if_true, answeredAfter]
  case read =>
    intro s r p h hlt
    rw [exec_starts (i := .snapRead r p) rfl rfl h]
    simp only [hostRow, snapReadBody, parBits_startOf_0, takenBy_tremor, (show bits p.p0 7 0 ≠ 0xFF by omega), Nat.not_le.mpr hlt, if_false,
      answeredAfter]

/-! ## The pair -/

theorem pairCheck_takenBy (s : State) (r : RingId) (rule : CommandRule) (p : Packet) (op : Nat) (b : List Byte) :
    pairCheck (takenBy s r rule p) op b = pairCheck s op b := by
  have hmapped : windowMapped (takenBy s r rule p) = windowMapped s := rfl
  have hallowed (a : Nat) : hbAllowed (takenBy s r rule p) a = hbAllowed s a := by simp only [hbAllowed, farOk_takenBy]
  have hclash (ws : List TwinWindow) : windowsClash (takenBy s r rule p) ws = windowsClash s ws := rfl
  have hbusy : pairBusy (takenBy s r rule p) op = pairBusy s op := rfl
  have hfenced : isFenced (takenBy s r rule p) = isFenced s := rfl
  have hrecord : parseRecord (takenBy s r rule p) b = parseRecord s b := rfl
  simp only [pairCheck, nearFree_takenBy, hmapped, hallowed, hclash, hbusy, hrecord, hfenced, takenBy_twin, takenBy_fabric, takenBy_boot]

/-- TWIN_PAIR and RESYNC past their checks (R427, R440). -/
theorem pairBody_passed {op : Nat} {c : CmdRef} {x : Chain} {s : State} (h : pairCheck s op x.payload = none) :
    pairBody op c x s = takeHello (sendHello op { s with twin := { s.twin with
      state := if op = 0 then .pairing else s.twin.state
      priorRecord := if op = 0 then none else s.twin.record
      record := some (parseRecord s x.payload)
      command := some c
      commandOp := op
      copying := false, windowsLeft := 0, isolated := false } }) := by
  unfold pairBody
  rw [h]

theorem parseRecord_takenBy (s : State) (r : RingId) (rule : CommandRule) (p : Packet) (b : List Byte) :
    parseRecord (takenBy s r rule p) b = parseRecord s b := rfl

/-- HANDBACK past its checks (R438). -/
theorem handbackBody_passed {c : CmdRef} {x : Chain} {s : State} (hform : pairFormOk 2 x.payload = true)
    (hcommand : s.twin.command = none) (hcopying : s.twin.copying = false) (hstate : s.twin.state = .paired)
    (hbinds : bindsInbound s = false) :
    handbackBody c x s =
      if livePlans s = [] then settleHandback { s with twin := { s.twin with command := some c, commandOp := 2 } }
      else { s with twin := { s.twin with command := some c, commandOp := 2 } } := by
  unfold handbackBody
  rw [if_neg (by simp [hform]), if_neg (by simp [hcommand, hcopying]), if_neg (by simp [hstate]), if_neg (by simp [hbinds])]
  rfl

/-- Settles O12: each command of the pair, past its checks. -/
theorem twinCommandsAct : Obligations.TwinCommandsAct := by
  unfold Obligations.TwinCommandsAct
  refine ⟨?pair, ?resync, ?handback, ?release⟩
  case pair =>
    intro s r p q hq h hcheck
    subst hq
    have hpass : pairCheck (takenBy s r twinPairRule (fixPairOp 0 p)) 0 (startOf twinPairRule (fixPairOp 0 p)).payload = none := by
      rw [pairCheck_takenBy, startOf_payload, hcheck]
    rw [exec_starts (i := .twinPair r p) rfl rfl h]
    simp only [hostRow]
    rw [pairBody_passed hpass, parseRecord_takenBy, if_pos rfl, if_pos rfl]
    rfl
  case resync =>
    intro s r p q hq h hcheck
    subst hq
    have hpass : pairCheck (takenBy s r twinPairRule (fixPairOp 1 p)) 1 (startOf twinPairRule (fixPairOp 1 p)).payload = none := by
      rw [pairCheck_takenBy, startOf_payload, hcheck]
    rw [exec_starts (i := .resync r p) rfl rfl h]
    simp only [hostRow]
    rw [pairBody_passed hpass, parseRecord_takenBy, if_neg one_ne_zero, if_neg one_ne_zero]
    rfl
  case handback =>
    intro s r p q x hq h hform hcommand hcopying hstate hbinds hx
    subst hq
    have hlive : livePlans (takenBy s r twinPairRule (fixPairOp 2 p)) = livePlans s := rfl
    rw [exec_starts (i := .handback r p) rfl rfl h]
    simp only [hostRow]
    rw [handbackBody_passed (x := startOf twinPairRule (fixPairOp 2 p)) (s := takenBy s r twinPairRule (fixPairOp 2 p)) hform hcommand hcopying hstate hbinds, hlive, hx]
  case release =>
    intro s r p h htarget hstate hplans hcommand hcopying
    have hplans' : livePlans (takenBy s r twinReleaseRule p) = [] := hplans
    have hpar : parN (startOf twinReleaseRule p) 0 = p.p0.toNat := rfl
    rw [exec_starts (i := .twinRelease r p) rfl rfl h]
    rcases htarget with h0 | h0 <;>
    simp only [hostRow, twinReleaseBody, hpar, h0, hplans', takenBy_twin, hcommand, hcopying, hstate] <;> rfl

/-! ## The fabric's tables -/

/-- FABRIC_CONFIG past its checks (R405, R406). -/
theorem fabricConfigBody_passed {c : CmdRef} {x : Chain} {s : State} (hform : fabricPayloadOk x.payload = true)
    (hrange : fabricRangeOk x.payload = true)
    (hports : ∀ n < 6, field x.payload (64 + n) 1 = 1 → bit s.boot.config.fabricEn n = true)
    (hepoch : s.fabric.epoch.toNat ≤ field x.payload 32 32)
    (hfence : ∀ f, s.fabric.fencedBy = some f → f.toNat < field x.payload 32 32)
    (hmoved : field x.payload 0 12 ≠ s.fabric.moduleId ∨ field x.payload 16 16 ≠ s.fabric.fabricId.toNat →
      ∀ z ∈ s.plans, z.bin.fabricRanks ≤ 1) :
    fabricConfigBody c x s = complete c (replyOf .done) (retryWaiting (applyFabricConfig x.payload (leaveFenced s))) := by
  unfold fabricConfigBody
  dsimp only
  rw [if_neg (by simp [hform]), if_neg (by simp [hrange]), if_neg, if_neg, if_neg]
  · simpa [Classical.or_iff_not_imp_left] using hmoved
  · rintro (hlow | hfenced)
    · omega
    · obtain ⟨f, hf, hle⟩ : ∃ f, s.fabric.fencedBy = some f ∧ field x.payload 32 32 ≤ f.toNat := by
        cases hf : s.fabric.fencedBy with
        | none => simp [hf] at hfenced
        | some f => exact ⟨f, rfl, by simpa [hf] using hfenced⟩
      exact absurd (hfence f hf) (Nat.not_lt.mpr hle)
  · intro hbad
    obtain ⟨n, hn, hbit⟩ := List.any_eq_true.mp hbad
    simp only [Bool.and_eq_true, decide_eq_true_eq, Bool.not_eq_true'] at hbit
    simp [hports n (List.mem_range.mp hn) hbit.1] at hbit

/-- OWNER_TABLE_SET past its checks (R414, R415). -/
theorem ownerTableBody_passed {c : CmdRef} {x : Chain} {s : State} {es : List OwnerSet} {l : OwnerLoad}
    (hes : es = ownerEntries x.payload) (hlen : x.payload.length % 16 = 0)
    (hres : ∀ k < es.length, ownerReservedOk (slice x.payload (16 * k) 16) = true) (hidx : ∀ e ∈ es, ownerIndexOk e = true)
    (hmax : es.length ≤ 1048576)
    (hl : l = { plan := x.handle, atStep := par64 x 0
                owners := (es.filter (fun e => e.kind = 0)).map (fun e => (e.index, ownerValue e.value))
                ranks := (es.filter (fun e => e.kind = 1)).map (fun e => (e.index, rankValue e.value)) }) :
    ownerTableBody c x s = complete c { replyOf .done with count0 := es.length }
      (if (planOf s x.handle).any isLive then
        { raiseMinEpoch es s with owner := { s.owner with shadow := loadBank l s.owner.shadow, loads := s.owner.loads ++ [l] } }
       else applyOwnerLoad l (raiseMinEpoch es s)) := by
  unfold ownerTableBody
  dsimp only
  rw [← hes, if_neg, if_neg]
  · rw [hl]
    cases hq : planOf s x.handle with
    | none => rfl
    | some q => rfl
  · simpa [hmax] using hidx
  · simpa [hlen] using hres

/-- Settles O13: the configuration that passes its checks, and the owner table's two effects. -/
theorem fabricTablesAreSet : Obligations.FabricTablesAreSet := by
  unfold Obligations.FabricTablesAreSet
  refine ⟨?config, ?owners⟩
  case config =>
    intro s r p q b hq h hb hform hrange hports hepoch hfence hmoved
    subst hq hb
    rw [exec_starts (i := .fabricConfig r p) rfl rfl h]
    simp only [hostRow]
    rw [fabricConfigBody_passed (x := startOf fabricConfigRule (fixP0 1 0 p)) (s := takenBy s r fabricConfigRule (fixP0 1 0 p))
      hform hrange hports hepoch hfence hmoved]
    rfl
  case owners =>
    intro s r p es l h hes hlen hres hidx hmax hl
    have hplan : planOf (takenBy s r ownerTableRule p) p.handle = planOf s p.handle := rfl
    rw [exec_starts (i := .ownerTableSet r p) rfl rfl h]
    simp only [hostRow]
    rw [ownerTableBody_passed (x := startOf ownerTableRule p) (s := takenBy s r ownerTableRule p) hes hlen hres hidx hmax hl,
      startOf_handle, hplan]
    rfl

/-! ## Firmware, configuration, ownership, attestation and debug tokens -/

/-- The other port's admin ring does not see an accepted packet. -/
theorem otherStaging_takenBy (s : State) (r : RingId) (rule : CommandRule) (p : Packet) :
    otherStaging (takenBy s r rule p) r.port = otherStaging s r.port := by
  have hother : (1 - (r.port : Nat)) ≠ r.port := by omega
  rw [otherStaging, otherStaging, ringOf, ringOf, takenBy_eq, portOf_onPort_other _ _ hother]

/-- The low two bits of a parameter are those that the packet fixes. -/
theorem bits_fixed (x v : BitVec 32) : bits ((x &&& ~~~ 0x3#32) ||| v) 1 0 = bits v 1 0 :=
  bits_congr (fun i _ hi => by interval_cases i <;> simp)

/-- FW_STAGE outside recovery, of a payload of its length (R526). -/
theorem fwStageBody_serving {c : CmdRef} {x : Chain} {s : State} (hmin : 8192 ≤ parN x 0) (hmax : parN x 0 ≤ 16777216)
    (hlen : x.payload.length = parN x 0) (hphase : s.boot.phase ≠ .recovery) :
    fwStageBody c x s = match imageCheck s.boot.config.minSvn x.payload with
      | some st => complete c (replyOf st) { s with boot := { s.boot with staged := none } }
      | none => complete c { replyOf .done with count0 := field x.payload 48 8, count1 := field x.payload 64 16 }
          { s with boot := { s.boot with staged := some x.payload } } := by
  unfold fwStageBody
  dsimp only
  rw [if_neg (by omega), if_neg (by simp [hlen]), if_neg hphase, if_neg hphase] <;> rfl

/-- FW_STAGE in recovery programs the image that it brings (R526). -/
theorem fwStageBody_recovery {c : CmdRef} {x : Chain} {s : State} (hmin : 8192 ≤ parN x 0) (hmax : parN x 0 ≤ 16777216)
    (hlen : x.payload.length = parN x 0) (hphase : s.boot.phase = .recovery) (hsource : s.boot.recoverySource < 2)
    (hother : otherStaging s c.port = false) :
    fwStageBody c x s = complete c { replyOf .done with count0 := field x.payload 48 8, count1 := field x.payload 64 16 }
      (programImage x.payload
        { s with boot := { s.boot with stage := .recoveryLoad, recoverySource := 1, recoveryTime := s.time } }) := by
  unfold fwStageBody
  dsimp only
  rw [if_neg (by omega), if_neg (by simp [hlen]), if_pos hphase, if_neg (by simp [hother]; omega)]

/-- Settles O14: each command by its first failing check, or by its effect. -/
theorem firmwareCommandsAct : Obligations.FirmwareCommandsAct := by
  unfold Obligations.FirmwareCommandsAct
  refine ⟨?stage, ?recovery, ?commit, ?config, ?enroll, ?release, ?token, ?attest⟩
  case stage =>
    intro s r p h hmin hmax hlen hphase
    rw [exec_starts (i := .fwStage r p) rfl rfl h]
    simp only [hostRow]
    rw [fwStageBody_serving (x := startOf fwStageRule p) (s := takenBy s r fwStageRule p) hmin hmax hlen hphase, startOf_payload,
      takenBy_boot]
    cases imageCheck s.boot.config.minSvn p.payload <;> rfl
  case recovery =>
    intro s r p h hmin hmax hlen hphase hsource hother
    rw [exec_starts (i := .fwStage r p) rfl rfl h]
    refine ⟨_, rfl, ?_⟩
    simp only [hostRow]
    rw [fwStageBody_recovery (x := startOf fwStageRule p) (s := takenBy s r fwStageRule p) hmin hmax hlen hphase hsource
      ((otherStaging_takenBy ..).trans hother), complete_ports]
    obtain ⟨ps, hx⟩ := takenBy_eq_ports s r fwStageRule p
    rw [hx]
    exact ⟨rfl, rfl, rfl, rfl⟩
  case commit =>
    intro s r p b h hphase hstaged
    rw [exec_starts (i := .fwCommit r p) rfl rfl h]
    simp only [hostRow]
    unfold fwCommitBody
    rw [if_neg (by simpa using hphase), takenBy_boot, hstaged]
    dsimp only
    cases imageCheck s.boot.config.minSvn b <;> rfl
  case config =>
    intro s r p h hop
    have hrow : packetRow (.configPut r p) = some (hostRow r configPutRule (fixP0 3 0 p) configPutBody) := by
      simp only [packetRow, hop, if_false]
    have hcheck : configCheck (takenBy s r configPutRule (fixP0 3 0 p)) p.payload = configCheck s p.payload := rfl
    rw [exec_starts (i := .configPut r p) hrow rfl h]
    simp only [hostRow]
    unfold configPutBody
    rw [if_neg (by rw [parBits_startOf_0]; exact (bits_fixed p.p0 0).trans_ne (by decide)), startOf_payload, fixP0_payload, hcheck]
    cases configCheck s p.payload <;> rfl
  case enroll =>
    intro s r p h
    have hcheck : enrollCheck (takenBy s r configPutRule (fixP0 3 1 p)) p.payload = enrollCheck s p.payload := rfl
    rw [exec_starts (i := .enroll r p) rfl rfl h]
    simp only [hostRow]
    unfold enrollBody
    rw [startOf_payload, fixP0_payload, hcheck]
    cases enrollCheck s p.payload <;> rfl
  case release =>
    intro s r p h
    have hcheck : releaseCheck (takenBy s r configPutRule (fixP0 3 2 p)) p.payload = releaseCheck s p.payload := rfl
    rw [exec_starts (i := .configPutRelease r p) rfl rfl h]
    simp only [hostRow]
    unfold configPutReleaseBody
    rw [startOf_payload, fixP0_payload, hcheck]
    cases releaseCheck s p.payload <;> rfl
  case token =>
    intro s r p h
    have hcheck : tokenCheck (takenBy s r debugTokenRule (fixP0 1 0 p)) p.payload = tokenCheck s p.payload := rfl
    rw [exec_starts (i := .debugToken r p) rfl rfl h]
    simp only [hostRow]
    unfold debugTokenBody
    rw [startOf_payload, fixP0_payload, hcheck]
    cases tokenCheck s p.payload <;> rfl
  case attest =>
    intro s r p b h hlen hbucket hindex
    have hbody (i : Nat) (n : List Byte) : attestBody (takenBy s r attestRule p) i n = attestBody s i n := rfl
    rw [exec_starts (i := .attest r p) rfl rfl h]
    simp only [hostRow]
    unfold attestCmdBody
    rw [startOf_payload, if_neg (by simp [hlen]), if_neg (by simpa using hbucket.ne'), takenBy_boot, hindex]
    dsimp only
    rw [hbody]
    rfl

end Sys2Proof.Machine
end

section
/-!
PROOFS. Units: TEST_RUN, UNIT_RETIRE, RESTORE and unknown opcodes (O15).
-/

namespace Sys2Proof.Machine

/-- R92: the packet of a command that no chain takes and that a check refuses, whatever its CHAIN bit. -/
theorem consumePacket_refused_single {s : State} {r : RingId} {rule : CommandRule} {p : Packet} {st : Status}
    (gather : Packet → Chain → State → State × Chain) (body : CmdRef → Chain → State → State)
    (hc : rule.chainable = false) (hj : judge s r rule p = some st) :
    consumePacket r rule gather body p none s = answeredBy s r rule p (replyOf st) := by
  simp [consumePacket, hj, hc, finishChain, startChain, answeredBy, refFor, takenBy, refOf, replyOf]

/-- A single bit is set when the field of one bit is 1. -/
theorem bits_single {w : Nat} (x : BitVec w) (i : Nat) : bits x i i = (bit x i).toNat := by
  have h : bits x i i = x.toNat >>> i % 2 := by simp [bits]
  rw [h, bit, BitVec.getLsbD, Nat.testBit, Nat.one_and_eq_mod_two]
  rcases Nat.mod_two_eq_zero_or_one (x.toNat >>> i) with h | h <;> simp [h]

theorem bit_fixP1_two (v : BitVec 32) (hv : v = 0 ∨ v = 1) (p : Packet) : bit (fixP1 3 v p).p1 2 = bit p.p1 2 := by
  rcases hv with rfl | rfl <;> simp [fixP1, bit]

theorem parBits_fixP1 (rule : CommandRule) (v : BitVec 32) (p : Packet) :
    parBits (startOf rule (fixP1 3 v p)) 1 1 0 = bits v 1 0 := bits_fixed p.p1 v

theorem parBits_fixP1_two (rule : CommandRule) (v : BitVec 32) (hv : v = 0 ∨ v = 1) (p : Packet) :
    parBits (startOf rule (fixP1 3 v p)) 1 2 2 = (bit p.p1 2).toNat :=
  (bits_single (fixP1 3 v p).p1 2).trans (congrArg Bool.toNat (bit_fixP1_two v hv p))

/-- TEST_RUN, by what its parameters say and by its free values (R447, R460). -/
theorem testRunBody_passed {r : CmdRef} {c : Chain} {s : State} {u : BitVec 32} {full atRetire : Bool}
    {free : Nat → Nat} {result errors : Nat} {retires : Bool} {found : List Nat} {x : State} (hu : c.params.getD 0 0 = u)
    (htest : parBits c 1 1 0 = if full then 1 else 0) (hretire : parBits c 1 2 2 = atRetire.toNat)
    (hcheck : testCheck s u (if full then 1 else 0) = none)
    (hfree : free = fun k => (Config.freeValue (s.freeCount + k)).toNat) (hresult : result = free 0 % 3)
    (hretires : retires = (decide (result = 1) && atRetire)) (herrors : errors = if result = 1 then free 1 else 0)
    (hfound : found = scrubSectors s u full errors)
    (hx : x = (let y := found.foldl (fun z n => scrubSector n z) (takeFresh (4 + errors) (testLeaves u s))
      if result = 0 ∧ (full = true ∨ hasFull (unitClass u) = false) then
        { y with err := { y.err with
            retired := y.err.retired.map (fun e => if e.unit = u then { e with testPassed := true } else e) } }
      else y)) :
    testRunBody r c s = (
      let rec_ := testRecord u result (if result = 0 then 0 else free 1) (free 2)
        (if result = 0 then 0 else (found.head?.map (· * 64)).getD (free 3)) retires
      if retires then
        let z := complete r (replyData rec_) (recordUnit u reasonTest x)
        if isRetired x u then z else settleTransition (settleRetired (retireTarget x u) z)
      else complete r (replyData rec_) x) := by
  have hfull : (decide ((if full then 1 else 0 : Nat) = 1)) = full := by cases full <;> rfl
  have hone : decide (atRetire.toNat = 1) = atRetire := by cases atRetire <;> rfl
  have hmark (P : Prop) [Decidable P] : ((decide P : Bool) = true ∧ ((if full then 1 else 0 : Nat) = 1 ∨ (!hasFull (unitClass u)) = true)) ↔
      P ∧ (full = true ∨ hasFull (unitClass u) = false) := by cases full <;> simp
  unfold testRunBody
  rw [hu, htest, hretire]
  extract_lets +onlyGivenNames u' test
  rw [show testCheck s u' test = none from hcheck]
  extract_lets free' result' pass retires' errors' found' tested err marked record recorded answered record' answered'
  have hr : result' = result := by rw [hresult, hfree]
  have hre : retires' = retires := by rw [hretires, ← hr, ← hone]
  have her : errors' = errors := by rw [herrors, ← hr, hfree]
  have hf : found' = found := by rw [hfound, ← her, ← hfull]
  have hx' : marked = x := by
    simp only [marked, err, tested, pass, hr, her, hf, hx]
    exact if_congr (hmark _) rfl rfl
  have hrecord : record = record' := by
    simp only [record, record', pass, hr, hre, hf, hfree, free', decide_eq_true_eq]
    rfl
  have hanswered : answered = answered' := by
    simp only [answered, answered', recorded, hx', hrecord]
    rfl
  rw [hre, hx', hanswered, hrecord]

/-- RESTORE of a unit that has passed its test (R463). -/
theorem restoreBody_passed {r : CmdRef} {c : Chain} {s : State} {u : BitVec 32} (hu : c.params.getD 0 0 = u)
    (hvalid : unitValid u = true) (hany : s.err.retired.any (fun e => decide (e.unit = u) && e.testPassed) = true) :
    restoreBody r c s = complete r (replyOf .done) (
      let z := { s with err := { s.err with
        retired := s.err.retired.map (fun e => if e.unit = u then { e with restoring := true } else e) } }
      if livePlans s = [] then restoreNow z else z) := by
  unfold restoreBody
  rw [hu]
  extract_lets +onlyGivenNames u'
  rw [if_neg (by simp [u', hvalid]), if_neg (by simp [u', hany])]
  extract_lets err s1
  have hlive : (livePlans s1).isEmpty = true ↔ livePlans s = [] := List.isEmpty_iff
  exact congrArg (complete r (replyOf .done)) (if_congr hlive rfl rfl)

/-- Settles O15. -/
theorem unitCommandsAct : Obligations.UnitCommandsAct := by
  unfold Obligations.UnitCommandsAct
  refine ⟨?test, ?retire, ?restore, ?unknown⟩
  case test =>
    intro s r p full q u free result retires errors found x hq hquick h hu hcheck hfree hresult hretires herrors hfound hx
    have hv : (if full then 1 else 0 : BitVec 32) = 0 ∨ (if full then 1 else 0 : BitVec 32) = 1 := by cases full <;> simp
    have hrow : packetRow (if full then .testRunFull r p else .testRunQuick r p) = some (hostRow r testRunRule q testRunBody) := by
      subst hq
      cases full
      · exact congrArg (fun x => some (hostRow r testRunRule x testRunBody)) (if_neg (hquick rfl))
      · rfl
    have htest : parBits (startOf testRunRule q) 1 1 0 = if full then 1 else 0 := by
      rw [hq, parBits_fixP1]
      cases full <;> rfl
    have hretire : parBits (startOf testRunRule q) 1 2 2 = (bit p.p1 2).toNat := by rw [hq, parBits_fixP1_two _ _ hv]
    have hp0 : (startOf testRunRule q).params.getD 0 0 = u := by
      rw [hu, hq]
      rfl
    rw [exec_starts hrow rfl h]
    simp only [hostRow]
    rw [testRunBody_passed (s := takenBy s r testRunRule q) hp0 htest hretire hcheck (by rw [hfree, takenBy_freeCount])
      hresult hretires herrors hfound hx]
  case retire =>
    intro s r p q x hq hp h hx hvalid hretired hblocked
    subst hq hx
    have hrow : packetRow (.unitRetire r p) = some (hostRow r unitRetireRule (fixP1 3 0 p) unitRetireBody) := by
      simp only [packetRow, hp, if_false]
    have hp0 : (startOf unitRetireRule (fixP1 3 0 p)).params.getD 0 0 = p.p0 := rfl
    rw [exec_starts hrow rfl h]
    simp only [hostRow]
    unfold unitRetireBody
    dsimp only
    rw [hp0, parBits_fixP1, if_neg (by simp [hvalid]; decide), if_neg (Bool.eq_false_iff.mp hretired), if_neg (Bool.eq_false_iff.mp hblocked)]
    rfl
  case restore =>
    intro s r p q hq h hvalid hpassed
    subst hq
    have hany : s.err.retired.any (fun e => decide (e.unit = p.p0) && e.testPassed) = true := by simpa using hpassed
    rw [exec_starts (i := .restore r p) rfl rfl h]
    simp only [hostRow]
    rw [restoreBody_passed (u := p.p0) (s := takenBy s r unitRetireRule (fixP1 3 1 p)) rfl hvalid hany]
    rfl
  case unknown =>
    intro s r op p hknown hhead hstop hcq hchain
    have hcont : continuesChain (ringOf s r.port r.idx) (headerBytes op p) = false := by simp [continuesChain, hchain]
    have hj : judge s r { plainRule op with known := false } p = some .unsupported := by simp [judge]
    have hexec : exec (.unknownOpcode r op p) s = .next (takePacket r { plainRule op with known := false } gatherPayload
        (fun _ _ x => x) p s) := by
      show execUnknownOpcode r op p s = _
      simp only [execUnknownOpcode, hknown, Bool.false_eq_true, if_false, hostCommand, plainRule, hhead, if_true]
    have hcq' : r.idx = 0 → (ringOf s r.port 0).cq ≠ none := fun h0 => by rw [h0] at hcq; exact hcq
    have hfresh := takePacket_fresh (rule := { plainRule op with known := false }) (p := p) gatherPayload (fun _ _ x => x)
      hstop hcq' hcont
    rw [hexec, hfresh, hchain, if_neg (by simp), abandonChain_none s r hchain, consumePacket_refused_single _ _ rfl hj]

end Sys2Proof.Machine
end

section
/-!
PROOFS. Boots, supplies and resets (O16, O17, O18).
-/

namespace Sys2Proof.Machine

/-! ## What a boot changes (R519, R528) -/

/-- What a boot may change: the near tier, the ports, the cascade, the fabric, the islands and units, and the boot unit, whose
NOR and always-on flags stay. -/
def BootsTo (s t : State) : Prop :=
  t = { s with
    near := t.near, ports := t.ports, basin := t.basin, fabric := t.fabric, err := t.err, age := t.age, boot := t.boot
    pins := t.pins } ∧ t.boot.nor = s.boot.nor ∧ t.boot.aonFlags = s.boot.aonFlags ∧
    t.pins.pwrgdOut = s.pins.pwrgdOut

theorem BootsTo.trans {s t u : State} (h : BootsTo s t) (h' : BootsTo t u) : BootsTo s u := by
  obtain ⟨hs, hnor, haon, hgood⟩ := h
  obtain ⟨ht, hnor', haon', hgood'⟩ := h'
  refine ⟨?_, hnor'.trans hnor, haon'.trans haon, hgood'.trans hgood⟩
  rw [hs] at ht
  exact ht

theorem BootsTo.refl (s : State) : BootsTo s s := ⟨rfl, rfl, rfl, rfl⟩

theorem bootsTo_foldl {α : Type} {f : State → α → State} (hf : ∀ s a, BootsTo s (f s a)) (l : List α) (s : State) :
    BootsTo s (l.foldl f s) := by
  induction l generalizing s with
  | nil => exact .refl s
  | cons a l ih => exact (hf s a).trans (ih _)

section
variable {s t : State} (h : BootsTo s t)
include h

theorem BootsTo.sessions : t.sessions = s.sessions := by rw [h.1]
theorem BootsTo.xlate : t.xlate = s.xlate := by rw [h.1]
theorem BootsTo.plans : t.plans = s.plans := by rw [h.1]
theorem BootsTo.tables : t.tables = s.tables := by rw [h.1]
theorem BootsTo.contexts : t.contexts = s.contexts := by rw [h.1]
theorem BootsTo.staging : t.staging = s.staging := by rw [h.1]
theorem BootsTo.pools : t.pools = s.pools := by rw [h.1]
theorem BootsTo.dbg : t.dbg = s.dbg := by rw [h.1]
theorem BootsTo.far : t.far = s.far := by rw [h.1]
theorem BootsTo.time : t.time = s.time := by rw [h.1]
theorem BootsTo.power : t.power = s.power := by rw [h.1]
theorem BootsTo.aonStore : t.aonStore = s.aonStore := by rw [h.1]

theorem BootsTo.nor : t.boot.nor = s.boot.nor := h.2.1
theorem BootsTo.aonFlags : t.boot.aonFlags = s.boot.aonFlags := h.2.2.1
theorem BootsTo.pwrgdOut : t.pins.pwrgdOut = s.pins.pwrgdOut := h.2.2.2

end

theorem startRom_bootsTo (b : BootInputs) (s : State) : BootsTo s (startRom b s) := ⟨rfl, rfl, rfl, rfl⟩

theorem noteError_bootsTo (stage : BootStage) (st : Status) (detail : Nat) (s : State) : BootsTo s (noteError stage st detail s) :=
  ⟨rfl, rfl, rfl, rfl⟩

theorem failBoot_bootsTo (stage : BootStage) (st : Status) (detail : Nat) (s : State) : BootsTo s (failBoot stage st detail s) :=
  ⟨rfl, rfl, rfl, rfl⟩

theorem enterRecovery_bootsTo (s : State) : BootsTo s (enterRecovery s) := ⟨rfl, rfl, rfl, rfl⟩

theorem headSync_bootsTo (s : State) : BootsTo s (headSync s) := by
  unfold headSync
  split <;> exact ⟨rfl, rfl, rfl, rfl⟩

theorem raiseAll_bootsTo (e : Nat) (s : State) : BootsTo s (raiseAll e s) := ⟨rfl, rfl, rfl, rfl⟩

theorem finishBoot_bootsTo (after : Bool) (s : State) : BootsTo s (finishBoot after s) := by
  unfold finishBoot
  extract_lets h err boot s1 s2
  have h1 : BootsTo s s1 := ⟨rfl, rfl, rfl, rfl⟩
  have h2 : BootsTo s s2 := h1.trans ((headSync_bootsTo s1).trans ⟨rfl, rfl, rfl, rfl⟩)
  split
  · exact h2.trans (raiseAll_bootsTo ..)
  · exact h2

theorem verifyConfig_bootsTo (bad : BitVec 3) (s : State) : BootsTo s (verifyConfig bad s) := by
  unfold verifyConfig
  extract_lets boot s1 s2 boot' set
  have h2 : BootsTo s s2 := by
    unfold s2
    split <;> exact ⟨rfl, rfl, rfl, rfl⟩
  have hset (c : ConfigRecord) (safe : Bool) : BootsTo s (set c safe) := h2.trans ⟨rfl, rfl, rfl, rfl⟩
  split
  · exact hset ..
  · split
    · exact hset ..
    · exact (hset _ _).trans (noteError_bootsTo ..)

theorem trainMemory_bootsTo (b : BootInputs) (s : State) : BootsTo s (trainMemory b s) := by
  unfold trainMemory
  extract_lets bad s1
  have h1 : BootsTo s s1 := by
    refine bootsTo_foldl (fun x p => ?_) bad s
    exact BootsTo.trans (t := { x with err := _ }) ⟨rfl, rfl, rfl, rfl⟩ (noteError_bootsTo ..)
  exact h1.trans ⟨rfl, rfl, rfl, rfl⟩

theorem onIsland_bootsTo (i : Nat) (f : Island → Island) (s : State) : BootsTo s (onIsland i f s) := ⟨rfl, rfl, rfl, rfl⟩

theorem bootReplan_bootsTo (b : BootInputs) (s : State) : BootsTo s (bootReplan b s) := by
  unfold bootReplan
  extract_lets fresh s1
  have hfresh : BootsTo s fresh := bootsTo_foldl (fun x i => onIsland_bootsTo i _ x) _ s
  have h1 : BootsTo fresh s1 := by
    refine bootsTo_foldl (fun x e => ?_) _ fresh
    split
    · exact .refl x
    · split
      · split
        · exact onIsland_bootsTo ..
        · exact .refl x
      · refine (onIsland_bootsTo ..).trans (bootsTo_foldl (fun y u => ?_) _ _)
        exact ⟨rfl, rfl, rfl, rfl⟩
  exact (hfresh.trans h1).trans ⟨rfl, rfl, rfl, rfl⟩

theorem runBoot_bootsTo (after : Bool) (fuel : Nat) (b : BootInputs) (s : State) : BootsTo s (runBoot after fuel b s) := by
  induction fuel generalizing s with
  | zero => exact .refl s
  | succ fuel ih =>
    unfold runBoot
    extract_lets s0 s1 lost lead up loaded s2 alone s3 trained s4
    have hup (d : Nat) (x : State) : BootsTo x (up d x) := ⟨rfl, by unfold up; split <;> rfl, by unfold up; split <;> rfl, rfl⟩
    have h0 : BootsTo s s0 := startRom_bootsTo b s
    have h1 : BootsTo s s1 := h0.trans (verifyConfig_bootsTo ..)
    have h2 : BootsTo s s2 := (h1.trans ⟨rfl, rfl, rfl, rfl⟩).trans (hup lead _)
    have h3 : BootsTo s s3 := by
      unfold s3
      split
      · exact h2
      · split
        · exact h2.trans (hup ..)
        · exact h2.trans (noteError_bootsTo ..)
    have h3' : BootsTo s { s3 with boot := { s3.boot with oneDie := alone } } := h3.trans ⟨rfl, rfl, rfl, rfl⟩
    have h4 : BootsTo s s4 := h3'.trans ((trainMemory_bootsTo b _).trans (bootReplan_bootsTo b _))
    split
    · exact h0.trans (failBoot_bootsTo ..)
    split
    · exact h0.trans (failBoot_bootsTo ..)
    split
    · exact h0.trans (enterRecovery_bootsTo ..)
    split
    · exact h1.trans (failBoot_bootsTo ..)
    split
    · exact h1.trans ((noteError_bootsTo ..).trans (enterRecovery_bootsTo ..))
    · split
      · exact h2.trans (failBoot_bootsTo ..)
      split
      · exact h4.trans (ih s4)
      · exact h4.trans (finishBoot_bootsTo ..)

theorem warmReset_bootsTo (b : BootInputs) (s : State) :
    BootsTo (setAon aonWarmReset (dropWork false (if s.boot.fwAlive then s else setAon aonWatchdog s))) (warmReset b s) :=
  runBoot_bootsTo ..

theorem recoveryReset_bootsTo (b : BootInputs) (s : State) :
    BootsTo (setAon aonRecoveryReq (dropWork false s)) (recoveryReset b s) := by
  have h : BootsTo (setAon aonRecoveryReq (dropWork false s)) (setAon aonRecoveryReq (startRom b (dropWork false s))) :=
    ⟨rfl, rfl, rfl, rfl⟩
  exact h.trans (enterRecovery_bootsTo _)

/-- A bit that is set reads as set. -/
theorem bit_setBit_self {w : Nat} (x : BitVec w) (i : Nat) (h : i < w) : bit (setBit x i) i = true := by
  rw [bit, setBit, BitVec.getLsbD_or, BitVec.getLsbD_ofNat]
  simp [h, Nat.testBit_shiftLeft]

/-- R55: a write of RESET_CTL that asks for a reset. -/
theorem writeResetCtl_asks {s : State} {port : Nat} {v : Word} {recovery : Bool} (b : BootInputs) (hbar : barUp s port = true)
    (hv : resetAction v = some recovery) : writeResetCtl port v b s =
      if (resetNow s).any (fun done => done || !recovery) then s else requestReset recovery b s := by
  simp only [writeResetCtl, hbar, hv, Bool.not_true, Bool.false_eq_true, if_false]

theorem writeResetCtl_other {s : State} {port : Nat} {v : Word} (b : BootInputs) (hbar : barUp s port = true)
    (hv : resetAction v = none) : writeResetCtl port v b s = barFault port s := by
  simp only [writeResetCtl, hbar, hv, Bool.not_true, Bool.false_eq_true, if_false]

theorem warmReset_ignored (s : State) : (resetNow s).any (fun done => done || !false) = true ↔ resetNow s ≠ none := by
  cases resetNow s <;> simp

theorem recoveryReset_ignored (s : State) : (resetNow s).any (fun done => done || !true) = true ↔ resetNow s = some true := by
  cases resetNow s <;> simp

/-- R55, R549: the requests of a reset that nothing holds off. -/
theorem exec_resetRequest {s : State} {i : Instr} {port : Fin 2} {b : BootInputs} {recovery : Bool}
    (hi : i = .resetCtlWarm port 0xC1A50001 b ∧ barUp s port = true ∧ resetNow s = none ∧ recovery = false ∨
      i = .resetCtlRecovery port 0xC1A50002 b ∧ barUp s port = true ∧ resetNow s ≠ some true ∧ recovery = true ∨
      i = .resetN b ∧ s.pins.pwrEn = true ∧ railsUp s = true ∧ s.dbg.pinsTaken = 0 ∧ recovery = false) :
    exec i s = .next (requestReset recovery b s) := by
  rcases hi with ⟨rfl, hbar, hnow, rfl⟩ | ⟨rfl, hbar, hnow, rfl⟩ | ⟨rfl, hen, hrails, hpins, rfl⟩
  · show Host.Outcome.next (writeResetCtl port 0xC1A50001 b s) = _
    rw [writeResetCtl_asks b hbar rfl, if_neg (by simp [hnow])]
  · show Host.Outcome.next (writeResetCtl port 0xC1A50002 b s) = _
    rw [writeResetCtl_asks b hbar rfl, if_neg (by rwa [recoveryReset_ignored])]
  · show execResetN b s = _
    rw [execResetN, if_neg (by simp [hen, hrails, hpins])]

/-- Settles O18. -/
theorem resetsDropWork : Obligations.ResetsDropWork := by
  unfold Obligations.ResetsDropWork
  refine ⟨?warm, ?recovery, ?held, ?ignored, ?bad⟩
  case warm =>
    intro s i port b htr hi
    have hexec : exec i s = .next (resetModule false b s) := by
      rw [exec_resetRequest (recovery := false) (b := b) (port := port), requestReset, htr]
      · rfl
      · rcases hi with ⟨hi, hbar, hnow⟩ | hi
        · exact .inl ⟨hi, hbar, hnow, rfl⟩
        · exact .inr (.inr ⟨hi.1, hi.2.1, hi.2.2.1, hi.2.2.2, rfl⟩)
    have h := warmReset_bootsTo b s
    refine ⟨_, hexec, rfl, h.sessions.trans ?_, h.xlate.trans ?_, h.plans.trans ?_, h.tables.trans ?_, h.contexts.trans ?_,
      h.staging.trans ?_, h.pools.trans ?_, (congrArg DebugUnit.level h.dbg).trans ?_, h.far.trans ?_, h.aonStore.trans ?_,
      h.nor.trans ?_, (congrArg (bit · aonWarmReset) h.aonFlags).trans ?_⟩
    case refine_12 => exact bit_setBit_self _ _ (by decide)
    all_goals
      rw [setAon, dropWork_frame]
      split <;> rfl
  case recovery =>
    intro s port b htr hbar hnow
    have hexec : exec (.resetCtlRecovery port 0xC1A50002 b) s = .next (resetModule true b s) := by
      rw [exec_resetRequest (recovery := true) (b := b) (port := port) (.inr (.inl ⟨rfl, hbar, hnow, rfl⟩)), requestReset, htr]
      rfl
    have h := recoveryReset_bootsTo b s
    refine ⟨_, hexec, rfl, rfl, h.sessions.trans rfl, h.plans.trans rfl, h.tables.trans rfl, h.far.trans ?_, ?_,
      (congrArg (bit · aonRecoveryReq) h.aonFlags).trans ?_⟩
    · rw [setAon, dropWork_frame]
    · show (dropWork false s).near = s.near
      rw [dropWork_frame]
    · exact bit_setBit_self _ _ (by decide)
  case held =>
    intro s i port b x rec_ htr hi
    rw [exec_resetRequest hi, requestReset, htr]
    rfl
  case ignored =>
    intro s port b hbar
    refine ⟨fun hnow => ?_, fun hnow => ?_⟩
    · show Host.Outcome.next (writeResetCtl port 0xC1A50001 b s) = _
      rw [writeResetCtl_asks b hbar rfl, if_pos ((warmReset_ignored s).mpr hnow)]
    · show Host.Outcome.next (writeResetCtl port 0xC1A50002 b s) = _
      rw [writeResetCtl_asks b hbar rfl, if_pos ((recoveryReset_ignored s).mpr hnow)]
  case bad =>
    intro s port v b hbar hwarm hrec
    have hv : resetAction v = none := by rw [resetAction, if_neg hwarm, if_neg hrec]
    exact ⟨congrArg Host.Outcome.next (writeResetCtl_other b hbar hv), congrArg Host.Outcome.next (writeResetCtl_other b hbar hv)⟩

/-! ## Supplies (R478, R546 to R548) -/

theorem mayPower_iff (s : State) : mayPower s = true ↔ s.pins.pwrEn = true ∧ s.pins.vauxUp = true ∧ s.pins.vinOk = true ∧
    s.pins.pwrgdOut = false ∧ s.power.state = .cold ∧ s.pins.fault = 0 ∧ s.pins.coldLatched = false := by
  simp only [mayPower, Bool.and_eq_true, Bool.not_eq_true', decide_eq_true_eq, and_assoc]

/-- R547: what a power fault leaves: the rails gone, its first cause and its detail kept. -/
theorem powerFault_frame (cause detail : Nat) (s : State) : powerFault cause detail s = { mainRailsOff s with
    pins := { s.pins with
      pwrgdOut := false, thermOut := false, fault := if s.pins.fault = 0 then cause else s.pins.fault
      brownDetail := some detail } } := by
  rw [powerFault, mainRailsOff_frame]

/-- What a power fault drops and keeps. -/
def Faulted (cause detail : Nat) (s t : State) : Prop :=
  t.power.state = .cold ∧ t.pins.pwrgdOut = false ∧ t.pins.fault = cause ∧ t.pins.brownDetail = some detail ∧
    t.boot.nor = s.boot.nor ∧ t.near = [] ∧ t.sessions = [] ∧ t.far = s.far ∧ t.aonStore = s.aonStore

theorem powerFault_faulted {cause detail : Nat} {s : State} (h : s.pins.fault = 0) :
    Faulted cause detail s (powerFault cause detail s) := by
  rw [powerFault_frame, mainRailsOff_frame]
  exact ⟨rfl, rfl, if_pos h, rfl, rfl, rfl, rfl, rfl, rfl⟩

theorem Faulted.setAon {cause detail b : Nat} {s t : State} (h : Faulted cause detail s t) :
    Faulted cause detail s (setAon b t) := h

/-- Settles O16. -/
theorem suppliesSwitchTheModule : Obligations.SuppliesSwitchTheModule := by
  unfold Obligations.SuppliesSwitchTheModule
  refine ⟨?vauxUp, ?rise, ?fall, ?fallDormant, ?fallOff, ?fault, ?faultDormant, ?vauxLoss, ?overload⟩
  case vauxUp =>
    intro s addr x hx
    have hv : x.pins.vauxUp = true := by rw [hx]
    have h : mayPower x = true ↔ x.pins.pwrEn ∧ x.pins.vinOk ∧ !x.pins.pwrgdOut ∧ x.power.state = .cold ∧ x.pins.fault = 0 ∧
        !x.pins.coldLatched := by rw [mayPower_iff]; simp [hv]
    show execVauxUp addr s = _
    rw [execVauxUp, ← hx]
    exact congrArg Host.Outcome.next (if_congr h rfl rfl)
  case rise =>
    intro s v b x hx
    have hen : x.pins.pwrEn = true := by rw [hx]
    have hvin : x.pins.vinOk = v := by rw [hx]
    have h : mayPower x = true ↔ x.pins.vauxUp ∧ v ∧ !x.pins.pwrgdOut ∧ x.power.state = .cold ∧ x.pins.fault = 0 ∧
        !x.pins.coldLatched := by rw [mayPower_iff]; simp [hen, hvin]
    show execPwrEnRise v b s = _
    rw [execPwrEnRise, ← hx]
    exact congrArg Host.Outcome.next (if_congr h rfl rfl)
  case fall =>
    intro s hup
    refine ⟨_, congrArg Host.Outcome.next (if_pos hup), ?_⟩
    rw [mainRailsOff_frame]
    exact ⟨rfl, rfl, rfl, rfl, rfl, rfl, rfl, rfl, rfl, rfl, rfl, rfl⟩
  case fallDormant =>
    intro s hup hstate
    exact ⟨_, congrArg Host.Outcome.next ((if_neg (by simp [hup])).trans (if_pos hstate)), rfl, rfl, rfl⟩
  case fallOff =>
    intro s hup hstate
    exact congrArg Host.Outcome.next ((if_neg (by simp [hup])).trans (if_neg hstate))
  case fault =>
    intro s i cause detail isl hup hfault hi
    rcases hi with ⟨rfl, rfl, rfl⟩ | ⟨rfl, rfl, rfl⟩ | ⟨rfl, rfl, rfl⟩
    · exact ⟨_, congrArg Host.Outcome.next (if_pos hup),
        powerFault_faulted (s := { s with pins := { s.pins with vinOk := false } }) hfault⟩
    · exact ⟨_, congrArg Host.Outcome.next (if_pos hup), powerFault_faulted hfault⟩
    · exact ⟨_, congrArg Host.Outcome.next (if_pos hup), (powerFault_faulted hfault).setAon⟩
  case faultDormant =>
    intro s hup hstate hfault
    refine congrArg Host.Outcome.next ((if_neg (by simp [hup])).trans ((if_pos hstate).trans ?_))
    rw [if_pos hfault]
  case vauxLoss =>
    intro s
    obtain ⟨x, hx⟩ : ∃ x, x = if s.pins.pwrgdOut then powerFault 2 0 s else s := ⟨_, rfl⟩
    have hon (hup : s.pins.pwrgdOut = true) : x = powerFault 2 0 s := by rw [hx, if_pos hup]
    have hoff (hup : s.pins.pwrgdOut = false) : x = s := by rw [hx, if_neg (by simp [hup])]
    have hnor : x.boot.nor = s.boot.nor := by
      cases hup : s.pins.pwrgdOut
      · rw [hoff hup]
      · rw [hon hup, powerFault_frame, mainRailsOff_frame]
    have hexec : exec .vauxLoss s = .next { loseAon x with pins := { x.pins with
        aonLost := true, vauxUp := false, smbAlert := false, eid := 0, brownDetail := some 0
        fault := if s.pins.pwrEn ∧ s.pins.vauxUp ∧ x.pins.fault = 0 then 2 else x.pins.fault } } := by
      show execVauxLoss s = _
      rw [hx]
      rfl
    refine ⟨_, hexec, rfl, rfl, rfl, rfl, rfl, rfl, hnor, fun hup => ?_, fun hup => ?_, fun hen haux hfault => ?_,
      fun hen hup => ?_⟩
    · rw [hon hup, powerFault_frame, mainRailsOff_frame]
      exact ⟨rfl, rfl⟩
    · rw [hoff hup]
      exact ⟨rfl, rfl⟩
    · cases hup : s.pins.pwrgdOut
      · exact if_pos ⟨hen, haux, by rw [hoff hup, hfault]⟩
      · refine ite_eq_left_iff.mpr (fun _ => ?_)
        rw [hon hup]
        exact (powerFault_faulted hfault).2.2.1
    · exact (if_neg (by simp [hen])).trans (by rw [hoff hup])
  case overload =>
    intro s hstate
    exact ⟨_, congrArg Host.Outcome.next (if_pos hstate), rfl, rfl, rfl, hstate, rfl⟩

/-! ## A cold boot (R519, R554) -/

theorem moveRole_retired (c r : Nat) (s : State) : (moveRole c r s).err.retired = s.err.retired := by
  unfold moveRole
  split
  · rfl
  · split <;> rfl

/-- A boot drops the units that were to be restored and retires no other. -/
theorem bootUnits_retired (s : State) : (bootUnits s).err.retired = s.err.retired.filter (fun r => !r.restoring) := by
  unfold bootUnits
  extract_lets kept dead s1
  have hinner (y : State) (l : List Nat) (c : Nat) :
      (l.foldl (fun y r => moveRole c r y) y).err.retired = y.err.retired :=
    List.foldlRecOn (motive := fun z : State => z.err.retired = y.err.retired) l _ rfl
      (fun z hz r _ => (moveRole_retired c r z).trans hz)
  exact List.foldlRecOn (motive := fun z : State => z.err.retired = kept) dead _ rfl (fun z hz core _ => (hinner _ _ _).trans hz)

/-- Units of neither of the classes of a die leave both dies in service. -/
theorem dieRetired_false {s : State} (h : ∀ e ∈ s.err.retired, unitClass e.unit ≠ 12 ∧ unitClass e.unit ≠ 13) {d : Nat} (hd : d < 2) :
    dieRetired s d = false := by
  have hclass (u : BitVec 32) (hu : unitClass u = 12 ∨ unitClass u = 13) : isRetired s u = false := by
    rw [isRetired, List.any_eq_false]
    intro e he
    obtain ⟨h12, h13⟩ := h e he
    simp only [decide_eq_true_eq]
    rintro rfl
    exact hu.elim h12 h13
  rw [dieRetired, hclass _ (.inr (by interval_cases d <;> decide)), hclass _ (.inl (by decide))]
  simp

theorem verifyConfig_chosen {s : State} {c : ConfigRecord} (hmode : s.boot.bootMode = 0) (h : chooseConfig s.boot.nor = some c) :
    verifyConfig 0 s = { s with boot := { s.boot with
      norBad := 0, phase := .imageLoad, stage := .imageVerify, config := c, configSafe := false, configValid := true } } := by
  have hnor : norInUse { s.boot with norBad := 0 } = s.boot.nor := by simp [norInUse, bit]
  unfold verifyConfig
  extract_lets boot s1 s2 boot' set
  have h2 : s2 = s1 := if_neg (by simp [bit])
  rw [if_neg (by rw [h2]; simp [s1, boot, hmode]), h2, show norInUse s1.boot = s.boot.nor from hnor, h]
  simp only [set, boot', h2]
  rfl

theorem trainMemory_good {b : BootInputs} (hb : b.badPositions = []) (s : State) : trainMemory b s =
    { s with boot := { s.boot with phase := .fwInit, badAtReset := retiredPositions s } } := by
  rw [trainMemory, hb]
  rfl

/-- With no measurement of an island a boot changes the islands alone. -/
theorem bootReplan_unmeasured {b : BootInputs} (hb : b.islands = []) (s : State) :
    bootReplan b s = { s with age := (bootReplan b s).age } := by
  have hfresh (l : List Nat) (f : Nat → Island → Island) (x : State) :
      l.foldl (fun x i => onIsland i (f i) x) x = { x with age := (l.foldl (fun x i => onIsland i (f i) x) x).age } := by
    induction l generalizing x with
    | nil => rfl
    | cons i l ih => exact ih _
  rw [bootReplan, hb, List.foldl_nil, hfresh]

/-- The boot of a module in which nothing fails (R519): it comes to its end with its configuration and both dies. -/
theorem runBoot_finishes {b : BootInputs} {s : State} {c : ConfigRecord} (after : Bool) (fuel : Nat) (hmode : b.bootMode = 0)
    (hpuf : b.pufOk = true) (hjoin : b.die1Joins = true) (hpos : b.badPositions = []) (hisl : b.islands = [])
    (hret : ∀ e ∈ s.err.retired, unitClass e.unit ≠ 12 ∧ unitClass e.unit ≠ 13) (himage : s.boot.nor.image = [])
    (hnor : b.norBad = 0) (hbad : b.imageBad = none) (hc : chooseConfig s.boot.nor = some c) (hsvn : c.minSvn = 0) :
    ∃ y, runBoot after (fuel + 1) b s = finishBoot after y ∧ BootsTo s y ∧ y.boot.config = c ∧ y.boot.die0Up = true ∧
      y.boot.die1Up = true := by
  have hv : verifyConfig b.norBad (startRom b s) = { startRom b s with boot := { (startRom b s).boot with
      norBad := 0, phase := .imageLoad, stage := .imageVerify, config := c, configSafe := false, configValid := true } } := by
    rw [hnor]
    exact verifyConfig_chosen hmode hc
  have hdie {d : Nat} (hd : d < 2) {y : State} (hy : y.err = s.err) : dieRetired y d = false :=
    dieRetired_false (by rw [hy]; exact hret) hd
  unfold runBoot
  extract_lets s0 s1 lost lead up loaded s2 alone s3 trained s4
  have h1 : BootsTo s s1 := (startRom_bootsTo b s).trans (verifyConfig_bootsTo ..)
  have herr1 : s1.err = s.err := by unfold s1; rw [hv]; rfl
  have hcfg1 : s1.boot.config = c := by unfold s1; rw [hv]
  have hstored : storedImageFails s1 = none := by simp [storedImageFails, h1.nor, himage, hcfg1, hsvn]
  have hlost : lost = false := by unfold lost; rw [hdie (by decide) herr1, hdie (by decide) herr1]; rfl
  have hup (d : Nat) (x : State) : BootsTo x (up d x) := ⟨rfl, by unfold up; split <;> rfl, by unfold up; split <;> rfl, rfl⟩
  have hupErr (d : Nat) (x : State) : (up d x).err = x.err ∧ (up d x).boot.config = x.boot.config := by
    unfold up
    split <;> exact ⟨rfl, rfl⟩
  have h2 : BootsTo s s2 := (h1.trans ⟨rfl, rfl, rfl, rfl⟩).trans (hup lead _)
  have h3 : s3 = up (1 - lead) s2 := (if_neg (by simp [hlost])).trans (if_pos hjoin)
  have h3' : BootsTo s { s3 with boot := { s3.boot with oneDie := alone } } :=
    BootsTo.trans (t := s3) (h3 ▸ h2.trans (hup ..)) ⟨rfl, rfl, rfl, rfl⟩
  have h4 : BootsTo s s4 := h3'.trans ((trainMemory_bootsTo b _).trans (bootReplan_bootsTo b _))
  have hs4 : s4.err = s.err ∧ s4.boot.config = c ∧ s4.boot.die0Up = s3.boot.die0Up ∧ s4.boot.die1Up = s3.boot.die1Up := by
    unfold s4
    rw [bootReplan_unmeasured hisl, trainMemory_good hpos]
    refine ⟨?_, ?_, rfl, rfl⟩
    · show s3.err = s.err
      rw [h3, (hupErr _ _).1]
      exact (hupErr lead _).1.trans herr1
    · show s3.boot.config = c
      rw [h3, (hupErr _ _).2]
      exact (hupErr lead _).2.trans hcfg1
  have hdies : s3.boot.die0Up = true ∧ s3.boot.die1Up = true := by
    have hlead : lead = 0 := by
      unfold lead s1
      rw [hv]
      exact if_neg (by rw [hdie (by decide) rfl]; decide)
    rw [h3]
    unfold s2
    rw [hlead]
    exact ⟨rfl, rfl⟩
  refine ⟨s4, ?_, h4, hs4.2.1, hs4.2.2.1.trans hdies.1, hs4.2.2.2.trans hdies.2⟩
  rw [if_neg (by simp [hmode]), if_neg (by simp [hpuf]), if_neg (by simp [hmode]), if_neg (by simp [hlost]), hbad, hstored]
  simp only [Option.map_none, Option.orElse]
  rw [if_neg (by simp [hjoin]), if_neg (by rw [hdie (by decide) hs4.1, hdie (by decide) hs4.1]; simp)]

/-- R519, R521: the last stage of a boot. -/
theorem finishBoot_running (after : Bool) (s : State) : (finishBoot after s).boot.phase = .running ∧
    (finishBoot after s).boot.stage = .running ∧ (finishBoot after s).boot.config = s.boot.config ∧
    (finishBoot after s).boot.die0Up = s.boot.die0Up ∧ (finishBoot after s).boot.die1Up = s.boot.die1Up ∧
    (finishBoot after s).near = [] := by
  have h (y : State) : (headSync y).boot = y.boot ∧ (headSync y).near = y.near := by
    unfold headSync
    split <;> exact ⟨rfl, rfl⟩
  unfold finishBoot
  extract_lets hd err boot s1 s2
  have hboot : s2.boot = s1.boot := (h s1).1
  have hnear : s2.near = s1.near := (h s1).2
  have hafter (y : State) : (raiseAll evResetDone y).boot = y.boot ∧ (raiseAll evResetDone y).near = y.near := ⟨rfl, rfl⟩
  cases after
  · rw [if_neg (by decide), hboot, hnear]
    exact ⟨rfl, rfl, rfl, rfl, rfl, rfl⟩
  · rw [if_pos rfl, (hafter s2).1, (hafter s2).2, hboot, hnear]
    exact ⟨rfl, rfl, rfl, rfl, rfl, rfl⟩

/-- Settles O17: the boot comes to its end, by `runBoot_finishes`, on what the dropped work leaves. -/
theorem coldBootRuns : Obligations.ColdBootRuns := by
  unfold Obligations.ColdBootRuns
  intro s b c hvaux hgood hstate hfault hlatch hmode hpuf hjoin hpos hisl hret himage hnor hbad hc hsvn
  obtain ⟨x, hx⟩ : ∃ x, x = { s with pins := { s.pins with pwrEn := true, vinOk := true } } := ⟨_, rfl⟩
  have hexec : exec (.pwrEnRise true b) s = .next (coldBoot b x) := by
    refine congrArg Host.Outcome.next ((if_pos ?_).trans (by rw [hx]))
    rw [mayPower_iff]
    exact ⟨rfl, hvaux, rfl, hgood, hstate, hfault, hlatch⟩
  refine ⟨_, hexec, ?_⟩
  unfold coldBoot
  extract_lets marker boot nor pins s1
  have hretired : (dropWork true s1).err.retired = s.err.retired.filter (fun r => !r.restoring) := by
    refine (bootUnits_retired _).trans ?_
    have herr : x.err = s.err := by rw [hx]
    exact congrArg (fun e : ErrorUnit => e.retired.filter (fun r => !r.restoring)) herr
  have hnor' : (dropWork true s1).boot.nor = { s.boot.nor with cleanShutdown := false } := by
    rw [dropWork_frame]
    have hxnor : x.boot.nor = s.boot.nor := by rw [hx]
    exact congrArg (fun n : Nor => { n with cleanShutdown := false }) hxnor
  obtain ⟨y, hy, hboots, hcfg, h0, h1⟩ := runBoot_finishes (s := dropWork true s1) (b := b) (c := c) false 2 hmode hpuf hjoin hpos hisl
    (fun e he => hret e (List.mem_of_mem_filter (hretired ▸ he))) (by rw [hnor']; exact himage) hnor hbad
    (by rw [hnor']; exact hc) hsvn
  rw [hy]
  have h := hboots.trans (finishBoot_bootsTo false y)
  obtain ⟨hphase, hstage, hconfig, hdie0, hdie1, hnear⟩ := finishBoot_running false y
  have hfar : s1.far = s.far := by unfold s1; rw [hx]
  refine ⟨hphase, hstage, (congrArg PowerUnit.state h.power).trans ?_, hconfig.trans hcfg, hdie0.trans h0, hdie1.trans h1,
    h.time.trans ?_, hnear, h.far.trans (.trans ?_ hfar), h.staging.trans ?_, h.pools.trans ?_, h.sessions.trans ?_,
    h.plans.trans ?_, h.tables.trans ?_, h.xlate.trans ?_, (congrArg DebugUnit.level h.dbg).trans (dropWork_level ..),
    (congrArg Nor.cleanShutdown h.nor).trans ?_, h.pwrgdOut.trans ?_⟩
  · rw [dropWork_power]
  · rw [dropWork_frame]
  · rw [dropWork_frame]
  · rw [dropWork_frame]; rfl
  · rw [dropWork_frame]; rfl
  · rw [dropWork_frame]; rfl
  · rw [dropWork_frame]; rfl
  · rw [dropWork_frame]; rfl
  · rw [dropWork_frame]; rfl
  · rw [hnor']
  · rw [dropWork_frame]

end Sys2Proof.Machine
end

section
/-!
PROOFS. Writes of the host to registers and ring windows (O20, O21).
-/

namespace Sys2Proof.Machine

/-! ## What sending and pumping change of a port -/

/-- The port has written completions and sent messages: only its rings, its pending bits and what it has sent may differ. -/
def PortSends (q q' : Port) : Prop := q' = { q with rings := q'.rings, pba := q'.pba, sent := q'.sent }

theorem PortSends.refl (q : Port) : PortSends q q := rfl

theorem PortSends.trans {q q' q'' : Port} (h : PortSends q q') (h' : PortSends q' q'') : PortSends q q'' := by
  rw [PortSends, h] at h'
  exact h'

/-- A measure of a port that looks at none of the three is kept. -/
theorem PortSends.field {α : Type} {q q' : Port} (h : PortSends q q') (g : Port → α)
    (hg : ∀ q rings pba sent, g { q with rings := rings, pba := pba, sent := sent } = g q) : g q' = g q := by
  rw [h]
  exact hg ..

theorem portSends_foldl {α : Type} {f : Port → α → Port} (hf : ∀ q a, PortSends q (f q a)) (l : List α) (q : Port) :
    PortSends q (l.foldl f q) := by
  induction l generalizing q with
  | nil => exact .refl q
  | cons a l ih => exact (hf q a).trans (ih _)

theorem onRing_portSends (i : Nat) (f : Ring → Ring) (q : Port) : PortSends q (onRing i f q) := rfl

theorem fireVector_portSends (v : Nat) (q : Port) : PortSends q (fireVector v q) := by
  unfold fireVector
  split <;> rfl

theorem sendHeldVectors_portSends (q : Port) : PortSends q (sendHeldVectors q) := by
  refine portSends_foldl (fun q v => ?_) _ q
  split <;> rfl

theorem writeCompletion_portSends (time : Word) (i : Nat) (cq : CompletionRing) (c : Completion) (q : Port) :
    PortSends q (writeCompletion time i cq c q) := by
  unfold writeCompletion
  extract_lets phased moved q0 q1
  have h : PortSends q q1 := rfl
  split
  · exact h.trans (fireVector_portSends ..)
  · exact h

theorem writeHeld_portSends (time : Word) (i : Nat) (cs : List Completion) (q : Port) : PortSends q (writeHeld time i cs q) := by
  induction cs generalizing q with
  | nil => exact onRing_portSends ..
  | cons c cs ih =>
    unfold writeHeld
    split
    · exact .refl q
    · split
      · exact (writeCompletion_portSends ..).trans (ih _)
      · exact onRing_portSends ..

theorem writeEvents_portSends (time : Word) (i : Nat) (es : List Event) (q : Port) : PortSends q (writeEvents time i es q) := by
  induction es generalizing q with
  | nil => exact .refl q
  | cons e es ih =>
    unfold writeEvents
    split
    · exact .refl q
    · split
      · exact ((onRing_portSends ..).trans (writeCompletion_portSends ..)).trans (ih _)
      · exact .refl q

theorem pumpPort_portSends (time : Word) (q : Port) : PortSends q (pumpPort time q) :=
  portSends_foldl (fun q i => (writeHeld_portSends time i _ q).trans (writeEvents_portSends time i _ _)) _ q

/-- Whether a vector is held back does not depend on what was sent. -/
theorem PortSends.vectorBlocked {q q' : Port} (h : PortSends q q') (v : Nat) : vectorBlocked q' v = vectorBlocked q v := by
  rw [h]
  rfl

/-! ## Held vectors (R67) -/

theorem bit_clearBit {w : Nat} (x : BitVec w) (i j : Nat) : bit (clearBit x i) j = (bit x j && !decide (i = j)) := by
  rw [bit, clearBit, BitVec.getLsbD_and, BitVec.getLsbD_not, BitVec.getLsbD_ofNat, Nat.shiftLeft_eq, one_mul, Nat.testBit_two_pow,
    bit]
  by_cases h : j < w
  · simp [h]
  · simp [h, BitVec.getLsbD_of_ge x j (by omega)]

/-- A vector is sent if it is pending and may be sent. -/
def sendHeldVector (q : Port) (v : Nat) : Port :=
  if bit q.pba v && !vectorBlocked q v then { q with pba := clearBit q.pba v, sent := q.sent ++ [.msix v] } else q

theorem sendHeldVectors_eq (q : Port) : sendHeldVectors q = (List.range 65).foldl sendHeldVector q := rfl

theorem sendHeldVector_portSends (q : Port) (v : Nat) : PortSends q (sendHeldVector q v) := by
  unfold sendHeldVector
  split <;> rfl

theorem sendHeldVector_sent {q : Port} {v : Nat} (hfree : vectorBlocked q v = false) : bit (sendHeldVector q v).pba v = false := by
  unfold sendHeldVector
  split
  · simp [bit_clearBit]
  · rename_i h
    simpa [hfree] using h

theorem sendHeldVector_keeps {q : Port} {v : Nat} (a : Nat) (h : bit q.pba v = false) :
    bit (sendHeldVector q a).pba v = false := by
  unfold sendHeldVector
  split
  · simp [bit_clearBit, h]
  · exact h

/-- After sending, no vector that could be sent is pending any more. -/
theorem sendHeldVectors_sent {q : Port} {v : Nat} (hv : v < 65) (hfree : vectorBlocked q v = false) :
    bit (sendHeldVectors q).pba v = false := by
  have hkeep (l : List Nat) (q : Port) (h : bit q.pba v = false) : bit (l.foldl sendHeldVector q).pba v = false :=
    List.foldlRecOn (motive := fun q : Port => bit q.pba v = false) l _ h (fun q hq a _ => sendHeldVector_keeps a hq)
  have hall (l : List Nat) (hl : v ∈ l) (q : Port) (hq : vectorBlocked q v = false) :
      bit (l.foldl sendHeldVector q).pba v = false := by
    induction l generalizing q with
    | nil => simp at hl
    | cons a l ih =>
      rcases List.mem_cons.mp hl with rfl | hl
      · exact hkeep l _ (sendHeldVector_sent hq)
      · exact ih hl _ (by rw [(sendHeldVector_portSends q a).vectorBlocked, hq])
  rw [sendHeldVectors_eq]
  exact hall _ (List.mem_range.mpr hv) q hfree

/-! ## Register writes -/

theorem raiseEvent_hostEvent (b : Nat) (q : Port) (hb : b < 64) : bit (raiseEvent b q).hostEvent b = true := by
  unfold raiseEvent
  split
  · assumption
  · split
    · rw [fireVector_portSends]
      exact bit_setBit_self _ _ hb
    · exact bit_setBit_self _ _ hb

theorem raiseEvent_rings (b : Nat) (q : Port) : (raiseEvent b q).rings = q.rings := by
  unfold raiseEvent
  split
  · rfl
  · split
    · exact fireVector_rings ..
    · rfl

/-- Settles O20. -/
theorem registerWritesAct : Obligations.RegisterWritesAct := by
  unfold Obligations.RegisterWritesAct
  refine ⟨?doorbell, ?reserved, ?mask, ?vector, ?function, ?bad, ?window⟩
  case doorbell =>
    intro s r v q hq hbar hres hen hopen
    show Host.Outcome.next (writeRingDb r v s) = _
    unfold writeRingDb
    extract_lets q' t
    rw [if_neg (by simp [hbar]), if_neg (by simp [hres]), if_neg (by simp [q', ← hq, hen, hopen]), show q' = q from hq.symm]
    simp only [doorbellBad, decide_eq_true_eq]
    rfl
  case reserved =>
    intro s r v hbar hres
    show Host.Outcome.next (writeRingDb r v s) = _
    rw [writeRingDb, if_neg (by simp [hbar]), if_pos hres]
  case mask =>
    intro s port v hlen hbar
    have hp : port.val < s.ports.length := by rw [hlen]; exact port.isLt
    refine ⟨_, congrArg Host.Outcome.next (if_neg (by simp [hbar])), rfl, ?_⟩
    rw [portOf_onPort_self _ _ hp]
    extract_lets m q1
    have hfire := fireVector_portSends 64 q1
    have hsend (h : vectorBlocked (portOf s port) 64 = false) : (fireVector 64 q1).sent = (portOf s port).sent ++ [.msix 64] :=
      congrArg Port.sent (if_neg (by rw [show vectorBlocked q1 64 = false from h]; decide))
    split
    · exact ⟨hfire.field Port.hostEventMask (fun _ _ _ _ => rfl), hfire.field Port.hostEvent (fun _ _ _ _ => rfl), fun _ h => hsend h⟩
    · rename_i hnone
      exact ⟨rfl, rfl, fun h => absurd h hnone⟩
  case vector =>
    intro s port v hlen hmsix hbar
    have hp : port.val < s.ports.length := by rw [hlen]; exact port.isLt
    have hup : (portOf s port).linkUp = true := (Bool.and_eq_true_iff.mp hbar).1
    refine ⟨_, congrArg Host.Outcome.next (if_neg (by simp [hbar, hup])), rfl, ?_⟩
    rw [portOf_onPort_self _ _ hp]
    obtain ⟨q, hq⟩ : ∃ q : Port, q = { portOf s port with
      msix := modAt (portOf s port).msix v (fun e => { e with masked := false }) } := ⟨_, rfl⟩
    have hopen : (q.msix.getD v MsixEntry.reset).masked = false := by
      have hv : v.val < (portOf s port).msix.length := by omega
      rw [hq]
      simp [modAt, List.getD_eq_getElem?_getD, hv]
    have hunmask : unmask (some v) (portOf s port) = sendHeldVectors q := by rw [hq]; rfl
    rw [hunmask]
    refine ⟨?_, fun hen hfunc => sendHeldVectors_sent v.isLt ?_⟩
    · rw [sendHeldVectors_portSends q]
      exact hopen
    · have hen' : q.msixEnable = true := by rw [hq]; exact hen
      have hfunc' : q.msixFuncMask = false := by rw [hq]; exact hfunc
      have hup' : q.linkUp = true := by rw [hq]; exact hup
      rw [vectorBlocked, hen', hfunc', hup', hopen]
      rfl
  case function =>
    intro s port hlen hup
    have hp : port.val < s.ports.length := by rw [hlen]; exact port.isLt
    refine ⟨_, congrArg Host.Outcome.next (if_neg (by simp [hup])), rfl, ?_⟩
    rw [portOf_onPort_self _ _ hp]
    obtain ⟨q, hq⟩ : ∃ q : Port, q = { portOf s port with msixEnable := true, msixFuncMask := false } := ⟨_, rfl⟩
    have hunmask : unmask none (portOf s port) = sendHeldVectors q := by rw [hq]; rfl
    rw [hunmask]
    refine ⟨?_, ?_, fun v hv hopen => sendHeldVectors_sent hv ?_⟩
    · rw [sendHeldVectors_portSends q, hq]
    · rw [sendHeldVectors_portSends q, hq]
    · rw [vectorBlocked, hq, hup, hopen]
      rfl
  case bad =>
    intro s port off w hlen hbar
    have hp : port.val < s.ports.length := by rw [hlen]; exact port.isLt
    refine ⟨_, congrArg Host.Outcome.next (if_pos hbar), rfl, ?_⟩
    rw [barFault, portOf_onPort_self _ _ hp]
    exact ⟨raiseEvent_hostEvent _ _ (by decide), raiseEvent_rings ..⟩
  case window =>
    intro s port off data i o hup hi ho hi64 hlen hrings
    have hp : port.val < s.ports.length := by rw [hlen]; exact port.isLt
    subst hi ho
    have hwrite (hen : (ringOf s port (off / 0x400000)).enabled = true) : exec (.bar2Write port off data) s =
        .next (onPort port (onRing (off / 0x400000) (fun r => { r with
          window := memWrite r.window (off % 0x400000) (data.take (0x400000 - off % 0x400000)) })) s) :=
      congrArg Host.Outcome.next ((if_neg (by simp [hup]; omega)).trans (if_pos hen))
    have hfault (hen : (ringOf s port (off / 0x400000)).enabled = false) :
        exec (.bar2Write port off data) s = .next (barFault port s) :=
      congrArg Host.Outcome.next ((if_neg (by simp [hup]; omega)).trans (if_neg (by simp [hen])))
    cases hen : (ringOf s port (off / 0x400000)).enabled
    · exact ⟨_, hfault hen, rfl, fun h => absurd h (by decide), fun _ => rfl⟩
    · refine ⟨_, hwrite hen, rfl, fun _ a => ?_, fun h => absurd h (by decide)⟩
      rw [ringOf, portOf_onPort_self _ _ hp, ringAt_onRing_self _ _ (hrings ▸ hi64)]
      exact memByte_memWrite ..

/-! ## Configuration space (R46, R47, R69) -/

/-- What a write to configuration space sets in its port, before what waited is sent. -/
def configSet (offset : Nat) (v : Word) (q : Port) : Port :=
  match offset with
  | 0x04 => { q with memEnable := bit v 1, busMaster := bit v 2 }
  | 0x10 => { q with bar0 := BitVec.ofNat 64 (bits v 63 16 <<< 16) }
  | 0x18 => { q with bar2 := BitVec.ofNat 64 (bits v 63 28 <<< 28) }
  | 0x40 => { q with msixEnable := bit v 31, msixFuncMask := bit v 30 }
  | 0x60 => writeDeviceControl v q
  | 0x80 => { q with uioEnable := bit v 0 }
  | _ => q

theorem configSet_other {offset : Nat} (v : Word) (q : Port) (h : offset ∉ [0x04, 0x10, 0x18, 0x40, 0x60, 0x80]) :
    configSet offset v q = q := by
  unfold configSet
  split <;> simp_all

/-- With no session that closes, nothing resumes. -/
theorem resumeCloses_none {s : State} (h : ∀ e ∈ s.sessions, e.2.closing = none) : resumeCloses s = s := by
  unfold resumeCloses
  refine List.foldlRecOn (motive := fun x => x = s) _ _ rfl (fun x hx e he => ?_)
  rw [h e he]
  exact hx

theorem writeConfig_eq {s : State} {p : Nat} (offset : Nat) (v : Word) (hup : (portOf s p).linkUp = true)
    (htr : s.power.transition = none) (hcl : ∀ e ∈ s.sessions, e.2.closing = none) :
    writeConfig p offset v s = onPort p (fun q => pumpPort s.time (sendHeldVectors (configSet offset v q))) s := by
  have hset : writeConfig p offset v s = settleTransition (resumeCloses
      (onPort p (fun q => pumpPort s.time (sendHeldVectors q)) (onPort p (configSet offset v) s))) :=
    if_neg (by simp [hup])
  rw [hset, onPort_onPort, resumeCloses_none (s := onPort p _ s) hcl, settleTransition_none (s := onPort p _ s) htr,
    Function.comp_def]

theorem pumpedPort_portSends (time : Word) (q : Port) : PortSends q (pumpPort time (sendHeldVectors q)) :=
  (sendHeldVectors_portSends q).trans (pumpPort_portSends time _)

/-- The registers of a port that a write to configuration space can set. -/
def configFields (q : Port) : Bool × Bool × Word × Word × Nat × Nat × Bool :=
  (q.memEnable, q.busMaster, q.bar0, q.bar2, q.mps, q.mrrs, q.uioEnable)

/-- The address bits of a BAR fit a word. -/
theorem toNat_addressBits (v : Word) {lo : Nat} (hlo : lo ≤ 64) :
    (BitVec.ofNat 64 (bits v 63 lo <<< lo)).toNat = bits v 63 lo <<< lo := by
  have h : bits v 63 lo < 2 ^ (64 - lo) := Nat.mod_lt _ (by positivity)
  have hpow : 2 ^ (64 - lo) * 2 ^ lo = 2 ^ 64 := by rw [← pow_add]; congr 1; omega
  rw [BitVec.toNat_ofNat, Nat.shiftLeft_eq, Nat.mod_eq_of_lt]
  exact (Nat.mul_lt_mul_of_pos_right h (Nat.two_pow_pos lo)).trans_eq hpow

/-- Settles O21. -/
theorem otherRegisterWritesAct : Obligations.OtherRegisterWritesAct := by
  unfold Obligations.OtherRegisterWritesAct
  refine ⟨?event, ?aon, ?readOnly, ?config⟩
  case event =>
    intro s port v hbar
    show Host.Outcome.next (writeBar0 port 0x0018 v s) = _
    rw [writeBar0, if_neg (by simp [hbar]), if_neg (by decide), if_pos rfl]
  case aon =>
    intro s port v hbar
    show Host.Outcome.next (writeBar0 port 0x0810 v s) = _
    rw [writeBar0, if_neg (by simp [hbar])]
    rfl
  case readOnly =>
    intro s port off v hbar halign hlist hdb hmsix
    simp only [List.mem_cons, List.not_mem_nil, or_false, not_or] at hlist
    obtain ⟨hevent, hmask, hreset, htremor, haon⟩ := hlist
    show Host.Outcome.next (writeBar0 port off.toNat v s) = _
    rw [writeBar0, if_neg (by simp [hbar]), if_neg (by omega), if_neg hevent, if_neg hmask, if_neg hreset, if_neg htremor,
      if_neg hdb, if_neg haon, if_neg hmsix]
  case config =>
    intro s port off v hlen hup htr hcl
    have hp : port.val < s.ports.length := by rw [hlen]; exact port.isLt
    refine ⟨_, congrArg Host.Outcome.next (writeConfig_eq off.toNat v hup htr hcl), rfl, ?_⟩
    rw [portOf_onPort_self _ _ hp]
    obtain ⟨q, hq⟩ : ∃ q, q = configSet off.toNat v (portOf s port) := ⟨_, rfl⟩
    have hfields : configFields (pumpPort s.time (sendHeldVectors q)) = configFields q :=
      (pumpedPort_portSends s.time q).field configFields (fun _ _ _ _ => rfl)
    simp only [configFields, Prod.mk.injEq] at hfields
    obtain ⟨hmem, hbus, hbar0, hbar2, hmps, hmrrs, huio⟩ := hfields
    rw [← hq, hmem, hbus, hbar0, hbar2, hmps, hmrrs, huio]
    refine ⟨fun ho => ?_, fun ho => ?_, fun ho => ?_, fun ho => ?_, fun ho => ?_, fun ho => ?_⟩
    · rw [hq, ho]
      exact ⟨rfl, rfl⟩
    · rw [hq, ho]
      exact toNat_addressBits v (by decide)
    · rw [hq, ho]
      exact toNat_addressBits v (by decide)
    · rw [hq, ho]
      exact ⟨rfl, rfl⟩
    · rw [hq, ho]
      rfl
    · rw [hq, configSet_other v _ ?_]
      · exact ⟨rfl, rfl, rfl, rfl, rfl, rfl, rfl⟩
      · have hne (n : Nat) (hn : n < 65536) (hoff : off ≠ BitVec.ofNat 16 n) : off.toNat ≠ n := fun h =>
          hoff (BitVec.eq_of_toNat_eq (by rw [h, BitVec.toNat_ofNat, Nat.mod_eq_of_lt hn]))
        simp only [List.mem_cons, List.not_mem_nil, or_false, not_or] at ho ⊢
        obtain ⟨h4, h10, h18, h40, h60, h80⟩ := ho
        exact ⟨hne _ (by decide) h4, hne _ (by decide) h10, hne _ (by decide) h18, hne _ (by decide) h40,
          hne _ (by decide) h60, hne _ (by decide) h80⟩

end Sys2Proof.Machine
end

section
/-!
PROOFS. The trigger unit's sources (O22, O23).
-/

namespace Sys2Proof.Machine

theorem raiseUp_ports (b : Nat) (s : State) : raiseUp b s = { s with ports := (raiseUp b s).ports } := rfl

/-- R499: what the trigger sets when it runs to its end. -/
theorem latchAll_tremor (src : BitVec 6) (s : State) : (latchAll src s).tremor = { s.tremor with
    state := .latched, source := src, seq := s.tremor.seq + 1, triggerTime := s.time, latched := (latchAll src s).tremor.latched
    read := 0, snaps := (List.range 45).map (latchIsland s s.freeCount s.tremor.arm.islandMask)
    trigOut := (latchAll src s).tremor.trigOut } := by
  unfold latchAll
  extract_lets t snaps latched t1
  rw [raiseUp_ports, postEvent_ports]
  rfl

/-- The trigger changes its own unit, what it reports at the ports, and the free values taken. -/
theorem latchAll_frame (src : BitVec 6) (s : State) : latchAll src s = { s with
    tremor := (latchAll src s).tremor, ports := (latchAll src s).ports, freeCount := (latchAll src s).freeCount } := by
  unfold latchAll
  extract_lets t snaps latched t1
  rw [raiseUp_ports, postEvent_ports]
  rfl

theorem latchIsland_unmasked {s : State} {c0 : Nat} {mask : BitVec 45} {i : Nat} (h : bit mask i = false) :
    (latchIsland s c0 mask i).rstate = 2 := by
  simp [latchIsland, h]

/-- R498: an enabled source in an armed unit. -/
theorem fire_armed {src : BitVec 6} {s : State} (hup : railsUp s = true) (hon : src &&& s.tremor.arm.sources ≠ 0)
    (harmed : s.tremor.state = .armed) : fire src s = latchAll (src &&& s.tremor.arm.sources) s := by
  unfold fire
  extract_lets on
  rw [if_neg (fun h => h.elim (by simp [hup]) hon), harmed]

/-- R500: an enabled source while a snapshot is held. -/
theorem fire_latched {src : BitVec 6} {s : State} (hup : railsUp s = true) (hon : src &&& s.tremor.arm.sources ≠ 0)
    (hheld : s.tremor.state = .latched) : fire src s = { s with tremor := { s.tremor with missed := s.tremor.missed + 1 } } := by
  unfold fire
  extract_lets on t
  rw [if_neg (fun h => h.elim (by simp [hup]) hon), hheld]

/-- A source's row fires the unit, on a state that differs in the debug unit at most. -/
theorem exec_source {s : State} {i : Instr} {src : BitVec 6}
    (hi : i = .tremorFire 0 1 ∧ barUp s 0 = true ∧ src = srcRegister ∨ i = .tremorFire 1 1 ∧ barUp s 1 = true ∧ src = srcRegister ∨
      i = .trigIn s.tremor.arm.trigInFalling ∧ s.dbg.pinsTaken = 0 ∧ src = srcTrigIn ∨
      i = .zdbgTrigger ∧ src = srcDebug) (hup : railsUp s = true) :
    ∃ d, exec i s = .next (fire src { s with dbg := d }) := by
  rcases hi with ⟨rfl, hbar, rfl⟩ | ⟨rfl, hbar, rfl⟩ | ⟨rfl, hpins, rfl⟩ | ⟨rfl, rfl⟩
  · exact ⟨s.dbg, congrArg Host.Outcome.next (if_pos ⟨hbar, by decide⟩)⟩
  · exact ⟨s.dbg, congrArg Host.Outcome.next (if_pos ⟨hbar, by decide⟩)⟩
  · exact ⟨s.dbg, congrArg Host.Outcome.next (if_pos ⟨rfl, hpins⟩)⟩
  · exact ⟨_, congrArg Host.Outcome.next (if_pos hup)⟩

/-- Settles O22. -/
theorem triggersLatch : Obligations.TriggersLatch := by
  unfold Obligations.TriggersLatch
  intro s i src hi hup hon
  obtain ⟨d, hexec⟩ := exec_source hi hup
  refine ⟨fun harmed => ?_, fun hheld => ?_⟩
  · obtain ⟨x, hx⟩ : ∃ x : State, x = { s with dbg := d } := ⟨_, rfl⟩
    have hfire : fire src x = latchAll (src &&& s.tremor.arm.sources) x := by
      rw [hx]
      exact fire_armed hup hon harmed
    have htremor := latchAll_tremor (src &&& s.tremor.arm.sources) x
    have hframe := latchAll_frame (src &&& s.tremor.arm.sources) x
    have hxt : x.tremor = s.tremor := by rw [hx]
    have hxtime : x.time = s.time := by rw [hx]
    refine ⟨_, hexec.trans (by rw [← hx, hfire]), ?_⟩
    generalize latchAll (src &&& s.tremor.arm.sources) x = t at htremor hframe ⊢
    rw [hxt, hxtime] at htremor
    refine ⟨by rw [htremor], by rw [htremor], by rw [htremor], by rw [htremor], by rw [htremor]; simp, fun k hk hmask => ?_, ?_⟩
    · rw [htremor]
      simp only [List.getD_eq_getElem?_getD, List.getElem?_map, List.getElem?_range hk, Option.map_some, Option.getD_some]
      exact latchIsland_unmasked hmask
    · have hd : t.dbg = d := (congrArg State.dbg hframe).trans (by rw [hx])
      rw [hd]
      rw [hx] at hframe
      exact hframe
  · refine ⟨_, hexec.trans (congrArg Host.Outcome.next (fire_latched (s := { s with dbg := d }) hup hon hheld)), rfl, rfl⟩

theorem srcEvent_enabled {sources : BitVec 6} (h : bit sources 4 = true) : srcEvent &&& sources = srcEvent := by
  refine BitVec.eq_of_getLsbD_eq (fun i hi => ?_)
  rw [bit] at h
  interval_cases i <;> simp [srcEvent, h]

theorem srcScheduled_enabled {sources : BitVec 6} (h : bit sources 5 = true) : srcScheduled &&& sources = srcScheduled := by
  refine BitVec.eq_of_getLsbD_eq (fun i hi => ?_)
  rw [bit] at h
  interval_cases i <;> simp [srcScheduled, h]

/-- What a source that is enabled alone leaves in an armed unit. -/
theorem fire_enabled {src : BitVec 6} {s : State} (hup : railsUp s = true) (hon : src &&& s.tremor.arm.sources = src)
    (hsrc : src ≠ 0) (harmed : s.tremor.state = .armed) : (fire src s).tremor.state = .latched ∧
      (fire src s).tremor.source = src ∧ (fire src s).tremor.triggerTime = s.time ∧ (fire src s).time = s.time := by
  rw [fire_armed hup (by rwa [hon]) harmed, hon]
  have htremor := latchAll_tremor src s
  have hframe := latchAll_frame src s
  generalize latchAll src s = t at htremor hframe
  exact ⟨by rw [htremor], by rw [htremor], by rw [htremor], by rw [hframe]⟩

/-- Settles O23. -/
theorem conditionsLatch : Obligations.ConditionsLatch := by
  unfold Obligations.ConditionsLatch
  refine ⟨?event, ?scheduled⟩
  case event =>
    intro s st hfw harmed hholds hbit hup
    obtain ⟨hstate, hsource, htime, _⟩ := fire_enabled (src := srcEvent) hup (srcEvent_enabled hbit) (by decide) harmed
    exact ⟨_, congrArg Host.Outcome.next (if_pos (by simp [hfw, harmed, hholds])), hstate, hsource, htime⟩
  case scheduled =>
    intro s harmed hbit hup hdue
    obtain ⟨x, hx⟩ : ∃ x, x = { s with
      time := if s.time.toNat < s.tremor.arm.fireTime.toNat then s.tremor.arm.fireTime else s.time } := ⟨_, rfl⟩
    have hexec : exec .scheduledFire s = .next (fire srcScheduled x) :=
      congrArg Host.Outcome.next ((if_pos ⟨harmed, hbit, hdue⟩).trans (by rw [hx]))
    have hxt : x.tremor = s.tremor := by rw [hx]
    have hxup : railsUp x = true := by rw [hx]; exact hup
    have hxtime : x.time = if s.time.toNat < s.tremor.arm.fireTime.toNat then s.tremor.arm.fireTime else s.time := by rw [hx]
    obtain ⟨hstate, hsource, htrigger, htime⟩ := fire_enabled (src := srcScheduled) hxup
      (by rw [hxt]; exact srcScheduled_enabled hbit) (by decide) (by rw [hxt]; exact harmed)
    refine ⟨_, hexec, hstate, hsource, htrigger.trans htime.symm, ?_, ?_⟩
    · rw [htime, hxtime]
      split <;> omega
    · rw [htime, hxtime]
      split <;> omega

end Sys2Proof.Machine
end

section
/-!
PROOFS. Module time and the management bus (O24, O25).
-/

namespace Sys2Proof.Machine

/-- A step to the present time moves nothing. -/
theorem boot_stepped_none (b : BootUnit) (t : Word) : b = { b with
    resetTime := b.resetTime + (t - t), heartbeatTime := b.heartbeatTime + (t - t) } := by simp

/-- The slew of a later edge lies within 500 ppm. -/
theorem slew_within (x : Int) : -500 ≤ max (-500) (min 500 x) ∧ max (-500) (min 500 x) ≤ 500 := by omega

/-- What an edge of TIME_SYNC leaves (R553). -/
def syncedState (s : State) : State :=
  match s.clock.setPending with
  | some (sec, _) =>
    smbSend (timeResponse 1 0 (sec * 1000000000)) { stepTime (sec * 1000000000) s with clock := { s.clock with
      setPending := none, firstPending := false, lastEdge := some (sec * 1000000000), slewPpm := 0
      accepted := s.clock.accepted + 1 } }
  | none =>
    if s.clock.firstPending then
      { stepTime (BitVec.ofNat 64 (nearestSecond s.time.toNat)) s with clock := { s.clock with
        firstPending := false, lastEdge := some (BitVec.ofNat 64 (nearestSecond s.time.toNat)), slewPpm := 0
        accepted := s.clock.accepted + 1 } }
    else if (s.time - s.clock.lastEdge.getD s.time).toNat < 900000000 ∨ 1100000000 < (s.time - s.clock.lastEdge.getD s.time).toNat then
      { s with clock := { s.clock with ignored := s.clock.ignored + 1, accepted := 0, lastEdge := some s.time } }
    else
      { s with clock := { s.clock with
        slewPpm := max (-500) (min 500 (((nearestSecond s.time.toNat : Int) - s.time.toNat) / 1000)), lastEdge := some s.time
        accepted := s.clock.accepted + 1 } }

theorem exec_timeSync {s : State} (hup : s.pins.pwrgdOut = true) (hpins : s.dbg.pinsTaken = 0) :
    exec .timeSync s = .next (syncedState s) :=
  congrArg Host.Outcome.next (if_neg (by simp [hup, hpins]))

/-- A wait for a time ends no earlier than it began, and not before that time. -/
theorem le_time_atLeast {t : Nat} (ht : t < 2 ^ 64) (s : State) : s.time.toNat ≤ (atLeast t s).time.toNat := by
  unfold atLeast
  dsimp only
  split
  · rw [BitVec.toNat_ofNat, Nat.mod_eq_of_lt ht]
    omega
  · exact le_rfl

theorem due_le_time_atLeast {t : Nat} (ht : t < 2 ^ 64) (s : State) : t ≤ (atLeast t s).time.toNat := by
  unfold atLeast
  dsimp only
  split
  · rw [BitVec.toNat_ofNat, Nat.mod_eq_of_lt ht]
  · omega

theorem syncedState_set {s : State} {sec at_ : Word} (h : s.clock.setPending = some (sec, at_)) : syncedState s =
    smbSend (timeResponse 1 0 (sec * 1000000000)) { stepTime (sec * 1000000000) s with clock := { s.clock with
      setPending := none, firstPending := false, lastEdge := some (sec * 1000000000), slewPpm := 0
      accepted := s.clock.accepted + 1 } } := by
  rw [syncedState, h]

theorem syncedState_first {s : State} (h : s.clock.setPending = none) (hfirst : s.clock.firstPending = true) : syncedState s =
    { stepTime (BitVec.ofNat 64 (nearestSecond s.time.toNat)) s with clock := { s.clock with
      firstPending := false, lastEdge := some (BitVec.ofNat 64 (nearestSecond s.time.toNat)), slewPpm := 0
      accepted := s.clock.accepted + 1 } } := by
  rw [syncedState, h]
  exact if_pos hfirst

theorem syncedState_ignored {s : State} {gap : Nat} (h : s.clock.setPending = none) (hfirst : s.clock.firstPending = false)
    (hgap : gap = (s.time - s.clock.lastEdge.getD s.time).toNat) (hout : gap < 900000000 ∨ 1100000000 < gap) :
    syncedState s =
      { s with clock := { s.clock with ignored := s.clock.ignored + 1, accepted := 0, lastEdge := some s.time } } := by
  rw [syncedState, h]
  subst hgap
  exact (if_neg (by simp [hfirst])).trans (if_pos hout)

/-- A later edge that comes in time slews the clock by at most 500 ppm. -/
theorem syncedState_slewed {s : State} {gap : Nat} (h : s.clock.setPending = none) (hfirst : s.clock.firstPending = false)
    (hgap : gap = (s.time - s.clock.lastEdge.getD s.time).toNat) (hin : ¬ (gap < 900000000 ∨ 1100000000 < gap)) :
    ∃ ppm : Int, syncedState s = { s with clock := { s.clock with
      slewPpm := ppm, lastEdge := some s.time, accepted := s.clock.accepted + 1 } } ∧ -500 ≤ ppm ∧ ppm ≤ 500 := by
  rw [syncedState, h]
  subst hgap
  exact ⟨_, (if_neg (by simp [hfirst])).trans (if_neg hin), slew_within _⟩

/-- Settles O24. -/
theorem moduleTimeIsKept : Obligations.ModuleTimeIsKept := by
  unfold Obligations.ModuleTimeIsKept
  refine ⟨?sync, ?set, ?noEdge, ?get⟩
  case sync =>
    intro s hup hpins
    refine ⟨_, exec_timeSync hup hpins, ?_⟩
    cases hset : s.clock.setPending with
    | some p =>
      obtain ⟨sec, at'⟩ := p
      obtain ⟨now, hnow⟩ : ∃ n, sec * 1000000000 = n := ⟨_, rfl⟩
      rw [syncedState_set hset, hnow]
      refine ⟨rfl, rfl, ?_, fun h => absurd h (by simp), fun _ h => absurd h (by simp)⟩
      intro sec' _ h
      obtain ⟨rfl, rfl⟩ : sec = sec' ∧ at' = _ := by simpa using h
      rw [hnow]
      exact ⟨rfl, rfl, rfl, rfl, rfl⟩
    | none =>
      cases hfirst : s.clock.firstPending with
      | true =>
        obtain ⟨n, hn⟩ : ∃ n, nearestSecond s.time.toNat = n := ⟨_, rfl⟩
        have hn' : (s.time.toNat + 500000000) / 1000000000 * 1000000000 = n := by rw [← hn, nearestSecond]
        rw [syncedState_first hset hfirst, hn, hn']
        exact ⟨rfl, rfl, fun _ _ h => absurd h (by simp), fun _ _ => ⟨rfl, rfl, rfl, rfl⟩,
          fun _ _ h => absurd h (by simp)⟩
      | false =>
        obtain ⟨gap, hgap⟩ : ∃ n, n = (s.time - s.clock.lastEdge.getD s.time).toNat := ⟨_, rfl⟩
        have hgap' (e : Word) (he : s.clock.lastEdge = some e) : (s.time - e).toNat = gap := by rw [hgap, he]; rfl
        by_cases hout : gap < 900000000 ∨ 1100000000 < gap
        · rw [syncedState_ignored hset hfirst hgap hout]
          refine ⟨rfl, boot_stepped_none s.boot s.time, fun _ _ h => absurd h (by simp), fun _ h => absurd h (by simp), ?_⟩
          intro e _ _ he
          rw [hgap' e he]
          exact ⟨rfl, rfl, rfl, fun _ => ⟨rfl, rfl, rfl⟩, fun hlow hhigh => by omega⟩
        · obtain ⟨ppm, ht, hlow, hhigh⟩ := syncedState_slewed hset hfirst hgap hout
          rw [ht]
          refine ⟨rfl, boot_stepped_none s.boot s.time, fun _ _ h => absurd h (by simp), fun _ h => absurd h (by simp), ?_⟩
          intro e _ _ he
          rw [hgap' e he]
          exact ⟨rfl, rfl, rfl, fun h => absurd h hout, fun _ _ => ⟨rfl, hlow, hhigh⟩⟩
  case set =>
    intro s sec haux
    exact congrArg Host.Outcome.next (if_pos haux)
  case noEdge =>
    intro s sec at_ hset
    obtain ⟨due, hdue⟩ : ∃ n, n = at_.toNat + 2000000000 := ⟨_, rfl⟩
    have hexec : exec .timeSetNoEdge s = .next (smbSend (timeResponse 1 1 (atLeast due s).time)
        { atLeast due s with clock := { s.clock with setPending := none } }) := by
      show execTimeSetNoEdge s = _
      simp only [execTimeSetNoEdge, hset, ← hdue]
      rfl
    rw [← hdue]
    exact ⟨_, hexec, rfl, rfl, rfl, fun hlt => ⟨le_time_atLeast hlt s, due_le_time_atLeast hlt s⟩⟩
  case get =>
    intro s haux
    exact congrArg Host.Outcome.next (if_pos haux)

/-- Settles O25. -/
theorem managementBusAnswers : Obligations.ManagementBusAnswers := by
  unfold Obligations.ManagementBusAnswers
  refine ⟨?pldm, ?eid, ?other⟩
  case pldm =>
    intro s body haux
    refine congrArg Host.Outcome.next ((if_neg (by simp [haux])).trans ?_)
    rfl
  case eid =>
    intro s body haux hop
    show execMctpControl body s = _
    rw [execMctpControl, if_neg (by simp [haux])]
    extract_lets pins s1
    have hs1 : s1 = { s with pins := { s.pins with eid := BitVec.ofNat 8 (field body 16 8) } } := if_pos hop
    have hbytes : natLE 1 1 ++ [(0 : Byte)] ++ natLE (BitVec.ofNat 8 (field body 16 8)).toNat 1 =
        [1, 0, BitVec.ofNat 8 (field body 16 8)] := by
      simp only [natLE, List.cons_append, List.nil_append, BitVec.ofNat_toNat, BitVec.setWidth_eq]
      rfl
    rw [hs1, hop]
    exact congrArg (fun b => Host.Outcome.next (smbSend b { s with pins := { s.pins with
      eid := BitVec.ofNat 8 (field body 16 8) } })) hbytes
  case other =>
    intro s body haux hop
    show ∃ b, execMctpControl body s = _
    rw [execMctpControl, if_neg (by simp [haux])]
    extract_lets pins s1
    have hs1 : s1 = s := if_neg hop
    rw [hs1]
    exact ⟨_, rfl⟩

end Sys2Proof.Machine
end

section
/-!
PROOFS. The timers of the host attachment (O26).
-/

namespace Sys2Proof.Machine

/-! ## A ring that waits for room stays as it is (R97, R99) -/

/-- Only what a change makes of the entry matters. -/
theorem modAt_congr {α : Type} {l : List α} {i : Nat} {f g : α → α} (h : ∀ x, l[i]? = some x → f x = g x) :
    modAt l i f = modAt l i g := by
  refine List.ext_getElem? (fun j => ?_)
  rw [modAt, modAt, List.getElem?_modify, List.getElem?_modify]
  by_cases hj : i = j
  · subst hj
    cases hx : l[i]? with
    | none => rfl
    | some x => simp [h x hx]
  · simp [hj]

theorem onRing_congr {i : Nat} {f g : Ring → Ring} {q : Port} (h : f (ringAt q i) = g (ringAt q i)) : onRing i f q = onRing i g q := by
  rw [onRing, onRing, modAt_congr]
  intro x hx
  have : ringAt q i = x := by simp [ringAt, List.getD_eq_getElem?_getD, hx]
  rwa [this] at h

theorem onRing_id {i : Nat} {f : Ring → Ring} {q : Port} (h : f (ringAt q i) = ringAt q i) : onRing i f q = q := by
  rw [onRing_congr (g := id) h, onRing, modAt, List.modify_id]

theorem onPort_congr {s : State} {p : Nat} {f g : Port → Port} (h : f (portOf s p) = g (portOf s p)) : onPort p f s = onPort p g s := by
  rw [onPort, onPort, modAt_congr]
  intro x hx
  have : portOf s p = x := by simp [portOf, List.getD_eq_getElem?_getD, hx]
  rwa [this] at h

/-- R97: what waits at the head of a completion ring needs `n` units. -/
def HeadNeeds (x : Ring) (c : CompletionRing) (n : Nat) : Prop :=
  (∃ d rest, c.held = d :: rest ∧ n = completionUnits d) ∨ c.held = [] ∧ x.events ≠ [] ∧ n = 2

/-- The completion that a ring is to write next. -/
def IsHead (x : Ring) (c : CompletionRing) (d : Completion) : Prop :=
  (∃ rest, c.held = d :: rest) ∨ c.held = [] ∧ (∃ e es, x.events = e :: es ∧ d = eventCompletion e x.lost.toNat)

theorem head_exists {x : Ring} {c : CompletionRing} {n : Nat} (hn : HeadNeeds x c n) : ∃ d, IsHead x c d := by
  rcases hn with ⟨d, rest, hheld, -⟩ | ⟨hheld, hevents, -⟩
  · exact ⟨d, .inl ⟨rest, hheld⟩⟩
  · obtain ⟨e, es, hev⟩ := List.exists_cons_of_ne_nil hevents
    exact ⟨_, .inr ⟨hheld, e, es, hev, rfl⟩⟩

/-- What the head needs is what the head takes. -/
theorem head_of_needs {x : Ring} {c : CompletionRing} {n : Nat} {d : Completion} (hn : HeadNeeds x c n) (hd : IsHead x c d) :
    (∃ rest, c.held = d :: rest ∧ n = completionUnits d) ∨
      c.held = [] ∧ (∃ e es, x.events = e :: es ∧ d = eventCompletion e x.lost.toNat) ∧ n = 2 := by
  rcases hn with ⟨d', rest', hheld', rfl⟩ | ⟨hheld', hevents, rfl⟩
  · rcases hd with ⟨rest, hheld⟩ | ⟨hheld, -⟩
    · obtain ⟨rfl, rfl⟩ : d' = d ∧ rest' = rest := by simpa [hheld'] using hheld
      exact .inl ⟨rest', hheld', rfl⟩
    · simp [hheld'] at hheld
  · rcases hd with ⟨rest, hheld⟩ | ⟨-, hev⟩
    · simp [hheld'] at hheld
    · exact .inr ⟨hheld', hev, rfl⟩

theorem lacksRoom_of_needs {x : Ring} {c : CompletionRing} {n : Nat} (hcq : x.cq = some c) (hn : HeadNeeds x c n)
    (hfull : c.released + cqUnits c < c.written + n) : lacksRoom x = true := by
  have hno : cqFits c n = false := decide_eq_false (Nat.not_le.mpr hfull)
  rcases hn with ⟨d, rest, hheld, rfl⟩ | ⟨hheld, hevents, rfl⟩
  · simp [lacksRoom, hcq, hheld, hno]
  · simp [lacksRoom, hcq, hheld, hno, hevents]

/-- Holding back what is held anyhow changes nothing. -/
theorem heldBack_id {i : Nat} {q : Port} {c : CompletionRing} {cs : List Completion} (hcq : (ringAt q i).cq = some c)
    (h : c.held = cs) : onRing i (fun r => { r with cq := r.cq.map (fun x => { x with held := cs }) }) q = q := by
  have hmap : (ringAt q i).cq.map (fun x => { x with held := cs }) = (ringAt q i).cq := by
    rw [hcq, ← h]
    rfl
  exact onRing_id (congrArg (fun x => { ringAt q i with cq := x }) hmap)

/-- R97: a ring whose head does not fit, or whose port may not write, is pumped to no effect. -/
theorem pumpRing_blocked {time : Word} {i n : Nat} {q : Port} {c : CompletionRing} (hcq : (ringAt q i).cq = some c)
    (hn : HeadNeeds (ringAt q i) c n) (hno : mayWrite q = false ∨ c.released + cqUnits c < c.written + n) :
    pumpRing time i q = q := by
  have hblocked : (mayWrite q && cqFits c n) = false := by
    rcases hno with h | h
    · rw [h, Bool.false_and]
    · rw [show cqFits c n = false from decide_eq_false (Nat.not_le.mpr h), Bool.and_false]
  have hwriteHeld : writeHeld time i c.held q = q := by
    rcases hn with ⟨d, rest, hheld, rfl⟩ | ⟨hheld, -, -⟩
    · simp only [hheld, writeHeld, hcq, hblocked, Bool.false_eq_true, if_false]
      exact heldBack_id hcq hheld
    · rw [hheld, writeHeld]
      exact heldBack_id hcq hheld
  have hwriteEvents : writeEvents time i (ringAt q i).events q = q := by
    cases hev : (ringAt q i).events with
    | nil => rfl
    | cons e es =>
      rw [writeEvents, hcq]
      refine if_neg (fun ⟨hheld, hmay, hfits⟩ => ?_)
      rcases hn with ⟨d, rest, hd, -⟩ | ⟨-, -, rfl⟩
      · simp [hd] at hheld
      · simp [hmay, hfits] at hblocked
  rw [pumpRing, hcq]
  simp only [Option.map_some, Option.getD_some, hwriteHeld, hwriteEvents]

/-! ## A ring that has room again (R96, R97) -/

/-- How far a completion ring is released and written at least, and what its port has sent first. -/
def Advanced (released written : Nat) (sent : List PortWrite) (i : Nat) (q : Port) : Prop :=
  ∃ x, (ringAt q i).cq = some x ∧ x.released = released ∧ written ≤ x.written ∧ sent <+: q.sent

theorem advanced_writeCompletion (time : Word) {i R W : Nat} {l : List PortWrite} {cq : CompletionRing} (c : Completion) {q : Port}
    (hi : i < q.rings.length) (hR : cq.released = R) (hW : W ≤ cq.written + completionUnits c)
    (hl : l <+: q.sent ++ completionWrites (maxWrite q) cq { c with phase := (cq.written / cqUnits cq) % 2 = 0 }) :
    Advanced R W l i (writeCompletion time i cq c q) := by
  obtain ⟨x, hx, hw, hr, -, -⟩ := cq_writeCompletion time cq c hi
  exact ⟨x, hx, hr.trans hR, hw ▸ hW, hl.trans (writeCompletion_sent time i cq c q)⟩

theorem advanced_onRing {i R W : Nat} {l : List PortWrite} {q : Port} (f : Ring → Ring)
    (hf : ∀ r x, r.cq = some x → ∃ y, (f r).cq = some y ∧ y.released = x.released ∧ y.written = x.written)
    (h : Advanced R W l i q) : Advanced R W l i (onRing i f q) := by
  obtain ⟨x, hx, hr, hw, hl⟩ := h
  obtain ⟨y, hy, hyr, hyw⟩ := hf _ x hx
  exact ⟨y, by rw [ringAt_onRing_self q f (ringAt_lt hx), hy], hyr.trans hr, hyw ▸ hw, hl⟩

/-- A further completion only moves the ring on. -/
theorem advanced_writeMore (time : Word) {i R W : Nat} {l : List PortWrite} {x cq : CompletionRing} (c : Completion) {q : Port}
    (hx : (ringAt q i).cq = some x) (hr : cq.released = R) (hw : W ≤ cq.written) (hl : l <+: q.sent) :
    Advanced R W l i (writeCompletion time i cq c q) :=
  advanced_writeCompletion time c (ringAt_lt hx) hr (hw.trans (Nat.le_add_right _ _)) (hl.trans (List.prefix_append _ _))

theorem advanced_writeHeld (time : Word) {i R W : Nat} {l : List PortWrite} (cs : List Completion) {q : Port}
    (h : Advanced R W l i q) : Advanced R W l i (writeHeld time i cs q) := by
  induction cs generalizing q with
  | nil => exact advanced_onRing _ (fun r x hrx => ⟨{ x with held := [] }, by simp [hrx], rfl, rfl⟩) h
  | cons c cs ih =>
    obtain ⟨x, hx, hr, hw, hl⟩ := id h
    simp only [writeHeld, hx]
    split
    · exact ih (advanced_writeMore time c hx hr hw hl)
    · exact advanced_onRing _ (fun r x hrx => ⟨{ x with held := c :: cs }, by simp [hrx], rfl, rfl⟩) h

theorem advanced_writeEvents (time : Word) {i R W : Nat} {l : List PortWrite} (es : List Event) {q : Port}
    (h : Advanced R W l i q) : Advanced R W l i (writeEvents time i es q) := by
  induction es generalizing q with
  | nil => exact h
  | cons e es ih =>
    obtain ⟨x, hx, hr, hw, hl⟩ := id h
    have hx' : (ringAt (onRing i (fun r => { r with events := es, lost := 0 }) q) i).cq = some x := by
      rw [ringAt_onRing_self q _ (ringAt_lt hx), hx]
    simp only [writeEvents, hx]
    split
    · exact ih (advanced_writeMore time _ hx' hr hw hl)
    · exact h

/-- R97: the head of a ring that has room is written first. -/
theorem pumpRing_writes {time : Word} {i n : Nat} {q : Port} {c : CompletionRing} {d : Completion} (hcq : (ringAt q i).cq = some c)
    (hd : (∃ rest, c.held = d :: rest ∧ n = completionUnits d) ∨
      c.held = [] ∧ (∃ e es, (ringAt q i).events = e :: es ∧ d = eventCompletion e (ringAt q i).lost.toNat) ∧ n = 2)
    (hmay : mayWrite q = true) (hroom : c.written + n ≤ c.released + cqUnits c) :
    Advanced c.released (c.written + n) (q.sent ++ completionWrites (maxWrite q) c
      { d with phase := decide ((c.written / cqUnits c) % 2 = 0) }) i (pumpRing time i q) := by
  have hfits : cqFits c n = true := decide_eq_true hroom
  have hi := ringAt_lt hcq
  rw [pumpRing, hcq]
  simp only [Option.map_some, Option.getD_some]
  rcases hd with ⟨rest, hheld, rfl⟩ | ⟨hheld, ⟨e, es, hev, rfl⟩, rfl⟩
  · refine advanced_writeEvents time _ ?_
    simp only [hheld, writeHeld, hcq, hmay, hfits, Bool.and_self, if_true]
    exact advanced_writeHeld time rest (advanced_writeCompletion time (cq := { c with held := rest }) d hi rfl le_rfl List.prefix_rfl)
  · have hsame : writeHeld time i c.held q = q := by
      rw [hheld, writeHeld]
      exact heldBack_id hcq hheld
    rw [hsame, hev, writeEvents, hcq]
    simp only [hheld, hmay, hfits, and_self, if_true]
    refine advanced_writeEvents time es (advanced_writeCompletion time _ (by simpa using hi) rfl ?_ List.prefix_rfl)
    rw [completionUnits_event]

/-! ## Ports -/

theorem portOf_onPorts {s : State} {k : Nat} (f : Port → Port) (h : k < s.ports.length) : portOf (onPorts f s) k = f (portOf s k) := by
  simp [portOf, onPorts, List.getD_eq_getElem?_getD, h]

/-- Settles O26. -/
theorem timersAct : Obligations.TimersAct := by
  unfold Obligations.TimersAct
  refine ⟨?heartbeat, ?watchdog, ?coal, ?roomy, ?head, ?bucket⟩
  case heartbeat =>
    intro s hfw
    exact congrArg Host.Outcome.next (if_neg (by simp [hfw]))
  case watchdog =>
    intro s hphase hup hst
    obtain ⟨due, hdue⟩ : ∃ n, s.boot.heartbeatTime.toNat + 10000000 = n := ⟨_, rfl⟩
    have hexec : exec .heartbeatWatchdog s = .next (raiseUp evFwStall
        (atLeast due { s with boot := { s.boot with fwAlive := false, fwStalled := true } })) := by
      show execHeartbeatWatchdog s = _
      rw [execHeartbeatWatchdog, if_neg (by simp [hphase, hup, hst]), hdue]
    refine ⟨_, hexec, rfl, rfl, fun k hk hlen => ?_⟩
    have hport : portOf (raiseUp evFwStall (atLeast due { s with boot := { s.boot with fwAlive := false, fwStalled := true } })) k =
        raiseEvent evFwStall (portOf s k) :=
      (portOf_onPorts (s := atLeast due { s with boot := { s.boot with fwAlive := false, fwStalled := true } }) _ hlen).trans
        (if_pos hk)
    rw [hport]
    exact raiseEvent_hostEvent _ _ (by decide)
  case coal =>
    intro s r c at_ hcq hfirst hlen hrings
    have hp : r.port.val < s.ports.length := by rw [hlen]; exact r.port.isLt
    obtain ⟨due, hdue⟩ : ∃ n, at_.toNat + c.coalUs * 1000 = n := ⟨_, rfl⟩
    obtain ⟨f, hf⟩ : ∃ f : Ring → Ring, f = fun x => { x with
        cq := x.cq.map (fun c => { c with pendingIrq := 0, firstPending := none }) } := ⟨_, rfl⟩
    have hexec : exec (.coalTimer r) s = .next (onPort r.port (fun q => fireVector r.idx (onRing r.idx f q)) (atLeast due s)) := by
      show execCoalTimer r s = _
      rw [execCoalTimer, hcq, hf]
      simp only [Option.bind_some, hfirst, Option.map_some, hdue]
    have hport : portOf (onPort r.port (fun q => fireVector r.idx (onRing r.idx f q)) (atLeast due s)) r.port =
        fireVector r.idx (onRing r.idx f (portOf s r.port)) := portOf_onPort_self (atLeast due s) _ hp
    refine ⟨_, hexec, rfl, ?_, fun hfree => ?_⟩
    · rw [ringOf, hport, ringAt, fireVector_rings, ← ringAt, ringAt_onRing_self _ _ (by rw [hrings]; exact r.idx.isLt), hf]
      exact congrArg (Option.map (fun c => { c with pendingIrq := 0, firstPending := none })) hcq
    · rw [hport]
      exact congrArg Port.sent (if_neg (by rw [show vectorBlocked (onRing r.idx f (portOf s r.port)) r.idx = false from hfree]; decide))
  case roomy =>
    intro s r head hroom
    exact congrArg Host.Outcome.next (if_pos (by simp [hroom]))
  case head =>
    intro s r head c x n new_ hx hcq hn hfull hnew htr hcl hlen hrings
    have hp : r.port.val < s.ports.length := by rw [hlen]; exact r.port.isLt
    have hi : r.idx.val < (portOf s r.port).rings.length := by rw [hrings]; exact r.idx.isLt
    subst hx
    obtain ⟨q, hq⟩ : ∃ q, q = onRing r.idx (fun y => { y with cq := some { c with released := new_ } }) (portOf s r.port) := ⟨_, rfl⟩
    have hring : ringAt q r.idx = { ringOf s r.port r.idx with cq := some { c with released := new_ } } := by
      rw [hq, ringAt_onRing_self _ _ hi]
      rfl
    have htake : onRing r.idx (fun x => { x with cq := x.cq.map (takeHead head) }) (portOf s r.port) = q := by
      have hcq' : (ringAt (portOf s r.port) r.idx).cq.map (takeHead head) = some { c with released := new_ } := by
        rw [show (ringAt (portOf s r.port) r.idx).cq = some c from hcq, hnew]
        rfl
      rw [hq]
      exact onRing_congr (congrArg (fun x => { ringAt (portOf s r.port) r.idx with cq := x }) hcq')
    have hexec : exec (.cqHeadPoll r head) s = .next (onPort r.port (fun _ => pumpRing s.time r.idx q) s) := by
      show execCqHeadPoll r head s = _
      rw [execCqHeadPoll, lacksRoom_of_needs hcq hn hfull, if_neg (by decide),
        resumeCloses_none (s := onPort r.port _ s) hcl, settleTransition_none (s := onPort r.port _ s) htr]
      exact congrArg Host.Outcome.next (onPort_congr (congrArg (pumpRing s.time r.idx) htake))
    refine ⟨fun hno => ?_, fun hmay hroom => ?_⟩
    · have hneeds : HeadNeeds (ringAt q r.idx) { c with released := new_ } n := by rw [hring]; exact hn
      rw [hexec, pumpRing_blocked (c := { c with released := new_ }) (by rw [hring]) hneeds (by rw [hq]; exact hno)]
      exact congrArg Host.Outcome.next (onPort_congr hq)
    · have hsame : q.sent = (portOf s r.port).sent ∧ maxWrite q = maxWrite (portOf s r.port) := by rw [hq]; exact ⟨rfl, rfl⟩
      have hport : portOf (onPort r.port (fun _ => pumpRing s.time r.idx q) s) r.port = pumpRing s.time r.idx q :=
        portOf_onPort_self s _ hp
      have hwrites (d : Completion) (hd : IsHead (ringOf s r.port r.idx) c d) : Advanced new_ (c.written + n)
          ((portOf s r.port).sent ++ completionWrites (maxWrite (portOf s r.port)) c
            { d with phase := decide ((c.written / cqUnits c) % 2 = 0) }) r.idx (pumpRing s.time r.idx q) := by
        have h := pumpRing_writes (time := s.time) (i := r.idx) (n := n) (q := q) (c := { c with released := new_ }) (d := d)
          (by rw [hring]) (by rw [hring]; exact head_of_needs hn hd) (by rw [hq]; exact hmay) hroom
        rw [hsame.1, hsame.2] at h
        exact h
      obtain ⟨d, hd⟩ := head_exists hn
      obtain ⟨x, hx, hr, hw, -⟩ := hwrites d hd
      refine ⟨_, x, hexec, rfl, by rw [ringOf, hport]; exact hx, hr, hw, fun d' hd' => ?_⟩
      obtain ⟨_, _, _, _, hsent⟩ := hwrites d' hd'
      rw [hport]
      exact hsent
  case bucket =>
    intro s hfw
    obtain ⟨due, hdue⟩ : ∃ n, s.boot.bucketTime.toNat + 900000000000 = n := ⟨_, rfl⟩
    have hexec : exec .attestBucketRefill s = .next { atLeast due s with boot := { s.boot with
        bucket := min 4 (s.boot.bucket + 1), bucketTime := (atLeast due s).time } } := by
      show execAttestBucketRefill s = _
      rw [execAttestBucketRefill, if_neg (by simp [hfw]), hdue]
      rfl
    rw [hdue]
    exact ⟨_, hexec, rfl, rfl, fun hlt => due_le_time_atLeast hlt s⟩

end Sys2Proof.Machine
end

section
/-!
PROOFS. The test access port and debug accesses (O27, O28).
-/

namespace Sys2Proof.Machine

theorem tapInstr_up {s : State} (h : railsUp s = true) (code : BitVec 8) (act : State → State) :
    tapInstr code act s = act { s with dbg := { s.dbg with ir := code } } := if_pos h

theorem linkDown_down (q : Port) : (linkDown q).linkUp = false ∧ (linkDown q).training = false ∧ (linkDown q).ringsOpen = false :=
  ⟨rfl, rfl, rfl⟩

/-- Pins that are taken drop every link. -/
theorem takePins_down (how : Nat) (s : State) :
    (∀ q ∈ (takePins how s).ports, q.linkUp = false ∧ q.training = false ∧ q.ringsOpen = false) ∧
      (∀ q ∈ (takePins how s).fabric.ports, q.enabled = true → q.state = .down) := by
  refine ⟨fun q hq => ?_, fun q hq hen => ?_⟩
  · obtain ⟨x, -, rfl⟩ := List.mem_map.mp hq
    exact linkDown_down x
  · obtain ⟨x, -, rfl⟩ := List.mem_map.mp hq
    by_cases hx : x.enabled = true
    · rw [if_pos hx]
    · rw [if_neg hx] at hen
      exact absurd hen hx

/-- R509: taking the pins. -/
theorem takePins_frame (how : Nat) (s : State) : takePins how s = { s with
    ports := s.ports.map linkDown, dbg := { s.dbg with pinsTaken := how }
    fabric := { s.fabric with
      ports := s.fabric.ports.map (fun q => if q.enabled then { q with state := .down, reason := 1 } else q) } } := rfl

theorem givePins_frame (s : State) : givePins s = { s with
    ports := (givePins s).ports, dbg := { s.dbg with pinsTaken := 0 }, fabric := { s.fabric with ports := (givePins s).fabric.ports } } := by
  unfold givePins
  split
  · rename_i h
    rw [← h]
  · rfl

/-- Settles O27. -/
theorem testAccessPortActs : Obligations.TestAccessPortActs := by
  unfold Obligations.TestAccessPortActs
  refine ⟨?idcode, ?sample, ?pins, ?reset, ?bypass, ?control, ?token, ?dtmcs⟩
  case idcode =>
    intro s hup
    have hvalue : idcodeValue = 2 ^ 28 + 0x0A24 * 2 ^ 12 + Config.jedecId.toNat * 2 + 1 := by
      rw [idcodeValue, Nat.shiftLeft_eq, Nat.shiftLeft_eq, Nat.shiftLeft_eq, one_mul, pow_one]
    rw [← hvalue]
    exact congrArg Host.Outcome.next (tapInstr_up hup _ _)
  case sample =>
    intro s pins v hup
    exact congrArg Host.Outcome.next (tapInstr_up hup _ _)
  case pins =>
    intro s i how ir hup hi
    rcases hi with ⟨v, rfl, rfl, rfl⟩ | ⟨rfl, rfl, rfl⟩ | ⟨rfl, rfl, rfl⟩
    · refine ⟨_, congrArg Host.Outcome.next (tapInstr_up hup _ _), rfl, rfl, ?_, (takePins_down _ _).1, (takePins_down _ _).2, rfl⟩
      rintro _ ⟨⟩
      rfl
    · exact ⟨_, congrArg Host.Outcome.next (tapInstr_up hup _ _), rfl, rfl, by rintro _ ⟨⟩, (takePins_down _ _).1, (takePins_down _ _).2, rfl⟩
    · exact ⟨_, congrArg Host.Outcome.next (tapInstr_up hup _ _), rfl, rfl, by rintro _ ⟨⟩, (takePins_down _ _).1, (takePins_down _ _).2, rfl⟩
  case reset =>
    intro s
    have hframe := givePins_frame (onDebug (fun d => { d with ir := 0x01 }) s)
    have hdbg := congrArg State.dbg hframe
    refine ⟨_, rfl, hdbg, ?_, fun h => ?_⟩
    · rw [hdbg]
      exact hframe
    · have hsame : givePins (onDebug (fun d => { d with ir := 0x01 }) s) = onDebug (fun d => { d with ir := 0x01 }) s := if_pos h
      rw [hsame]
      exact ⟨rfl, rfl⟩
  case bypass =>
    intro s code hup hcode
    refine congrArg Host.Outcome.next ((if_neg ?_).trans (tapInstr_up hup _ _))
    simpa [tapCodes] using hcode
  case control =>
    intro s hup
    refine congrArg Host.Outcome.next ((tapInstr_up hup _ _).trans ?_)
    rw [shiftOut, Nat.shiftLeft_eq, Nat.shiftLeft_eq, Nat.shiftLeft_eq]
  case token =>
    intro s token hup
    refine congrArg Host.Outcome.next ((tapInstr_up hup _ _).trans ?_)
    have hcheck : tokenCheck { s with dbg := { s.dbg with ir := 0x12 } } token = tokenCheck s token := rfl
    rw [hcheck]
    cases tokenCheck s token <;> rfl
  case dtmcs =>
    intro s value hup
    refine ⟨_, 0x71 + (bits s.dbg.dtmcs 11 10) <<< 10, congrArg Host.Outcome.next (tapInstr_up hup _ _), ?_⟩
    split <;> exact ⟨rfl, rfl, rfl⟩

/-! ## What the level allows (R510 to R514) -/

theorem coreWrite_full {s : State} (hup : railsUp s = true) (hfull : s.dbg.level = .full) (act : State → State) :
    coreWrite act s = act s := by
  rw [coreWrite, if_neg (by simp [hup]), if_pos (by simp [mayWriteDebug, hfull])]

theorem coreWrite_denied {s : State} (hup : railsUp s = true) (hlow : s.dbg.level ≠ .full) (act : State → State) :
    coreWrite act s = deny s := by
  rw [coreWrite, if_neg (by simp [hup]), if_neg (by simp [mayWriteDebug, hlow])]

theorem bit_setBit_keeps {w : Nat} {x : BitVec w} {j : Nat} (i : Nat) (h : bit x j = true) : bit (setBit x i) j = true := by
  rw [bit] at h
  rw [bit, setBit, BitVec.getLsbD_or, h, Bool.true_or]

theorem slotBit_putSlot_keeps {m : Sparse (BitVec 33)} {x : Nat × Nat} (e : Nat × Nat) (h : slotBit m x = true) :
    slotBit (putSlot true e m) x = true := by
  rw [slotBit, putSlot]
  by_cases he : x.1 = e.1
  · rw [he, sget_sset_self, Option.getD_some]
    rw [slotBit, he] at h
    exact bit_setBit_keeps _ h
  · rw [sget_sset_other _ _ he]
    exact h

theorem slotBit_putSlot_self {m : Sparse (BitVec 33)} {x : Nat × Nat} (hx : x.2 < 33) : slotBit (putSlot true x m) x = true := by
  rw [slotBit, putSlot, sget_sset_self, Option.getD_some]
  exact bit_setBit_self _ _ hx

/-- R511: a mask of slots after each slot of a list has been set. -/
theorem slotBit_foldl_put {l : List (Nat × Nat)} {m : Sparse (BitVec 33)} {x : Nat × Nat} (hx : x.2 < 33)
    (h : x ∈ l ∨ slotBit m x = true) : slotBit (l.foldl (fun m e => putSlot true e m) m) x = true := by
  induction l generalizing m with
  | nil => exact h.resolve_left (by simp)
  | cons e l ih =>
    refine ih ?_
    rcases h with h | h
    · rcases List.mem_cons.mp h with rfl | h
      · exact .inr (slotBit_putSlot_self hx)
      · exact .inl h
    · exact .inr (slotBit_putSlot_keeps e h)

theorem mem_slotsOf {c : Nat} {m : BitVec 33} {k : Nat} (hk : k < 33) (h : bit m k = true) : (c, k) ∈ slotsOf c m := by
  simp [slotsOf, hk, h]

/-! ## Bus accesses (R444, R512) -/

/-- The parity that is stored row by row. -/
theorem sget_foldl_sset {α : Type} (b : Nat) (v : Nat → α) (l : List Nat) (m : Sparse α) (r : Nat) :
    sget (l.foldl (fun m r => sset m (b + r) (v r)) m) (b + r) = if r ∈ l then some (v r) else sget m (b + r) := by
  induction l generalizing m with
  | nil => rfl
  | cons a l ih =>
    rw [List.foldl_cons, ih]
    by_cases hl : r ∈ l
    · simp [hl]
    · by_cases ha : r = a
      · subst ha
        simp [hl, sget_sset_self]
      · simp [hl, ha, sget_sset_other _ _ (show b + r ≠ b + a by omega)]

theorem windowAt_below {a base : Nat} (size count : Nat) (h : a < base) : windowAt a base size count = none :=
  if_neg (by omega)

/-- The Pools' addresses (R38). -/
theorem windowAt_inside {base size count i off : Nat} (hi : i < count) (hoff : off < size) :
    windowAt (base + i * size + off) base size count = some (i, off) := by
  have hlt : i * size + off < size * count := by
    calc i * size + off < (i + 1) * size := by rw [Nat.add_mul, one_mul]; omega
      _ ≤ count * size := Nat.mul_le_mul_right _ hi
      _ = size * count := Nat.mul_comm ..
  have hsub : base + i * size + off - base = off + size * i := by rw [Nat.mul_comm size]; omega
  rw [windowAt, if_pos (by omega), hsub, Nat.add_mul_div_left _ _ (by omega), Nat.div_eq_of_lt hoff, Nat.add_mul_mod_self_left,
    Nat.mod_eq_of_lt hoff, Nat.zero_add]

theorem storedParity_poolWrite (core off : Nat) (bs : List Byte) (s : State) (r : Nat) : storedParity (poolWrite core off bs s) core r =
    if r ∈ poolRows off bs.length then poolRowParity (poolWrite core off bs s).pools core r else storedParity s core r := by
  have h := sget_foldl_sset (core * 0x10000) (poolRowParity (poolWrite core off bs s).pools core) (poolRows off bs.length)
    s.poolParity r
  have hsget : sget (poolWrite core off bs s).poolParity (core * 0x10000 + r) =
      if r ∈ poolRows off bs.length then some (poolRowParity (poolWrite core off bs s).pools core r)
      else sget s.poolParity (core * 0x10000 + r) := h
  rw [storedParity, hsget]
  split <;> rfl

/-- R512: a bus write without a session that the bus takes. -/
theorem zsbaAccess_write {s x : State} {addr : Word} {data : List Byte} (len : Nat) (hfull : s.dbg.level = .full)
    (h : busWrite addr.toNat data s = some x) :
    zsbaAccess true none addr len data s = { x with dbg := { x.dbg with zsbaError := false } } := by
  simp only [zsbaAccess, mayWriteDebug, hfull, h]
  rfl

/-- R514: a bus write below FULL. -/
theorem zsbaAccess_denied {s : State} (session : Option Nat) (addr : Word) (len : Nat) (data : List Byte) (hlow : s.dbg.level ≠ .full) :
    zsbaAccess true session addr len data s = deny s := by
  simp [zsbaAccess, mayWriteDebug, hlow]

theorem moduleWrite_below {a : Nat} (bs : List Byte) (s : State) (h : a < nearEnd) : moduleWrite a bs s = { s with
    err := { s.err with poison := clearPoison a bs.length s.err.poison }, near := memWrite s.near a bs } := if_pos h

/-- R508, R512: a bus read of the near tier without a session. -/
theorem zsbaAccess_readNear {s : State} {addr : Word} {len : Nat} (data : List Byte) (hlow : s.dbg.level ≠ .locked)
    (hlt : addr.toNat < nearEnd) (hok : nearOk s addr.toNat len = true) : zsbaAccess false none addr len data s =
      shiftOut (leNat (memRead s.near addr.toNat len))
        (takeFresh (len / 8 + 1) { s with dbg := { s.dbg with zsbaError := false } }) := by
  have hlt' : addr.toNat < 0x001800000000 := hlt
  have hallowed : (mayObserve s && (false || observable addr.toNat len || mayWriteDebug s)) = true := by
    rw [observable, if_neg (by omega), mayObserve]
    simp [hlow]
  have hread : busRead s addr.toNat len = some (memRead s.near addr.toNat len) := by
    rw [busRead, if_pos hlt, if_pos hok]
  have hcheck : checkBus addr.toNat len { s with dbg := { s.dbg with zsbaError := false } } =
      { s with dbg := { s.dbg with zsbaError := false } } := by
    rw [checkBus, windowAt_below _ _ (by omega)]
  simp only [zsbaAccess, hread, Option.isSome_none, hallowed, onDebug, hcheck]
  rfl

/-- R512: a bus read with a session. -/
theorem zsbaAccess_readSession {s : State} {sid : Nat} {addr : Word} {len : Nat} {ps : List (Nat × Nat)} (data : List Byte)
    (hlow : s.dbg.level ≠ .locked) (hps : sessionPieces s sid needRead addr.toNat len = some ps)
    (hok : farPiecesOk s ps false = true) : zsbaAccess false (some sid) addr len data s =
      shiftOut (leNat (readPieces s ps)) { s with dbg := { s.dbg with zsbaError := false } } := by
  have hbus : sessionBus s sid addr.toNat len false = some ps := by
    simp [sessionBus, hps, hok]
  simp only [zsbaAccess, mayObserve, Option.isSome_some, Bool.true_or, onDebug, Bool.false_eq_true, if_false, hbus]
  simp [hlow]

/-- Settles O28. -/
theorem debugLevelsGovern : Obligations.DebugLevelsGovern := by
  unfold Obligations.DebugLevelsGovern
  refine ⟨?dmiDenied, ?dmiRead, ?dmiWrite, ?coreDenied, ?halt, ?resume, ?busDenied, ?nearWrite, ?poolWrite, ?nearRead, ?sessionRead⟩
  case dmiDenied =>
    intro s addr op data hup hlow
    refine congrArg Host.Outcome.next ((tapInstr_up hup _ _).trans ?_)
    exact if_pos (by simp [mayObserve, hlow])
  case dmiRead =>
    intro s addr data hup hlow haddr
    have haddr' : addr.toNat ≠ 0x3C := fun h => haddr (BitVec.eq_of_toNat_eq h)
    refine congrArg Host.Outcome.next ((tapInstr_up hup _ _).trans ?_)
    rw [dmiAccess, if_neg (by simp [mayObserve, hlow]), if_neg (by decide), if_pos (by decide)]
    extract_lets dbg out
    rw [if_neg (fun h => haddr' h.1)]
    have hout : out = addr.toNat * 2 ^ 34 + dmRead { s with dbg := { s.dbg with ir := 0x11 } } addr.toNat * 4 := by
      unfold out
      rw [Nat.shiftLeft_eq, Nat.shiftLeft_eq]
    rw [hout]
    rfl
  case dmiWrite =>
    intro s addr data hup hfull
    refine congrArg Host.Outcome.next ((tapInstr_up hup _ _).trans ?_)
    rw [dmiAccess, if_neg (by simp [mayObserve, hfull]), if_pos (by decide), if_pos (by simp [mayWriteDebug, hfull])]
  case coreDenied =>
    rintro s i c m hup hlow (rfl | rfl | rfl)
    · exact congrArg Host.Outcome.next (coreWrite_denied hup hlow _)
    · exact congrArg Host.Outcome.next (coreWrite_denied hup hlow _)
    · exact congrArg Host.Outcome.next (coreWrite_denied hup hlow _)
  case halt =>
    intro s c m hup hfull
    refine ⟨_, congrArg Host.Outcome.next (coreWrite_full hup hfull _), rfl, fun k hk hbit => ⟨?_, fun hidle => ?_⟩⟩
    · exact slotBit_foldl_put (x := (c.val, k)) hk (.inl (mem_slotsOf hk hbit))
    · refine slotBit_foldl_put (x := (c.val, k)) hk (.inl (List.mem_filter.mpr ⟨mem_slotsOf hk hbit, ?_⟩))
      rw [hidle]
      rfl
  case resume =>
    intro s c m step l hup hfull hl
    subst hl
    cases step <;> exact congrArg Host.Outcome.next (coreWrite_full hup hfull _)
  case busDenied =>
    intro s session addr len data hup hlow
    exact congrArg Host.Outcome.next ((tapInstr_up hup _ _).trans (zsbaAccess_denied session addr len data hlow))
  case nearWrite =>
    intro s addr len data hup hfull hend hne hok
    have hlt : addr.toNat < nearEnd := by
      have := List.length_pos_iff.mpr hne
      omega
    have hbus : busWrite addr.toNat data { s with dbg := { s.dbg with ir := 0x14 } } =
        some (moduleWrite addr.toNat data { s with dbg := { s.dbg with ir := 0x14 } }) := by
      rw [busWrite, if_pos hlt]
      exact if_pos hok
    refine ⟨_, congrArg Host.Outcome.next ((tapInstr_up hup _ _).trans (zsbaAccess_write len hfull hbus)), ?_⟩
    rw [moduleWrite_below data _ hlt]
    exact ⟨rfl, rfl, memByte_memWrite s.near addr.toNat data⟩
  case poolWrite =>
    intro s addr core off len data hup hfull hcore hoff hne haddr
    have hlen := List.length_pos_iff.mpr hne
    have hbus : busWrite addr.toNat data { s with dbg := { s.dbg with ir := 0x14 } } =
        some (poolWrite core off data { s with dbg := { s.dbg with ir := 0x14 } }) := by
      rw [busWrite, if_neg (by rw [nearEnd]; omega), if_neg (by omega), haddr, windowAt_inside hcore (by omega)]
      exact if_pos hoff
    refine ⟨_, congrArg Host.Outcome.next ((tapInstr_up hup _ _).trans (zsbaAccess_write len hfull hbus)), rfl,
      memByte_memWrite s.pools (core * 0x100000 + off) data, fun r hr => ?_, fun r hr _ => ?_⟩
    · exact (storedParity_poolWrite core off data _ r).trans (if_pos hr)
    · exact (storedParity_poolWrite core off data _ r).trans (if_neg hr)
  case nearRead =>
    intro s addr len data hup hlow hlt hok
    obtain ⟨x, hx⟩ : ∃ x : State, x = { s with dbg := { s.dbg with ir := 0x14 } } := ⟨_, rfl⟩
    have hread := zsbaAccess_readNear (s := x) (addr := addr) (len := len) data (by rw [hx]; exact hlow) hlt (by rw [hx]; exact hok)
    refine ⟨_, congrArg Host.Outcome.next ((tapInstr_up hup _ _).trans ((congrArg _ hx.symm).trans hread)), ?_⟩
    rw [hx]
    exact ⟨rfl, rfl, rfl⟩
  case sessionRead =>
    intro s sid addr len data ps hup hlow hps hok
    refine congrArg Host.Outcome.next ((tapInstr_up hup _ _).trans ?_)
    exact zsbaAccess_readSession (s := { s with dbg := { s.dbg with ir := 0x14 } }) data hlow hps hok

end Sys2Proof.Machine
end

section
/-!
PROOFS. Clock islands, power and temperature (O29, O30).
-/

namespace Sys2Proof.Machine

/-! ## Re-plans (O29) -/

/-- A module that runs, without plans, while a power transition drains. -/
def transitionState : State := { State.reset with
  boot := { BootUnit.reset with phase := .running }
  power := { PowerUnit.reset with
    state := .active
    transition := some { fromState := .active, target := .simmer, reply := none, draining := true } } }

/-- Refutes O29: its clause on ISLAND_REPLAN asks that no plan runs, but says nothing of a power transition. While one drains, a
point with a new frequency waits as `pendingPoint` (R492), and the island keeps the frequency that it has: crater 0 of
`transitionState` stays at 0 MHz where 850 MHz were measured. -/
theorem not_islandSamplesAct : ¬ Obligations.IslandSamplesAct := by
  unfold Obligations.IslandSamplesAct
  rintro ⟨hreplan, -⟩
  obtain ⟨t, hexec, hfreq, -⟩ := hreplan transitionState 0 (850, 800) (by decide) (by decide) (by decide) (by decide) (by decide)
  have ht := Host.Outcome.next.inj hexec
  rw [← ht] at hfreq
  exact absurd hfreq (by decide)

/-! ## Caps (O30) -/

/-- A module that runs, a millisecond after its start, under a crater cap of 600 MHz. -/
def lowCapState : State := { State.reset with
  time := 1000000
  boot := { BootUnit.reset with phase := .running }
  power := { PowerUnit.reset with state := .active }
  age := { AgeUnit.reset with craterCapMhz := 600 } }

/-- Refutes O30: its clause on JUNCTION_SAMPLE gives the cap as `max 700 (cap - 25)` whatever it was. R538 lowers a cap, and one that
already stands at or below 700 MHz is left: at a junction of 100.1 °C `lowCapState` keeps its 600 MHz, where the clause asks for 700. -/
theorem not_capsAndSleepAct : ¬ Obligations.CapsAndSleepAct := by
  unfold Obligations.CapsAndSleepAct
  rintro ⟨-, -, hjunction, -⟩
  obtain ⟨t, hexec, hcap, -⟩ := hjunction lowCapState [1001] false (by decide) (by decide) (by decide)
  have ht := Host.Outcome.next.inj hexec
  rw [← ht] at hcap
  exact absurd hcap (by decide)

end Sys2Proof.Machine
end

section
/-!
PROOFS. Boundaries, replays and deliveries of a step (O31).
-/

namespace Sys2Proof.Machine

/-- No faults leave a step to its boundary. -/
theorem applyFaults_noFaults (h : Word) (s : State) : (applyFaults h noFaults s).replay = false ∧
    (applyFaults h noFaults s).wait = false ∧ (applyFaults h noFaults s).poisoned = false := ⟨rfl, rfl, rfl⟩

/-- Records that all fit leave none over, and none is left out of what is taken. -/
theorem takeRecords_nonempty {cap : Nat} {b left : Option Nat} {l : List EmitRecord} {got : List (List Byte)} (hl : l ≠ [])
    (h : takeRecords cap b l = (got, left, [])) : got ≠ [] := by
  cases l with
  | nil => exact absurd rfl hl
  | cons e es =>
    rw [takeRecords] at h
    split at h
    · rintro rfl
      simp at h
    · simp at h

theorem stepDrained_iff {s : State} {p : Plan} {o : OpenStep} (h : stepDrained s p o = true) :
    (List.range p.bin.ops.length).all o.done.contains = true ∧ o.detections.isEmpty = true := by
  simp only [stepDrained, Bool.and_eq_true] at h
  exact ⟨h.1.1.1.1, h.1.1.1.2⟩

/-- R169, R172: the records of the oldest step that all fit are delivered in one completion. -/
theorem deliverOldest_all {s : State} {h : Word} {p : Plan} {r : Run} {q : EmitBatch} {qs : List EmitBatch} {got : List (List Byte)}
    {left : Option Nat} (hp : planOf s h = some p) (hr : p.run = some r) (hq : r.queue = q :: qs) (hne : q.records ≠ [])
    (htake : takeRecords (maxPayload (ringOf s r.reply.port r.reply.ring)) r.budget q.records = (got, left, [])) :
    deliverOldest (oldestLength s h) h s = postReplies r.reply true
      [{ status := .done, count0 := q.step, count1 := got.length, payload := got.flatten }]
      (onRun h (fun x => { x with budget := left, delivered := x.delivered + got.length, queue := qs }) s) := by
  obtain ⟨n, hn⟩ : ∃ n, oldestLength s h = n + 1 := by
    refine Nat.exists_eq_succ_of_ne_zero ?_
    simp [oldestLength, hp, hr, hq, hne]
  rw [hn, deliverOldest, hp]
  simp only [Option.bind_some, hr, hq, htake, if_neg (takeRecords_nonempty hne htake), if_true]

/-- R162: a step with detections, of a run that is not spread over modules. -/
theorem stepReplay_open {s : State} {h : Word} {p : Plan} {r : Run} {o : OpenStep} (hp : planOf s h = some p) (hr : p.run = some r)
    (ho : r.openStep = some o) (hrun : isRunning p = true) (hact : s.power.state = .active) (hopen : o.committed = false)
    (hdet : o.detections ≠ []) (hranks : p.bin.fabricRanks ≤ 1) : stepReplay h s =
      let x := holdStep (opCtx p r o s (barrierOp p))
      if 4 ≤ o.attempt then
        let y := match mostCharged r.detections with
          | none => endRun h .replayLimit x
          | some u => retireUnit u reasonReplayLimit (endRun h .replayLimit x)
        startSteps h (resumeCloses (if p.bin.ops.any (fun e => e.op = .matchOp && decide (2 ≤ (matchParams e).chain)) then headSync y else y))
      else if 2 ≤ o.attempt then
        dropPosted h ((twiceCharged r.detections).filter (fun k => !coreDead x k))
          (restartStep h (declareDead h (twiceCharged r.detections) x))
      else restartStep h x := by
  have hannounce : announceReplay (opCtx p r o s (barrierOp p)) o.attempt = opCtx p r o s (barrierOp p) := if_pos hranks
  unfold stepReplay
  rw [hp]
  dsimp only
  rw [hr]
  dsimp only
  rw [ho]
  dsimp only
  rw [if_neg (by simp [hrun, hact, hopen, hdet]), hannounce] <;> rfl

/-- The plan of a handle, changed. -/
theorem planOf_onPlan {s : State} {h : Word} {p : Plan} {f : Plan → Plan} (hf : ∀ q, (f q).handle = q.handle) (hp : planOf s h = some p) :
    planOf (onPlan h f s) h = some (f p) := by
  have hhandle : p.handle = h := by simpa using List.find?_some hp
  have hpred : (fun q : Plan => decide (q.handle = h)) ∘ (fun q => if q.handle = h then f q else q) =
      fun q => decide (q.handle = h) := by
    funext q
    by_cases hq : q.handle = h <;> simp [hq, hf]
  rw [planOf, onPlan, List.find?_map, hpred]
  rw [planOf] at hp
  rw [hp, Option.map_some, if_pos hhandle]

theorem planOf_onRun {s : State} {h : Word} {p : Plan} (f : Run → Run) (hp : planOf s h = some p) :
    planOf (onRun h f s) h = some { p with run := p.run.map f } := planOf_onPlan (fun _ => rfl) hp

/-- Settles O31. -/
theorem stepsGoOn : Obligations.StepsGoOn := by
  unfold Obligations.StepsGoOn
  refine ⟨?boundary, ?replay, ?limit, ?emit, ?far⟩
  case boundary =>
    intro s h p r o p1 r1 o1 s1 hp hr ho hrun hact hopen hdrain hwait hs1 hp1 hr1 ho1
    obtain ⟨hall, hdet⟩ := stepDrained_iff hdrain
    have hstep : stepBoundary h noFaults s = tryFlip h (mergeAndCommit (opCtx p1 r1 o1 s1 (barrierOp p1))) := by
      unfold stepBoundary
      rw [hp]
      dsimp only
      rw [hr]
      dsimp only
      rw [ho]
      dsimp only
      rw [if_neg (by simp [hrun, hact]), if_neg (by simp [hopen]), if_neg (by rw [hall, hdet]; simp),
        if_neg (by simp [hdrain, hwait])]
      obtain ⟨hreplay, hhold, hpoison⟩ := applyFaults_noFaults h (onStep h (faultsTaken (barrierOp p)) s)
      rw [if_neg (by simp [hreplay, hhold]), if_neg (by simp [hpoison]), ← hs1, hp1]
      simp only [Option.bind_some, hr1, ho1]
    exact congrArg (fun x => Host.Outcome.next (settleRuns x)) hstep
  case replay =>
    intro s h p r o hp hr ho hrun hact hopen hdet hranks hatt
    refine congrArg (fun x => Host.Outcome.next (settleRuns x)) ((stepReplay_open hp hr ho hrun hact hopen hdet hranks).trans ?_)
    rw [if_neg (by omega)]
  case limit =>
    intro s h p r o hp hr ho hrun hact hopen hdet hranks hatt hch
    refine congrArg (fun x => Host.Outcome.next (settleRuns x)) ((stepReplay_open hp hr ho hrun hact hopen hdet hranks).trans ?_)
    have hch' : p.bin.ops.any (fun e => e.op = .matchOp && decide (2 ≤ (matchParams e).chain)) = false := hch
    rw [if_pos hatt]
    extract_lets y
    rw [hch', if_neg (by decide)]
    unfold y
    cases mostCharged r.detections <;> rfl
  case emit =>
    intro s h p r o q qs got left hp hr hrun ho hq hne htake
    have hdeliver := deliverOldest_all hp hr hq hne htake
    obtain ⟨x, hx⟩ : ∃ x, x = deliverOldest (oldestLength s h) h s := ⟨_, rfl⟩
    have hafter : planOf x h = planOf (onRun h (fun x => { x with
        budget := left, delivered := x.delivered + got.length, queue := qs }) s) h := by
      rw [hx, hdeliver, postReplies_ports]
      rfl
    have hemit : emitDelivery h s = x := by
      unfold emitDelivery
      rw [hp]
      dsimp only
      rw [if_neg (by simp [hrun]), ← hx, hafter, planOf_onRun _ hp]
      simp only [Option.bind_some, hr, Option.map_some, ho, Option.isSome_some, if_true]
    exact congrArg (fun y => Host.Outcome.next (settleTransition y)) (hemit.trans (hx.trans hdeliver))
  case far =>
    intro s h op c hc hrun hdone hopen hact
    have hif : isRunning c.p ∧ !c.o.done.contains op ∧ !c.o.committed ∧ s.power.state = .active := by
      refine ⟨hrun, ?_, ?_, hact⟩
      · rw [hdone]
        rfl
      · rw [hopen]
        rfl
    refine ⟨?_, rfl, ?_⟩
    · show Host.Outcome.next (farFailed h op s) = _
      rw [farFailed, hc]
      exact congrArg Host.Outcome.next (if_pos hif)
    · show execFarTierTimeout h op s = _
      rw [execFarTierTimeout, hc]
      exact congrArg Host.Outcome.next (if_pos hif)

end Sys2Proof.Machine
end

section
/-!
PROOFS. Migrations and the Basin scrub (O32).
-/

namespace Sys2Proof.Machine

theorem handle_of_tableOf {s : State} {h : Word} {t : EmbTable} (ht : tableOf s h = some t) : t.handle = h := by
  simpa using List.find?_some ht

/-- R330: a copy of all the rows that are left ends the migration's copy. -/
theorem copyRows_rest {t : EmbTable} {m : Migration} {n : Nat} (s : State) (hn : n = rowsOfBlock t m.block) (hle : m.pointer ≤ n) :
    copyRows t m (n - m.pointer) s = onTable t.handle (fun x => { x with
        migrations := x.migrations.map (fun y => if y = m then { y with copied := true, pointer := n } else y) })
      (copySession t.session (migrationSource s t m m.pointer) (migrationTarget t m m.pointer) ((n - m.pointer) * rowBytesOf t) s) := by
  have hend : m.pointer + (n - m.pointer) = n := by omega
  rw [copyRows, hend, decide_eq_true (le_of_eq hn.symm)]

/-- R446: without plans, a row that fails the scrub is charged to its segment. -/
theorem scrubRow_noPlans {s : State} (row : Nat) (h : s.plans = []) : scrubRow s row = chargeRate (unitId 4 (row / 65536)) none s := by
  have hmatch : matchPlans s (row / 65536) = [] := by rw [matchPlans, livePlans, h]; rfl
  simp only [scrubRow, hmatch]
  rfl

theorem foldl_scrubRow_noPlans (rows : List Nat) {s : State} (h : s.plans = []) :
    rows.foldl scrubRow s = rows.foldl (fun x r => chargeRate (unitId 4 (r / 65536)) none x) s := by
  induction rows generalizing s with
  | nil => rfl
  | cons r rows ih =>
    rw [List.foldl_cons, List.foldl_cons, scrubRow_noPlans r h]
    exact ih h

/-- Settles O32. -/
theorem tablesMigrate : Obligations.TablesMigrate := by
  unfold Obligations.TablesMigrate
  refine ⟨?decision, ?copy, ?scrub⟩
  case decision =>
    intro s h t pol k p ht hpol hk hp hpos hstep hdec hact
    show execMigrationDecision h s = _
    unfold execMigrationDecision
    rw [ht]
    dsimp only
    rw [hpol, hk]
    dsimp only
    rw [hp]
    dsimp only
    rw [if_neg (by simp [hstep, hdec, hact]; omega)]
  case copy =>
    intro s h t b m p n ht hm hp hact hn hle
    have hblock : m.block = b := by
      have := List.find?_some hm
      simp only [Bool.and_eq_true, decide_eq_true_eq] at this
      exact this.1
    show execMigrationCopy h b s = _
    unfold execMigrationCopy
    rw [ht]
    dsimp only
    rw [hm]
    dsimp only
    rw [if_neg (by simp [hp, hact]), hblock, ← hn, copyRows_rest s (by rw [hblock]; exact hn) hle, handle_of_tableOf ht]
  case scrub =>
    intro s rows hact hrun hplans hrows
    have hall : rows.filter (fun r => decide (r < 2097152)) = rows := List.filter_eq_self.mpr (by simpa using hrows)
    refine congrArg Host.Outcome.next ((if_neg (by simp [hact, hrun])).trans ?_)
    rw [hall, foldl_scrubRow_noPlans rows hplans]

end Sys2Proof.Machine
end

section
/-!
PROOFS. Training of fabric links (O33).
-/

namespace Sys2Proof.Machine

/-- A fabric port that trains again after it was up with a neighbour in recovery. -/
def retrainingPort : FabricPort := { FabricPort.reset with enabled := true, cable := true, state := .training, recovery := true }

def retrainingState : State := { State.reset with
  fabric := { FabricUnit.reset with ports := FabricUnit.reset.ports.set 0 retrainingPort } }

/-- Whether port 0 of the fabric is one of recovery, after a step. -/
def recoveryAfter (o : Host.Outcome State Fault Refusal) : Bool :=
  match o with
  | .next t => (t.fabric.ports.getD 0 FabricPort.reset).recovery
  | _ => false

/-- Refutes O33: its clause on training gives the port's `recovery` anew where the link comes up, and leaves it as it was where the
link goes down. The model clears it in every end of training: the port of `retrainingState` exchanges a wrong fabric id, goes DOWN
with reason 2, and has `recovery` false where the clause asks for true. -/
theorem not_fabricLinksAct : ¬ Obligations.FabricLinksAct := by
  unfold Obligations.FabricLinksAct
  rintro ⟨-, htrain, -⟩
  have h := htrain retrainingState 0 retrainingPort 1 0 0 0 0 _ _ _ rfl rfl rfl rfl rfl rfl
  have hrec := congrArg recoveryAfter h
  exact absurd hrec (by decide)

end Sys2Proof.Machine
end

section
/-!
PROOFS. Plain messages and timeouts (O36, O37).
-/

namespace Sys2Proof.Machine

/-! ## Timeouts (R395, R397, R421) -/

/-- Settles O37. -/
theorem timeoutsEndRuns : Obligations.TimeoutsEndRuns := by
  unfold Obligations.TimeoutsEndRuns
  refine ⟨?request, ?collective, ?lock, ?loss, ?search, ?head⟩
  case request =>
    intro s h op c hc hrun hranks hdone
    show execReqTimeout h op s = _
    rw [execReqTimeout, hc]
    exact congrArg Host.Outcome.next (if_pos ⟨hrun, hranks, by rw [hdone]; rfl⟩)
  case collective =>
    intro s h op p o hp hrun hranks ho hdone
    show execCollTimeout h op s = _
    rw [execCollTimeout, hp]
    exact congrArg Host.Outcome.next (if_pos ⟨hrun, hranks, by rw [ho, Option.any_some, hdone]; rfl⟩)
  case lock =>
    intro s hup hlock
    exact congrArg Host.Outcome.next (if_pos ⟨hup, hlock.imp_right (fun h => by rw [h]; rfl)⟩)
  case loss =>
    intro s hup hpos hlocked
    exact congrArg Host.Outcome.next ((if_neg (by simp [hup])).trans ((if_neg hpos).trans (if_neg (by simp [hlocked]))))
  case search =>
    intro s h seq p op c hp hup hrun hc hop hkind hchain hpos hmark hfinal
    have hwaits : (ctxOf s h op).any (fun c => c.e.op = .matchOp && decide (2 ≤ (matchParams c.e).chain) && s.pins.cascPos = 0 &&
        isMarked c.o op (searchPhase c.o.attempt seq) (ownRank c) 0x17 && (finalWord c seq).isNone) = true := by
      simp [hc, hkind, hchain, hpos, hmark, hfinal]
    show execSearchTimeout h seq s = _
    rw [execSearchTimeout, hp]
    exact congrArg Host.Outcome.next (if_pos ⟨hup, hrun, List.any_eq_true.mpr ⟨op, List.mem_range.mpr hop, hwaits⟩⟩)
  case head =>
    intro s hup hpos
    exact congrArg Host.Outcome.next ((if_neg (by simp [hup])).trans (if_pos hpos))

/-! ## Plain messages (R410, R411, R413, R414) -/

theorem epochCheck_passes {s : State} {m : Message} (h : EpochsPass s m) : epochCheck m s = (s, true) := by
  obtain ⟨hmin, hdst⟩ := h
  unfold epochCheck
  extract_lets least back
  rw [if_neg (BitVec.not_lt.mpr hmin), if_neg (fun h => hdst.elim h.1 h.2)]

/-- A plain message that reaches the module under good epochs acts. -/
theorem receivePlain_passes {link kind : Nat} {m : Message} {s : State} (act : State → State) (hreach : reaches link m kind s = true)
    (hep : EpochsPass s m) : receivePlain link kind m act s = act s := by
  rw [receivePlain, if_neg (by simp [hreach]), epochCheck_passes hep]
  rfl

/-- A list without repetitions in which one element alone passes a test. -/
theorem filter_unique {α : Type} {l : List α} {p : α → Bool} {a : α} (hl : l.Nodup) (ha : a ∈ l) (hp : p a = true)
    (huniq : ∀ b ∈ l, p b = true → b = a) : l.filter p = [a] := by
  have hall : ∀ b ∈ l.filter p, b = a := fun b hb => huniq b (List.mem_filter.mp hb).1 (List.mem_filter.mp hb).2
  have hmem : a ∈ l.filter p := List.mem_filter.mpr ⟨ha, hp⟩
  have hnodup := hl.filter p
  generalize l.filter p = m at hall hmem hnodup
  match m, hall, hmem, hnodup with
  | [], _, hmem, _ => simp at hmem
  | [b], hall, _, _ => rw [hall b (by simp)]
  | b :: c :: m, hall, _, hnodup =>
    have hb := hall b (by simp)
    have hc := hall c (by simp)
    simp [hb, hc] at hnodup

/-- A flow that is written back takes the place of the one that it names. -/
theorem mem_putFlowIn {g f : FlowIn} {s : State} (hsame : sameFlow g f = true) (hf : f ∈ s.fabric.flowsIn) :
    g ∈ (putFlowIn g s).fabric.flowsIn := by
  have hany : s.fabric.flowsIn.any (sameFlow g) = true := List.any_eq_true.mpr ⟨f, hf, hsame⟩
  simp only [putFlowIn, hany, if_true]
  exact List.mem_map.mpr ⟨f, hf, if_pos hsame⟩

theorem routeMessage_frame (credits : List Nat) (m : Message) (s : State) : routeMessage credits m s = { s with
    fabric := { s.fabric with
      sent := (routeMessage credits m s).fabric.sent, waiting := (routeMessage credits m s).fabric.waiting } } := by
  unfold routeMessage
  split <;> rfl

theorem sendPlain_frame (m : Message) (s : State) : sendPlain m s = { s with
    fabric := { s.fabric with sent := (sendPlain m s).fabric.sent, waiting := (sendPlain m s).fabric.waiting } } := by
  unfold sendPlain
  split
  · exact routeMessage_frame ..
  · rfl

theorem sendAck_frame (f : FlowIn) (s : State) : sendAck f s = { s with
    fabric := { s.fabric with sent := (sendAck f s).fabric.sent, waiting := (sendAck f s).fabric.waiting } } := sendPlain_frame _ s

/-- The message that acknowledges a flow (R410). -/
def ackOf (f : FlowIn) (s : State) : Message :=
  { fabricMessage s f.src 0 classResponse kindAck f.step f.op 0 [] with
    flow := BitVec.ofNat 16 f.flow, seq := BitVec.ofNat 16 f.nextSeq }

/-- An acknowledgement leaves by the adaptive port where there is one. -/
theorem sendAck_leaves {f : FlowIn} {s : State} {k : Nat} (htalk : mayTalk s = true)
    (hk : adaptivePort s (f.src % 4096) ownCredits = some k) : sendAck f s = leaveBy k (ackOf f s) s := by
  have hdest : (ackOf f s).dest.toNat = f.src % 4096 := BitVec.toNat_ofNat ..
  have hport : (if (ackOf f s).escape then escapePort s (ackOf f s).dest.toNat else
      adaptivePort s (ackOf f s).dest.toNat ownCredits) = some k := (if_neg Bool.false_ne_true).trans (by rw [hdest, hk])
  have hroute : routeMessage ownCredits (ackOf f s) s = leaveBy k (ackOf f s) s := by rw [routeMessage, hport]
  exact (if_pos htalk).trans hroute

/-- Settles O36. -/
theorem plainMessagesAct : Obligations.PlainMessagesAct := by
  unfold Obligations.PlainMessagesAct
  refine ⟨?ack, ?timer, ?failed, ?fence⟩
  case ack =>
    intro s link m hreach hep
    refine congrArg Host.Outcome.next ((receivePlain_passes _ hreach hep).trans ?_)
    have hflows (f : FlowOut) : (if f.dest = m.src.toNat ∧ f.flow = m.flow.toNat then
          let n := (m.seq.toNat + 65536 - f.acked % 65536) % 65536
          if f.acked + n ≤ f.nextSeq then { f with acked := f.acked + n } else f
        else f) = if f.dest = m.src.toNat ∧ f.flow = m.flow.toNat ∧
          f.acked + (m.seq.toNat + 65536 - f.acked % 65536) % 65536 ≤ f.nextSeq then
        { f with acked := f.acked + (m.seq.toNat + 65536 - f.acked % 65536) % 65536 } else f := by
      split_ifs <;> simp_all
    simp only [hflows]
  case timer =>
    intro s f hnodup hf hun huniq
    have hexec : exec (.ackTimer f.src f.flow) s = .next (putFlowIn { f with unacked := 0 } (sendAck f s)) := by
      show execAckTimer f.src f.flow s = _
      rw [execAckTimer, filter_unique hnodup hf (by simp [hun]) (fun g hg hgp => ?_)]
      · rfl
      · simp only [Bool.and_eq_true, decide_eq_true_eq] at hgp
        exact huniq g hg hgp.1.1 hgp.1.2
    have hflows : (sendAck f s).fabric.flowsIn = s.fabric.flowsIn := by rw [sendAck_frame]
    refine ⟨_, hexec, mem_putFlowIn (by simp [sameFlow]) (hflows ▸ hf), ?_, fun k htalk hk => ?_⟩
    · rw [sendAck_frame]
      rfl
    · rw [sendAck_leaves htalk hk]
      exact ⟨_, rfl, rfl, rfl, rfl⟩
  case failed =>
    intro s link m p i kind st hi hreach hep hp hstep hopen
    have hfail : failRequester m st s = endRun p.handle st s := by
      rw [failRequester, hp]
      exact if_pos ⟨hstep.symm, hopen⟩
    rcases hi with ⟨rfl, rfl, rfl⟩ | ⟨rfl, rfl, rfl⟩
    · exact congrArg Host.Outcome.next ((receivePlain_passes _ hreach hep).trans hfail)
    · exact congrArg Host.Outcome.next ((receivePlain_passes _ hreach hep).trans hfail)
  case fence =>
    intro s link m hreach hep hlt hfree
    refine congrArg Host.Outcome.next ((receivePlain_passes _ hreach hep).trans ?_)
    exact if_pos ⟨hlt, by rw [hfree]; rfl⟩

end Sys2Proof.Machine
end

section
/-!
PROOFS. Messages of flows (R408, R410, R413): a message joins its receiving flow and what has its turn is delivered, one message after
the other. Each delivery leaves fewer messages that may still be delivered, so the number of rounds allowed is never reached (O35).
-/

namespace Sys2Proof.Machine

/-! ## The turn of a message -/

theorem foldArrival_frame (link : Nat) (m : Message) (s : State) : foldArrival link m s =
    { s with taps := (foldArrival link m s).taps, freeCount := (foldArrival link m s).freeCount } := by
  unfold foldArrival freeTaps
  extract_lets
  repeat' split
  all_goals rfl

theorem foldArrival_of_noPlan {link : Nat} {m : Message} {s : State} (h : fabricPlan s = none) : foldArrival link m s = s := by
  rw [foldArrival, h]

theorem foldArrival_flowsIn (link : Nat) (m : Message) (s : State) : (foldArrival link m s).fabric.flowsIn = s.fabric.flowsIn := by
  rw [foldArrival_frame]

theorem foldArrival_plans (link : Nat) (m : Message) (s : State) : (foldArrival link m s).plans = s.plans := by
  rw [foldArrival_frame]

theorem fabricPlan_congr {s t : State} (h : t.plans = s.plans) : fabricPlan t = fabricPlan s := by
  rw [fabricPlan, livePlans, h]
  rfl

theorem turnOf_congr {s t : State} (h : t.plans = s.plans) (m : Message) : turnOf t m = turnOf s m := by
  rw [turnOf, turnOf, fabricPlan_congr h]

theorem headOf_congr {s t : State} (h : t.plans = s.plans) (f : FlowIn) : headOf t f = headOf s f := by
  rw [headOf, headOf]
  simp only [turnOf_congr h]

/-- With no run on the fabric every message waits. -/
theorem headOf_of_noPlan {s : State} (h : fabricPlan s = none) (f : FlowIn) : headOf s f = none := by
  rw [headOf]
  split
  · rfl
  · exact if_pos (by rw [turnOf, h])

theorem turnOf_openStep {s : State} {m : Message} {p : Plan} (hplan : fabricPlan s = some p)
    (hopen : (p.run.bind (·.openStep)).isSome = true) (hstep : m.step = BitVec.ofNat 32 p.nextStep) : turnOf s m = .now := by
  rw [turnOf, hplan, hstep]
  simp [hopen]

/-- What is delivered next from a flow waits in it. -/
theorem mem_of_headOf {s : State} {f g : FlowIn} {m : Message} {t : Turn} (h : headOf s f = some (g, m, t)) : g = f ∧ m ∈ f.early := by
  rw [headOf] at h
  split at h
  · cases h
  · next n hn =>
    split at h
    · cases h
    · obtain ⟨rfl, rfl, -⟩ := Option.some.inj h
      exact ⟨rfl, List.mem_of_find?_eq_some hn⟩

/-! ## A flow written back -/

theorem any_sameFlow {g : FlowIn} {l : List FlowIn} : l.any (sameFlow g) = true ↔ ∃ f ∈ l, flowKey f = flowKey g := by
  simp only [List.any_eq_true, sameFlow_iff]

/-- A flow put in the place of one that the list holds. -/
theorem putFlowIn_flowsIn {g f : FlowIn} {s : State} (hf : f ∈ s.fabric.flowsIn) (hkey : flowKey f = flowKey g) :
    (putFlowIn g s).fabric.flowsIn = replaceFlow g s.fabric.flowsIn :=
  if_pos (any_sameFlow.mpr ⟨f, hf, hkey⟩)

theorem putFlowIn_flowsIn_new {g : FlowIn} {s : State} (h : ∀ f ∈ s.fabric.flowsIn, flowKey f ≠ flowKey g) :
    (putFlowIn g s).fabric.flowsIn = s.fabric.flowsIn ++ [g] :=
  if_neg (fun hany => (any_sameFlow.mp hany).elim (fun f hf => h f hf.1 hf.2))

/-- What the flows are after one is written: it, and those of other keys. -/
theorem mem_putFlowIn_cases {g x : FlowIn} {s : State} (h : x ∈ (putFlowIn g s).fabric.flowsIn) :
    x = g ∨ x ∈ s.fabric.flowsIn ∧ flowKey x ≠ flowKey g := by
  by_cases hany : ∃ f ∈ s.fabric.flowsIn, flowKey f = flowKey g
  · obtain ⟨f, hf, hkey⟩ := hany
    rw [putFlowIn_flowsIn hf hkey] at h
    obtain ⟨y, hy, rfl⟩ := List.mem_map.mp h
    split
    · exact .inl rfl
    · next hsame => exact .inr ⟨hy, fun hykey => hsame (sameFlow_iff.mpr hykey)⟩
  · have hother : ∀ f ∈ s.fabric.flowsIn, flowKey f ≠ flowKey g := fun f hf hkey => hany ⟨f, hf, hkey⟩
    rw [putFlowIn_flowsIn_new hother] at h
    exact (List.mem_append.mp h).elim (fun hx => .inr ⟨hx, hother x hx⟩) (fun hx => .inl (List.mem_singleton.mp hx))

theorem mem_putFlowIn_self (g : FlowIn) (s : State) : g ∈ (putFlowIn g s).fabric.flowsIn := by
  by_cases hany : ∃ f ∈ s.fabric.flowsIn, flowKey f = flowKey g
  · obtain ⟨f, hf, hkey⟩ := hany
    exact mem_putFlowIn (sameFlow_iff.mpr hkey) hf
  · rw [putFlowIn_flowsIn_new (fun f hf hkey => hany ⟨f, hf, hkey⟩)]
    exact List.mem_append_right _ List.mem_cons_self

/-! ## One delivery -/

/-- A flow once its next message has been delivered, with what is left to acknowledge. -/
def flowAfter (f : FlowIn) (m : Message) (unacked : Nat) : FlowIn :=
  { f with nextSeq := f.nextSeq + 1, early := f.early.erase m, unacked := unacked }

/-- A delivered message's flow is written back, with its acknowledgement when 64 are due. -/
def writeBack (f : FlowIn) (m : Message) (s : State) : State :=
  if 64 ≤ f.unacked + 1 then putFlowIn (flowAfter f m 0) (sendAck (flowAfter f m (f.unacked + 1)) s)
  else putFlowIn (flowAfter f m (f.unacked + 1)) s

theorem acceptOne_eq (f : FlowIn) (m : Message) (t : Turn) (s : State) : acceptOne f m t s =
    if t = .now then
      match fabricPlan (writeBack f m s) with
      | none => writeBack f m s
      | some p => deliver p.handle m (writeBack f m s)
    else writeBack f m s := by rw [acceptOne]; rfl

theorem writeBack_flowsIn (f : FlowIn) (m : Message) (s : State) :
    ∃ n, (writeBack f m s).fabric.flowsIn = (putFlowIn (flowAfter f m n) s).fabric.flowsIn := by
  unfold writeBack
  split
  · refine ⟨0, ?_⟩
    rw [sendAck_frame]
    rfl
  · exact ⟨_, rfl⟩

/-- The messages that may still be delivered in a state. -/
def pendingIn (s : State) : Nat := pendingFlows s.fabric.flowsIn

theorem kept_pending {n : Nat} {s : State} : Kept { canonical := False, pending := some n } s ↔ pendingIn s ≤ n := by
  refine ⟨fun ⟨_, _, _, _, _, hflows⟩ => hflows n rfl, fun h => ?_⟩
  refine ⟨False.elim, False.elim, False.elim, False.elim, False.elim, fun k hk => ?_⟩
  obtain rfl := Option.some.inj hk
  exact h

/-- What a message does to the module brings no message into a flow. -/
theorem pendingIn_deliver_le (h : Word) (m : Message) (s : State) : pendingIn (deliver h m s) ≤ pendingIn s :=
  kept_pending.mp (deliver_memOk (kept_pending.mpr le_rfl))

/-- A delivery leaves no more to deliver than its flow written back does. -/
theorem pendingIn_acceptOne_le {f : FlowIn} {m : Message} {t : Turn} {s : State} {k : Nat}
    (h : ∀ n, pendingIn (putFlowIn (flowAfter f m n) s) ≤ k) : pendingIn (acceptOne f m t s) ≤ k := by
  have hback : pendingIn (writeBack f m s) ≤ k := by
    obtain ⟨n, hn⟩ := writeBack_flowsIn f m s
    rw [pendingIn, hn]
    exact h n
  rw [acceptOne_eq]
  split
  · split
    · exact hback
    · exact (pendingIn_deliver_le _ _ _).trans hback
  · exact hback

/-- Each delivery leaves less to deliver. -/
theorem pendingIn_acceptOne_lt {f : FlowIn} {m : Message} {t : Turn} {s : State} (hf : f ∈ s.fabric.flowsIn) (hm : m ∈ f.early) :
    pendingIn (acceptOne f m t s) < pendingIn s := by
  have hshort : (f.early.erase m).length < f.early.length := by
    have hpos : 0 < f.early.length := List.length_pos_of_mem hm
    rw [List.length_erase_of_mem hm]
    omega
  have hlt : ∀ n, pendingIn (putFlowIn (flowAfter f m n) s) < pendingIn s := by
    intro n
    rw [pendingIn, putFlowIn_flowsIn (g := flowAfter f m n) hf rfl]
    exact pendingFlows_replace_lt hf rfl hshort
  have hpos : 0 < pendingIn s := (Nat.zero_le _).trans_lt (hlt 0)
  exact (pendingIn_acceptOne_le (fun n => Nat.le_sub_one_of_lt (hlt n))).trans_lt (Nat.sub_one_lt_of_lt hpos)

/-! ## The rounds of delivery -/

theorem drainFlows_of_noHead {n : Nat} {s : State} (h : ∀ f ∈ s.fabric.flowsIn, headOf s f = none) : drainFlows n s = s := by
  cases n with
  | zero => rfl
  | succ n => rw [drainFlows, List.findSome?_eq_none_iff.mpr h]

theorem noHead_of_pendingIn {s : State} (h : pendingIn s = 0) : ∀ f ∈ s.fabric.flowsIn, headOf s f = none := fun f hf => by
  rw [headOf, early_eq_nil_of_pendingFlows h hf]
  rfl

/-- Any number of rounds that covers the messages which may still be delivered gives the same. -/
theorem drainFlows_rounds {n k : Nat} {s : State} (hn : pendingIn s ≤ n) (hk : pendingIn s ≤ k) : drainFlows n s = drainFlows k s := by
  induction n generalizing k s with
  | zero =>
    have hnone := noHead_of_pendingIn (Nat.le_zero.mp hn)
    rw [drainFlows_of_noHead hnone, drainFlows_of_noHead hnone]
  | succ n ih =>
    cases k with
    | zero =>
      have hnone := noHead_of_pendingIn (Nat.le_zero.mp hk)
      rw [drainFlows_of_noHead hnone, drainFlows_of_noHead hnone]
    | succ k =>
      rw [drainFlows, drainFlows]
      split
      · rfl
      · next f m t hhead =>
        obtain ⟨x, hx, hxhead⟩ := List.exists_of_findSome?_eq_some hhead
        obtain ⟨rfl, hm⟩ := mem_of_headOf hxhead
        have hlt := pendingIn_acceptOne_lt (t := t) hx hm
        exact ih (by omega) (by omega)

/-! ## A message that arrives -/

/-- A message of a flow that reaches the module is received. -/
theorem exec_flowMessage {i : Instr} {link : Nat} {m : Message} {kind cls : Nat} {s : State}
    (hi : flowMessage i = some (link, m, kind, cls)) : exec i s = .next (receiveFlow link kind cls m s) := by
  cases i <;> cases hi <;> rfl

theorem receiveFlow_reached {link : Nat} {m : Message} {kind cls : Nat} {s : State} (hreach : reaches link m kind s = true)
    (hcls : m.cls.toNat = cls) : receiveFlow link kind cls m s = if !(epochCheck m s).2 then (epochCheck m s).1
      else settleTransition (drainAll (joinFlow m (foldArrival link m (epochCheck m s).1))) := by
  rw [receiveFlow, if_neg (by simp [hreach, hcls])]

/-- One that passes the epoch checks joins its flow, and what has its turn is delivered (R410). -/
theorem receiveFlow_passes {link : Nat} {m : Message} {kind cls : Nat} {s : State} (hreach : reaches link m kind s = true)
    (hcls : m.cls.toNat = cls) (hep : EpochsPass s m) :
    receiveFlow link kind cls m s = settleTransition (drainAll (joinFlow m (foldArrival link m s))) := by
  rw [receiveFlow_reached hreach hcls, epochCheck_passes hep]
  rfl

theorem flowOf_flowInOf (s : State) (m : Message) : flowOf m (flowInOf s m) = true := by
  rw [flowInOf]
  cases hfind : s.fabric.flowsIn.find? (flowOf m) with
  | none => simp [flowOf]
  | some f => exact List.find?_some hfind

/-- The flow of a message is one that the module holds, or an empty one that shares its key with none. -/
theorem flowInOf_mem_or_new (s : State) (m : Message) : flowInOf s m ∈ s.fabric.flowsIn ∨
    (flowInOf s m).early = [] ∧ ∀ f ∈ s.fabric.flowsIn, flowKey f ≠ flowKey (flowInOf s m) := by
  rw [flowInOf]
  cases hfind : s.fabric.flowsIn.find? (flowOf m) with
  | some f => exact .inl (List.mem_of_find?_eq_some hfind)
  | none =>
    refine .inr ⟨rfl, fun f hf hkey => ?_⟩
    have hnot := List.find?_eq_none.mp hfind f hf
    simp only [flowKey, Option.getD_none, Prod.mk.injEq] at hkey
    exact hnot (decide_eq_true hkey)

theorem flowInOf_foldArrival (link : Nat) (m : Message) (s : State) : flowInOf (foldArrival link m s) m = flowInOf s m := by
  rw [flowInOf, foldArrival_flowsIn]
  rfl

/-- A flow that a message has joined, behind what waits there. -/
def flowJoined (f : FlowIn) (m : Message) : FlowIn := { f with early := f.early ++ [m] }

/-- A message that is the next one of its flow joins it behind what waits there. -/
theorem joinFlow_next {m : Message} {s : State} (hseq : m.seq.toNat = (flowInOf s m).nextSeq % 65536)
    (hfresh : ∀ x ∈ (flowInOf s m).early, x.seq ≠ m.seq) :
    joinFlow m s = putFlowIn (flowJoined (flowInOf s m) m) s := by
  rw [joinFlow, if_neg, flowJoined]
  rintro (hahead | hany)
  · omega
  · obtain ⟨x, hx, hxseq⟩ := List.any_eq_true.mp hany
    exact hfresh x hx (of_decide_eq_true hxseq)

/-- A flow that the next message has joined has it at its head. -/
theorem headOf_joined {s : State} {f : FlowIn} {m : Message} (hturn : turnOf s m = .now) (hseq : m.seq.toNat = f.nextSeq % 65536)
    (hfresh : ∀ x ∈ f.early, x.seq ≠ m.seq) :
    headOf s (flowJoined f m) = some (flowJoined f m, m, .now) := by
  have hnone : f.early.find? (fun x => decide (x.seq.toNat = f.nextSeq % 65536)) = none :=
    List.find?_eq_none.mpr (fun x hx hxseq => hfresh x hx (BitVec.eq_of_toNat_eq ((of_decide_eq_true hxseq).trans hseq.symm)))
  have hfind : (f.early ++ [m]).find? (fun x => decide (x.seq.toNat = f.nextSeq % 65536)) = some m := by
    simp [List.find?_append, hnone, hseq]
  rw [headOf, flowJoined, hfind]
  simp [hturn]

theorem findSome?_replaceFlow {α : Type} {g f : FlowIn} {l : List FlowIn} {h : FlowIn → Option α} {r : α}
    (hnone : ∀ x ∈ l, h x = none) (hg : h g = some r) (hf : f ∈ l) (hkey : flowKey f = flowKey g) :
    (replaceFlow g l).findSome? h = some r := by
  induction l with
  | nil => cases hf
  | cons x l ih =>
    rw [replaceFlow, List.map_cons]
    by_cases hsame : sameFlow g x = true
    · rw [if_pos hsame, List.findSome?_cons, hg]
    · have hfl : f ∈ l := (List.mem_cons.mp hf).resolve_left (fun hfx => hsame (sameFlow_iff.mpr (hfx ▸ hkey)))
      rw [if_neg hsame, List.findSome?_cons, hnone x List.mem_cons_self]
      exact ih (fun y hy => hnone y (List.mem_cons_of_mem _ hy)) hfl

/-- Where no flow had a head, one that is written with a head gives the one head of all. -/
theorem findSome?_headOf_putFlowIn {s t : State} {g : FlowIn} {r : FlowIn × Message × Turn} (hplans : t.plans = s.plans)
    (hnone : ∀ x ∈ t.fabric.flowsIn, headOf s x = none) (hhead : headOf s g = some r) :
    (putFlowIn g t).fabric.flowsIn.findSome? (headOf (putFlowIn g t)) = some r := by
  have hcongr : headOf (putFlowIn g t) = headOf s := funext (headOf_congr hplans)
  rw [hcongr]
  by_cases hany : ∃ f ∈ t.fabric.flowsIn, flowKey f = flowKey g
  · obtain ⟨f, hf, hkey⟩ := hany
    rw [putFlowIn_flowsIn hf hkey]
    exact findSome?_replaceFlow hnone hhead hf hkey
  · rw [putFlowIn_flowsIn_new (fun f hf hkey => hany ⟨f, hf, hkey⟩), List.findSome?_append, List.findSome?_eq_none_iff.mpr hnone]
    simp [hhead]

/-- A flow that a message has joined and left again has no more to deliver than it had. -/
theorem pendingIn_joined_delivered {s : State} {m : Message} (hfresh : ∀ x ∈ (flowInOf s m).early, x.seq ≠ m.seq) (n : Nat) :
    pendingIn (putFlowIn (flowAfter (flowJoined (flowInOf s m) m) m n)
      (putFlowIn (flowJoined (flowInOf s m) m) s)) ≤ pendingIn s := by
  have herased : ((flowInOf s m).early ++ [m]).erase m = (flowInOf s m).early := by
    rw [List.erase_append_right _ (fun hm => hfresh m hm rfl), List.erase_cons_head, List.append_nil]
  refine Finset.card_le_card (fun x hx => ?_)
  obtain ⟨y, hy, hykey, hylt⟩ := mem_flowCells.mp hx
  rcases mem_putFlowIn_cases hy with rfl | ⟨hy, hother⟩
  · simp only [flowAfter, flowJoined, herased] at hylt
    rcases flowInOf_mem_or_new s m with hmem | ⟨hempty, -⟩
    · exact mem_flowCells.mpr ⟨_, hmem, hykey, hylt⟩
    · simp [hempty] at hylt
  · rcases mem_putFlowIn_cases hy with rfl | ⟨hy, -⟩
    · exact absurd rfl hother
    · exact mem_flowCells.mpr ⟨y, hy, hykey, hylt⟩

/-- The next message of a flow, where no other waits for its turn, is delivered first; then what it lets follow (R410). -/
theorem drainAll_joinFlow_next {s t : State} {m : Message} (hplans : t.plans = s.plans) (hturn : turnOf s m = .now)
    (hseq : m.seq.toNat = (flowInOf t m).nextSeq % 65536) (hfresh : ∀ x ∈ (flowInOf t m).early, x.seq ≠ m.seq)
    (hnone : ∀ x ∈ t.fabric.flowsIn, headOf s x = none) :
    drainAll (joinFlow m t) = drainFlows ((t.fabric.flowsIn.map (fun x => x.early.length)).sum)
      (acceptOne (flowJoined (flowInOf t m) m) m .now
        (putFlowIn (flowJoined (flowInOf t m) m) t)) := by
  have hhead := findSome?_headOf_putFlowIn hplans hnone (headOf_joined hturn hseq hfresh)
  have hfewer := pendingIn_acceptOne_lt (t := .now) (mem_putFlowIn_self (flowJoined (flowInOf t m) m) t)
    (List.mem_append_right _ List.mem_cons_self)
  have hold := pendingIn_acceptOne_le (t := .now) (pendingIn_joined_delivered hfresh)
  have hsum := pendingFlows_le_sum (putFlowIn (flowJoined (flowInOf t m) m) t).fabric.flowsIn
  rw [joinFlow_next hseq hfresh, drainAll]
  cases hrounds : ((putFlowIn (flowJoined (flowInOf t m) m) t).fabric.flowsIn.map
      (fun x => x.early.length)).sum with
  | zero =>
    rw [hrounds] at hsum
    exact absurd (hfewer.trans_le hsum) (Nat.not_lt_zero _)
  | succ n =>
    rw [hrounds] at hsum
    rw [drainFlows, hhead]
    exact drainFlows_rounds (Nat.le_of_lt_succ (hfewer.trans_le hsum)) (hold.trans (pendingFlows_le_sum _))

/-! ## With no run on the fabric -/

theorem joinFlow_flowsIn_only (m : Message) (s : State) :
    joinFlow m s = { s with fabric := { s.fabric with flowsIn := (joinFlow m s).fabric.flowsIn } } := by
  unfold joinFlow
  extract_lets
  split <;> rfl

/-- With no run on the fabric a message only joins its flow. -/
theorem drainAll_joinFlow_of_noPlan {s : State} (h : fabricPlan s = none) (m : Message) : drainAll (joinFlow m s) = joinFlow m s := by
  have hplans : (joinFlow m s).plans = s.plans := by rw [joinFlow_flowsIn_only]
  exact drainFlows_of_noHead (fun f _ => headOf_of_noPlan ((fabricPlan_congr hplans).trans h) f)

/-- A message that is not behind what was delivered waits in its flow once it has joined it. -/
theorem joinFlow_waits {m : Message} {s : State}
    (hahead : (m.seq.toNat + 65536 - (flowInOf s m).nextSeq % 65536) % 65536 < 32768) :
    ∃ f ∈ (joinFlow m s).fabric.flowsIn, flowOf m f = true ∧ ∃ x ∈ f.early, x.seq = m.seq := by
  rw [joinFlow]
  split
  · next h =>
    obtain ⟨x, hx, hxseq⟩ := List.any_eq_true.mp (h.resolve_left (Nat.not_le.mpr hahead))
    have hmem : flowInOf s m ∈ s.fabric.flowsIn :=
      (flowInOf_mem_or_new s m).resolve_right (fun hnew => List.ne_nil_of_mem hx hnew.1)
    exact ⟨_, hmem, flowOf_flowInOf s m, x, hx, of_decide_eq_true hxseq⟩
  · exact ⟨_, mem_putFlowIn_self _ s, flowOf_flowInOf s m, m, List.mem_append_right _ List.mem_cons_self, rfl⟩

/-- One behind what was delivered is dropped. -/
theorem joinFlow_behind {m : Message} {s : State}
    (hbehind : 32768 ≤ (m.seq.toNat + 65536 - (flowInOf s m).nextSeq % 65536) % 65536) : joinFlow m s = s := by
  rw [joinFlow, if_pos (.inl hbehind)]

/-- One that fails an epoch check is counted; what is sent back leaves the flows as they are (R413). -/
theorem epochCheck_fails {s : State} {m : Message} (hep : ¬ EpochsPass s m) (hplan : fabricPlan s = none) : (epochCheck m s).2 = false ∧
    (epochCheck m s).1.fabric.staleDrops = s.fabric.staleDrops + 1 ∧ (epochCheck m s).1.fabric.flowsIn = s.fabric.flowsIn ∧
    (epochCheck m s).1 = { s with fabric := (epochCheck m s).1.fabric } := by
  have hdrop : dropStale s = { s with fabric := { s.fabric with staleDrops := s.fabric.staleDrops + 1 } } := by
    have hnone : fabricPlan { s with fabric := { s.fabric with staleDrops := s.fabric.staleDrops + 1 } } = none := hplan
    rw [dropStale, hnone]
  have hcounted : (dropStale s).fabric.staleDrops = s.fabric.staleDrops + 1 ∧ (dropStale s).fabric.flowsIn = s.fabric.flowsIn ∧
      dropStale s = { s with fabric := (dropStale s).fabric } := by
    rw [hdrop]
    exact ⟨rfl, rfl, rfl⟩
  have hback : ∀ r : Message, (sendPlain r (dropStale s)).fabric.staleDrops = s.fabric.staleDrops + 1 ∧
      (sendPlain r (dropStale s)).fabric.flowsIn = s.fabric.flowsIn ∧
      sendPlain r (dropStale s) = { s with fabric := (sendPlain r (dropStale s)).fabric } := by
    intro r
    rw [sendPlain_frame, hdrop]
    exact ⟨rfl, rfl, rfl⟩
  unfold epochCheck
  extract_lets least back s1
  split
  · exact ⟨rfl, hback _⟩
  · next hleast =>
    rw [if_pos]
    · refine ⟨rfl, ?_⟩
      split
      · exact hback _
      · exact hcounted
    · by_contra hdst
      refine hep ⟨BitVec.not_lt.mp hleast, ?_⟩
      by_contra hno
      exact hdst (not_or.mp hno)

/-- The message that has its turn is handed to what it is for. -/
theorem acceptOne_now {g : FlowIn} {m : Message} {p : Plan} {x : State} (hroom : g.unacked < 63) (hplan : fabricPlan x = some p) :
    acceptOne g m .now x = deliver p.handle m (putFlowIn (flowAfter g m (g.unacked + 1)) x) := by
  have hback : writeBack g m x = putFlowIn (flowAfter g m (g.unacked + 1)) x := if_neg (by omega)
  have hplan' : fabricPlan (putFlowIn (flowAfter g m (g.unacked + 1)) x) = some p := hplan
  rw [acceptOne_eq, if_pos rfl, hback, hplan']

theorem deliver_of_kind {h : Word} {m : Message} {kind : Nat} (hkind : m.kind.toNat = kind) (s : State) :
    deliver h m s = if kind = kindRowRead then serveRow m h s else if kind = kindUpdate then takeUpdate h m s else takeData h m s := by
  rw [deliver, hkind]

theorem kind_of_reaches {link : Nat} {m : Message} {kind : Nat} {s : State} (h : reaches link m kind s = true) :
    m.kind.toNat = kind := by
  simp only [reaches, Bool.and_eq_true, decide_eq_true_eq] at h
  exact h.1.2.2.1

/-- Settles O35. -/
theorem flowMessagesJoin : Obligations.FlowMessagesJoin := by
  unfold Obligations.FlowMessagesJoin
  refine ⟨fun _ _ => ⟨rfl, rfl, rfl, rfl, rfl, rfl, rfl, rfl, rfl, rfl, rfl, rfl⟩, ?_⟩
  intro i link m kind cls s hi hreach hcls
  rw [exec_flowMessage hi]
  refine ⟨fun hep => by rw [receiveFlow_passes hreach hcls hep], ?_, ?_, ?_⟩
  · intro p f g hep hplan hopen hstep hf hseq hfresh hnone hg
    subst hf hg
    refine ⟨?_, ?_⟩
    · rw [receiveFlow_passes hreach hcls hep]
      have hnext := drainAll_joinFlow_next (t := foldArrival link m s) (m := m) (foldArrival_plans link m s)
        (turnOf_openStep hplan hopen hstep)
      rw [flowInOf_foldArrival, foldArrival_flowsIn] at hnext
      rw [hnext hseq hfresh hnone]
      rfl
    · rintro x y rfl hroom hplan'
      rw [acceptOne_now hroom hplan', deliver_of_kind (kind_of_reaches hreach)]
      rfl
  · intro hep hplan hidle
    refine ⟨joinFlow m s, ?_, joinFlow_flowsIn_only m s, joinFlow_waits, joinFlow_behind⟩
    have hstill : (joinFlow m s).power.transition = none := by rw [joinFlow_flowsIn_only, hidle]
    rw [receiveFlow_passes hreach hcls hep, foldArrival_of_noPlan hplan, drainAll_joinFlow_of_noPlan hplan,
      settleTransition_none hstill]
  · intro hep hplan
    obtain ⟨hfails, hcount, hflows, hframe⟩ := epochCheck_fails hep hplan
    refine ⟨(epochCheck m s).1, ?_, hcount, hflows, hframe⟩
    rw [receiveFlow_reached hreach hcls, hfails]
    rfl

end Sys2Proof.Machine
end

section
/-!
PROOFS. The words of the cascade (O38).
-/

namespace Sys2Proof.Machine

/-- R393: `n` SYNC words at a member that is not the head. -/
theorem takeSync_member {n : Nat} {s : State} (hpos : s.pins.cascPos ≠ 0) : takeSync n s = { s with basin := { s.basin with
    cascade := { s.basin.cascade with
      syncSeen := if s.basin.cascade.locked then s.basin.cascade.syncSeen else s.basin.cascade.syncSeen + n
      locked := s.basin.cascade.locked ||
        decide (64 ≤ if s.basin.cascade.locked then s.basin.cascade.syncSeen else s.basin.cascade.syncSeen + n)
      syncOut := s.basin.cascade.syncOut + n } } } := if_neg hpos

/-- The word comes to a member whose chain is up. -/
theorem not_cascadeIgnored {s : State} (hup : chainUp s = true) (hpos : s.pins.cascPos ≠ 0) : ¬ ((!chainUp s) = true ∨ s.pins.cascPos = 0) :=
  fun h => h.elim (by simp [hup]) hpos

/-- Settles O38. -/
theorem cascadeWordsAct : Obligations.CascadeWordsAct := by
  unfold Obligations.CascadeWordsAct
  refine ⟨?sync, ?broken, ?idle, ?result, ?bad⟩
  case sync =>
    intro s i n hi hup hpos
    have hexec : exec i s = .next (takeSync n s) := by
      rcases hi with rfl | ⟨rfl, rfl⟩
      · exact congrArg Host.Outcome.next (if_pos hup)
      · exact congrArg Host.Outcome.next ((if_neg (not_cascadeIgnored hup hpos)).trans (if_pos rfl))
    refine ⟨_, hexec, ?_⟩
    rw [takeSync_member hpos]
    refine ⟨rfl, rfl, fun hl => ?_, fun hl => ?_⟩
    · simp [hl]
    · simp [hl]
  case broken =>
    intro s w hup hpos hsync hlocked
    exact congrArg Host.Outcome.next ((if_neg (not_cascadeIgnored hup hpos)).trans ((if_neg hsync).trans (if_pos (by simp [hlocked]))))
  case idle =>
    intro s hup hpos hlocked
    exact congrArg Host.Outcome.next ((if_neg (not_cascadeIgnored hup hpos)).trans ((if_neg (by decide)).trans
      ((if_neg (by simp [hlocked])).trans (if_pos rfl))))
  case result =>
    intro s w x c res hup hpos hsync hidle hlocked hctx hword
    show execCascadeWord w s = _
    rw [execCascadeWord, if_neg (not_cascadeIgnored hup hpos), if_neg hsync, if_neg (by simp [hlocked]), if_neg hidle, hctx]
    dsimp only
    rw [hword]
    rfl
  case bad =>
    intro s w x c hup hpos hsync hidle hlocked hctx hword
    show execCascadeWord w s = _
    rw [execCascadeWord, if_neg (not_cascadeIgnored hup hpos), if_neg hsync, if_neg (by simp [hlocked]), if_neg hidle, hctx]
    dsimp only
    rw [hword]

end Sys2Proof.Machine
end

section
/-!
PROOFS. Messages between twins and what silence brings (O39, O40, O41, O42), and images that travel (O43).
-/

namespace Sys2Proof.Machine

/-! ## Who may speak (R436) -/

/-- A message under the module's own epoch marks its link as heard and acts. -/
theorem twinReceive_hears {s : State} {link kind : Nat} {m : Message} (exempt : State → Bool) (act : State → State)
    (h : TwinHears s link kind m) : twinReceive link kind exempt m act s = settleRuns (act (hear link s)) := by
  obtain ⟨hlink, hup, hfw, hcls, hkind, hepoch⟩ := h
  have hin : ¬ ((!twinLinkUp s link) = true ∨ 2 ≤ link ∨ (!fwRunning s) = true ∨ m.cls ≠ 3 ∨ m.kind.toNat ≠ kind) := by
    simp only [hup, hfw, hcls, hkind, Bool.not_true, Bool.false_eq_true, ne_eq, not_true_eq_false, or_false, false_or]
    omega
  have hlt : ¬ m.srcEpoch < s.twin.pairEpoch := by simp [hepoch]
  have hgt : ¬ s.twin.pairEpoch < m.srcEpoch := by simp [hepoch]
  rw [twinReceive, if_neg hin, if_neg hlt, if_neg hgt]
  exact ite_self _

/-- A message that is exempt from the epoch check acts under any epoch. -/
theorem twinReceive_exempt {s : State} {link kind : Nat} {m : Message} {exempt : State → Bool} (act : State → State) (hlink : link < 2)
    (hup : twinLinkUp s link = true) (hfw : fwRunning s = true) (hcls : m.cls = 3) (hkind : m.kind.toNat = kind)
    (hexempt : exempt s = true) : twinReceive link kind exempt m act s = settleRuns (act (hear link s)) := by
  have hin : ¬ ((!twinLinkUp s link) = true ∨ 2 ≤ link ∨ (!fwRunning s) = true ∨ m.cls ≠ 3 ∨ m.kind.toNat ≠ kind) := by
    simp only [hup, hfw, hcls, hkind, Bool.not_true, Bool.false_eq_true, ne_eq, not_true_eq_false, or_false, false_or]
    omega
  rw [twinReceive, if_neg hin, if_pos hexempt]

/-- R436: what the epoch decides of a message whose type is not exempt. -/
theorem twinReceive_otherEpoch {s : State} {link kind : Nat} {m : Message} (act : State → State) (hlink : link < 2)
    (hup : twinLinkUp s link = true) (hfw : fwRunning s = true) (hcls : m.cls = 3) (hkind : m.kind.toNat = kind) :
    (m.srcEpoch < s.twin.pairEpoch → twinReceive link kind noExempt m act s = answerStale link s) ∧
    (s.twin.pairEpoch < m.srcEpoch → twinReceive link kind noExempt m act s =
      if fenceable s then settleRuns (enterFenced none s) else s) := by
  have hin : ¬ ((!twinLinkUp s link) = true ∨ 2 ≤ link ∨ (!fwRunning s) = true ∨ m.cls ≠ 3 ∨ m.kind.toNat ≠ kind) := by
    simp only [hup, hfw, hcls, hkind, Bool.not_true, Bool.false_eq_true, ne_eq, not_true_eq_false, or_false, false_or]
    omega
  refine ⟨fun hlt => ?_, fun hgt => ?_⟩
  · rw [twinReceive, if_neg hin, noExempt, if_neg Bool.false_ne_true, if_pos hlt]
  · rw [twinReceive, if_neg hin, noExempt, if_neg Bool.false_ne_true, if_neg (by bv_omega), if_pos hgt]

/-! ## What stored bytes leave as it was -/

/-- A store changes the contents of the two tiers and the poison. -/
theorem moduleWrite_frame (a : Nat) (bs : List Byte) (s : State) : moduleWrite a bs s = { s with
    near := (moduleWrite a bs s).near, far := (moduleWrite a bs s).far,
    err := { s.err with poison := (moduleWrite a bs s).err.poison } } := by
  unfold moduleWrite
  split
  · rfl
  · split <;> rfl

theorem writePieces_twin (ps : List (Nat × Nat)) (bs : List Byte) (s : State) : (writePieces ps bs s).twin = s.twin := by
  induction ps generalizing bs s with
  | nil => rfl
  | cons p ps ih => rw [writePieces, ih, moduleWrite_frame]

theorem sessionWrite_twin (sid va : Nat) (bs : List Byte) (s : State) : (sessionWrite sid va bs s).twin = s.twin := by
  unfold sessionWrite
  split
  · rfl
  · exact writePieces_twin _ _ _

/-- Bytes of the twin that are stored leave the pair as it was. -/
theorem storeWindow_twin (code off : Nat) (bs : List Byte) (s : State) : (storeWindow code off bs s).twin = s.twin := by
  unfold storeWindow
  split
  · rfl
  · split
    · exact sessionWrite_twin _ _ _ _
    · rfl

theorem foldl_storeWindow_twin (l : List StagedMirror) (s : State) :
    (l.foldl (fun z w => storeWindow w.window w.offset w.data z) s).twin = s.twin := by
  induction l generalizing s with
  | nil => rfl
  | cons w l ih => rw [List.foldl_cons, ih, storeWindow_twin]

/-- R432: writing its block, the module counts it and changes the contents of the two tiers and the poison. -/
theorem writeOwnBlock_frame (s : State) : writeOwnBlock s = { s with
    near := (writeOwnBlock s).near, far := (writeOwnBlock s).far,
    err := { s.err with poison := (writeOwnBlock s).err.poison }, twin := { s.twin with ownCount := (writeOwnBlock s).twin.ownCount } } := by
  unfold writeOwnBlock
  split
  · rfl
  · dsimp only
    split
    · conv_lhs => rw [moduleWrite_frame]
      rw [moduleWrite_frame]
    · rfl

/-! ## Mirroring -/

theorem takesMirror_hear (link : Nat) (s : State) : takesMirror (hear link s) = takesMirror s := rfl

/-- Settles O39. -/
theorem mirrorMessagesAct : Obligations.MirrorMessagesAct := by
  unfold Obligations.MirrorMessagesAct
  refine ⟨?beat, ?write, ?commit, ?acked, ?copied, ?piece, ?last⟩
  case beat => exact fun s link m h => congrArg Host.Outcome.next (twinReceive_hears noExempt _ h)
  case write =>
    intro s link m h hears htakes hh
    subst hh
    have htakes' : ¬ (!takesMirror (hear link s)) = true := by simp [takesMirror_hear, htakes]
    exact congrArg Host.Outcome.next ((twinReceive_hears noExempt _ hears).trans (congrArg settleRuns (if_neg htakes')))
  case commit =>
    intro s link m x y hears htakes hx hy
    have htakes' : ¬ (!takesMirror (hear link s)) = true := by simp [takesMirror_hear, htakes]
    have htwin : x.twin = (hear link s).twin := by rw [hx, foldl_storeWindow_twin]
    refine congrArg Host.Outcome.next ((twinReceive_hears noExempt _ hears).trans (congrArg settleRuns ((if_neg htakes').trans ?_)))
    dsimp only
    have hfold : (hear link s).twin.staging.foldl (fun z w => storeWindow w.window w.offset w.data z) (hear link s) = x := hx.symm
    rw [hfold, hy, htwin]
    rfl
  case acked =>
    intro s link m hears htakes hkind
    refine congrArg Host.Outcome.next ((twinReceive_hears noExempt _ hears).trans (congrArg settleRuns ?_))
    exact (if_pos hkind).trans (if_pos htakes)
  case copied =>
    intro s link m hears hkind hcopy hcmd hleft
    refine congrArg Host.Outcome.next ((twinReceive_hears noExempt _ hears).trans (congrArg settleRuns ?_))
    have hone : (hear link s).twin.copying = true ∧
        (!decide ((hear link s).twin.commandOp = 1 ∧ (hear link s).twin.command.isSome = true)) = true := by
      refine ⟨hcopy, ?_⟩
      simp [hear, hcmd]
    exact (if_neg (by rw [hkind]; decide)).trans ((if_pos hone).trans (if_neg (Nat.not_le.mpr hleft)))
  case piece =>
    intro s link m w h hears hh hw hlen htakes
    subst hh
    refine congrArg Host.Outcome.next ((twinReceive_hears noExempt _ hears).trans (congrArg settleRuns ?_))
    have hwin : (if takesMirror (hear link s) = true ∨ (hear link s).twin.copying = true then
        twinWindowOf (hear link s) (mirrorHead m.payload).1 else none) = some w := (if_pos htakes).trans hw
    dsimp only
    rw [hwin]
    exact if_pos hlen
  case last =>
    intro s link m w h hears hh hw hcmd hlen htakes
    subst hh
    refine congrArg Host.Outcome.next ((twinReceive_hears noExempt _ hears).trans (congrArg settleRuns ?_))
    have hwin : (if takesMirror (hear link s) = true ∨ (hear link s).twin.copying = true then
        twinWindowOf (hear link s) (mirrorHead m.payload).1 else none) = some w := (if_pos htakes).trans hw
    dsimp only
    rw [hwin]
    refine (if_neg (Nat.not_lt.mpr hlen)).trans (if_neg ?_)
    rintro ⟨-, hsome, -⟩
    rw [sendTwin, storeWindow_twin] at hsome
    simp [hear, hcmd] at hsome

/-! ## The pair's state -/

/-- Settles O40. -/
theorem pairStatesChange : Obligations.PairStatesChange := by
  unfold Obligations.PairStatesChange
  refine ⟨?epoch, ?stale, ?hello, ?handover, ?ack, ?timeout, ?parity⟩
  case epoch =>
    intro s i link m kind hi hlink hup hfw hcls hkind
    obtain ⟨act, hexec⟩ : ∃ act, exec i s = .next (twinReceive link kind noExempt m act s) := by
      rcases hi with ⟨rfl, rfl⟩ | ⟨rfl, rfl⟩ | ⟨rfl, rfl⟩ | ⟨rfl, rfl⟩ | ⟨rfl, rfl⟩ | ⟨rfl, rfl⟩ | ⟨rfl, rfl⟩ | ⟨rfl, rfl⟩ | ⟨rfl, rfl⟩ <;>
        exact ⟨_, rfl⟩
    obtain ⟨hlower, hhigher⟩ := twinReceive_otherEpoch act hlink hup hfw hcls hkind
    refine ⟨fun hlt => ?_, fun hgt hf => ?_, fun hgt hf => ?_⟩
    · refine ⟨answerStale link s, by rw [hexec, hlower hlt], ?_, ?_, fun hnf => ?_⟩
      · unfold answerStale; dsimp only; split <;> rfl
      · unfold answerStale; dsimp only; split <;> rfl
      · rw [answerStale, hnf]
        exact ⟨_, rfl, rfl, rfl⟩
    · rw [hexec, hhigher hgt, if_pos hf]
    · rw [hexec, hhigher hgt, hf, if_neg Bool.false_ne_true]
  case stale => exact fun s link m h => congrArg Host.Outcome.next (twinReceive_hears noExempt _ h)
  case hello =>
    intro s m hup hfw hcls hkind hop
    refine congrArg Host.Outcome.next ((twinReceive_exempt _ (by decide) hup hfw hcls hkind rfl).trans (congrArg settleRuns ?_))
    refine (if_neg (fun h => h.1 rfl)).trans (if_neg ?_)
    rintro ⟨hone, -, hnone⟩
    exact hop.elim (fun h => h hone) (fun h => h (Option.isNone_iff_eq_none.mp hnone))
  case handover =>
    intro s link m hears hstate
    refine congrArg Host.Outcome.next ((twinReceive_hears noExempt _ hears).trans (congrArg settleRuns ?_))
    exact if_neg (fun h => h hstate)
  case ack =>
    intro s link m hlink hup hfw hcls hkind hstate
    refine congrArg Host.Outcome.next
      ((twinReceive_exempt _ hlink hup hfw hcls hkind (decide_eq_true hstate)).trans (congrArg settleRuns ?_))
    exact if_neg (fun h => h hstate)
  case timeout =>
    intro s hcmd hop hcopy
    exact congrArg Host.Outcome.next (if_pos ⟨Option.isSome_iff_ne_none.mpr hcmd, hop, by simp [hcopy]⟩)
  case parity =>
    intro s hbound hside
    have hzero : s.pins.twinSide = 0 ↔ s.pins.twinSide.toNat = 0 := ⟨fun h => by simp [h], fun h => BitVec.eq_of_toNat_eq (by simpa using h)⟩
    unfold nextPairEpoch
    dsimp only
    rw [BitVec.toNat_ofNat]
    split <;> split <;> omega

/-! ## Silence (R432 to R435) -/

/-- What stands in host memory may be reached after the module has written its own block just as before. -/
theorem farOk_writeOwnBlock (s : State) (a n : Nat) (write : Bool) : farOk (writeOwnBlock s) a n write = farOk s a n write := by
  obtain ⟨hboot, hports, hretired⟩ : (writeOwnBlock s).boot = s.boot ∧ (writeOwnBlock s).ports = s.ports ∧
      (writeOwnBlock s).err.retired = s.err.retired := by
    rw [writeOwnBlock_frame]
    exact ⟨rfl, rfl, rfl⟩
  have hport (w : FarWindow) (x : Nat) : farPort (writeOwnBlock s) w x = farPort s w x := by simp only [farPort, hretired]
  simp only [farOk, hport, portOf, hboot, hports]

/-- The clock alone moves while the module waits for the last of three instants. -/
theorem atLeast_three (a b c : Nat) (s : State) : ∃ t, atLeast a (atLeast b (atLeast c s)) = { s with time := t } := ⟨_, rfl⟩

/-- R433: a takeover that reads back no block leaves the module ISOLATED under the epoch it had. -/
theorem takeOver_unread (confirm : List (BitVec 32)) (s : State) : takeOver false confirm s = resumeFlips ((fun y : State =>
    { y with twin := { y.twin with pairEpoch := s.twin.pairEpoch, isolated := true } })
      (takeoverEvent 4 (writeOwnBlock { s with twin := { s.twin with pairEpoch := nextPairEpoch s } }))) := by
  unfold takeOver
  simp only [Bool.not_false, true_or, if_true]

/-- R433 step 3: a takeover that reads no higher epoch serves SOLO. -/
theorem takeOver_unopposed {s : State} {r : PairRecord} (hr : s.twin.record = some r)
    (hok : farOk s (blockAddr r s.pins.twinSide.toNat) 64 true = true) : takeOver true [] s =
    serveSolo 1 ((fun y : State => atLeast (y.time.toNat + 20000000) y)
      (writeOwnBlock { s with twin := { s.twin with pairEpoch := nextPairEpoch s } })) := by
  unfold takeOver
  dsimp only
  rw [hr, Option.map_some, Option.getD_some, hok, if_neg (by decide)]
  rfl

/-- Settles O41. -/
theorem silenceIsActedOn : Obligations.SilenceIsActedOn := by
  unfold Obligations.SilenceIsActedOn
  refine ⟨?send, ?own, ?block, ?takeover, ?releasing, ?detach⟩
  case send =>
    intro s hbeats h0 h1
    let b := record 32 [(0, s.twin.pairEpoch.toNat), (32, pairCode s.twin.state), (64, s.time.toNat)]
    have h1' : twinLinkUp (sendTwin 0 twinHeartbeat b s) 1 = true := h1
    have hexec : exec .heartbeatSend s = .next (sendTwin 1 twinHeartbeat b (sendTwin 0 twinHeartbeat b s)) := by
      refine congrArg Host.Outcome.next ((if_neg (by simp [hbeats])).trans ?_)
      rw [List.foldl_cons, List.foldl_cons, List.foldl_nil, if_pos h0, if_pos h1']
    refine ⟨_, twinMessage s twinHeartbeat s.twin.pairEpoch b, _, hexec, ?_, rfl, rfl, rfl, rfl⟩
    simp only [sendTwin, List.append_assoc, List.cons_append, List.nil_append]
    rfl
  case own =>
    intro s hbeats
    exact congrArg Host.Outcome.next (if_neg (by simp [hbeats]))
  case block =>
    intro s b r hbeats hr hok
    have hr' : (writeOwnBlock s).twin.record = some r := by rw [writeOwnBlock_frame]; exact hr
    have hside : (writeOwnBlock s).pins = s.pins := by rw [writeOwnBlock_frame]
    show execHeartbeatBlock (some b) s = _
    unfold execHeartbeatBlock
    dsimp only
    rw [if_neg (by simp [hbeats]), hr']
    dsimp only
    rw [hside, farOk_writeOwnBlock, if_pos hok]
  case takeover =>
    intro s r readBack confirm x hfw hstate hiso hr hx
    have hexec : exec (.takeover readBack confirm) s = .next (settleRuns (takeOver readBack confirm x)) := by
      show execTakeover readBack confirm s = _
      unfold execTakeover
      dsimp only
      rw [if_neg (by simp [hfw]), hstate]
      dsimp only
      rw [hiso, if_neg Bool.false_ne_true, hx]
    obtain ⟨t, ht⟩ : ∃ t, x = { s with time := t } := hx ▸ atLeast_three _ _ _ s
    refine ⟨hexec, fun hread => ?_, fun hread hok hconf => ?_⟩
    · rw [hexec, hread, takeOver_unread, ht]
      rfl
    · have hnext : nextPairEpoch x = nextPairEpoch s := by rw [ht]; rfl
      have hrx : x.twin.record = some r := by rw [ht]; exact hr
      have hokx : farOk x (blockAddr r x.pins.twinSide.toNat) 64 true = true := by rw [ht]; exact hok
      rw [hexec, hread, hconf, takeOver_unopposed hrx hokx, hnext]
  case releasing =>
    intro s x readBack confirm hfw hstate hx
    show execTakeover readBack confirm s = _
    unfold execTakeover
    dsimp only
    rw [if_neg (by simp [hfw]), hstate, hx]
  case detach =>
    intro s r x hfw hstate hr hdetach hx
    refine congrArg Host.Outcome.next ((if_pos ⟨hfw, hstate, by rw [hr]; exact hdetach⟩).trans ?_)
    rw [hx]

/-! ## Refetched rows (R448) -/

/-- Settles O42. -/
theorem refetchesResolve : Obligations.RefetchesResolve := by
  unfold Obligations.RefetchesResolve
  refine ⟨?answered, ?waits, ?data, ?timeout⟩
  case answered =>
    intro s link m w h hears hh hcount hw hfenced
    subst hh
    refine congrArg Host.Outcome.next ((twinReceive_hears noExempt _ hears).trans (congrArg settleRuns ?_))
    have hfenced' : ¬ isFenced (hear link s) = true := Bool.eq_false_iff.mp hfenced
    have hw' : twinWindowOf (hear link s) (mirrorHead m.payload).1 = some w := hw
    refine (if_neg hfenced').trans ((if_pos hcount).trans ?_)
    unfold answerRefetch
    dsimp only
    rw [hw']
    rfl
  case waits =>
    intro s link m hears hcount hfenced
    refine congrArg Host.Outcome.next ((twinReceive_hears noExempt _ hears).trans (congrArg settleRuns ?_))
    have hfenced' : ¬ isFenced (hear link s) = true := Bool.eq_false_iff.mp hfenced
    exact (if_neg hfenced').trans (if_neg (Nat.not_le.mpr hcount))
  case data =>
    intro s link m f hears hf
    refine congrArg Host.Outcome.next ((twinReceive_hears noExempt _ hears).trans (congrArg settleRuns ?_))
    have hf' : (hear link s).twin.refetches.find?
        (fun r => decide (r.window = (mirrorHead m.payload).1 ∧ r.offset = (mirrorHead m.payload).2.1)) = some f := hf
    dsimp only
    rw [hf']
  case timeout =>
    intro s k f hf
    show execRefetchTimeout k s = _
    unfold execRefetchTimeout
    rw [hf]

/-! ## Images (R441, R528) -/

/-- Pieces sent one after the other by one link at one epoch. -/
theorem foldl_sendTwinEpoch (link kind : Nat) (epoch : BitVec 32) (l : List (List Byte)) (s : State) :
    l.foldl (fun x bs => sendTwinEpoch link kind epoch bs x) s =
      { s with twin := { s.twin with sent := s.twin.sent ++ l.map (fun bs => (link, twinMessage s kind epoch bs)) } } := by
  induction l generalizing s with
  | nil => simp
  | cons bs l ih =>
    rw [List.foldl_cons, ih, sendTwinEpoch, List.map_cons, List.append_assoc, List.singleton_append]
    rfl

theorem reopenRecovery_atLeast (n : Nat) (s : State) :
    (reopenRecovery (atLeast n s)).boot = { s.boot with stage := .recoveryWait, recoverySource := 0, recoveryBytes := [] } ∧
      reopenRecovery (atLeast n s) =
        { s with time := (reopenRecovery (atLeast n s)).time, boot := (reopenRecovery (atLeast n s)).boot } := ⟨rfl, rfl⟩

/-- Settles O43. -/
theorem imagesTravel : Obligations.ImagesTravel := by
  unfold Obligations.ImagesTravel
  refine ⟨?request, ?poll, ?data, ?stall⟩
  case request =>
    intro s link m hfw himg
    let img := storedImage s.boot.nor
    let l := cut 4096 (ceilDiv img.length 4096) img
    have hexec : exec (.imageRequest link m) s = .next (l.foldl (fun x bs => sendTwinEpoch link 0x2B 0 bs x) s) :=
      congrArg Host.Outcome.next (if_neg (by simp [hfw, himg]))
    rw [foldl_sendTwinEpoch] at hexec
    refine ⟨_, hexec, rfl, _, rfl, ?_, fun x hx => ?_⟩
    · rw [List.map_map]
      exact (congrArg List.flatten (List.map_id l)).trans (cut_flatten _ _ _)
    · obtain ⟨bs, hbs, rfl⟩ := List.mem_map.mp hx
      refine ⟨rfl, rfl, cut_length_le ?_ hbs⟩
      rw [ceilDiv]
      omega
  case poll =>
    intro s hstage hhost h0 h1
    refine ⟨twinMessage s 0x2A 0 [], congrArg Host.Outcome.next ((if_pos ⟨hstage, hhost⟩).trans ?_), rfl, rfl⟩
    rw [List.foldl_cons, List.foldl_cons, List.foldl_nil, if_pos h0, if_neg (Bool.eq_false_iff.mp h1)]
    rfl
  case data =>
    intro s link m hphase hsource hhost hpay hpart
    refine congrArg Host.Outcome.next ((if_neg ?_).trans (if_pos (by simp [hpart])))
    rintro (h | ⟨hzero, hother⟩ | h | h)
    · exact h hphase
    · exact hsource.elim hzero hother
    · exact Bool.false_ne_true (hhost.symm.trans h)
    · exact hpay h
  case stall =>
    intro s hphase hsource
    exact ⟨_, congrArg Host.Outcome.next (if_pos ⟨hphase, hsource⟩), reopenRecovery_atLeast _ s⟩

end Sys2Proof.Machine
end

section
/-!
PROOFS. How an operator's row begins and ends (O44), and what one that completes leaves behind (O50).
-/

namespace Sys2Proof.Machine

/-! ## Rows -/

/-- A row whose operator is of another mode, or is not in an open step, does nothing. -/
theorem exec_row_otherMode {i : Instr} {w : OperatorRow} {s : State} (hi : operatorRow i = some w)
    (hm : ∀ c, ctxOf s w.plan w.op = some c → w.mode c.e = false) : exec i s = .next s := by
  cases hc : ctxOf s w.plan w.op with
  | none =>
    cases i <;> simp only [operatorRow, Option.some.injEq, reduceCtorEq] at hi <;> subst hi <;>
      simp_all [exec, runOp, plainRow, execScan, execDecode, execEncode, execCheck, execRelayout, execFilter, execProject, execHash,
        execBucket, execNormalise, execStats, execJoinBuild, execJoinProbe, execGroupAgg, execSort, execGather, execPoolGather,
        execScatterUpdate, execDense, execActivate, execNorm, execInteract, execAttendShort, execSoftmax, execDenseGradInput,
        execDenseGradWeight, execOptStep, execTopk, execTopkCollective, execMatchOp, execExchangeSend, execExchangeReturn,
        execReduce, execAllgather, execBarrier, execEmit]
  | some c =>
    have hmode := hm c hc
    cases i <;> simp only [operatorRow, Option.some.injEq, reduceCtorEq] at hi <;> subst hi <;>
      simp_all [exec, plainRow, execDenseGradInput, execDenseGradWeight, execTopk, execTopkCollective, execExchangeSend,
        execExchangeReturn, gradModeOk, topModeOk, exchangeModeOk]

/-- An operator that is not the next one of its stage does nothing. -/
theorem runRow_unready {w : OperatorRow} {s : State} {c : Ctx} (hc : ctxOf s w.plan w.op = some c)
    (h : c.e.op ≠ w.kind ∨ isRunning c.p = false ∨ s.power.state ≠ .active ∨ opReady c.p c.o w.op = false) : runRow w s = s := by
  simp only [runRow, runOp, hc]
  exact if_pos (by simpa using h)

/-- One that is ready goes past the first check. -/
theorem ready_passes {w : OperatorRow} {s : State} {c : Ctx} (h : RowReady w s c) :
    ¬ (c.e.op ≠ w.kind ∨ (!isRunning c.p) = true ∨ s.power.state ≠ .active ∨ (!opReady c.p c.o w.op) = true) := by
  obtain ⟨-, hop, -, hrun, hpower, hready⟩ := h
  simp [hop, hrun, hpower, hready]

/-- One whose cores are halted, or whose row is being refetched, is held. -/
theorem runRow_held {w : OperatorRow} {s : State} {c : Ctx} (h : RowReady w s c)
    (hheld : anyHalted s (rowSlots w s c) = true ∨ waitsRefetch s c.p = true) : runRow w s = onStep w.plan (heldWith w.op w.faults) s := by
  simp only [runRow, runOp, h.1]
  exact (if_neg (ready_passes h)).trans (if_pos hheld)

/-- One that stops at a breakpoint is held. -/
theorem runRow_stopped {w : OperatorRow} {s : State} {c : Ctx} (h : RowReady w s c) (hhalt : anyHalted s (rowSlots w s c) = false)
    (hrow : waitsRefetch s c.p = false) (hhits : breakHits s c.p (stageOfOp c.p.bin w.op) w.op ≠ []) :
    runRow w s = onStep w.plan (heldWith w.op w.faults) (applyBreaks (breakHits s c.p (stageOfOp c.p.bin w.op) w.op) s) := by
  have hfree : ¬ (anyHalted s (rowSlots w s c) = true ∨ waitsRefetch s c.p = true) := by simp [hhalt, hrow]
  simp only [runRow, runOp, h.1]
  exact (if_neg (ready_passes h)).trans ((if_neg hfree).trans (if_pos (by simpa using hhits)))

/-- Reads that meet a detection leave a step to replay. -/
theorem applyFaults_replay {f : ReadFaults} (h : f.farFail = true ∨ f.units.any unitValid = true) (g : Word) (s : State) :
    (applyFaults g f s).replay = true := by
  have hkeeps (l : List Nat) (x : FaultsLeft) (hx : x.replay = true) : (l.foldl (fun acc n =>
      let r := badSector g (n * 64) acc.s
      { s := r.1
        replay := acc.replay || r.2 = .replay
        wait := acc.wait || r.2 = .refetch
        poisoned := acc.poisoned || r.2 = .endRun }) x).replay = true := by
    induction l generalizing x with
    | nil => exact hx
    | cons n l ih => exact ih _ (by simp [hx])
  exact hkeeps _ _ (by simpa using h)

/-- One whose reads meet a detection leaves the step to replay. -/
theorem runRow_detected {w : OperatorRow} {s : State} {c : Ctx} (h : RowReady w s c) (hfree : RowFree w s c)
    (hf : w.faults.farFail = true ∨ w.faults.units.any unitValid = true) :
    runRow w s = foldBroken c (refreshPoison w.plan (applyFaults w.plan w.faults (onStep w.plan (faultsTaken w.op) s)).s) := by
  obtain ⟨hhalt, hrow, hbreak⟩ := hfree
  have hgo : ¬ (anyHalted s (rowSlots w s c) = true ∨ waitsRefetch s c.p = true) := by simp [hhalt, hrow]
  simp only [runRow, runOp, h.1]
  exact (if_neg (ready_passes h)).trans ((if_neg hgo).trans ((if_neg (by simp [hbreak])).trans (if_pos (applyFaults_replay hf _ _))))

/-- One whose reads are clean comes to the lookups of its blocks and its checks. -/
theorem runRow_clean {w : OperatorRow} {s : State} {c0 c : Ctx} (h : RowReady w s c0) (hfree : RowFree w s c0)
    (hf : ReadsClean w.faults) (hc : ctxOf (begun w s) w.plan w.op = some c) :
    (blocksRefused c = true → runRow w s = endRun w.plan .access (begun w s)) ∧
    (blocksRefused c = false → 0 < requestsDropped c → runRow w s = dropRequests w.plan w.op (requestsDropped c) (begun w s)) ∧
    (∀ st, BlocksServed c → w.pre c = some st → runRow w s = endRun w.plan st (begun w s)) := by
  obtain ⟨hctx, hop, -, hrun, hpower, hready⟩ := h
  obtain ⟨hhalt, hrow, hbreak⟩ := hfree
  simp only [rowSlots] at hhalt
  rw [begun] at hc
  dsimp only at hc
  have hrun : runRow w s = if blocksRefused c then endRun w.plan .access (begun w s)
      else if 0 < requestsDropped c then dropRequests w.plan w.op (requestsDropped c) (begun w s)
      else match w.pre c with
        | some st => endRun w.plan st (begun w s)
        | none => endOp w.plan (rowSlots w s c0) c (keepChecks w.faults (w.body (startWrites c))) (begun w s) := by
    simp [runRow, runOp, hctx, hop, hrun, hpower, hready, hhalt, hrow, hbreak, applyFaults_clean w.plan w.faults _ hf, hc, begun,
      rowSlots] <;> rfl
  refine ⟨fun hb => ?_, fun hb hd => ?_, fun st ⟨hb, hd⟩ hp => ?_⟩
  · rw [hrun, if_pos hb]
  · rw [hrun, if_neg (Bool.eq_false_iff.mp hb), if_pos hd]
  · rw [hrun, if_neg (Bool.eq_false_iff.mp hb), if_neg (by omega), hp]

/-- A breakpoint that stops an operator is marked. -/
theorem applyBreaks_hit {hits : List (Nat × Nat)} {s : State} {e : Nat × Nat} {b : Breakpoint} (he : e ∈ hits)
    (hb : (e.1, b) ∈ (applyBreaks hits s).dbg.breakpoints) : b.hit = true := by
  obtain ⟨x, -, hx⟩ := List.mem_map.mp hb
  have hkey : x.1 = e.1 := by
    split at hx
    · exact congrArg Prod.fst hx
    · exact congrArg Prod.fst hx
  rw [if_pos (List.any_eq_true.mpr ⟨e, he, by simp [hkey]⟩)] at hx
  have hsnd : { x.2 with hit := true } = b := congrArg Prod.snd hx
  rw [← hsnd]

/-- Settles O44. -/
theorem operatorsBeginInOrder : Obligations.OperatorsBeginInOrder := by
  unfold Obligations.OperatorsBeginInOrder
  refine ⟨?absent, ?unready, ?held, ?stopped, ?detected, ?lookups, ?ends⟩
  case absent => exact fun i w s hi hc => exec_row_otherMode hi (fun c h => by simp [hc] at h)
  case unready =>
    intro i w s c hi hc h
    cases hm : w.mode c.e with
    | false => exact exec_row_otherMode hi (fun x hx => by rw [← Option.some.inj (hc.symm.trans hx)]; exact hm)
    | true => rw [exec_row hi hc hm, runRow_unready hc (by simpa [hm] using h)]
  case held =>
    intro i w s c hi h hheld
    rw [exec_row hi h.1 h.2.2.1, runRow_held h hheld]
  case stopped =>
    intro i w s c hits hi h hhalt hrow hhits hne
    subst hhits
    refine ⟨by rw [exec_row hi h.1 h.2.2.1, runRow_stopped h hhalt hrow hne], fun e he b hb => applyBreaks_hit he hb⟩
  case detected =>
    intro i w s c hi h hfree hf
    rw [exec_row hi h.1 h.2.2.1, runRow_detected h hfree hf]
  case lookups =>
    intro i w s c0 c hi h hfree hf hc
    rw [exec_row hi h.1 h.2.2.1]
    obtain ⟨hrefused, hdropped, hfails⟩ := runRow_clean h hfree hf hc
    exact ⟨fun hb => by rw [hrefused hb], fun hb hd => by rw [hdropped hb hd], fun st hb hp => by rw [hfails st hb hp]⟩
  case ends =>
    intro i w s c0 c hi hb
    rw [exec_begins hi hb]
    refine ⟨fun st h => ?_, fun x st h => ?_, fun x h => ?_, fun x h => ?_, fun h => ?_, fun x u h => ?_⟩ <;> rw [h] <;> rfl

/-! ## What a completed operator leaves (O50) -/

/-- A plan of one rank with one BARRIER. -/
def barrierOnly : Plan :=
  { handle := 1, session := 0
    bin :=
      { dies := 0, fabricRanks := 1
        stages := [{ firstOp := 0, opCount := 1, cls := .fabric, firstOnly := false, skipDerated := false, cores := 0, craterMask := 0 }]
        ops := [{ op := .barrier, in0 := none, in1 := none, in2 := none, out0 := none, out1 := none, params := [] }]
        descs := [], edges := [], binds := [] }
    craters := [[]], otherCraters := [], owners := [], guests := [], nearBytes := 0, stageBase := [0, 0], stageSize := [0x1000, 0]
    taps := [], dieMaps := [], craterMaps := [], nextStep := 0, commit := none, mirrorSeqs := [], run := none, pieces := [], localMem := [] }

/-- A run of it that is in its first step, -/
def waitingRun : Run := newRun { port := 0, ring := 1, tag := 9, ringSeq := 0, opcode := 0x41, noIrq := false } barrierOnly 1 0

/-- to which the twin has delivered a sector. -/
def deliveredStep : OpenStep := { freshStep barrierOnly waitingRun (viewNow State.reset []) 0 with fetched := [5] }

def deliveredPlan : Plan := { barrierOnly with run := some { waitingRun with openStep := some deliveredStep } }

def deliveredState : State := { State.reset with power := { PowerUnit.reset with state := .active }, plans := [deliveredPlan] }

def barrierRow : OperatorRow := plainRow 1 0 noFaults .barrier wholeOperands barrierBody

/-- The context of the BARRIER in a state. -/
def barrierCtx (s : State) : Ctx :=
  { s := s, p := deliveredPlan, r := { waitingRun with openStep := some deliveredStep }, o := deliveredStep, op := 0
    e := { op := .barrier, in0 := none, in1 := none, in2 := none, out0 := none, out1 := none, params := [] } }

/-- Refutes O50: an operator that is done forgets the sectors that the twin had delivered to its step. -/
theorem not_operatorsChangeOnlyTheirStep : ¬ Obligations.OperatorsChangeOnlyTheirStep := by
  unfold Obligations.OperatorsChangeOnlyTheirStep
  intro h
  have hplan := (h (.barrier 1 0 noFaults) barrierRow deliveredState (barrierCtx deliveredState)
    (barrierCtx (begun barrierRow deliveredState)) _ _ rfl (by decide +kernel) rfl (by decide +kernel) rfl).2.2.1
  have hfetched := congrArg (fun p => (p.bind (fun q => q.run.bind (·.openStep))).map (·.fetched)) hplan
  exact absurd hfetched (by decide +kernel)

end Sys2Proof.Machine
end

section
/-!
PROOFS. Operators that write outputs: what they leave as it was, and when they are done (O45, O46).
-/

namespace Sys2Proof.Machine

/-! ## What an operator that writes outputs leaves as it was (R161) -/

/-- A context without the outputs and counters of its step, what its taps saw and the free values taken. -/
def outputFrame (c : Ctx) : Ctx :=
  { c with
    s := { c.s with taps := [], freeCount := 0 }
    o := { c.o with
      scratch := [], commitBuf := [], pieceWrites := [], localWrites := [], stageWrites := [], aliased := [], rowKeys := []
      counters := countersZero } }

/-- Equal frames: the second context differs in outputs and counters only. -/
theorem writesOutputs_of_frame {c c' : Ctx} (h : outputFrame c' = outputFrame c) : WritesOutputs c c' := by
  let back (k : Ctx) : Ctx :=
    { k with
      s := { k.s with taps := c'.s.taps, freeCount := c'.s.freeCount }
      o := { k.o with
        scratch := c'.o.scratch, commitBuf := c'.o.commitBuf, pieceWrites := c'.o.pieceWrites, localWrites := c'.o.localWrites
        stageWrites := c'.o.stageWrites, aliased := c'.o.aliased, rowKeys := c'.o.rowKeys, counters := c'.o.counters } }
  have heq : back (outputFrame c') = back (outputFrame c) := by rw [h]
  exact heq

theorem frame_p {c c' : Ctx} (h : outputFrame c' = outputFrame c) : c'.p = c.p :=
  show (outputFrame c').p = (outputFrame c).p by rw [h]
theorem frame_op {c c' : Ctx} (h : outputFrame c' = outputFrame c) : c'.op = c.op :=
  show (outputFrame c').op = (outputFrame c).op by rw [h]
theorem frame_e {c c' : Ctx} (h : outputFrame c' = outputFrame c) : c'.e = c.e :=
  show (outputFrame c').e = (outputFrame c).e by rw [h]

theorem foldl_outputFrame {α : Type} {f : Ctx → α → Ctx} (hf : ∀ c a, outputFrame (f c a) = outputFrame c) (l : List α) (c : Ctx) :
    outputFrame (l.foldl f c) = outputFrame c := by
  induction l generalizing c with
  | nil => rfl
  | cons a l ih => rw [List.foldl_cons, ih, hf]

@[simp] theorem pieceWrite_frame (k a : Nat) (bs : List Byte) (c : Ctx) : outputFrame (pieceWrite k a bs c) = outputFrame c := by
  unfold pieceWrite
  generalize pieceRuns c.p k (cDesc c k) (bs.length + 1) a bs.length = l
  generalize ownStage c = g
  suffices h : ∀ acc : Ctx × List Byte, outputFrame (l.foldl (fun (acc : Ctx × List Byte) e =>
      let x := acc.1
      ((match e.1 with
        | none => x
        | some (core, off) =>
          let key := pieceWriteKey g k core
          let cells := overWrite ((sget x.o.pieceWrites key).getD []) off (acc.2.take e.2)
          { x with o := { x.o with pieceWrites := sset x.o.pieceWrites key cells } }),
        acc.2.drop e.2)) acc).1 = outputFrame acc.1 from h (c, bs)
  induction l with
  | nil => exact fun _ => rfl
  | cons e l ih =>
    intro acc
    rw [List.foldl_cons, ih]
    rcases e with ⟨_ | _, _⟩ <;> rfl

@[simp] theorem dWrite_frame (k : Nat) (a : Int) (bs : List Byte) (c : Ctx) : outputFrame (dWrite k a bs c) = outputFrame c := by
  unfold dWrite
  dsimp only
  split
  · split <;> rfl
  · rfl
  · exact pieceWrite_frame ..
  · rfl

@[simp] theorem aliasElem_frame (k : Nat) (a : Int) (code : Nat) (v : FVal) (c : Ctx) :
    outputFrame (aliasElem k a code v c) = outputFrame c := (dWrite_frame ..).trans rfl

@[simp] theorem aliasPad_frame (k : Nat) (a : Int) (n : Nat) (c : Ctx) : outputFrame (aliasPad k a n c) = outputFrame c :=
  foldl_outputFrame (fun x i => by
    dsimp only
    split
    · rfl
    · exact dWrite_frame ..) _ _

@[simp] theorem rowAlias_frame (k r : Nat) (els : List (Nat × FVal)) (c : Ctx) : outputFrame (rowAlias k r els c) = outputFrame c := by
  have helems : outputFrame (els.zipIdx.foldl (fun x (e, i) => aliasElem k (elemAddress (cDesc c k) r i) e.1 e.2 x) c) =
      outputFrame c := foldl_outputFrame (fun x e => aliasElem_frame ..) _ _
  unfold rowAlias
  dsimp only
  split
  · exact (aliasPad_frame ..).trans helems
  · exact helems

@[simp] theorem rowWrite_frame (k r : Nat) (bs : List Byte) (c : Ctx) : outputFrame (rowWrite k r bs c) = outputFrame c := by
  unfold rowWrite
  dsimp only
  split
  · exact rowAlias_frame ..
  · exact dWrite_frame ..

@[simp] theorem valuesWrite_frame (k r : Nat) (vs : List FVal) (c : Ctx) : outputFrame (valuesWrite k r vs c) = outputFrame c := by
  unfold valuesWrite
  dsimp only
  split
  · exact rowAlias_frame ..
  · exact rowWrite_frame ..

@[simp] theorem rowsWriteAt_frame (k : Nat) (rows : List (Nat × List Byte)) (c : Ctx) :
    outputFrame (rowsWriteAt k rows c) = outputFrame c := foldl_outputFrame (fun _ _ => rowWrite_frame ..) _ _

@[simp] theorem rowsWrite_frame (k : Nat) (rows : List (List Byte)) (c : Ctx) :
    outputFrame (rowsWrite k rows c) = outputFrame c := rowsWriteAt_frame ..

@[simp] theorem bytesWrite_frame (k : Nat) (bs : List Byte) (c : Ctx) : outputFrame (bytesWrite k bs c) = outputFrame c := by
  unfold bytesWrite
  dsimp only
  split
  · exact dWrite_frame ..
  · exact foldl_outputFrame (fun _ _ => rowWrite_frame ..) _ _

@[simp] theorem linearWrite_frame (k off : Nat) (bs : List Byte) (c : Ctx) : outputFrame (linearWrite k off bs c) = outputFrame c := by
  unfold linearWrite
  dsimp only
  split
  · exact dWrite_frame ..
  · exact foldl_outputFrame (fun _ _ => dWrite_frame ..) _ _

@[simp] theorem maskWrite_frame (k : Nat) (sel : List Bool) (c : Ctx) : outputFrame (maskWrite k sel c) = outputFrame c :=
  foldl_outputFrame (fun _ _ => rowWrite_frame ..) _ _

@[simp] theorem bump_frame (id n : Nat) (c : Ctx) : outputFrame (bump id n c) = outputFrame c := rfl

@[simp] theorem bumps_frame (l : List (Nat × Nat)) (c : Ctx) : outputFrame (bumps l c) = outputFrame c :=
  foldl_outputFrame (α := Nat × Nat) (f := fun x e => bump e.1 e.2 x) (fun _ _ => rfl) l c

@[simp] theorem setExt_frame (id n : Nat) (c : Ctx) : outputFrame (setExt id n c) = outputFrame c := rfl

@[simp] theorem setExts_frame (l : List (Nat × Nat)) (c : Ctx) : outputFrame (setExts l c) = outputFrame c :=
  foldl_outputFrame (α := Nat × Nat) (f := fun x e => setExt e.1 e.2 x) (fun _ _ => rfl) l c

@[simp] theorem countNans_frame (n : Nat) (c : Ctx) : outputFrame (countNans n c) = outputFrame c := rfl

@[simp] theorem keepKeys_frame (i o : Nat) (c : Ctx) : outputFrame (keepKeys i o c) = outputFrame c := by
  unfold keepKeys
  split <;> rfl

@[simp] theorem putValues_frame (k r nans : Nat) (moved : List (Option Nat)) (xs : List FVal) (c : Ctx) :
    outputFrame (putValues k r nans moved xs c) = outputFrame c := (countNans_frame ..).trans (rowWrite_frame ..)

@[simp] theorem startWrites_frame (c : Ctx) : outputFrame (startWrites c) = outputFrame c := by
  unfold startWrites
  split <;> rfl

/-- Taps that see data are all that changes in the state. -/
theorem taps_frame {c : Ctx} {s : State} (h : s = { c.s with taps := s.taps, freeCount := s.freeCount }) :
    outputFrame { c with s := s } = outputFrame c := by
  rw [h]
  rfl

@[simp] theorem mapRows_frame (c : Ctx) (f : Bool → List Byte → List Byte → RowResult) : outputFrame (mapRows c f) = outputFrame c := by
  refine (foldl_outputFrame (fun x r => ?_) _ _).trans (keepKeys_frame ..)
  dsimp only
  split
  · rfl
  · simp

@[simp] theorem eachRowMoving_frame (c : Ctx) (moved : Nat → List (Option Nat))
    (f : Nat → List FVal → List FVal × Nat × List (Nat × Nat)) : outputFrame (eachRowMoving c moved f) = outputFrame c :=
  foldl_outputFrame (fun x r => by simp) _ _

@[simp] theorem eachRow_frame (c : Ctx) (f : Nat → List FVal → List FVal × Nat × List (Nat × Nat)) :
    outputFrame (eachRow c f) = outputFrame c := eachRowMoving_frame ..

@[simp] theorem putRecord_frame (row : Nat) (bs : List Byte) (c : Ctx) : outputFrame (putRecord row bs c) = outputFrame c := by
  simp [putRecord]

@[simp] theorem countScan_frame (n : Nat) (x : Scan) (c : Ctx) : outputFrame (countScan n x c) = outputFrame c := by
  simp [countScan]

/-! ## Operators that are done by their command -/

/-- What is done leaves the frame of a context as it was. -/
def DoneWithin (c : Ctx) (r : OpEnd) : Prop := ∃ x, r = .done x ∧ outputFrame x = outputFrame c

/-- An operator that begins and whose body is done, having written outputs only. -/
theorem completes_of_doneWithin {i : Instr} {w : OperatorRow} {s : State} {c0 c b : Ctx} (hi : operatorRow i = some w)
    (hb : OpBegins w s c0 c) (hbc : outputFrame b = outputFrame c) (h : DoneWithin c (w.body (startWrites c))) :
    Completes i w s c0 c (WritesOutputs b) := by
  obtain ⟨x, hx, hframe⟩ := h
  exact completes_of_done hi hb hx (writesOutputs_of_frame (hframe.trans hbc.symm))

theorem encodeOp_done (c : Ctx) : DoneWithin c (encodeOp c) := by
  refine ⟨_, rfl, ?_⟩
  rw [bumps_frame, setExt_frame, linearWrite_frame]
  exact foldl_outputFrame (fun _ _ => rowWrite_frame ..) _ _

theorem filterBody_done (c : Ctx) : DoneWithin c (filterBody c) := ⟨_, rfl, by rw [bumps_frame, maskWrite_frame]⟩

theorem sortBody_done (c : Ctx) : DoneWithin c (sortBody c) := by
  refine ⟨_, rfl, ?_⟩
  rw [bumps_frame]
  split
  · exact foldl_outputFrame (fun _ _ => rowWrite_frame ..) _ _
  · exact (bytesWrite_frame ..).trans (foldl_outputFrame (fun _ _ => rowWrite_frame ..) _ _)

theorem denseGradBody_done (c : Ctx) : DoneWithin c (denseGradBody c) := by
  unfold denseGradBody
  split
  · exact ⟨_, rfl, by rw [bumps_frame, rowsWrite_frame]⟩
  · exact ⟨_, rfl, by rw [bumps_frame, eachRow_frame]⟩

theorem topkBody_done (c : Ctx) : DoneWithin c (topkBody c) := by
  refine ⟨_, rfl, foldl_outputFrame (fun x r => ?_) _ _⟩
  dsimp only
  split <;> simp

/-- The operators that write their outputs and nothing else. -/
theorem outputBody_done {h : Word} {op : Nat} {f : ReadFaults} {i : Instr} {w : OperatorRow}
    (hi : i ∈ [Instr.encode h op f, .filter h op f, .project h op f, .hash h op f, .normalise h op f, .sort h op f,
      .activate h op f, .norm h op f, .interact h op f, .attendShort h op f, .softmax h op f, .denseGradInput h op f,
      .denseGradWeight h op f, .topk h op f]) (hw : operatorRow i = some w) (c : Ctx) : DoneWithin c (w.body c) := by
  simp only [List.mem_cons, List.not_mem_nil, or_false] at hi
  rcases hi with rfl | rfl | rfl | rfl | rfl | rfl | rfl | rfl | rfl | rfl | rfl | rfl | rfl | rfl <;>
    rw [← Option.some.inj hw]
  · exact encodeOp_done c
  · exact filterBody_done c
  · exact ⟨_, rfl, mapRows_frame ..⟩
  · exact ⟨_, rfl, mapRows_frame ..⟩
  · exact ⟨_, rfl, mapRows_frame ..⟩
  · exact sortBody_done c
  · exact ⟨_, rfl, eachRowMoving_frame ..⟩
  · exact ⟨_, rfl, eachRow_frame ..⟩
  · exact ⟨_, rfl, eachRowMoving_frame ..⟩
  · exact ⟨_, rfl, eachRow_frame ..⟩
  · exact ⟨_, rfl, eachRow_frame ..⟩
  · exact denseGradBody_done c
  · exact denseGradBody_done c
  · exact topkBody_done c

/-- R269: a group that holds terms passes a row whole. -/
theorem groupsPass_eq (ts : List FilterTerm) (row : List Byte) : groupsPass ts row =
    (List.range 4).any (fun g => ts.any (fun t => t.group = g) && ts.all (fun t => t.group ≠ g || termTrue row t)) := by
  unfold groupsPass
  congr 1
  funext g
  simp only [List.all_filter, ne_eq, decide_not]
  congr 1
  cases hl : ts.filter (fun t => decide (t.group = g)) with
  | nil => simpa using List.filter_eq_nil_iff.mp hl
  | cons t l =>
    have ht : t ∈ ts.filter (fun t => decide (t.group = g)) := hl ▸ List.mem_cons_self
    simpa using ⟨t, (List.mem_filter.mp ht).1, by simpa using (List.mem_filter.mp ht).2⟩

/-- FILTER counts the rows selected before and after, and writes the mask of those that a group passes. -/
theorem filterBody_eq (c : Ctx) : ∃ pool, filterBody c = .done
    (bumps [(1, ((rowsOf c (c.e.in0.getD 0)).filter (maskBit c c.e.in1)).length),
        (2, ((rowsOf c (c.e.in0.getD 0)).filter
          (fun r => maskBit c c.e.in1 r && groupsPass (filterTerms c.e) (rowRead c (c.e.in0.getD 0) r))).length),
        (3, rowCount (cDesc c (c.e.in0.getD 0)) * pool)]
      (maskWrite (c.e.out0.getD 0) (spreadRows c (c.e.in0.getD 0) (fun _ => false)
        ((rowsOf c (c.e.in0.getD 0)).map (fun r => maskBit c c.e.in1 r && (List.range 4).any (fun g =>
          (filterTerms c.e).any (fun t => t.group = g) &&
            (filterTerms c.e).all (fun t => t.group ≠ g || termTrue (rowRead c (c.e.in0.getD 0) r) t))))) c)) := by
  unfold filterBody
  extract_lets k ts sel out d inPool pool
  refine ⟨pool, ?_⟩
  have hsel : sel.countP id = ((rowsOf c k).filter (maskBit c c.e.in1)).length := by
    rw [List.countP_map, List.countP_eq_length_filter, Function.id_comp]
  have hout : out.countP id = ((rowsOf c k).filter (fun r => maskBit c c.e.in1 r && groupsPass ts (rowRead c k r))).length := by
    rw [List.countP_map, List.countP_eq_length_filter, Function.id_comp]
  rw [hsel, hout]
  simp only [out, groupsPass_eq]
  rfl

/-- Settles O45. -/
theorem outputOperatorsComplete : Obligations.OutputOperatorsComplete := by
  unfold Obligations.OutputOperatorsComplete
  refine ⟨fun h op f i w s c0 c hmem hi hb => ?_, fun h op f w s c0 c b k hi hb hbs hk => ?_⟩
  · obtain ⟨x, hx, hframe⟩ := outputBody_done hmem hi (startWrites c)
    exact completes_of_doneWithin hi hb rfl ⟨x, hx, hframe.trans (startWrites_frame c)⟩
  · obtain ⟨pool, hdone⟩ := filterBody_eq b
    subst hbs hk
    rw [frame_e (startWrites_frame c)] at hdone
    exact ⟨pool, completes_of_done hi hb (by rw [← Option.some.inj hi]; exact hdone) rfl⟩

end Sys2Proof.Machine
end

section
/-!
PROOFS. Operators that check their data before they write (O46).
-/

namespace Sys2Proof.Machine

/-! ## What taps see -/

/-- Taps and free values aside, two states agree. -/
def SeenOnly (s t : State) : Prop := t = { s with taps := t.taps, freeCount := t.freeCount }

theorem SeenOnly.refl (s : State) : SeenOnly s s := rfl

theorem SeenOnly.trans {s t u : State} (h : SeenOnly s t) (g : SeenOnly t u) : SeenOnly s u := by
  unfold SeenOnly at *
  rw [g, h]

theorem foldl_seenOnly {α : Type} {f : State → α → State} (hf : ∀ s a, SeenOnly s (f s a)) (l : List α) (s : State) :
    SeenOnly s (l.foldl f s) := by
  induction l generalizing s with
  | nil => exact .refl s
  | cons a l ih => exact (hf s a).trans (ih (f s a))

theorem foldStream_seen (stream die unit sid va : Nat) (bs : List Byte) (s : State) :
    SeenOnly s (foldStream stream die unit sid va bs s) := rfl

theorem freeTaps_seen (sid : Nat) (sees : Nat → Tap → Nat) (s : State) : SeenOnly s (freeTaps sid sees s) := by
  unfold freeTaps
  split <;> rfl

theorem foldRanges_seen (c : Ctx) (vent : Bool) (bytes : Nat → Nat → List Byte) (l : List (Nat × Nat)) (s : State) :
    SeenOnly s (foldRanges c vent bytes l s) := by
  refine foldl_seenOnly (fun x g => ?_) _ s
  dsimp only
  split
  · split
    · exact foldStream_seen ..
    · exact .refl x
  · split
    · exact .refl x
    · exact foldStream_seen ..

theorem foldReads_seen (c : Ctx) (k : Nat) (s : State) : SeenOnly s (foldReads c k s) := by
  unfold foldReads
  split
  · exact .refl s
  · exact foldRanges_seen ..

/-- What RELAYOUT lets its taps see. -/
@[simp] theorem rlTapsSee_frame (i o : Descriptor) (c : Ctx) : outputFrame (rlTapsSee i o c) = outputFrame c := by
  unfold rlTapsSee
  split
  · rfl
  extract_lets k ranges far s1 s2
  have h1 : SeenOnly c.s s1 := by
    unfold s1
    split
    · exact .refl _
    · exact freeTaps_seen ..
  refine taps_frame (h1.trans ?_)
  unfold s2
  split
  · exact .refl _
  · split
    · exact freeTaps_seen ..
    · exact foldl_seenOnly (fun x w => foldl_seenOnly (fun y t => foldStream_seen ..) _ x) _ s1

/-- What CHECK lets its taps see. -/
@[simp] theorem checkTapsSee_frame (last : Nat) (again : Option Nat) (c : Ctx) :
    outputFrame (checkTapsSee last again c) = outputFrame c := by
  unfold checkTapsSee
  split
  · rfl
  · exact taps_frame (((foldRanges_seen ..).trans (foldReads_seen ..)).trans (freeTaps_seen ..))

/-! ## The checks that data passes -/

theorem bucketBody_done {c : Ctx}
    (h : ∀ x ∈ bucketEntries c.e, boundaryOk (cDesc c (c.e.in2.getD 0)).format (boundsOf c x) = true) : DoneWithin c (bucketBody c) := by
  have hall : ((bucketEntries c.e).map (fun x => (x, boundsOf c x))).all
      (fun p => boundaryOk (cDesc c (c.e.in2.getD 0)).format p.2) = true := by
    simpa [List.all_eq_true] using h
  exact ⟨_, if_neg (by rw [hall]; decide), mapRows_frame ..⟩

theorem relayoutBody_done {c : Ctx} (h : rlMalformed c (cDesc c (c.e.in0.getD 0)) (cDesc c (c.e.out0.getD 0)) = false) :
    DoneWithin c (relayoutBody c) := by
  unfold relayoutBody
  dsimp only
  rw [h, if_neg Bool.false_ne_true]
  split
  · refine ⟨_, rfl, ?_⟩
    rw [rlTapsSee_frame, bumps_frame, countNans_frame]
    exact foldl_outputFrame (fun _ _ => dWrite_frame ..) _ _
  · refine ⟨_, rfl, ?_⟩
    rw [rlTapsSee_frame, bumps_frame, countNans_frame]
    exact (foldl_outputFrame (fun _ _ => dWrite_frame ..) _ _).trans (foldl_outputFrame (fun _ _ => dWrite_frame ..) _ _)

@[simp] theorem tableWrite_frame (k : Nat) (h : TableHead) (step : Nat) (slots : Sparse TableSlot) (c : Ctx) :
    outputFrame (tableWrite k h step slots c) = outputFrame c := bytesWrite_frame ..

theorem joinBuildBody_done {c : Ctx} (hfar : tableFar c (c.e.out0.getD 0) = false)
    (hroom : ((((canonicalRows c (c.e.in0.getD 0)).filter (maskBit c c.e.in1)).map (rowRead c (c.e.in0.getD 0))).foldl
      (buildRow c.e) noRows).full = false) : DoneWithin c (joinBuildBody c) := by
  unfold joinBuildBody
  unfold noRows at hroom
  dsimp only
  rw [hfar, if_neg Bool.false_ne_true, hroom, if_neg Bool.false_ne_true]
  exact ⟨_, rfl, by rw [bumps_frame, tableWrite_frame]⟩

theorem joinProbeBody_done {c : Ctx} (hfar : tableFar c (c.e.in2.getD 0) = false)
    (hhead : probeHeadOk c.e (bytesOf c (c.e.in2.getD 0)).length (parseTable (bytesOf c (c.e.in2.getD 0))) = true) :
    DoneWithin c (joinProbeBody c) := by
  unfold joinProbeBody
  dsimp only
  rw [hfar, if_neg Bool.false_ne_true, hhead, if_neg (by decide)]
  refine ⟨_, rfl, ?_⟩
  split
  · exact mapRows_frame ..
  · exact (maskWrite_frame ..).trans (mapRows_frame ..)

theorem optStepBody_done {c : Ctx} (h : par c 192 64 ≤ c.p.nextStep) : DoneWithin c (optStepBody c) := by
  unfold optStepBody
  dsimp only
  rw [if_neg (by omega)]
  refine ⟨_, rfl, ?_⟩
  rw [bumps_frame]
  refine foldl_outputFrame (fun x r => ?_) _ _
  split <;> simp

theorem checkOp_done {faults : ReadFaults} {c : Ctx} (h : ∀ x ∈ (segmentValues faults c).zipIdx, x.1.toNat = storedValue c x.2) :
    DoneWithin c (checkOp faults c) := by
  have hnone : (segmentValues faults c).zipIdx.find? (fun (v, g) => decide (v.toNat ≠ storedValue c g)) = none :=
    List.find?_eq_none.mpr (fun x hx => by simpa using h x hx)
  unfold checkOp
  dsimp only
  rw [hnone]
  refine ⟨_, rfl, ?_⟩
  rw [checkTapsSee_frame, setExts_frame, bump_frame]
  split
  · rfl
  · exact bytesWrite_frame ..

theorem densePass_done {weights : List (List Byte)} {c : Ctx} (h : weightsBad (cDesc c (c.e.in1.getD 0)) weights = false) :
    DoneWithin c (densePass weights c) := by
  unfold densePass
  dsimp only
  rw [h, if_neg Bool.false_ne_true]
  exact ⟨_, rfl, by rw [bumps_frame, eachRow_frame]⟩

@[simp] theorem putMatches_frame (p : MatchParams) (results : List ((Nat × Nat × Nat) × Option Hit)) (c : Ctx) :
    outputFrame (putMatches p results c) = outputFrame c := by
  refine (bumps_frame ..).trans (foldl_outputFrame (fun _ _ => rowWrite_frame ..) _ _)

theorem matchBody_done {c : Ctx} (h : (matchParams c.e).chain = 0) : DoneWithin c (matchBody c) :=
  ⟨_, if_pos h, putMatches_frame ..⟩

/-! ## Relayed weights (R420) -/

/-- The plan, the operator and its entry, which messages between ranks leave as they are. -/
def opPlace (c : Ctx) : Plan × Nat × OpEntry := (c.p, c.op, c.e)

theorem opPlace_of_frame {c c' : Ctx} (h : outputFrame c' = outputFrame c) : opPlace c' = opPlace c := by
  unfold opPlace
  rw [frame_p h, frame_op h, frame_e h]

theorem foldl_opPlace {α : Type} {f : Ctx → α → Ctx} (hf : ∀ c a, opPlace (f c a) = opPlace c) (l : List α) (c : Ctx) :
    opPlace (l.foldl f c) = opPlace c := by
  induction l generalizing c with
  | nil => rfl
  | cons a l ih => rw [List.foldl_cons, ih, hf]

theorem sendData_place (dest : Nat) (epoch : BitVec 32) (cls kind : Nat) (c : Ctx) (op rank dst phase : Nat) (bs : List Byte) :
    opPlace (sendData dest epoch cls kind c op rank dst phase bs) = opPlace c := rfl

theorem mark_place (op phase src dst : Nat) (c : Ctx) : opPlace (mark op phase src dst c) = opPlace c := rfl

theorem deposit_place (kind op phase src dst : Nat) (bs : List Byte) (c : Ctx) :
    opPlace (deposit kind op phase src dst bs c) = opPlace c := rfl

theorem sendRank_place (kind op phase src dst : Nat) (bs : List Byte) (c : Ctx) :
    opPlace (sendRank kind op phase src dst bs c) = opPlace c := by
  unfold sendRank
  split
  · exact deposit_place ..
  · split
    · rfl
    · exact sendData_place ..

theorem arriveRank_place (op phase : Nat) (own : Nat → List Byte) (answer : List (Nat × List Byte) → List Byte) (c : Ctx) (r : Nat) :
    opPlace (arriveRank op phase own answer c r) = opPlace c := by
  unfold arriveRank
  split
  · rfl
  · split
    · rfl
    · dsimp only
      split
      · exact (deposit_place ..).trans (mark_place ..)
      · exact (sendRank_place ..).trans (mark_place ..)

theorem releaseRank_place (op phase : Nat) (c : Ctx) (r : Nat) : opPlace (releaseRank op phase c r) = opPlace c := by
  unfold releaseRank
  split
  · rfl
  · split
    · rfl
    · exact (foldl_opPlace (fun _ _ => sendRank_place ..) _ _).trans (mark_place ..)

/-- R417: ranks that arrive and are released. -/
theorem barrierRun_place (op phase : Nat) (own : Nat → List Byte) (answer : List (Nat × List Byte) → List Byte) (c : Ctx) :
    opPlace (barrierRun op phase own answer c).1 = opPlace c := by
  unfold barrierRun
  split
  · rfl
  · exact (foldl_opPlace (fun _ _ => releaseRank_place ..) _ _).trans (foldl_opPlace (fun _ _ => arriveRank_place ..) _ _)

theorem relayForward_place (tree : List Nat) (rank : Nat) (bs : List Byte) (c : Ctx) :
    opPlace (relayForward tree rank bs c) = opPlace c := by
  unfold relayForward
  split
  · rfl
  · exact (foldl_opPlace (fun _ _ => sendRank_place ..) _ _).trans (mark_place ..)

/-- Relayed weights that have come are taken as the module's own would be. -/
theorem denseBody_relay {b x : Ctx} {d bs : List Byte} {tree : List Nat} (hranks : 1 < b.p.bin.fabricRanks)
    (hrelay : denseRelay b.e = true) (hrun : barrierRun b.op 0 (fun _ => relayShare b) relayAnswer b = (x, some d))
    (hagree : d.headD 0 ≠ 0) (htree : tree = relayTree (parseShares d.length (d.drop 1)) (denseRank b.e))
    (hcome : arrivedData x.o kindRelay b.op 0 (tree.getD ((tree.findIdx (· = ownRank b) - 1) / 2) 0) (ownRank b) = some bs) :
    denseBody b = densePass (cut (rowDataBytes (cDesc b (b.e.in1.getD 0)).format (dimOf (cDesc b (b.e.in1.getD 0)) 0)) bs.length bs)
      (relayForward tree (ownRank b) bs x) := by
  subst htree
  unfold denseBody
  dsimp only
  rw [if_neg (by omega), hrun]
  dsimp only
  rw [if_neg hagree, hrelay, if_pos rfl, hcome]

/-- An operator that is done keeps its place. -/
theorem opPlace_parts {c c' : Ctx} (h : opPlace c' = opPlace c) : c'.p = c.p ∧ c'.op = c.op :=
  ⟨congrArg Prod.fst h, congrArg (fun x => x.2.1) h⟩

/-- An operator that begins in `c` and is done in `b`, where no element is written yet. -/
theorem completes_checked {i : Instr} {w : OperatorRow} {s : State} {c0 c b : Ctx} (hi : operatorRow i = some w)
    (hb : OpBegins w s c0 c) (hbs : b = startWrites c) (h : DoneWithin b (w.body b)) : Completes i w s c0 c (WritesOutputs b) := by
  subst hbs
  obtain ⟨x, hx, hframe⟩ := h
  exact completes_of_done hi hb hx (writesOutputs_of_frame hframe)

/-- Where no element is written yet, the operator is the same. -/
theorem startWrites_place {b c : Ctx} (hbs : b = startWrites c) : b.e = c.e ∧ b.p = c.p ∧ b.op = c.op := by
  subst hbs
  exact ⟨frame_e (startWrites_frame c), frame_p (startWrites_frame c), frame_op (startWrites_frame c)⟩

/-- Settles O46. -/
theorem checkedOperatorsComplete : Obligations.CheckedOperatorsComplete := by
  unfold Obligations.CheckedOperatorsComplete
  refine ⟨?bucket, ?relayout, ?build, ?probe, ?opt, ?check, ?dense, ?relay, ?matchOp⟩
  case bucket =>
    intro h op f w s c0 c b hi hb hbs hok
    obtain ⟨he, -, -⟩ := startWrites_place hbs
    refine completes_checked hi hb hbs ?_
    obtain rfl := Option.some.inj hi
    exact bucketBody_done (he ▸ hok)
  case relayout =>
    intro h op f w s c0 c b hi hb hbs hok
    obtain ⟨he, -, -⟩ := startWrites_place hbs
    refine completes_checked hi hb hbs ?_
    obtain rfl := Option.some.inj hi
    exact relayoutBody_done (he ▸ hok)
  case build =>
    intro h op f w s c0 c b k hi hb hbs hk hfar hroom
    obtain ⟨he, -, -⟩ := startWrites_place hbs
    subst hk
    refine completes_checked hi hb hbs ?_
    obtain rfl := Option.some.inj hi
    exact joinBuildBody_done (he ▸ hfar) (he ▸ hroom)
  case probe =>
    intro h op f w s c0 c b t hi hb hbs ht hfar hhead
    obtain ⟨he, -, -⟩ := startWrites_place hbs
    subst ht
    refine completes_checked hi hb hbs ?_
    obtain rfl := Option.some.inj hi
    exact joinProbeBody_done (he ▸ hfar) (he ▸ hhead)
  case opt =>
    intro h op f w s c0 c b hi hb hbs hfirst
    obtain ⟨he, hp, -⟩ := startWrites_place hbs
    refine completes_checked hi hb hbs ?_
    obtain rfl := Option.some.inj hi
    refine optStepBody_done ?_
    rw [par, he, hp]
    exact hfirst
  case check =>
    intro h op f w s c0 c b hi hb hbs hok
    refine completes_checked hi hb hbs ?_
    obtain rfl := Option.some.inj hi
    exact checkOp_done hok
  case dense =>
    intro h op f w s c0 c b hi hb hbs hranks hrelay hok
    obtain ⟨he, hp, -⟩ := startWrites_place hbs
    refine completes_checked hi hb hbs ?_
    obtain rfl := Option.some.inj hi
    have hbody : denseBody b = densePass (weightRows b) b := by
      rw [denseBody, if_pos (hp ▸ hranks), he, hrelay, if_neg Bool.false_ne_true]
    show DoneWithin b (denseBody b)
    rw [hbody]
    exact densePass_done (he ▸ hok)
  case relay =>
    intro h op f w s c0 c b x d bs tree hi hb hbs hranks hrelay hrun hagree htree hcome hok
    obtain ⟨he, hp, hop⟩ := startWrites_place hbs
    rw [← he] at hrelay htree hok
    have hplace : opPlace (relayForward tree (ownRank b) bs x) = opPlace b := by
      rw [relayForward_place, ← barrierRun_place b.op 0 (fun _ => relayShare b) relayAnswer b, hrun]
    have hdesc : (relayForward tree (ownRank b) bs x).p = b.p ∧ (relayForward tree (ownRank b) bs x).e = b.e :=
      ⟨congrArg Prod.fst hplace, congrArg (fun z => z.2.2) hplace⟩
    obtain ⟨y, hy, hframe⟩ := densePass_done (c := relayForward tree (ownRank b) bs x)
      (weights := cut (rowDataBytes (cDesc b (b.e.in1.getD 0)).format (dimOf (cDesc b (b.e.in1.getD 0)) 0)) bs.length bs)
      (by rw [cDesc, hdesc.1, hdesc.2]; exact hok)
    refine completes_of_done (c' := y) hi hb ?_ ?_
    · obtain rfl := Option.some.inj hi
      rw [← hbs]
      exact (denseBody_relay (hp ▸ hranks) hrelay hrun hagree htree hcome).trans hy
    · obtain ⟨hyp, hyop⟩ := opPlace_parts ((opPlace_of_frame hframe).trans hplace)
      exact ⟨hyp.trans hp, hyop.trans hop⟩
  case matchOp =>
    intro h op f w s c0 c b hi hb hbs hchain
    obtain ⟨he, -, -⟩ := startWrites_place hbs
    refine completes_checked hi hb hbs ?_
    obtain rfl := Option.some.inj hi
    exact matchBody_done (he ▸ hchain)

end Sys2Proof.Machine
end

section
/-!
PROOFS. A lookup that is not done although it begins and its rows are well formed (O47).
-/

namespace Sys2Proof.Machine

/-- An INT32 operand of one element a row, and an FP32 result. -/
def lookupDesc (f : Format) (base n : Nat) : Descriptor :=
  { base := base, format := f, rank := 2, aliasOk := false, reduce := 0, space := .session, bound := 0, stageDie := 0
    lane := false, block2d := false, fabric := false, dims := [n, 1], strides := [4, 4 * n], fabricMapBase := 0, blockCount := 0 }

/-- One GATHER of a row whose poison fails the operator. -/
def lookupEntry : OpEntry :=
  { op := .gather, in0 := some 0, in1 := none, in2 := none, out0 := some 1, out1 := none
    params := record 64 [(32, 5), (54, 1), (64, 1)] }

def lookupTable : EmbTable :=
  { handle := 1, session := 0, hashed := false, rowFormat := .fp32, merge := 0, sharded := false, log2Block := 0, log2Index := 0
    rowElems := 4, rows := 1, lr := 0, eps := 0, fabricMapBase := 0
    slots := [{ state := .current, storeVa := 0x4000, indexVa := 0, dirBase := 0, refs := 0 }]
    policy := none, frames := [], migrations := [], aborted := [], decided := none, promotions := 0, demotions := 0, aborts := 0
    writebackBytes := 0 }

/-- A plan of one rank that binds the table's one version. -/
def lookupOnly : Plan :=
  { handle := 1, session := 0
    bin :=
      { dies := 0, fabricRanks := 1
        stages := [{ firstOp := 0, opCount := 1, cls := .vent, firstOnly := false, skipDerated := false, cores := 0, craterMask := 0 }]
        ops := [lookupEntry], descs := [lookupDesc .int32 0 1, lookupDesc .fp32 0x8000 4], edges := []
        binds := [{ table := 1, fixed := some 0, update := false }] }
    craters := [[]], otherCraters := [], owners := [], guests := [], nearBytes := 0, stageBase := [0, 0], stageSize := [0x1000, 0]
    taps := [], dieMaps := [], craterMaps := [], nextStep := 0, commit := none, mirrorSeqs := [], run := none, pieces := [], localMem := [] }

/-- One page of the near tier, whose position 4, on which the row stands, is retired. -/
def goneState : State :=
  { State.reset with
    power := { PowerUnit.reset with state := .active }
    sessions := [(0, { port := 0, rings := [], smallBase := 0, smallPages := 1, largeBase := 16, largePages := 0, closing := none })]
    xlate := [(0, { large := false, read := true, write := true, table := true, weights := true, session := 0, mpage := 256 })]
    tables := [lookupTable]
    err := { State.reset.err with retired := [{ unit := unitId 3 4, reason := 0, time := 0, testPassed := false, restoring := false }] } }

def lookupRun : Run := newRun { port := 0, ring := 1, tag := 9, ringSeq := 0, opcode := 0x41, noIrq := false } lookupOnly 1 0

def lookupStep : OpenStep := freshStep lookupOnly lookupRun (viewNow goneState [some 0]) 0

def lookupRunning : Plan := { lookupOnly with run := some { lookupRun with openStep := some lookupStep } }

def lookupState : State := { goneState with plans := [lookupRunning] }

def lookupRow : OperatorRow := plainRow 1 0 noFaults .gather (embedPre .gather) gatherBody

/-- The context of the GATHER in a state. -/
def lookupCtx (s : State) : Ctx :=
  { s := s, p := lookupRunning, r := { lookupRun with openStep := some lookupStep }, o := lookupStep, op := 0, e := lookupEntry }

/-- The operator has ended done. -/
def endsDone : OpEnd → Bool
  | .done _ => true
  | _ => false

/-- Refutes O47: a GATHER with POISON_FAIL of a row that stands on a position retired since the reset ends POISONED, although the step
has seen no poison. -/
theorem not_stagingOperatorsComplete : ¬ Obligations.StagingOperatorsComplete := by
  unfold Obligations.StagingOperatorsComplete
  rintro ⟨-, -, -, hgather, -⟩
  obtain ⟨c, hdone, -⟩ := hgather 1 0 noFaults lookupRow lookupState (lookupCtx lookupState) (lookupCtx (begun lookupRow lookupState)) _
    lookupTable 0 rfl (by decide +kernel) rfl (by decide +kernel) (.inl rfl) (.inr (by decide +kernel)) (.inl (by decide +kernel))
  have hended : endsDone (gatherBody (startWrites (lookupCtx (begun lookupRow lookupState)))) = true :=
    (congrArg endsDone hdone).trans rfl
  exact absurd hended (by decide +kernel)

end Sys2Proof.Machine
end

section
/-!
PROOFS. Collective operators (O48).
-/

namespace Sys2Proof.Machine

/-! ## The operator that begins -/

/-- What the context of an operator is made of. -/
theorem ctxOf_parts {s : State} {h : Word} {op : Nat} {c : Ctx} (hc : ctxOf s h op = some c) :
    planOf s h = some c.p ∧ c.p.run = some c.r ∧ c.r.openStep = some c.o ∧ c.p.bin.ops[op]? = some c.e ∧ c.op = op ∧ c.s = s := by
  unfold ctxOf at hc
  obtain ⟨p, hp, hc⟩ := Option.bind_eq_some_iff.mp hc
  obtain ⟨r, hr, hc⟩ := Option.bind_eq_some_iff.mp hc
  obtain ⟨o, ho, hc⟩ := Option.bind_eq_some_iff.mp hc
  obtain ⟨e, he, rfl⟩ := Option.map_eq_some_iff.mp hc
  exact ⟨hp, hr, ho, he, rfl, rfl⟩

/-- Before an operator works, the step it finds has changed, and its plan's binary has not. -/
theorem planOf_begun {w : OperatorRow} {s : State} {p : Plan} (hp : planOf s w.plan = some p) :
    ∃ q, planOf (begun w s) w.plan = some q ∧ q.bin = p.bin := by
  have htaken := planOf_onRun (fun r => { r with openStep := r.openStep.map (faultsTaken w.op) }) hp
  exact ⟨_, planOf_onRun (s := { onStep w.plan (faultsTaken w.op) s with
    err := { (onStep w.plan (faultsTaken w.op) s).err with
      sectorRereads := (onStep w.plan (faultsTaken w.op) s).err.sectorRereads + w.faults.rereads
      linkRetries := (onStep w.plan (faultsTaken w.op) s).err.linkRetries + w.faults.linkRetries } }) _ htaken, rfl⟩

/-- An operator begins with the entry that its row was checked against. -/
theorem ctxOf_begun_entry {w : OperatorRow} {s : State} {c0 c : Ctx} (h0 : ctxOf s w.plan w.op = some c0)
    (hc : ctxOf (begun w s) w.plan w.op = some c) : c.e = c0.e := by
  obtain ⟨hp0, -, -, he0, -⟩ := ctxOf_parts h0
  obtain ⟨hp, -, -, he, -⟩ := ctxOf_parts hc
  obtain ⟨q, hq, hbin⟩ := planOf_begun hp0
  have hcq : c.p = q := Option.some.inj (hp.symm.trans hq)
  rw [hcq, hbin] at he
  exact Option.some.inj (he.symm.trans he0)

/-! ## What messages between ranks leave as they are -/

theorem sendCounted_place (kind phase src dst rows : Nat) (bs : List Byte) (c : Ctx) :
    opPlace (sendCounted kind phase src dst rows bs c) = opPlace c := by
  unfold sendCounted
  dsimp only
  split
  · exact sendRank_place ..
  · exact (opPlace_of_frame (bumps_frame ..)).trans (sendRank_place ..)

theorem startAgreement_place (bring : List Byte) (c : Ctx) : opPlace (startAgreement bring c).1 = opPlace c := barrierRun_place ..

theorem exchangeSent_place (c : Ctx) : opPlace (exchangeSent c) = opPlace c := by
  unfold exchangeSent exchangeSendRows
  split
  · rfl
  · refine (foldl_opPlace (fun x src => foldl_opPlace (fun y dst => ?_) _ _) _ _).trans (mark_place ..)
    exact (sendCounted_place ..).trans (sendCounted_place ..)

theorem reduceShare_place (n : Nat) (c : Ctx) (seg : Nat) : opPlace (reduceShare n c seg) = opPlace c := by
  unfold reduceShare
  split
  · rfl
  · split
    · rfl
    · exact (foldl_opPlace (fun _ _ => sendCounted_place ..) _ _).trans (mark_place ..)

theorem reduceSent_place (c : Ctx) : opPlace (reduceSent c) = opPlace c := by
  refine (foldl_opPlace (fun _ _ => reduceShare_place ..) _ _).trans ?_
  split
  · rfl
  · exact (foldl_opPlace (fun _ _ => foldl_opPlace (fun _ _ => sendCounted_place ..) _ _) _ _).trans (mark_place ..)

theorem allgatherSent_place (c : Ctx) : opPlace (allgatherSent c) = opPlace c := by
  unfold allgatherSent
  dsimp only
  split
  · rfl
  · exact (foldl_opPlace (fun _ _ => foldl_opPlace (fun _ _ => sendCounted_place ..) _ _) _ _).trans (mark_place ..)

@[simp] theorem countReceived_frame (l : List (Nat × Nat × List Byte)) (rows : List Byte → Nat) (c : Ctx) :
    outputFrame (countReceived l rows c) = outputFrame c := (bumps_frame ..).trans rfl

@[simp] theorem putKeys_frame (k : Nat) (l : List (Nat × Nat × Nat × Nat)) (c : Ctx) : outputFrame (putKeys k l c) = outputFrame c := rfl

/-! ## Agreement -/

/-- Ranks that agree go on with the operator's own work. -/
theorem collective_agreed {share : List Byte} {body : Ctx → OpEnd} {c x : Ctx} (h : startAgreement share c = (x, some true)) :
    collective share body c = body x := by
  unfold collective
  dsimp only
  rw [h]

/-- What each of a list gives is there. -/
theorem mapM_isSome {α β : Type} {f : α → Option β} {l : List α} (h : ∀ a ∈ l, (f a).isSome = true) : ∃ r, l.mapM f = some r := by
  induction l with
  | nil => exact ⟨[], rfl⟩
  | cons a l ih =>
    obtain ⟨b, hb⟩ := Option.isSome_iff_exists.mp (h a List.mem_cons_self)
    obtain ⟨r, hr⟩ := ih (fun x hx => h x (List.mem_cons_of_mem a hx))
    exact ⟨b :: r, by simp [List.mapM_cons, hb, hr]⟩

/-- An operator that is done in `c'`, at the place of `c`. -/
theorem completes_at {i : Instr} {w : OperatorRow} {s : State} {c0 c b x : Ctx} {Q : Ctx → Prop} (hi : operatorRow i = some w)
    (hb : OpBegins w s c0 c) (hbs : b = startWrites c) (hx : opPlace x = opPlace b)
    (h : ∃ y, w.body b = .done y ∧ opPlace y = opPlace x ∧ Q y) : Completes i w s c0 c (fun y => y.p = c.p ∧ y.op = c.op ∧ Q y) := by
  obtain ⟨y, hy, hplace, hq⟩ := h
  obtain ⟨-, hp, hop⟩ := startWrites_place hbs
  obtain ⟨hyp, hyop⟩ := opPlace_parts (hplace.trans hx)
  exact completes_of_done hi hb (hbs ▸ hy) ⟨hyp.trans hp, hyop.trans hop, hq⟩

/-! ## EXCHANGE (R419) -/

/-- Rows that fit are filled in. -/
theorem exchangeFill_done {rows : List TravelRow} {c : Ctx} (h : rows.length ≤ rowCount (cDesc c (c.e.out0.getD 0))) :
    DoneWithin c (exchangeFill rows c) := by
  unfold exchangeFill
  dsimp only
  rw [if_neg (Nat.not_lt.mpr h)]
  refine ⟨_, rfl, ?_⟩
  split
  · exact (putKeys_frame ..).trans (foldl_outputFrame (fun _ _ => rowWrite_frame ..) _ _)
  · exact (maskWrite_frame ..).trans ((putKeys_frame ..).trans (foldl_outputFrame (fun _ _ => rowWrite_frame ..) _ _))

/-- Rows that return to places that there are land. -/
theorem exchangeLand_done {rows : List TravelRow} {c : Ctx}
    (h : ∀ e ∈ rows, leNat (slice e.data (par c 64 32) 8) % 2 ^ 40 < rowCount (cDesc c (c.e.out0.getD 0))) :
    DoneWithin c (exchangeLand rows c) := by
  have hnone : ¬ rows.any (fun e => decide (rowCount (cDesc c (c.e.out0.getD 0)) ≤ leNat (slice e.data (par c 64 32) 8) % 2 ^ 40)) = true := by
    intro hany
    obtain ⟨e, he, hle⟩ := List.any_eq_true.mp hany
    exact absurd (h e he) (Nat.not_lt.mpr (of_decide_eq_true hle))
  unfold exchangeLand
  dsimp only
  rw [if_neg hnone]
  refine ⟨_, rfl, ?_⟩
  split
  · exact (putKeys_frame ..).trans (foldl_outputFrame (fun _ _ => rowWrite_frame ..) _ _)
  · exact (maskWrite_frame ..).trans ((putKeys_frame ..).trans (foldl_outputFrame (fun _ _ => rowWrite_frame ..) _ _))

/-- Once everything has come, with what every rank has sent. -/
def exchangeCame (l : List (Nat × Nat × List Byte)) (width : Nat) (x : Ctx) : Ctx :=
  bump 6 ((exchangeDests x).countP (fun e => e.1.isNone)) (countReceived l (fun bs => bs.length / (24 + width)) (exchangeSent x))

theorem exchangeCame_place (l : List (Nat × Nat × List Byte)) (width : Nat) (x : Ctx) :
    opPlace (exchangeCame l width x) = opPlace x :=
  (opPlace_of_frame ((bump_frame ..).trans (countReceived_frame ..))).trans (exchangeSent_place x)

theorem exchangeMain_came {x : Ctx} {l1 l2 : List (Nat × Nat × List Byte)}
    (hdest : ∀ e ∈ exchangeDests x, ∀ r, e.1 = some r → r < planRanks x) (h1 : receivedAll kindExchange 1 (exchangeSent x) = some l1)
    (h2 : receivedAll kindExchange 2 (exchangeSent x) = some l2) : exchangeMain x =
      let width := rowWidth (cDesc x (x.e.in0.getD 0))
      if exchangeReturn x.e then exchangeLand (exchangeRows width l2) (exchangeCame l2 width x)
      else exchangeFill (exchangeRows width l2) (exchangeCame l2 width x) := by
  have hnone : ¬ (exchangeDests x).any (fun e => e.1.any (fun d => decide (planRanks x ≤ d))) = true := by
    intro hany
    obtain ⟨e, he, hd⟩ := List.any_eq_true.mp hany
    obtain ⟨d, hsome, hle⟩ := (Option.any_eq_true _ _).mp hd
    exact absurd (hdest e he d hsome) (Nat.not_lt.mpr (of_decide_eq_true hle))
  unfold exchangeMain
  dsimp only
  rw [if_neg hnone, h1, h2]
  rfl

/-- What a rank brings to the agreement of an EXCHANGE. -/
def exchangeShare (c : Ctx) : List Byte :=
  natLE (par c 47 2) 1 ++ natLE (formatCode (cDesc c (c.e.in0.getD 0)).format) 1 ++ natLE (cDesc c (c.e.in0.getD 0)).rank 1 ++
    natLE (rowWidth (cDesc c (c.e.in0.getD 0))) 4

theorem cDesc_of_plan {c c' : Ctx} (h : c'.p = c.p) (k : Nat) : cDesc c' k = cDesc c k := by rw [cDesc, cDesc, h]

/-- Once the ranks agree and everything has come, rows are filled in or land. -/
theorem exchangeBody_came {b c x : Ctx} {l1 l2 : List (Nat × Nat × List Byte)} (hbs : b = startWrites c)
    (hagree : startAgreement (exchangeShare c) b = (x, some true)) (hdest : ∀ e ∈ exchangeDests x, ∀ r, e.1 = some r → r < planRanks x)
    (h1 : receivedAll kindExchange 1 (exchangeSent x) = some l1) (h2 : receivedAll kindExchange 2 (exchangeSent x) = some l2) :
    opPlace x = opPlace b ∧ exchangeBody b =
      if exchangeReturn c.e then exchangeLand (exchangeRows (rowWidth (cDesc c (c.e.in0.getD 0))) l2)
        (exchangeCame l2 (rowWidth (cDesc c (c.e.in0.getD 0))) x)
      else exchangeFill (exchangeRows (rowWidth (cDesc c (c.e.in0.getD 0))) l2)
        (exchangeCame l2 (rowWidth (cDesc c (c.e.in0.getD 0))) x) := by
  obtain ⟨he, hp, -⟩ := startWrites_place hbs
  have hplace : opPlace x = opPlace b := by rw [← startAgreement_place (exchangeShare c) b, hagree]
  have hxp : x.p = c.p := (congrArg Prod.fst hplace).trans hp
  have hxe : x.e = c.e := (congrArg (fun z => z.2.2) hplace).trans he
  have hshare : exchangeShare b = exchangeShare c := by simp only [exchangeShare, par, cDesc, he, hp]
  refine ⟨hplace, ?_⟩
  show collective (exchangeShare b) exchangeMain b = _
  rw [hshare, collective_agreed hagree, exchangeMain_came hdest h1 h2]
  simp only [cDesc, hxp, hxe]

/-- The operand of an operator seen from where a collective has come to. -/
theorem exchangeCame_parts {b c x : Ctx} (hbs : b = startWrites c) (hx : opPlace x = opPlace b) (l : List (Nat × Nat × List Byte))
    (width : Nat) : (exchangeCame l width x).p = c.p ∧ (exchangeCame l width x).e = c.e := by
  obtain ⟨he, hp, -⟩ := startWrites_place hbs
  have hplace := (exchangeCame_place l width x).trans hx
  exact ⟨(congrArg Prod.fst hplace).trans hp, (congrArg (fun z => z.2.2) hplace).trans he⟩

/-! ## REDUCE and ALLGATHER (R420) -/

theorem reduceMain_done {x : Ctx} (h : ∀ seg < planRanks x, (received kindReduce 2 seg (ownRank x) (reduceSent x)).isSome = true) :
    ∃ y, reduceMain x = .done y ∧ opPlace y = opPlace x := by
  obtain ⟨segs, hsegs⟩ := mapM_isSome (l := List.range (planRanks x)) (fun seg hseg => h seg (List.mem_range.mp hseg))
  unfold reduceMain
  dsimp only
  rw [hsegs]
  exact ⟨_, rfl, (opPlace_of_frame ((countReceived_frame ..).trans (rowsWrite_frame ..))).trans (reduceSent_place x)⟩

theorem allgatherMain_done {x : Ctx} (h : (receivedAll kindGather 1 (allgatherSent x)).isSome = true) :
    ∃ y, allgatherMain x = .done y ∧ opPlace y = opPlace x := by
  obtain ⟨l, hl⟩ := Option.isSome_iff_exists.mp h
  unfold allgatherMain
  dsimp only
  rw [hl]
  exact ⟨_, rfl, (opPlace_of_frame ((countReceived_frame ..).trans (rowsWrite_frame ..))).trans (allgatherSent_place x)⟩

/-! ## The obligation -/

/-- Settles O48. -/
theorem collectivesComplete : Obligations.CollectivesComplete := by
  unfold Obligations.CollectivesComplete
  refine ⟨?alone, ?barrier, ?send, ?back, ?reduce, ?allgather, ?topk, ?merge⟩
  case alone =>
    intro h op f w s c0 c hi hb hranks
    refine completes_of_done hi hb ?_ rfl
    obtain rfl := Option.some.inj hi
    show barrierBody (startWrites c) = _
    have hrun : barrierRun (startWrites c).op 0 (fun _ => []) (fun _ => []) (startWrites c) = (startWrites c, some []) := by
      rw [barrierRun, if_pos (by rw [frame_p (startWrites_frame c)]; exact hranks)]
    rw [barrierBody, hrun]
    rfl
  case barrier =>
    intro h op f w s c0 c x d hi hb hrun
    have hbody : w.body (startWrites c) = if d.isSome then .done x else .hold x := by
      obtain rfl := Option.some.inj hi
      show barrierBody (startWrites c) = _
      rw [barrierBody, frame_op (startWrites_frame c), hrun]
    refine ⟨fun hd => completes_of_done hi hb (by rw [hbody, if_pos hd]) rfl, fun hd => ?_⟩
    rw [exec_begins hi hb, hbody, hd]
    rfl
  case send =>
    intro h op f w s c0 c d x l1 l2 rows o at_ hi hb hd hagree hdest h1 h2 hrows ho hroom hat
    subst hd hrows ho hat
    obtain ⟨hplace, hbody⟩ := exchangeBody_came rfl hagree hdest h1 h2
    obtain ⟨hp, he⟩ := exchangeCame_parts rfl hplace l2 (rowWidth (cDesc c (c.e.in0.getD 0)))
    have hmode : exchangeReturn c.e = false := by
      obtain rfl := Option.some.inj hi
      rw [ctxOf_begun_entry hb.1.1 hb.2.2.2.1]
      simpa using hb.1.2.2.1
    obtain ⟨y, hy, hframe⟩ := exchangeFill_done (c := exchangeCame l2 (rowWidth (cDesc c (c.e.in0.getD 0))) x)
      (by rw [he, cDesc_of_plan hp]; exact hroom)
    refine completes_at hi hb rfl hplace ⟨y, ?_, (opPlace_of_frame hframe).trans (exchangeCame_place ..), hy⟩
    obtain rfl := Option.some.inj hi
    exact hbody.trans ((if_neg (Bool.eq_false_iff.mp hmode)).trans hy)
  case back =>
    intro h op f w s c0 c d x l1 l2 rows o at_ hi hb hd hagree hdest h1 h2 hrows ho hroom hat
    subst hd hrows ho hat
    obtain ⟨hplace, hbody⟩ := exchangeBody_came rfl hagree hdest h1 h2
    obtain ⟨hp, he⟩ := exchangeCame_parts rfl hplace l2 (rowWidth (cDesc c (c.e.in0.getD 0)))
    have hmode : exchangeReturn c.e = true := by
      obtain rfl := Option.some.inj hi
      rw [ctxOf_begun_entry hb.1.1 hb.2.2.2.1]
      exact hb.1.2.2.1
    have hpar : par (exchangeCame l2 (rowWidth (cDesc c (c.e.in0.getD 0))) x) 64 32 = par c 64 32 := by rw [par, par, he]
    obtain ⟨y, hy, hframe⟩ := exchangeLand_done (rows := exchangeRows (rowWidth (cDesc c (c.e.in0.getD 0))) l2)
      (c := exchangeCame l2 (rowWidth (cDesc c (c.e.in0.getD 0))) x) (by rw [hpar, he, cDesc_of_plan hp]; exact hroom)
    refine completes_at hi hb rfl hplace ⟨y, ?_, (opPlace_of_frame hframe).trans (exchangeCame_place ..), hy⟩
    obtain rfl := Option.some.inj hi
    exact hbody.trans ((if_pos hmode).trans hy)
  case reduce =>
    intro h op f w s c0 c x hi hb hagree hcome
    obtain ⟨he, hp, -⟩ := startWrites_place rfl (c := c)
    have hplace : opPlace x = opPlace (startWrites c) := by
      rw [← startAgreement_place (natLE (par c 0 1) 1 ++ shapeShare (cDesc c (c.e.in0.getD 0))) (startWrites c), hagree]
    obtain ⟨y, hy, hyplace⟩ := reduceMain_done hcome
    refine completes_at hi hb rfl hplace ⟨y, ?_, hyplace, hy⟩
    obtain rfl := Option.some.inj hi
    refine Eq.trans (collective_agreed ?_) hy
    simp only [par, cDesc, he, hp] at hagree ⊢
    exact hagree
  case allgather =>
    intro h op f w s c0 c x hi hb hagree hcome
    obtain ⟨he, hp, -⟩ := startWrites_place rfl (c := c)
    have hplace : opPlace x = opPlace (startWrites c) := by
      rw [← startAgreement_place (shapeShare (cDesc c (c.e.in0.getD 0))) (startWrites c), hagree]
    obtain ⟨y, hy, hyplace⟩ := allgatherMain_done hcome
    refine completes_at hi hb rfl hplace ⟨y, ?_, hyplace, hy⟩
    obtain rfl := Option.some.inj hi
    refine Eq.trans (collective_agreed ?_) hy
    simp only [cDesc, he, hp] at hagree ⊢
    exact hagree
  case topk =>
    intro h op f w s c0 c x hi hb hfab hx
    have hfab' : topFabric (startWrites c) = false := by
      rw [topFabric, frame_e (startWrites_frame c), frame_p (startWrites_frame c)]
      exact hfab
    have hbody : w.body (startWrites c) = if topWritten x then .done x else .hold x := by
      obtain rfl := Option.some.inj hi
      show topkCollectiveBody (startWrites c) = _
      rw [topkCollectiveBody, hfab', if_pos (by decide), topAdvance, hx]
    rw [exec_begins hi hb, hbody]
    split <;> rfl
  case merge =>
    intro h op node s c shares x y l hc hop hcoll hrun hpower hready hl hhalt hmark hknown hmerge hy
    have hgo : ¬ (c.e.op ≠ .topk ∨ (!topCollective c.e) = true ∨ (!isRunning c.p) = true ∨ s.power.state ≠ .active ∨
        (!opReady c.p c.o op) = true ∨ anyHalted s (stageSlots s c.p (stageOfOp c.p.bin op)) = true ∨
        (!topMarked c.o op topScanned) = true) := by
      rw [← hl]
      simp [hop, hcoll, hrun, hpower, hready, hhalt, hmark]
    show execTopkMergeNode h op node s = _
    unfold execTopkMergeNode
    rw [hc]
    dsimp only
    rw [if_neg hgo, hknown]
    dsimp only
    rw [hmerge]
    dsimp only
    rw [topAdvance, ← hy, ← hl]
    split <;> rfl

end Sys2Proof.Machine
end

section
/-!
PROOFS. SCAN and DECODE (O49).
-/

namespace Sys2Proof.Machine

/-! ## The batch of a step -/

theorem frame_r {c c' : Ctx} (h : outputFrame c' = outputFrame c) : c'.r = c.r :=
  show (outputFrame c').r = (outputFrame c).r by rw [h]

theorem frame_batch {c c' : Ctx} (h : outputFrame c' = outputFrame c) : c'.o.batch = c.o.batch :=
  show (outputFrame c').o.batch = (outputFrame c).o.batch by rw [h]

theorem frame_plans {c c' : Ctx} (h : outputFrame c' = outputFrame c) : c'.s.plans = c.s.plans :=
  show (outputFrame c').s.plans = (outputFrame c).s.plans by rw [h]

theorem startWrites_state (c : Ctx) : (startWrites c).s = c.s := by
  unfold startWrites
  split <;> rfl

/-- The batch that SCAN writes, filled up to BATCH_ROWS with slots that hold nothing (R218). -/
def filledBatch (pr : ScanParams) (b : Batch) : Batch :=
  { b with slots := b.slots ++
      List.replicate (pr.batchRows - b.slots.length) { ordinal := 0, offset := 0, ident := BitVec.ofNat 64 noId, valid := false } }

@[simp] theorem countRejected_frame (n : Nat) (c : Ctx) : outputFrame (countRejected n c) = outputFrame c := rfl

/-- The batch of a step, set after outputs were written or before. -/
theorem setBatch_frame {c c' : Ctx} (h : outputFrame c' = outputFrame c) (x : Option Batch) :
    outputFrame { c' with s := takeFresh 2 c'.s, o := { c'.o with batch := x } } = outputFrame { c with o := { c.o with batch := x } } := by
  let set (k : Ctx) : Ctx := { k with o := { k.o with batch := x } }
  have heq : set (outputFrame c') = set (outputFrame c) := by rw [h]
  exact heq

/-- A batch that is written stands in the step, and outputs, counters and free values are all else that changes. -/
theorem writeBatch_frame (pr : ScanParams) (first : Bool) (f : Forming) (c : Ctx) :
    outputFrame (writeBatch pr first f c) = outputFrame { c with o := { c.o with
      batch := some (filledBatch pr (if first then freeOffsets pr c.s.freeCount f.batch else f.batch)) } } := by
  unfold writeBatch
  extract_lets n b0 unfilled b width parsed c1 c2
  rw [bumps_frame, countRejected_frame, countNans_frame]
  have hwritten : outputFrame c2 = outputFrame c := (linearWrite_frame ..).trans (rowsWrite_frame ..)
  have hset := setBatch_frame hwritten (some b)
  rw [hset]
  rfl

@[simp] theorem scanTapsSee_frame (pr : ScanParams) (c : Ctx) : outputFrame (scanTapsSee pr c) = outputFrame c :=
  taps_frame (freeTaps_seen ..)

/-- What SCAN leaves once its batch is written: the run keeps the batch as its manifest, and taps have seen the input. -/
def scanKept (pr : ScanParams) (c : Ctx) : Ctx :=
  scanTapsSee pr { c with s := onRun c.p.handle (fun r => { r with manifest := c.o.batch }) c.s }

theorem planOf_onRun_map (h : Word) (f : Run → Run) (s : State) :
    planOf (onRun h f s) h = (planOf s h).map (fun p => { p with run := p.run.map f }) := by
  cases hp : planOf s h with
  | some p => exact planOf_onRun f hp
  | none =>
    have hnone := List.find?_eq_none.mp hp
    refine List.find?_eq_none.mpr (fun q hq => ?_)
    obtain ⟨p, hmem, rfl⟩ := List.mem_map.mp hq
    have hne : ¬ p.handle = h := by simpa using hnone p hmem
    rw [if_neg hne]
    simpa using hne

/-- The run's manifest is the batch that the step holds. -/
theorem scanKept_manifest (pr : ScanParams) (c : Ctx) :
    ((planOf (scanKept pr c).s c.p.handle).bind (·.run)).map (·.manifest) =
      ((planOf c.s c.p.handle).bind (·.run)).map (fun _ => c.o.batch) := by
  have hplans : planOf (scanKept pr c).s c.p.handle =
      planOf (onRun c.p.handle (fun r => { r with manifest := c.o.batch }) c.s) c.p.handle := by
    unfold planOf
    rw [scanKept, frame_plans (scanTapsSee_frame ..)]
  rw [hplans, planOf_onRun_map]
  cases planOf c.s c.p.handle with
  | none => rfl
  | some p => cases hr : p.run <;> simp [hr]

/-- What SCAN leaves holds the batch that it has written, in its step and as the manifest of its run. -/
theorem scanKept_written (pr : ScanParams) (first : Bool) (f : Forming) {c d : Ctx} (hp : d.p = c.p) (hs : d.s.plans = c.s.plans) :
    (scanKept pr (writeBatch pr first f d)).o.batch =
        some (filledBatch pr (if first then freeOffsets pr d.s.freeCount f.batch else f.batch)) ∧
      ((planOf (scanKept pr (writeBatch pr first f d)).s c.p.handle).bind (·.run)).map (·.manifest) =
        ((planOf c.s c.p.handle).bind (·.run)).map (fun _ => (scanKept pr (writeBatch pr first f d)).o.batch) := by
  obtain ⟨x, hx⟩ : ∃ x, writeBatch pr first f d = x := ⟨_, rfl⟩
  have hframe := writeBatch_frame pr first f d
  rw [hx] at hframe ⊢
  have hseen := frame_batch (scanTapsSee_frame pr { x with s := onRun x.p.handle (fun r => { r with manifest := x.o.batch }) x.s })
  have hbatch : (scanKept pr x).o.batch = x.o.batch := hseen
  have hplan : x.p = c.p := (frame_p hframe).trans hp
  have hplans : planOf x.s c.p.handle = planOf c.s c.p.handle := by
    unfold planOf
    rw [frame_plans hframe, hs]
  refine ⟨hbatch.trans (frame_batch hframe), ?_⟩
  rw [hbatch, ← hplans, ← hplan]
  exact scanKept_manifest pr x

/-! ## SCAN -/

/-- The augmentation index, where there is one, is well formed. -/
theorem augIndex_ok {c : Ctx} (h : ∀ k, c.e.in1 = some k → (augIndex (bytesOf c k)).isSome = true) :
    ¬ (((c.e.in1.map (bytesOf c)).map (fun b => (augIndex b).isNone)).getD false) = true := by
  cases hk : c.e.in1 with
  | none => exact Bool.false_ne_true
  | some k => simpa [Option.isSome_iff_ne_none] using h k hk

/-- A run whose input has ended finds no record. -/
theorem scanOp_ended {c : Ctx} (haug : ∀ k, c.e.in1 = some k → (augIndex (bytesOf c k)).isSome = true)
    (h : c.r.inputEnded = true ∨ inputOver (scanInput (scanParams c.e.params) c) c.r.ordinal c.r.offset = true) :
    scanOp c = .noInput := by
  unfold scanOp
  exact (if_neg (augIndex_ok haug)).trans (if_pos h)

/-- A replay takes the batch of the first attempt. -/
theorem scanOp_replayed {c : Ctx} {m : Batch} (haug : ∀ k, c.e.in1 = some k → (augIndex (bytesOf c k)).isSome = true)
    (hmore : c.r.inputEnded = false) (hover : inputOver (scanInput (scanParams c.e.params) c) c.r.ordinal c.r.offset = false)
    (hstart : (scanParams c.e.params).inputFormat = 2 →
      parquetStart (scanParams c.e.params) ((c.e.in2.map (bytesOf c)).getD []) = none) (hm : c.r.manifest = some m) :
    scanOp c = .done (scanKept (scanParams c.e.params) (writeBatch (scanParams c.e.params) false
      (rebuildBatch (scanParams c.e.params) (c.e.in1.map (bytesOf c)) (dimOf (cDesc c (c.e.out0.getD 0)) 0)
        (scanInput (scanParams c.e.params) c) m) c)) := by
  have hgo : ¬ (c.r.inputEnded = true ∨ inputOver (scanInput (scanParams c.e.params) c) c.r.ordinal c.r.offset = true) := by
    simp [hmore, hover]
  have hnone : (if (scanParams c.e.params).inputFormat = 2 then
      parquetStart (scanParams c.e.params) ((c.e.in2.map (bytesOf c)).getD []) else none) = none := by
    split
    · exact hstart ‹_›
    · rfl
  unfold scanOp
  dsimp only
  rw [if_neg (augIndex_ok haug), if_neg hgo, hnone, hm]
  rfl

/-- A step's first attempt forms its batch from where discovery stands. -/
theorem scanOp_formed {c : Ctx} {g : Forming} {timed : Bool} {admits : Option Nat}
    (haug : ∀ k, c.e.in1 = some k → (augIndex (bytesOf c k)).isSome = true)
    (hmore : c.r.inputEnded = false) (hover : inputOver (scanInput (scanParams c.e.params) c) c.r.ordinal c.r.offset = false)
    (hstart : (scanParams c.e.params).inputFormat = 2 →
      parquetStart (scanParams c.e.params) ((c.e.in2.map (bytesOf c)).getD []) = none) (hm : c.r.manifest = none)
    (htimed : timed = (c.o.batch.map (fun y => decide (y.close = some .timeout))).getD false)
    (hadmits : admits = if timed then some ((Config.freeValue c.s.freeCount).toNat %
      ((scanParams c.e.params).batchRows + (scanParams c.e.params).maxRejects + 1)) else none)
    (hform : formBatch (scanParams c.e.params) (c.e.in1.map (bytesOf c)) (dimOf (cDesc c (c.e.out0.getD 0)) 0)
      (scanInput (scanParams c.e.params) c) ((scanParams c.e.params).batchRows + (scanParams c.e.params).maxRejects + 1) admits
      { batch := emptyBatch c.r.ordinal (startOffset (scanInput (scanParams c.e.params) c) c.r.ordinal c.r.offset), rows := [], nans := 0,
        passed := 0, seen := [] } = .ok g) :
    scanOp c = .done (scanKept (scanParams c.e.params) (writeBatch (scanParams c.e.params) true g
      (if timed then { c with s := takeFresh 1 c.s } else c))) := by
  have hgo : ¬ (c.r.inputEnded = true ∨ inputOver (scanInput (scanParams c.e.params) c) c.r.ordinal c.r.offset = true) := by
    simp [hmore, hover]
  have hnone : (if (scanParams c.e.params).inputFormat = 2 then
      parquetStart (scanParams c.e.params) ((c.e.in2.map (bytesOf c)).getD []) else none) = none := by
    split
    · exact hstart ‹_›
    · rfl
  unfold scanOp
  dsimp only
  rw [if_neg (augIndex_ok haug), if_neg hgo, hnone, hm]
  dsimp only
  rw [← htimed, ← hadmits, hform]
  rfl

/-! ## DECODE -/

/-- DECODE of frames that all pass the first pass and are all decoded. -/
theorem decodeOp_all {f : ReadFaults} {c x : Ctx} {t : DecodeTally} (hpre : ∀ k < par c 0 32, prepassFrame c f k = none)
    (hall : decodeFrames f c (List.range (par c 0 32)) 0 c { frames := 0, consumed := 0, codes := 0, clears := 0 } = (x, t, .all)) :
    decodeOp f c = .done (setExts (tallyExts t t.consumed ((List.range (par c 0 32)).map (fun k =>
      field (linearRead c (c.e.in0.getD 0) (frameEntry c k).1 32) 64 40)).sum 0 (extOf c 7) 0 ++ [(9, 0)] ++ failExts noFrame 0)
        (dropHeld x)) := by
  have hnone : (List.range (par c 0 32)).findSome? (fun k => (prepassFrame c f k).map (fun x => (k, x))) = none := by
    refine List.findSome?_eq_none_iff.mpr (fun k hk => ?_)
    rw [hpre k (List.mem_range.mp hk)]
    rfl
  unfold decodeOp
  dsimp only
  rw [hnone]
  dsimp only
  rw [hall]

/-! ## The obligation -/

/-- Rebuilding the rows of a batch leaves the batch. -/
theorem rebuildBatch_batch (pr : ScanParams) (aug : Option (List Byte)) (width : Nat) (x : ScanInput) (b : Batch) :
    (rebuildBatch pr aug width x b).batch = b := by
  unfold rebuildBatch
  generalize hstart : ({ batch := b, rows := [], nans := 0, passed := 0, seen := [] } : Forming) = start
  have hbatch : start.batch = b := by rw [← hstart]
  clear hstart
  generalize b.slots = l
  induction l generalizing start with
  | nil => exact hbatch
  | cons v l ih =>
    refine ih _ ?_
    dsimp only
    split
    · exact hbatch
    · split <;> exact hbatch

/-- Settles O49. -/
theorem ingestOperatorsComplete : Obligations.IngestOperatorsComplete := by
  unfold Obligations.IngestOperatorsComplete
  refine ⟨?formed, ?replayed, ?ended, ?decode, ?timeout⟩
  case formed =>
    intro h op f w s c0 c b pr x timed admits g hi hb hbs hpr hx haug hmore hover hstart hm htimed hadmits hform
    obtain ⟨he, hp, -⟩ := startWrites_place hbs
    have hr : b.r = c.r := hbs ▸ frame_r (startWrites_frame c)
    have hbatch : b.o.batch = c.o.batch := hbs ▸ frame_batch (startWrites_frame c)
    have hs : b.s = c.s := hbs ▸ startWrites_state c
    subst hpr hx
    rw [← he] at haug hover hstart hadmits hform
    rw [← hr] at hmore hover hm hform
    rw [← hbatch] at htimed
    rw [← hs] at hadmits
    rw [← cDesc_of_plan hp] at hform
    have hdone := scanOp_formed haug hmore hover hstart hm htimed hadmits hform
    have hstate : (if timed then { b with s := takeFresh 1 b.s } else b).s.plans = c.s.plans ∧
        (if timed then { b with s := takeFresh 1 b.s } else b).p = c.p := by
      split <;> exact ⟨show b.s.plans = c.s.plans by rw [hs], hp⟩
    obtain ⟨hkept, hmanifest⟩ := scanKept_written (scanParams b.e.params) true g hstate.2 hstate.1
    refine completes_of_done hi hb ?_ ⟨Option.isSome_iff_exists.mpr ⟨_, hkept⟩, hmanifest⟩
    obtain rfl := Option.some.inj hi
    rw [← hbs]
    exact hdone
  case replayed =>
    intro h op f w s c0 c b pr x m hi hb hbs hpr hx haug hmore hover hstart hm
    obtain ⟨he, hp, -⟩ := startWrites_place hbs
    have hr : b.r = c.r := hbs ▸ frame_r (startWrites_frame c)
    have hs : b.s = c.s := hbs ▸ startWrites_state c
    subst hpr hx
    rw [← he] at haug hover hstart
    rw [← hr] at hmore hover hm
    have hdone := scanOp_replayed haug hmore hover hstart hm
    obtain ⟨hkept, -⟩ := scanKept_written (scanParams b.e.params) false (rebuildBatch (scanParams b.e.params) (b.e.in1.map (bytesOf b))
      (dimOf (cDesc b (b.e.out0.getD 0)) 0) (scanInput (scanParams b.e.params) b) m) hp (congrArg State.plans hs)
    rw [if_neg Bool.false_ne_true, rebuildBatch_batch] at hkept
    refine completes_of_done hi hb ?_ ⟨_, hkept, rfl, rfl, rfl, List.prefix_append ..⟩
    obtain rfl := Option.some.inj hi
    rw [← hbs]
    exact hdone
  case ended =>
    intro h op f w s c0 c b pr hi hb hbs hpr haug hended
    obtain ⟨he, -, -⟩ := startWrites_place hbs
    have hr : b.r = c.r := hbs ▸ frame_r (startWrites_frame c)
    subst hpr
    rw [← he] at haug hended
    rw [← hr] at hended
    have hbody : w.body (startWrites c) = .noInput := by
      obtain rfl := Option.some.inj hi
      rw [← hbs]
      exact scanOp_ended haug hended
    rw [exec_begins hi hb, hbody]
    obtain rfl := Option.some.inj hi
    rfl
  case decode =>
    intro h op f w s c0 c b x t n lens hi hb hbs hn hpre hlens hall
    obtain ⟨he, -, -⟩ := startWrites_place hbs
    have hpar : par c 0 32 = par b 0 32 := by rw [par, par, he]
    subst hn hlens
    rw [hpar] at hpre hall ⊢
    rw [← he]
    refine completes_of_done hi hb ?_ rfl
    obtain rfl := Option.some.inj hi
    rw [← hbs]
    exact decodeOp_all hpre hall
  case timeout =>
    intro h s p r o e k hp hr ho hrun hscan hdone hm htime
    refine congrArg Host.Outcome.next ?_
    unfold timeoutBatch
    rw [hp]
    dsimp only
    rw [hr, Option.bind_some, ho, hscan]
    refine if_neg ?_
    rintro (h | h | h | h)
    · simp [hrun] at h
    · exact Bool.false_ne_true (hdone.symm.trans h)
    · simp [hm] at h
    · exact htime h

end Sys2Proof.Machine
end
